-- ==== Sys2Proof/Word.lean ====
section
/-! DEFINITION. The word types of the block: registers are 32 bits (R648), memories are bytes, little-endian (R3). -/

namespace Sys2Proof

/-- A register of the block (R648). -/
abbrev Word := BitVec 32

/-- The smallest unit of every memory of the block. -/
abbrev Byte := BitVec 8

/-- A run of bytes, byte 0 first. -/
abbrev Bytes := List Byte

end Sys2Proof
end

