-- ==== Sys2Proof/Syntax.lean ====
section
/-! DEFINITION. The commands of the block: one constructor per row of spec/opcode_table.json, with the operands that
come from outside (an address, a value, a flit, the data a read returned). -/

namespace Sys2Proof

/-- Who makes a register access (R503, R524, R662): a function of the host port, the management port, Cloche firmware. -/
inductive Req where
  | fn (f : Nat)
  | mgmt
  | cloche
  deriving DecidableEq, Repr

/-- How a read that the device issued ended (R521, R706, R708; `ue`: uncorrectable data, R23). -/
inductive RdErr where
  | ok | ur | ca | poison | timeout | ue
  deriving DecidableEq, Repr

/-- How OPD of a short form is read (R169). -/
inductive SKind where
  | zero | i8 | d8 | s8 | b8 | r | pc | m8 | e8
  deriving DecidableEq, Repr

/-- The form of a Tiller instruction: short (R169: guard, operand kind, OPD) or long (R170: S, PG, M, V). -/
inductive TForm where
  | short (g : BitVec 2) (k : SKind) (opd : BitVec 8)
  | long (s : Bool) (pg : BitVec 3) (m : BitVec 2) (v : BitVec 16)
  deriving DecidableEq, Repr

/-- The protected memories (R20, R680): where a codeword error can lie. Indexes count 64-byte words. -/
inductive MemRegion where
  | context | furrow | queueState | tiller | barrow | seedbank | buffer
  deriving DecidableEq, Repr

/-- Payload of a DATA flit (R367). -/
structure DataF where
  oph : BitVec 16
  first : Bool
  last : Bool
  fend : Bool
  offset : BitVec 32
  data : Bytes
  deriving DecidableEq, Repr

/-- Payload of a STATUS flit (R367). -/
structure StatusF where
  oph : BitVec 16
  endd : Bool
  more : Bool
  trunc : Bool
  dack : Bool
  ans : Bool
  result : BitVec 8
  accepted : BitVec 32
  slots : BitVec 4
  pdomOn : BitVec 8
  txid : BitVec 10
  tserial : BitVec 32
  deriving DecidableEq, Repr

/-- Payload of an ATTN flit (R368, table of ATTN and PACE). -/
structure AttnF where
  source : BitVec 4
  level : Bool
  lvl : Bool
  info : Bytes
  deriving DecidableEq, Repr

/-- Payload of a PACE flit. -/
structure PaceF where
  tgt : Bool
  number : BitVec 14
  grant : BitVec 8
  deriving DecidableEq, Repr

/-- Payload of a CREDIT flit (R325). -/
structure CreditF where
  cmd : BitVec 16
  data : BitVec 16
  decide : BitVec 16
  attn : BitVec 16
  epoch : BitVec 4
  rebase : Bool
  quiesce : Bool
  deriving DecidableEq, Repr

/-- Payload of an ENUM reply: OP echoed, path adopted, capability record (R358, R361). -/
structure EnumF where
  op : BitVec 2
  pos : BitVec 6
  prefixPath : BitVec 18
  level : BitVec 2
  cap : Bytes
  deriving DecidableEq, Repr

/-- Payload of a TOKEN (R389). -/
structure TokenF where
  master : Bool
  tepoch : BitVec 32
  tseq : BitVec 32
  time : BitVec 64
  deriving DecidableEq, Repr

/-- Payload of a BEAT (R628). -/
structure BeatF where
  pairId : Bool
  role : BitVec 3
  insync : Bool
  tepoch : BitVec 32
  bseq : BitVec 32
  jseq : BitVec 64
  imageSha : Bytes
  deriving DecidableEq, Repr

/-- Payload of a MIRROR flit (R628): blocks with their Seedbank offsets. -/
structure MirrorF where
  mseq : BitVec 32
  copy : Bool
  blocks : List (Nat × Bytes)
  deriving DecidableEq, Repr

/-- A flit that ring-in takes: the bytes corrected in it, per lane, and what it carries (R316). -/
structure Heard (α : Type) where
  corr : List Nat
  body : α
  deriving DecidableEq, Repr

/-- What comes back to a training port: whether TSE has returned, and the HOPS read from TS2 (R330). -/
structure RingBack where
  tse : Bool
  hops : BitVec 7
  deriving DecidableEq, Repr

/-- Why a ring-in flit is not delivered (R316); or that it is an IDLE, which the port consumes, and for which the table has no row of its
own (log 83). -/
inductive BadFlit where
  | uncorrectable | header | unclaimed | idle
  deriving DecidableEq, Repr

/-- What T_ANS runs for (R378, R405): an exchange by its handle, or a member of a transaction. -/
inductive Awaited where
  | op (oph : Nat)
  | member (tx node : Nat)
  deriving DecidableEq, Repr

/-- The fields of PCIe configuration space that the manual makes the device act on (R492, R496, R511, R513, R518, R521, R522, R706),
and after them those it gives a value for and nothing writes (R495, R498). -/
inductive CfgField where
  | busMaster | memSpace | d3hot | msixEnable | functionMask | relaxedOrdering | cplTimeout | cplTimeoutDisable
  | ecrcGen | ptmEnable | vfEnable | ecrcCheck | aerStatus
  | vendorId | deviceId | vfDeviceId | revisionId | classCode | serialNumber | msixTableSize | msixTableOffset | msixPbaOffset
  deriving DecidableEq, Repr

/-- The form of a posted memory request (R499, R521): one aligned DW with every byte enable set; any other form; a poisoned
request; a request whose ECRC is wrong and which is otherwise one aligned DW. -/
inductive ReqForm where
  | dword | other | poisoned | badEcrc
  deriving DecidableEq, Repr

/-- The commands of the block, one per row of the opcode table. -/
inductive Instr where
  /-- DEVICE_START (R580). Once main power-good has held for 1 ms, or REFCLK has returned, or PORST_N rises, the device runs the start timeline: self-test, Seed image choice and load, Seedbank resolution, subchannel settling, autostart, port training and host readiness. -/
  | deviceStart (pairId : Bool) (smbA : BitVec 3) (selfTest : List Nat) (repaired : BitVec 8) (ms : BitVec 16)
  /-- PORST_ASSERT (R694). A PORST_N low pulse of 2 µs or longer holds the device as at step 2 of a flush until PORST_N rises. -/
  | porstAssert (ns : Nat)
  /-- REFCLK_LOSS (R14). REFCLK shows no edge for 32 oscillator cycles; the Cloche island switches SLOW_CLK, drops BYP_HOLD, signals Fault and holds the main logic in reset. -/
  | refclkLoss
  /-- PWRWARN_FALL (R532). PWRWARN_N goes low and starts its PWFILT filter interval. -/
  | pwrwarnFall
  /-- PWRWARN_FILTER_EXPIRY (R696). PWRWARN_N has stayed low for PWFILT with WARN_EN = 1, so a power-loss flush is triggered. -/
  | pwrwarnFilterExpiry
  /-- MAIN_RAIL_FAIL (R535). A main rail falls below its Fail level; any flush in progress, or the one this fall triggers, is abandoned. -/
  | mainRailFail (rail : Nat)
  /-- VDD_SB_FAIL (R528). VDD_SB falls below its Fail level, and the Cloche island and companion die switch to the VBAK backup regulator. -/
  | vddSbFail
  /-- BACKUP_REGULATOR_OFF (R529). 300 µs after the switch-over, the backup regulator is turned off. -/
  | backupRegulatorOff
  /-- VBAK_LOW (R531). VBAK falls below its Fail level while main power is good, and VBAK_LOW is reported to the Pruner. -/
  | vbakLow (mv : BitVec 12)
  /-- PATROL_SCRUB (R25). The patrol scrubber reads the next codeword when its period is due, and writes back any correction. -/
  | patrolScrub (r : MemRegion) (idx : Nat) (intervened : Bool)
  /-- DOORBELL (R42). A 32-bit write to a doorbell page sets a new SQ or DQ tail, or a new CQ head; in poll mode it ends the current wait and issues a read at once. -/
  | doorbell (fn q off len : Nat) (v : Word)
  /-- POLL_READ (R48). The poll interval of a poll-mode queue expires, and the head entry is read again. -/
  | pollRead (q : Nat)
  /-- ENTRY_READ_DONE (R52). A 64-byte SQ or DQ entry read completes; it is taken when its OWN matches the phase, or held as prefetch. -/
  | entryReadDone (q : Nat) (e : Bytes)
  /-- ENTRY_READ_ERROR (R708). An entry read completes with an error or times out; nothing is taken, later prefetch is discarded and READ_ERR is set. -/
  | entryReadError (q : Nat) (err : RdErr)
  /-- ENTRY_REREAD_TIMER (R708). 1 ms after a failed entry read in doorbell mode, the entry is read again. -/
  | entryRereadTimer (q : Nat)
  /-- DB_LAG_REREAD (R46). 250 ns after an entry below the doorbell showed the wrong OWN, the entry is read again. -/
  | dbLagReread (q : Nat)
  /-- SQ_START (R76). Trellis takes a START request and acts on it according to the subchannel state: placement, journaling, or a reply. -/
  | sqStart (q : Nat)
  /-- SQ_HALT (R76). Trellis takes a HALT request and acts on it according to the subchannel state. -/
  | sqHalt (q : Nat)
  /-- SQ_CLEAR (R76). Trellis takes a CLEAR request and acts on it according to the subchannel state, including leaving FENCED. -/
  | sqClear (q : Nat)
  /-- SQ_RESUME (R76). Trellis takes a RESUME request, which sets PRES or moves a SUSPENDED subchannel to ACTIVE. -/
  | sqResume (q : Nat)
  /-- SQ_RELEASE (R76). Trellis takes a RELEASE request, which frees the subchannel-held slots at a node. -/
  | sqRelease (q : Nat)
  /-- SQ_MODIFY (R76). Trellis takes a MODIFY request and applies the selected context fields. -/
  | sqModify (q : Nat)
  /-- SQ_RESERVED_OPCODE (R57). Trellis takes an entry with a reserved opcode and rejects it with BAD_REQUEST. -/
  | sqReservedOpcode (q : Nat)
  /-- QUEUE_ENABLE (R67). A TQ_CFG write with EN = 1 enables the queue, or refuses the enable and sets ENABLE_ERR. -/
  | queueEnable (who : Req) (q : Nat) (v : Word)
  /-- QUEUE_DISABLE (R67). A TQ_CFG write with EN = 0 disables the queue, or, for a CQ that is still in use, refuses the disable. -/
  | queueDisable (who : Req) (q : Nat) (v : Word)
  /-- QUEUE_DISABLE_DONE (R67). Every request taken from a disabled SQ or DQ has been accepted by its subchannel, and EN reads 0. -/
  | queueDisableDone (q : Nat)
  /-- HELD_STATUS_POST (R61). A CQ slot comes free, and the oldest held status posts, at most one per 4 ENG_CLK. -/
  | heldStatusPost (q : Nat)
  /-- CONTEXT_WRITE_BACK_DONE (R71). The write-back of a dirty context is confirmed, and a change waiting for the dirty bound proceeds. -/
  | contextWriteBackDone (sc : Nat)
  /-- CONTEXT_LOAD_DONE (R72). A context that missed the cache has been loaded from the Seedbank, and its request proceeds. -/
  | contextLoadDone (sc : Nat)
  /-- THREAD_BIND (R141). A thread comes free and a START_PENDING or resumed subchannel is bound to it; the thread starts at the START vector or resumes. -/
  | threadBind (sc : Nat)
  /-- MIGRATION_EPOCH_END (R85). A placement epoch ends, each group's LOAD is computed and the MOVED_OUT counts restart. -/
  | migrationEpochEnd (busy : List Nat)
  /-- TE_DRAIN (R209). A write of DRAIN in TE_GRP_CTL stops, or allows again, the binding of subchannels and attentions to a group. -/
  | teDrain (who : Req) (g : Nat) (v : Word)
  /-- WORD_FETCH_DONE (R104). A command word read into the CW buffer completes, and the word becomes current. -/
  | wordFetchDone (sc : Nat) (w : Bytes) (err : RdErr)
  /-- CW_WRITE (R90). The WRITE command word sends COUNT bytes from DATA_ADDR to the node. -/
  | cwWrite (sc : Nat)
  /-- CW_READ (R90). The READ command word receives COUNT bytes from the node into DATA_ADDR. -/
  | cwRead (sc : Nat)
  /-- CW_CONTROL (R90). The CONTROL command word sends control data to a control function of the node, including POWER requests. -/
  | cwControl (sc : Nat)
  /-- CW_SENSE (R90). The SENSE command word receives up to COUNT bytes of the node's sense record. -/
  | cwSense (sc : Nat)
  /-- CW_NOP (R91). The NOP command word does nothing and ends with CE and DE set. -/
  | cwNop (sc : Nat)
  /-- CW_BRANCH (R103). The BRANCH command word continues the chain at DATA_ADDR, transparently. -/
  | cwBranch (sc : Nat)
  /-- CW_RESERVE (R424). The RESERVE command word acquires node resource slots in ascending order, waiting at any slot that another holder has. -/
  | cwReserve (sc : Nat)
  /-- CW_RELEASE (R427). The RELEASE command word releases the subchannel-held slots at the node. -/
  | cwRelease (sc : Nat)
  /-- CW_WAIT_PACE (R109). The WAIT_PACE command word begins a timer wait, or a wait for a PACE flit. -/
  | cwWaitPace (sc : Nat)
  /-- CW_MARK (R90). The MARK command word writes the time and the word's own address to DATA_ADDR. -/
  | cwMark (sc : Nat)
  /-- CW_END_GROUP (R403). The END_GROUP command word closes the open staged group, and Graft issues the DECIDE record. -/
  | cwEndGroup (sc : Nat)
  /-- CW_NODE_SPECIFIC (R90). A node-specific code 0x40 to 0x7F is passed to the node, with data moved as for WRITE or READ. -/
  | cwNodeSpecific (sc : Nat)
  /-- SUSPEND_REREAD_DONE (R115). The fresh re-read of the word at a suspend point completes, and CD, CC and SUS are taken from it. -/
  | suspendRereadDone (sc : Nat) (flags : Byte) (err : RdErr)
  /-- HALT_TIMEOUT (R120). The node has not confirmed a halt within 1 ms, and the status is fixed with UC and HALT_TIMEOUT. -/
  | haltTimeout (sc : Nat)
  /-- PACE_TIMEOUT (R110). A WAIT_PACE waiting for a PACE flit reaches its timeout, and the chain ends with UC and PACE_TIMEOUT. -/
  | paceTimeout (sc : Nat)
  /-- PACE_TIMER_EXPIRY (R109). The PTM time reaches the due time of a timer WAIT_PACE, and PACE_BASE advances. -/
  | paceTimerExpiry (sc : Nat)
  /-- NOP (R174). The Tiller NOP instruction does nothing. -/
  | nop (t : Nat) (f : TForm)
  /-- MOV (R147). The MOV instruction copies one register to another, with the special cases of R147. -/
  | mov (t : Nat) (f : TForm)
  /-- LDA (R175). The LDA instruction loads A from an immediate or a word. -/
  | lda (t : Nat) (f : TForm)
  /-- LDAH (R175). The LDAH instruction loads the high halfword of A. -/
  | ldah (t : Nat) (f : TForm)
  /-- LDB (R175). The LDB instruction loads a byte into A, zero-extended. -/
  | ldb (t : Nat) (f : TForm)
  /-- LDH (R175). The LDH instruction loads a halfword into A, zero-extended. -/
  | ldh (t : Nat) (f : TForm)
  /-- STA (R175). The STA instruction stores A to a word. -/
  | sta (t : Nat) (f : TForm)
  /-- STB (R175). The STB instruction stores the low byte of A. -/
  | stb (t : Nat) (f : TForm)
  /-- STH (R175). The STH instruction stores the low halfword of A. -/
  | sth (t : Nat) (f : TForm)
  /-- LDX (R175). The LDX instruction loads X from a halfword. -/
  | ldx (t : Nat) (f : TForm)
  /-- LDY (R175). The LDY instruction loads Y from a halfword. -/
  | ldy (t : Nat) (f : TForm)
  /-- STX (R175). The STX instruction stores X to a halfword. -/
  | stx (t : Nat) (f : TForm)
  /-- STY (R175). The STY instruction stores Y to a halfword. -/
  | sty (t : Nat) (f : TForm)
  /-- XCHG (R194). The XCHG instruction exchanges A with a word, atomically within the Tiller. -/
  | xchg (t : Nat) (f : TForm)
  /-- ADD (R219). The ADD instruction adds the operand to A and sets N, Z, C and V. -/
  | add (t : Nat) (f : TForm)
  /-- ADC (R220). The ADC instruction adds the operand and the carry to A. -/
  | adc (t : Nat) (f : TForm)
  /-- SUB (R219). The SUB instruction subtracts the operand from A. -/
  | sub (t : Nat) (f : TForm)
  /-- SBC (R220). The SBC instruction subtracts the operand and the borrow from A. -/
  | sbc (t : Nat) (f : TForm)
  /-- CMP (R219). The CMP instruction sets the flags of A minus the operand. -/
  | cmp (t : Nat) (f : TForm)
  /-- AND (R175). The AND instruction ANDs the operand into A. -/
  | and (t : Nat) (f : TForm)
  /-- OR (R175). The OR instruction ORs the operand into A. -/
  | or (t : Nat) (f : TForm)
  /-- XOR (R175). The XOR instruction XORs the operand into A. -/
  | xor (t : Nat) (f : TForm)
  /-- BIT (R175). The BIT instruction sets the flags of A AND the operand. -/
  | bit (t : Nat) (f : TForm)
  /-- CPX (R219). The CPX instruction compares X with a halfword, 16-bit. -/
  | cpx (t : Nat) (f : TForm)
  /-- CPY (R219). The CPY instruction compares Y with a halfword, 16-bit. -/
  | cpy (t : Nat) (f : TForm)
  /-- SHL (R223). The SHL instruction shifts A left logically by the whole operand. -/
  | shl (t : Nat) (f : TForm)
  /-- SHR (R223). The SHR instruction shifts A right logically. -/
  | shr (t : Nat) (f : TForm)
  /-- SAR (R223). The SAR instruction shifts A right arithmetically. -/
  | sar (t : Nat) (f : TForm)
  /-- ROL (R223). The ROL instruction rotates A left by the operand mod 32. -/
  | rol (t : Nat) (f : TForm)
  /-- ROR (R223). The ROR instruction rotates A right by the operand mod 32. -/
  | ror (t : Nat) (f : TForm)
  /-- ADX (R174). The ADX instruction adds a signed immediate to X, mod 2^16. -/
  | adx (t : Nat) (f : TForm)
  /-- ADY (R174). The ADY instruction adds a signed immediate to Y, mod 2^16. -/
  | ady (t : Nat) (f : TForm)
  /-- PSET (R173). The PSET instruction sets a predicate from a condition code, or ANDs the condition into it. -/
  | pset (t : Nat) (f : TForm)
  /-- PLOG_AND (R175). The PLOG instruction with op 0 sets Pd to Pa AND Pb. -/
  | plogAnd (t : Nat) (f : TForm)
  /-- PLOG_OR (R175). The PLOG instruction with op 1 sets Pd to Pa OR Pb. -/
  | plogOr (t : Nat) (f : TForm)
  /-- PLOG_XOR (R175). The PLOG instruction with op 2 sets Pd to Pa XOR Pb. -/
  | plogXor (t : Nat) (f : TForm)
  /-- PLOG_AND_NOT (R175). The PLOG instruction with op 3 sets Pd to Pa AND NOT Pb. -/
  | plogAndNot (t : Nat) (f : TForm)
  /-- BRA (R174). The BRA instruction branches by a signed displacement. -/
  | bra (t : Nat) (f : TForm)
  /-- DBNZ (R178). The DBNZ instruction decrements X and branches while X is not zero. -/
  | dbnz (t : Nat) (f : TForm)
  /-- JMP (R175). The JMP instruction sets PC to V or to a halfword operand. -/
  | jmp (t : Nat) (f : TForm)
  /-- CALL (R179). The CALL instruction pushes the registers of its mask and the return word, then jumps. -/
  | call (t : Nat) (f : TForm)
  /-- CALLA (R179). The CALLA instruction calls the address held in A. -/
  | calla (t : Nat) (f : TForm)
  /-- RET (R180). The RET instruction pops the return word and the saved slots, restoring the registers of its mask. -/
  | ret (t : Nat) (f : TForm)
  /-- WAIT (R188). The WAIT instruction waits until an event in its mask is pending. -/
  | wait (t : Nat) (f : TForm)
  /-- WAIT_WAKE (R188). An event in a waiting thread's mask becomes pending; the WAIT completes with A set and the latched events cleared. -/
  | waitWake (t : Nat)
  /-- LDBK (R174). The LDBK instruction loads BK from an immediate. -/
  | ldbk (t : Nat) (f : TForm)
  /-- UNA_NEG (R224). The UNA instruction with code 0 negates A. -/
  | unaNeg (t : Nat) (f : TForm)
  /-- UNA_NOT (R174). The UNA instruction with code 1 inverts A. -/
  | unaNot (t : Nat) (f : TForm)
  /-- UNA_INC (R224). The UNA instruction with code 2 increments A. -/
  | unaInc (t : Nat) (f : TForm)
  /-- UNA_DEC (R224). The UNA instruction with code 3 decrements A. -/
  | unaDec (t : Nat) (f : TForm)
  /-- UNA_SXB (R174). The UNA instruction with code 4 sign-extends the low byte of A. -/
  | unaSxb (t : Nat) (f : TForm)
  /-- UNA_SXH (R174). The UNA instruction with code 5 sign-extends the low halfword of A. -/
  | unaSxh (t : Nat) (f : TForm)
  /-- UNA_ZXB (R174). The UNA instruction with code 6 zero-extends the low byte of A. -/
  | unaZxb (t : Nat) (f : TForm)
  /-- UNA_ZXH (R174). The UNA instruction with code 7 zero-extends the low halfword of A. -/
  | unaZxh (t : Nat) (f : TForm)
  /-- FENCE (R174). The FENCE instruction waits until every posted store and dirty-context write of the thread is complete. -/
  | fence (t : Nat) (f : TForm)
  /-- TRAP (R182). The TRAP instruction takes a SOFT trap with an immediate number. -/
  | trap (t : Nat) (f : TForm)
  /-- RTE (R185). The RTE instruction restores FL and PR from the trap frame, clears TIP and returns. -/
  | rte (t : Nat) (f : TForm)
  /-- XCALL (R212). The XCALL instruction saves the shadow registers and enters the transform routine in routine mode. -/
  | xcall (t : Nat) (f : TForm)
  /-- XRET (R215). The XRET instruction writes the outbound header, restores the shadow and leaves routine mode. -/
  | xret (t : Nat) (f : TForm)
  /-- WATCHDOG (R216). A transform routine exhausts its cycle budget and traps to XTRAP with cause WATCHDOG. -/
  | watchdog (t : Nat)
  /-- MUL (R225). The MUL instruction starts an unsigned 64-bit multiplication into MH:ML. -/
  | mul (t : Nat) (f : TForm)
  /-- MULS (R225). The MULS instruction starts a signed 64-bit multiplication into MH:ML. -/
  | muls (t : Nat) (f : TForm)
  /-- PRODUCT_READY (R227). L cycles after the operand is available, the product appears in MH:ML and MRDY becomes 1. -/
  | productReady (t : Nat)
  /-- DSETUP (R231). The DSETUP instruction starts an unsigned step division. -/
  | dsetup (t : Nat) (f : TForm)
  /-- DSETUPS (R231). The DSETUPS instruction starts a signed step division. -/
  | dsetups (t : Nat) (f : TForm)
  /-- DSTEP (R232). The DSTEP instruction performs one division step, and the 32nd step finishes the division. -/
  | dstep (t : Nat) (f : TForm)
  /-- NEXT (R449). The NEXT instruction advances the Furrow read position past one packet. -/
  | next (t : Nat) (f : TForm)
  /-- FMARK (R449). The FMARK instruction sets the Furrow mark at the read position. -/
  | fmark (t : Nat) (f : TForm)
  /-- FREWIND (R449). The FREWIND instruction returns the read position to the mark. -/
  | frewind (t : Nat) (f : TForm)
  /-- REL (R449). The REL instruction releases the packets before the read position. -/
  | rel (t : Nat) (f : TForm)
  /-- FLD (R249). The FLD instruction loads FA from memory. -/
  | fld (t : Nat) (f : TForm)
  /-- FST (R249). The FST instruction stores FA to memory. -/
  | fst (t : Nat) (f : TForm)
  /-- FADD (R238). The FADD instruction adds the operand to FA, rounded once. -/
  | fadd (t : Nat) (f : TForm)
  /-- FSUB (R238). The FSUB instruction subtracts the operand from FA. -/
  | fsub (t : Nat) (f : TForm)
  /-- FMUL (R238). The FMUL instruction multiplies FA by the operand. -/
  | fmul (t : Nat) (f : TForm)
  /-- FDIV (R238). The FDIV instruction divides FA by the operand. -/
  | fdiv (t : Nat) (f : TForm)
  /-- FMA (R239). The FMA instruction computes op times op' plus FA, rounded once. -/
  | fma (t : Nat) (f : TForm)
  /-- FMAA (R239). The FMAA instruction computes A times op plus FA, rounded once. -/
  | fmaa (t : Nat) (f : TForm)
  /-- FCMP (R250). The FCMP instruction compares FA with the operand and sets the flags. -/
  | fcmp (t : Nat) (f : TForm)
  /-- FSQRT (R238). The FSQRT instruction takes the square root of FA. -/
  | fsqrt (t : Nat) (f : TForm)
  /-- FCVTI (R251). The FCVTI instruction converts FA to a signed integer in A. -/
  | fcvti (t : Nat) (f : TForm)
  /-- FCVTF (R252). The FCVTF instruction converts signed A to FA. -/
  | fcvtf (t : Nat) (f : TForm)
  /-- FNEG (R249). The FNEG instruction inverts the sign bit of FA. -/
  | fneg (t : Nat) (f : TForm)
  /-- FABS (R249). The FABS instruction clears the sign bit of FA. -/
  | fabs (t : Nat) (f : TForm)
  /-- DISP_COPY (R297). A DISP with OP COPY dispatches a copy to a Barrow. -/
  | dispCopy (t : Nat) (f : TForm)
  /-- DISP_FILL (R297). A DISP with OP FILL dispatches a pattern fill to a Barrow. -/
  | dispFill (t : Nat) (f : TForm)
  /-- DISP_GATHER (R297). A DISP with OP GATHER dispatches a gather from a list. -/
  | dispGather (t : Nat) (f : TForm)
  /-- DISP_SCATTER (R297). A DISP with OP SCATTER dispatches a scatter into a list. -/
  | dispScatter (t : Nat) (f : TForm)
  /-- DISP_DISCARD (R300). A DISP with OP DISCARD consumes LENGTH bytes from its source and writes nothing. -/
  | dispDiscard (t : Nat) (f : TForm)
  /-- SEND (R175). The SEND instruction commits the outbound packet as flits according to the send record. -/
  | send (t : Nat) (f : TForm)
  /-- TMR (R175). The TMR instruction sets or cancels the thread timer. -/
  | tmr (t : Nat) (f : TForm)
  /-- THREAD_TIMER_EXPIRY (R187). The thread timer reaches zero and latches the TIMER event. -/
  | threadTimerExpiry (t : Nat)
  /-- EOS (R483). The EOS instruction ends attention service when its tag matches, and frees the thread; with DEFER set, the source is deferred. -/
  | eos (t : Nat) (f : TForm)
  /-- PARK_END (R189). The PARK instruction with V = 0 fixes the chain's status and frees the thread. -/
  | parkEnd (t : Nat) (f : TForm)
  /-- PARK_SUSPEND (R189). The PARK instruction with V = 1 saves the registers, suspends the subchannel and frees the thread. -/
  | parkSuspend (t : Nat) (f : TForm)
  /-- RCPE (R237). The RCPE instruction, in Cloche mode, sets FA to a reciprocal estimate. -/
  | rcpe (t : Nat) (f : TForm)
  /-- LEAVE (R198). The LEAVE instruction ends Cloche mode for the Tiller once its other threads are free. -/
  | leave (t : Nat) (f : TForm)
  /-- RBRD (R175). The RBRD instruction, in Cloche mode, reads a register at a BAR0 offset. -/
  | rbrd (t : Nat) (f : TForm)
  /-- RBWR (R175). The RBWR instruction, in Cloche mode, writes a register at a BAR0 offset. -/
  | rbwr (t : Nat) (f : TForm)
  /-- SBRD (R175). The SBRD instruction, in Cloche mode, reads a Seedbank block. -/
  | sbrd (t : Nat) (f : TForm)
  /-- SBWR (R175). The SBWR instruction, in Cloche mode, writes a Seedbank block. -/
  | sbwr (t : Nat) (f : TForm)
  /-- DECODE_TABLE_INSN (R202). A decode-table instruction runs its step sequence while no other thread of the Tiller issues. -/
  | decodeTableInsn (t e : Nat) (f : TForm)
  /-- WINDOW_DATA_RETURN (R165). The data of a translated-window load returns, or the access traps WINDOW. -/
  | windowDataReturn (t : Nat) (data : Bytes) (ok : Bool)
  /-- DISPATCH_COMPLETE (R302). A Barrow dispatch completes; DONE and CODE are written to the record and DISP_DONE is raised. -/
  | dispatchComplete (x : Nat)
  /-- TRANSFER_BIND (R257). A slot comes free, and the highest-priority, longest-waiting unbound transfer is bound to a staging slot. -/
  | transferBind (half : Bool)
  /-- READ_DATA_RETURN (R262). Read data of a transfer returns into its staging slot, from a host completion, buffer memory or a node. -/
  | readDataReturn (x : Nat) (second : Bool) (data : Bytes) (err : RdErr)
  /-- DMA_COPY (R277). A channel takes a COPY descriptor, which moves LENGTH bytes. -/
  | dmaCopy (c : Nat)
  /-- DMA_FILL (R277). A channel takes a FILL descriptor, which writes the pattern. -/
  | dmaFill (c : Nat)
  /-- DMA_COMPARE (R278). A channel takes a COMPARE descriptor, which compares two ranges. -/
  | dmaCompare (c : Nat)
  /-- DMA_GATHER (R277). A channel takes a GATHER descriptor, which writes list segments contiguously. -/
  | dmaGather (c : Nat)
  /-- DMA_SCATTER (R277). A channel takes a SCATTER descriptor, which writes into list segments. -/
  | dmaScatter (c : Nat)
  /-- DESCRIPTOR_COMPLETE (R281). A descriptor reaches its completion moment, and writes its completion record and CQ entry. -/
  | descriptorComplete (c : Nat)
  /-- CH_ENABLE (R273). A BW_CH_CFG write with EN = 1 enables the DMA channel, or refuses the enable. -/
  | chEnable (who : Req) (c : Nat) (v : Word)
  /-- CH_DISABLE (R272). A BW_CH_CFG write with EN = 0 disables an IDLE or STOPPED channel, or is refused. -/
  | chDisable (who : Req) (c : Nat) (v : Word)
  /-- CH_PAUSE (R287). A PAUSE = 1 write to BW_CH_CTL pauses the channel. -/
  | chPause (who : Req) (c : Nat)
  /-- CH_UNPAUSE (R287). A PAUSE = 0 write to BW_CH_CTL resumes the channel at the exact byte. -/
  | chUnpause (who : Req) (c : Nat)
  /-- CH_HALT (R287). A HALT write to BW_CH_CTL stops the channel at the next descriptor boundary. -/
  | chHalt (who : Req) (c : Nat)
  /-- CH_ABORT (R287). An ABORT write to BW_CH_CTL stops the current descriptor at the next beat with ABORTED. -/
  | chAbort (who : Req) (c : Nat)
  /-- CH_START (R287). A START write to BW_CH_CTL moves a STOPPED channel to IDLE. -/
  | chStart (who : Req) (c : Nat)
  /-- DREQ_RISE (R291). A DREQ line rises: in edge mode it adds to PEND, and in level mode a burst may begin. -/
  | dreqRise (n : Nat)
  /-- DMA_PACE_TIMEOUT (R293). A descriptor has waited TMO µs for a pacing request and completes with PACE_TIMEOUT. -/
  | dmaPaceTimeout (c : Nat)
  /-- RX_DATA (R373). A DATA flit from a node arrives and its data is delivered to the operation. -/
  | rxData (p : Nat) (path : BitVec 18) (corr : List Nat) (d : DataF)
  /-- RX_STATUS (R372). A STATUS flit from a node arrives and ends an operation, or answers a reservation, a power request or a decision. -/
  | rxStatus (p : Nat) (path : BitVec 18) (corr : List Nat) (d : StatusF)
  /-- RX_ATTN (R473). An ATTN flit arrives, its sender is matched and the source event is applied. -/
  | rxAttn (p : Nat) (path : BitVec 18) (corr : List Nat) (d : AttnF)
  /-- RX_PACE (R296). A PACE flit arrives, and paces a DMA channel or a WAIT_PACE. -/
  | rxPace (p : Nat) (path : BitVec 18) (corr : List Nat) (d : PaceF)
  /-- RX_CREDIT (R324). A CREDIT flit arrives and updates the GRANT totals, or re-bases them. -/
  | rxCredit (p : Nat) (path : BitVec 18) (corr : List Nat) (d : CreditF)
  /-- RX_ENUM_REPLY (R362). An ENUM reply arrives and is matched against the node table. -/
  | rxEnumReply (p : Nat) (path : BitVec 18) (corr : List Nat) (d : EnumF)
  /-- RX_BAD_FLIT (R316). A flit on ring-in is uncorrectable, has a bad header or is unclaimed, and is discarded and counted. -/
  | rxBadFlit (p : Nat) (corr : List Nat) (k : BadFlit)
  /-- FLIT_TRANSMIT (R318). A flit becomes eligible once it holds its credit, and is sent in its slot in the order of R318. -/
  | flitTransmit (p : Nat)
  /-- CREDIT_TIMER (R326). 1 µs passes after an advance of a GRANT, and a CREDIT is sent. -/
  | creditTimer (p node : Nat)
  /-- KP_TRAIN (R335). A TRAIN write to KP_CTL trains a DOWN port, or retrains an ACTIVE port as a planned retrain. -/
  | kpTrain (who : Req) (p : Nat)
  /-- KP_DOWN (R340). A DOWN write to KP_CTL takes the port DOWN at once. -/
  | kpDown (who : Req) (p : Nat)
  /-- TRAINING_PHASE_END (R330). A training phase reaches its end condition and the next phase begins, or the port becomes ACTIVE. -/
  | trainingPhaseEnd (p : Nat) (locked : BitVec 4) (back : RingBack) (rtt : BitVec 16)
  /-- TRAINING_TIMEOUT (R332). A training phase exceeds its timeout; training is retried, the configuration lowered, or the port goes DOWN. -/
  | trainingTimeout (p : Nat) (lo hi : BitVec 2)
  /-- DEG_WINDOW_END (R333). A degradation window of WIN ms ends and the ring-in counts are evaluated. -/
  | degWindowEnd (p idles : Nat) (corr : List Nat) (bad : Nat)
  /-- QUIESCE_MARKER_RETURN (R336). The quiesce marker returns on ring-in and training at the new configuration begins. -/
  | quiesceMarkerReturn (m : Heard Nat)
  /-- QUIESCE_TIMEOUT (R337). The quiesce marker has not returned within 2 RTT + 10 µs; training begins anyway, as an unplanned retrain. -/
  | quiesceTimeout (p : Nat)
  /-- LANE_LOCK_LOSS (R339). An active ring-in lane loses lock and an unplanned retrain begins. -/
  | laneLockLoss (p lane : Nat)
  /-- TS0_RECEIVED (R339). TS0 arrives on ring-in while the port is ACTIVE and an unplanned retrain begins. -/
  | ts0Received (p : Nat)
  /-- RING_OUT_IDLE_TIMER (R342). 2 ms after BYP_HOLD falls, ring-out goes to electrical idle. -/
  | ringOutIdleTimer (p : Nat)
  /-- ENUM (R359). An ENUM write to KP_ENUM_CTL starts an enumeration of the port, or queues one. -/
  | enum (who : Req) (p : Nat)
  /-- ENUM_TIMEOUT (R364). A QUERY, SUBQUERY or SET has no reply within 2 RTT + 50 µs; it is resent, or TMO is set. -/
  | enumTimeout (p : Nat)
  /-- ANSWER_TIMEOUT (R379). T_ANS passes without the expected answer; the flit is resent, or the work ends with NODE_ABSENT. -/
  | answerTimeout (a : Awaited)
  /-- TOKEN_TIMER (R389). Every 10 µs the master sends a broadcast TOKEN on each ACTIVE port. -/
  | tokenTimer
  /-- JOURNAL_RECORD_DURABLE (R401). The Seedbank confirms a journal record (and in pair mode its MACK arrives), and the change that waits on it becomes visible. -/
  | journalRecordDurable
  /-- TXID_WAIT_TIMEOUT (R395). No TXID has freed within TXWAIT; the chain ends with SA and cause TXID_WAIT. -/
  | txidWaitTimeout (sc : Nat)
  /-- CRETRY_TIMER (R405). Every CRETRY ms, COMMIT or ABORT is sent again to an unconfirmed member. -/
  | cretryTimer (tx node : Nat)
  /-- WEEDER_WALK (R429). A walk from a newly recorded wait edge finds a cycle, finds no cycle, or is abandoned. -/
  | weederWalk (sc : Nat)
  /-- FLUSH (R450). A FLUSH write to FU_CTL requests a flush of a port Furrow. -/
  | flush (who : Req) (f : Nat)
  /-- FLUSH_EFFECT (R450). No packet open at the flush request remains open, and the flush takes effect. -/
  | flushEffect (f : Nat)
  /-- FLUSH_TIMEOUT (R451). A flush has not taken effect after 1 ms; open packets are rewound and FLUSH_FORCED is set. -/
  | flushTimeout (f : Nat)
  /-- STALE_TIMER (R455). A packet has waited TSTALE at the read position with no consumer action, and the stale source is raised. -/
  | staleTimer (f : Nat)
  /-- TUNING_EPOCH_END (R469). A tuning epoch ends and the arbiter priorities are adjusted from the backlogs. -/
  | tuningEpochEnd (o : Nat) (more : List Nat)
  /-- FB_PRIO_WRITE (R467). A write to FB_PRIO changes an arbiter priority with immediate effect. -/
  | fbPrioWrite (who : Req) (o r : Nat) (v : Word)
  /-- ATTN_CLAIM (R481). A pending unmasked source is claimed by an eligible Tiller thread, which starts at the ATTN vector. -/
  | attnClaim (used : BitVec 8)
  /-- HOLDOFF_EXPIRY (R484). HOLDOFF µs after a deferred EOS, the source becomes claimable again. -/
  | holdoffExpiry (src : Nat)
  /-- SWTRIG (R471). A write to RK_SWTRIG changes the conditions of internal sources 48 to 63. -/
  | swtrig (who : Req) (v : Word)
  /-- SOURCE_MASK_WRITE (R478). A write of an attention source mask masks or unmasks claims of the source. -/
  | sourceMaskWrite (who : Req) (src : Nat) (v : Word)
  /-- CQ_COALESCE_TIMER (R489). CTIME has passed since the first unsignalled entry, and the CQ vector is sent. -/
  | cqCoalesceTimer (q : Nat)
  /-- CQI_CFG_WRITE (R490). A write to RK_CQI_CFG sets U to 0 and restarts the coalescing timer. -/
  | cqiCfgWrite (who : Req) (q : Nat) (v : Word)
  /-- MSIX_TABLE_WRITE (R493). A write to an MSI-X table entry that unmasks a vector with its pending bit set sends one message. -/
  | msixTableWrite (fn vec word : Nat) (v : Word)
  /-- CONFIG_REQUEST (R512). A PCIe configuration request is answered, with retry status before readiness. -/
  | configRequest (fn : Nat) (k : CfgField) (write : Bool) (v : Byte)
  /-- REGISTER_WRITE (R652). A write to a register with no row of its own is applied according to its access type and guard. -/
  | registerWrite (who : Req) (off : Nat) (form : ReqForm) (v : Word)
  /-- PORT_RESET (R513). PERST#, a hot reset or DL_Down resets every function of the host port. -/
  | portReset
  /-- FUNCTION_LEVEL_RESET (R514). A Function Level Reset clears the function's channels, subchannels, queues and MSI-X state. -/
  | functionLevelReset (fn : Nat)
  /-- VF_ENABLE_CLEAR (R513). Clearing VF Enable resets every VF. -/
  | vfEnableClear
  /-- FUNCTION_RESET_DONE (R515). A function reset completes, and memory requests are served again. -/
  | functionResetDone (fn : Nat)
  /-- READY_TIMEOUT (R512). 900 ms after main power-good without reaching step 6, the host port becomes ready in limited service. -/
  | readyTimeout
  /-- VAULT_READ (R551). A BAR2 read returns committed or staged Vault contents. -/
  | vaultRead (fn off len : Nat)
  /-- VAULT_WRITE (R552). A BAR2 write stages a Vault block while an update is open, or is discarded. -/
  | vaultWrite (fn off : Nat) (data : Bytes)
  /-- TILLER_REGION_WRITE (R206). A BAR4 write takes effect while the group is drained, or is ignored and sets LOAD_REJECT. -/
  | tillerRegionWrite (who : Req) (off : Nat) (form : ReqForm) (v : Word)
  /-- PTM_DIALOGUE (R518). Every INTERVAL ms the device starts a PTM dialogue. -/
  | ptmDialogue
  /-- PTM_RESPONSE (R518). A PTM response arrives, and TIME is stepped or slewed by E. -/
  | ptmResponse (master : BitVec 64)
  /-- PTM_TIMEOUT (R519). A PTM dialogue has no response within 10 ms; RATE becomes 0 and PTM_FAIL is set. -/
  | ptmTimeout
  /-- COMPLETION_TIMEOUT (R706). A device read has no completion within the function's timeout, and its transfer ends with HOST_ERROR. -/
  | completionTimeout (r : Nat)
  /-- HP_PERM_WRITE (R508). A write to HP_PERM takes effect once its Seedbank copy is durable. -/
  | hpPermWrite (who : Req) (n k : Nat) (v : Word)
  /-- SMB_SET_ADDR (R523). The management port SET_ADDR command sets the BAR0 offset. -/
  | smbSetAddr (a : Word) (pecOk : Bool)
  /-- SMB_WRITE (R523). The management port WRITE command writes a register and advances the offset. -/
  | smbWrite (v : Word) (pecOk : Bool)
  /-- SMB_READ (R523). The management port READ command returns a register value and a status byte. -/
  | smbRead
  /-- SMB_TIMEOUT (R692). SMB_SCL has been held low for 25 to 35 ms; the device releases the bus and resets its target logic. -/
  | smbTimeout
  /-- CHECKPOINT (R546). Every CKINT ms, or when journal slots run low, a two-phase checkpoint runs. -/
  | checkpoint
  /-- VAULT_OPEN (R554). An OPEN write to SB_VCTL opens a Vault update. -/
  | vaultOpen (who : Req)
  /-- VAULT_COMMIT (R555). A COMMIT write to SB_VCTL commits the staged update through VCOMMIT, or is refused. -/
  | vaultCommit (who : Req) (check : Option Bool)
  /-- VAULT_ABORT (R554). An ABORT write to SB_VCTL discards the open update. -/
  | vaultAbort (who : Req)
  /-- VAULT_COPY_DONE (R555). The staged blocks have been copied home, VDONE is written and ST returns to IDLE. -/
  | vaultCopyDone
  /-- DOMAIN_POWER_DOWN (R558). A write of REQ = 1 in CL_PDOM_CTL starts draining the domain. -/
  | domainPowerDown (who : Req) (d : Nat)
  /-- DOMAIN_POWER_UP (R562). A write of REQ = 0 in CL_PDOM_CTL starts powering the domain up. -/
  | domainPowerUp (who : Req) (d : Nat)
  /-- DOMAIN_OFF (R561). Nothing remains in flight in a draining domain, and it goes OFF. -/
  | domainOff (d : Nat)
  /-- DRAIN_TIMEOUT (R561). DRTMO expires during a drain; remaining work is forced to an end and the domain goes OFF. -/
  | drainTimeout (d : Nat)
  /-- DOMAIN_POWERED (R562). A domain completes power-up and reloading, and becomes eligible. -/
  | domainPowered (d : Nat)
  /-- SB_CONFIRM_TIMEOUT (R604). A Seedbank write is not confirmed within 10 µs of issue, and SB_LINK is reported. -/
  | sbConfirmTimeout
  /-- BACKGROUND_CHECK_DONE (R712). After a FAST start, the background check of both flash copies completes and CHECKED is set. -/
  | backgroundCheckDone
  /-- IMAGE_UPDATE (R591). A GO write to CL_SU_CTL starts an image update to the inactive copy. -/
  | imageUpdate (who : Req)
  /-- IMAGE_UPDATE_ABORT (R593). An ABORT write to CL_SU_CTL stops the update at the next flash command boundary. -/
  | imageUpdateAbort (who : Req)
  /-- FLASH_OP_DONE (R591). A flash erase, program or read of the update completes, and the update moves on to its next action. -/
  | flashOpDone
  /-- FLASH_TIMEOUT (R592). An erase exceeds 4 s or a page program exceeds 10 ms, and the update fails. -/
  | flashTimeout
  /-- FAULT_REPORT (R594). A unit reports a fault; the Pruner sets the sticky bit and applies the source's reaction. -/
  | faultReport (src unit : Nat)
  /-- FORCE_FAULT (R605). A write of 1 to a PR_FORCE bit makes one report of that source. -/
  | forceFault (who : Req) (src : Nat)
  /-- TEMP_SAMPLE (R604). The junction sensors are read every 100 µs and the TEMP_HI and TEMP_CRIT conditions are judged. -/
  | tempSample (temp : BitVec 12)
  /-- RCS_CLEAR (R655). A write to an RCS register clears the masked bits if SEQ matches and no bit is set in that cycle. -/
  | rcsClear (who : Req) (off : Nat) (v : Word) (hw : BitVec 24)
  /-- GLB_UPDATE (R659). A write to GLB_UPDATE applies the buffered RWU fields of the named groups. -/
  | glbUpdate (who : Req) (v : Word)
  /-- BEAT_TIMER (R629). Every 1 µs a BEAT is sent on the twin link. -/
  | beatTimer
  /-- RX_BEAT (R630). A BEAT from the partner arrives, and the images and PAIR_IDs are compared. -/
  | rxBeat (b : Heard BeatF)
  /-- HEARTBEAT_LOST (R629). No BEAT has arrived for HBTMO µs. -/
  | heartbeatLost
  /-- RX_MIRROR (R632). The standby receives a MIRROR flit and writes its blocks to its Seedbank. -/
  | rxMirror (m : Heard MirrorF)
  /-- RX_MACK (R633). The master receives a MACK, and the mirrored records it covers become durable. -/
  | rxMack (m : Heard (BitVec 32))
  /-- MIRROR_TIMEOUT (R643). A mirrored record has waited MIRTMO µs for its MACK, and the master goes solo. -/
  | mirrorTimeout
  /-- RX_TOKEN (R643). A TOKEN passes or returns on ring-in; the standby adopts the epoch, or the master sets SOLO. -/
  | rxToken (p : Nat) (k : Heard TokenF)
  /-- CLAIM_WAIT_EXPIRY (R638). The 2 µs or 10 µs wait of a mastership claim ends, and the claim is won or lost. -/
  | claimWaitExpiry
  /-- TOKEN_SILENCE (R639). No TOKEN has passed for SILENCE µs with the heartbeat lost, and the standby claims mastership for takeover. -/
  | tokenSilence
  /-- PAIR_ARB_RISE (R640). A master sees PAIR_ARB_B high, or a higher epoch, and stops as in safe state. -/
  | pairArbRise
  /-- TW_FORCE (R639). A FORCE write to TW_CTL claims mastership at once. -/
  | twForce (who : Req)
  /-- TW_REJOIN (R644). A REJOIN write to TW_CTL requests resynchronisation of the standby. -/
  | twRejoin (who : Req)
  /-- LOOPBACK_ENTER (R673). A non-zero DEPTH write to TS_LB_CTL enters a loopback depth, or is refused. -/
  | loopbackEnter (who : Req) (i : Nat) (v : Word)
  /-- LOOPBACK_END (R673). A DEPTH write of 0 ends the loopback and the interface retrains. -/
  | loopbackEnd (who : Req) (i : Nat)
  /-- LOOPBACK_DUR_EXPIRY (R673). DUR expires, the loopback ends and LB_ENDED is set. -/
  | loopbackDurExpiry (i : Nat)
  /-- SPI_READBACK (R675). A GO write to TS_SPI_CTL reads the flash range twice and compares the reads. -/
  | spiReadback (who : Req)
  /-- DOMAIN_BIST (R679). A GO write to TS_BIST_CTL runs BIST on an OFF domain. -/
  | domainBist (who : Req) (v : Word)
  /-- BIST_DONE (R679). A domain BIST completes with PASS or FAIL, and the domain is left OFF. -/
  | bistDone (fails : List Nat) (repaired : BitVec 8)
  /-- INJECT_ARM (R680). An ARM write to TS_INJ arms one codeword error injection on the next full write to the target. -/
  | injectArm (who : Req) (v : Word)
  /-- EXTEST (R681). The JTAG EXTEST instruction drives boundary scan while PORST_N is low. -/
  | extest
  /-- SAMPLE_PRELOAD (R681). The JTAG SAMPLE/PRELOAD instruction samples or preloads the boundary register. -/
  | samplePreload
  /-- IDCODE (R681). The JTAG IDCODE instruction selects the identification register. -/
  | idcode
  /-- CLAMP (R681). The JTAG CLAMP instruction holds the outputs from the boundary register. -/
  | clamp
  /-- HIGHZ (R681). The JTAG HIGHZ instruction puts the outputs in high impedance. -/
  | highz
  /-- EXTEST_PULSE (R681). The JTAG EXTEST_PULSE instruction runs the 1149.6 AC test on the lanes. -/
  | extestPulse
  /-- EXTEST_TRAIN (R681). The JTAG EXTEST_TRAIN instruction runs the 1149.6 pulse-train test on the lanes. -/
  | extestTrain
  /-- BYPASS (R681). The JTAG BYPASS instruction selects the bypass register. -/
  | bypass
  /-- PWRWARN_RISE (R697). PWRWARN_N returns high, letting a waiting start proceed or a triggered device begin its restart. -/
  | pwrwarnRise
  /-- VBAK_GOOD (R531). VBAK rises above its Good level, and a start held waiting for it proceeds to write the Seedbank. -/
  | vbakGood (mv : BitVec 12)
  /-- UNDEFINED_OPCODE (R176). A thread issues an undefined short or long opcode, or a disallowed mode or V value, and traps ILLEGAL. -/
  | undefinedOpcode (t : Nat) (w0 w1 : BitVec 16)
  /-- PAIR_ARB_FALL (R638). PAIR_ARB_B falls during the 10 µs wait of a claim, and the claim is won at once. -/
  | pairArbFall
  /-- NOBEAT_CLAIM (R639). 100 ms after step 6 of a start with no BEAT received, the device decides on a claim from its pair record. -/
  | nobeatClaim
  /-- PTM_SLEW_END (R518). A TIME slew has applied all of E, RATE returns to 0 and SLEW clears. -/
  | ptmSlewEnd
  /-- ACK_NAK_DLLP (R446). A PCIe Ack or Nak arrives and releases or rewinds the FP0 output Furrow used as the replay buffer. -/
  | ackNakDllp (nak : Bool) (n : Nat)
  /-- DREQ_SAMPLE (R290). 16 ns after DACK falls in level mode, DREQ is sampled again and a further burst begins if it is high. -/
  | dreqSample (n : Nat) (level : Bool)
  /-- BYP_HOLD_RISE (R341). 10 µs after TS0 began on ring-out during training, BYP_HOLDp is driven high. -/
  | bypHoldRise (p : Nat)
  /-- SPI_READBACK_DONE (R675). The two flash reads of a read-back complete, TS_SPI_CRC is written and any difference sets SPI_MISMATCH. -/
  | spiReadbackDone (diff : Option Nat)
  /-- UPDATE_IMAGE_READ_DONE (R591). A host memory read of the update image completes, or fails with HOST_READ, and the update moves on. -/
  | updateImageReadDone (data : Bytes) (err : RdErr)
  deriving DecidableEq, Repr

end Sys2Proof
end

