-- ==== Sys2Proof/WellFormed.lean ====
section
/-! DEFINITION. Which commands the spec has: their unit numbers lie in the ranges of 00_scope.md (queues, subchannels,
threads, channels, ports, functions, nodes). A short Tiller form of kind "—" has OPD zero (R169). -/

namespace Sys2Proof

/-- OPD of a kind "—" is zero (R169). -/
def TForm.wf : TForm → Bool
  | .short _ .zero o => decide (o = 0)
  | _ => true

/-- A requester: 32 functions, the management port, Cloche firmware (R503, R524). -/
def Req.wf : Req → Bool
  | .fn f => decide (f < 32)
  | _ => true

/-- An answer waited for: a handle of 16 bits, or a member of one of 1024 transactions. -/
def Awaited.wf : Awaited → Bool
  | .op h => decide (h < 65536)
  | .member tx node => decide (tx < 1024) && decide (node < 4096)

/-- Whether a command names units that exist. -/
def Instr.wf : Instr → Bool
  | .deviceStart _ _ _ _ _ => true
  | .porstAssert _ => true
  | .refclkLoss => true
  | .pwrwarnFall => true
  | .pwrwarnFilterExpiry => true
  | .mainRailFail rail => decide (rail < 6)
  | .vddSbFail => true
  | .backupRegulatorOff => true
  | .vbakLow _ => true
  | .patrolScrub _ _ _ => true
  | .doorbell fn q _ _ _ => decide (fn < 32) && decide (q < 8192)
  | .pollRead q => decide (q < 8192)
  | .entryReadDone q _ => decide (q < 8192)
  | .entryReadError q _ => decide (q < 8192)
  | .entryRereadTimer q => decide (q < 8192)
  | .dbLagReread q => decide (q < 8192)
  | .sqStart q => decide (q < 8192)
  | .sqHalt q => decide (q < 8192)
  | .sqClear q => decide (q < 8192)
  | .sqResume q => decide (q < 8192)
  | .sqRelease q => decide (q < 8192)
  | .sqModify q => decide (q < 8192)
  | .sqReservedOpcode q => decide (q < 8192)
  | .queueEnable who q _ => who.wf && decide (q < 8192)
  | .queueDisable who q _ => who.wf && decide (q < 8192)
  | .queueDisableDone q => decide (q < 8192)
  | .heldStatusPost q => decide (q < 8192)
  | .contextWriteBackDone sc => decide (sc < 16384)
  | .contextLoadDone sc => decide (sc < 16384)
  | .threadBind sc => decide (sc < 16384)
  | .migrationEpochEnd _ => true
  | .teDrain who g _ => who.wf && decide (g < 8)
  | .wordFetchDone sc _ _ => decide (sc < 16384)
  | .cwWrite sc => decide (sc < 16384)
  | .cwRead sc => decide (sc < 16384)
  | .cwControl sc => decide (sc < 16384)
  | .cwSense sc => decide (sc < 16384)
  | .cwNop sc => decide (sc < 16384)
  | .cwBranch sc => decide (sc < 16384)
  | .cwReserve sc => decide (sc < 16384)
  | .cwRelease sc => decide (sc < 16384)
  | .cwWaitPace sc => decide (sc < 16384)
  | .cwMark sc => decide (sc < 16384)
  | .cwEndGroup sc => decide (sc < 16384)
  | .cwNodeSpecific sc => decide (sc < 16384)
  | .suspendRereadDone sc _ _ => decide (sc < 16384)
  | .haltTimeout sc => decide (sc < 16384)
  | .paceTimeout sc => decide (sc < 16384)
  | .paceTimerExpiry sc => decide (sc < 16384)
  | .nop t f => decide (t < 1024) && f.wf
  | .mov t f => decide (t < 1024) && f.wf
  | .lda t f => decide (t < 1024) && f.wf
  | .ldah t f => decide (t < 1024) && f.wf
  | .ldb t f => decide (t < 1024) && f.wf
  | .ldh t f => decide (t < 1024) && f.wf
  | .sta t f => decide (t < 1024) && f.wf
  | .stb t f => decide (t < 1024) && f.wf
  | .sth t f => decide (t < 1024) && f.wf
  | .ldx t f => decide (t < 1024) && f.wf
  | .ldy t f => decide (t < 1024) && f.wf
  | .stx t f => decide (t < 1024) && f.wf
  | .sty t f => decide (t < 1024) && f.wf
  | .xchg t f => decide (t < 1024) && f.wf
  | .add t f => decide (t < 1024) && f.wf
  | .adc t f => decide (t < 1024) && f.wf
  | .sub t f => decide (t < 1024) && f.wf
  | .sbc t f => decide (t < 1024) && f.wf
  | .cmp t f => decide (t < 1024) && f.wf
  | .and t f => decide (t < 1024) && f.wf
  | .or t f => decide (t < 1024) && f.wf
  | .xor t f => decide (t < 1024) && f.wf
  | .bit t f => decide (t < 1024) && f.wf
  | .cpx t f => decide (t < 1024) && f.wf
  | .cpy t f => decide (t < 1024) && f.wf
  | .shl t f => decide (t < 1024) && f.wf
  | .shr t f => decide (t < 1024) && f.wf
  | .sar t f => decide (t < 1024) && f.wf
  | .rol t f => decide (t < 1024) && f.wf
  | .ror t f => decide (t < 1024) && f.wf
  | .adx t f => decide (t < 1024) && f.wf
  | .ady t f => decide (t < 1024) && f.wf
  | .pset t f => decide (t < 1024) && f.wf
  | .plogAnd t f => decide (t < 1024) && f.wf
  | .plogOr t f => decide (t < 1024) && f.wf
  | .plogXor t f => decide (t < 1024) && f.wf
  | .plogAndNot t f => decide (t < 1024) && f.wf
  | .bra t f => decide (t < 1024) && f.wf
  | .dbnz t f => decide (t < 1024) && f.wf
  | .jmp t f => decide (t < 1024) && f.wf
  | .call t f => decide (t < 1024) && f.wf
  | .calla t f => decide (t < 1024) && f.wf
  | .ret t f => decide (t < 1024) && f.wf
  | .wait t f => decide (t < 1024) && f.wf
  | .waitWake t => decide (t < 1024)
  | .ldbk t f => decide (t < 1024) && f.wf
  | .unaNeg t f => decide (t < 1024) && f.wf
  | .unaNot t f => decide (t < 1024) && f.wf
  | .unaInc t f => decide (t < 1024) && f.wf
  | .unaDec t f => decide (t < 1024) && f.wf
  | .unaSxb t f => decide (t < 1024) && f.wf
  | .unaSxh t f => decide (t < 1024) && f.wf
  | .unaZxb t f => decide (t < 1024) && f.wf
  | .unaZxh t f => decide (t < 1024) && f.wf
  | .fence t f => decide (t < 1024) && f.wf
  | .trap t f => decide (t < 1024) && f.wf
  | .rte t f => decide (t < 1024) && f.wf
  | .xcall t f => decide (t < 1024) && f.wf
  | .xret t f => decide (t < 1024) && f.wf
  | .watchdog t => decide (t < 1024)
  | .mul t f => decide (t < 1024) && f.wf
  | .muls t f => decide (t < 1024) && f.wf
  | .productReady t => decide (t < 1024)
  | .dsetup t f => decide (t < 1024) && f.wf
  | .dsetups t f => decide (t < 1024) && f.wf
  | .dstep t f => decide (t < 1024) && f.wf
  | .next t f => decide (t < 1024) && f.wf
  | .fmark t f => decide (t < 1024) && f.wf
  | .frewind t f => decide (t < 1024) && f.wf
  | .rel t f => decide (t < 1024) && f.wf
  | .fld t f => decide (t < 1024) && f.wf
  | .fst t f => decide (t < 1024) && f.wf
  | .fadd t f => decide (t < 1024) && f.wf
  | .fsub t f => decide (t < 1024) && f.wf
  | .fmul t f => decide (t < 1024) && f.wf
  | .fdiv t f => decide (t < 1024) && f.wf
  | .fma t f => decide (t < 1024) && f.wf
  | .fmaa t f => decide (t < 1024) && f.wf
  | .fcmp t f => decide (t < 1024) && f.wf
  | .fsqrt t f => decide (t < 1024) && f.wf
  | .fcvti t f => decide (t < 1024) && f.wf
  | .fcvtf t f => decide (t < 1024) && f.wf
  | .fneg t f => decide (t < 1024) && f.wf
  | .fabs t f => decide (t < 1024) && f.wf
  | .dispCopy t f => decide (t < 1024) && f.wf
  | .dispFill t f => decide (t < 1024) && f.wf
  | .dispGather t f => decide (t < 1024) && f.wf
  | .dispScatter t f => decide (t < 1024) && f.wf
  | .dispDiscard t f => decide (t < 1024) && f.wf
  | .send t f => decide (t < 1024) && f.wf
  | .tmr t f => decide (t < 1024) && f.wf
  | .threadTimerExpiry t => decide (t < 1024)
  | .eos t f => decide (t < 1024) && f.wf
  | .parkEnd t f => decide (t < 1024) && f.wf
  | .parkSuspend t f => decide (t < 1024) && f.wf
  | .rcpe t f => decide (t < 1024) && f.wf
  | .leave t f => decide (t < 1024) && f.wf
  | .rbrd t f => decide (t < 1024) && f.wf
  | .rbwr t f => decide (t < 1024) && f.wf
  | .sbrd t f => decide (t < 1024) && f.wf
  | .sbwr t f => decide (t < 1024) && f.wf
  | .decodeTableInsn t e f => decide (t < 1024) && decide (e < 32) && f.wf
  | .windowDataReturn t _ _ => decide (t < 1024)
  | .dispatchComplete _ => true
  | .transferBind _ => true
  | .readDataReturn _ _ _ _ => true
  | .dmaCopy c => decide (c < 256)
  | .dmaFill c => decide (c < 256)
  | .dmaCompare c => decide (c < 256)
  | .dmaGather c => decide (c < 256)
  | .dmaScatter c => decide (c < 256)
  | .descriptorComplete c => decide (c < 256)
  | .chEnable who c _ => who.wf && decide (c < 256)
  | .chDisable who c _ => who.wf && decide (c < 256)
  | .chPause who c => who.wf && decide (c < 256)
  | .chUnpause who c => who.wf && decide (c < 256)
  | .chHalt who c => who.wf && decide (c < 256)
  | .chAbort who c => who.wf && decide (c < 256)
  | .chStart who c => who.wf && decide (c < 256)
  | .dreqRise n => decide (n < 8)
  | .dmaPaceTimeout c => decide (c < 256)
  | .rxData p _ _ _ => decide (p < 5)
  | .rxStatus p _ _ _ => decide (p < 4)
  | .rxAttn p _ _ _ => decide (p < 4)
  | .rxPace p _ _ _ => decide (p < 4)
  | .rxCredit p _ _ _ => decide (p < 5)
  | .rxEnumReply p _ _ _ => decide (p < 4)
  | .rxBadFlit p _ _ => decide (p < 5)
  | .flitTransmit p => decide (p < 5)
  | .creditTimer p node => decide (p < 5) && decide (node < 4096)
  | .kpTrain who p => who.wf && decide (p < 5)
  | .kpDown who p => who.wf && decide (p < 5)
  | .trainingPhaseEnd p _ _ _ => decide (p < 5)
  | .trainingTimeout p _ _ => decide (p < 5)
  | .degWindowEnd p _ _ _ => decide (p < 5)
  | .quiesceMarkerReturn m => decide (m.body < 5)
  | .quiesceTimeout p => decide (p < 5)
  | .laneLockLoss p lane => decide (p < 5) && decide (lane < 4)
  | .ts0Received p => decide (p < 5)
  | .ringOutIdleTimer p => decide (p < 5)
  | .enum who p => who.wf && decide (p < 4)
  | .enumTimeout p => decide (p < 4)
  | .answerTimeout a => a.wf
  | .tokenTimer => true
  | .journalRecordDurable => true
  | .txidWaitTimeout sc => decide (sc < 16384)
  | .cretryTimer tx node => decide (tx < 1024) && decide (node < 4096)
  | .weederWalk sc => decide (sc < 16384)
  | .flush who f => who.wf && decide (f < 24)
  | .flushEffect f => decide (f < 24)
  | .flushTimeout f => decide (f < 24)
  | .staleTimer f => decide (f < 24)
  | .tuningEpochEnd o _ => decide (o < 12)
  | .fbPrioWrite who o r _ => who.wf && decide (o < 12) && decide (r < 12)
  | .attnClaim _ => true
  | .holdoffExpiry src => decide (src < 65600)
  | .swtrig who _ => who.wf
  | .sourceMaskWrite who src _ => who.wf && decide (src < 4160)
  | .cqCoalesceTimer q => decide (q < 8192)
  | .cqiCfgWrite who q _ => who.wf && decide (q < 8192)
  | .msixTableWrite fn vec word _ => decide (fn < 32) && decide (vec < 2048) && decide (word < 4)
  | .configRequest fn _ _ _ => decide (fn < 32)
  | .registerWrite who _ _ _ => who.wf
  | .portReset => true
  | .functionLevelReset fn => decide (fn < 32)
  | .vfEnableClear => true
  | .functionResetDone fn => decide (fn < 32)
  | .readyTimeout => true
  | .vaultRead fn _ _ => decide (fn < 32)
  | .vaultWrite fn _ _ => decide (fn < 32)
  | .tillerRegionWrite who _ _ _ => who.wf
  | .ptmDialogue => true
  | .ptmResponse _ => true
  | .ptmTimeout => true
  | .completionTimeout _ => true
  | .hpPermWrite who n k _ => who.wf && decide (n < 4096) && decide (k < 4)
  | .smbSetAddr _ _ => true
  | .smbWrite _ _ => true
  | .smbRead => true
  | .smbTimeout => true
  | .checkpoint => true
  | .vaultOpen who => who.wf
  | .vaultCommit who _ => who.wf
  | .vaultAbort who => who.wf
  | .vaultCopyDone => true
  | .domainPowerDown who d => who.wf && decide (d < 14)
  | .domainPowerUp who d => who.wf && decide (d < 14)
  | .domainOff d => decide (d < 14)
  | .drainTimeout d => decide (d < 14)
  | .domainPowered d => decide (d < 14)
  | .sbConfirmTimeout => true
  | .backgroundCheckDone => true
  | .imageUpdate who => who.wf
  | .imageUpdateAbort who => who.wf
  | .flashOpDone => true
  | .flashTimeout => true
  | .faultReport src _ => decide (src < 106)
  | .forceFault who src => who.wf && decide (src < 106)
  | .tempSample _ => true
  | .rcsClear who _ _ _ => who.wf
  | .glbUpdate who _ => who.wf
  | .beatTimer => true
  | .rxBeat _ => true
  | .heartbeatLost => true
  | .rxMirror _ => true
  | .rxMack _ => true
  | .mirrorTimeout => true
  | .rxToken p _ => decide (p < 4)
  | .claimWaitExpiry => true
  | .tokenSilence => true
  | .pairArbRise => true
  | .twForce who => who.wf
  | .twRejoin who => who.wf
  | .loopbackEnter who i _ => who.wf && decide (i < 6)
  | .loopbackEnd who i => who.wf && decide (i < 6)
  | .loopbackDurExpiry i => decide (i < 6)
  | .spiReadback who => who.wf
  | .domainBist who _ => who.wf
  | .bistDone _ _ => true
  | .injectArm who _ => who.wf
  | .extest => true
  | .samplePreload => true
  | .idcode => true
  | .clamp => true
  | .highz => true
  | .extestPulse => true
  | .extestTrain => true
  | .bypass => true
  | .pwrwarnRise => true
  | .vbakGood _ => true
  | .undefinedOpcode t _ _ => decide (t < 1024)
  | .pairArbFall => true
  | .nobeatClaim => true
  | .ptmSlewEnd => true
  | .ackNakDllp _ _ => true
  | .dreqSample n _ => decide (n < 8)
  | .bypHoldRise p => decide (p < 4)
  | .spiReadbackDone _ => true
  | .updateImageReadDone _ _ => true

end Sys2Proof
end

