-- ==== Sys2Proof/Machine/State.lean ====
section
/-! DEFINITION. The state of the block: registers, memories, contexts, threads, rings, journal, pins and the queue of
waiting commands. Plain data. INVENTORY.md, '## State', lists every field with its rule and reset value. -/

namespace Sys2Proof.Machine

/-- A sparse table: keys strictly rising, no entry equal to the table's default (`SMap.wf`, Machine/SMap.lean). -/
abbrev SMap (α : Type) := List (Nat × α)

/-- A byte memory. What an unlisted address reads as: log 3. -/
abbrev Mem := List Host.Cell

/-- Where the device stands between power and service (R579, R534, R14). -/
inductive Life where
  | held      -- no main power-good, or PORST_N low (R579)
  | waiting   -- a start waits for VBAK or PWRWARN_N (R531, R697)
  | live      -- a start has run; CL_START.STEP shows how far
  | flushed   -- step 2 of a flush or later; stays stopped (R534, R536)
  | lost      -- REFCLK absent (R14)
  deriving DecidableEq, Repr

/-- What a start takes from outside: straps (R695), the self-test's findings (R677), the time taken to step 6. -/
structure StartArgs where
  pairId : Bool := false
  smbA : BitVec 3 := 0
  selfTest : List Nat := []
  repaired : BitVec 8 := 0
  ms : BitVec 16 := 0
  deriving DecidableEq, Repr

/-- The last answer given to a requester (R499, R512, R515, R523, R713). -/
inductive Reply where
  | none
  | data (d : Bytes) (status : Byte)
  | poisoned (d : Bytes)
  | retry
  | unsupported
  | silent
  deriving DecidableEq, Repr

/-- Configuration space of one function, as far as the manual gives it an effect (R492, R496, R511-R515, R518, R706). -/
structure FnCfg where
  bme : Bool := false
  memEn : Bool := false
  d3 : Bool := false
  msixEn : Bool := false
  fmask : Bool := false
  relaxed : Bool := true    -- PRESUMED: PCI Express (log 63)
  cplTmo : BitVec 4 := 0
  cplDis : Bool := false
  ecrc : Bool := false      -- ECRC generation
  ecrcChk : Bool := false
  ptm : Bool := false
  vfEn : Bool := false
  resetting : Bool := false
  flr : Bool := false        -- the reset in progress is a Function Level Reset
  aer : Byte := 0
  deriving DecidableEq, Repr

/-- An MSI-X table entry (R492, R514). -/
structure MsixEntry where
  addr : BitVec 64 := 0
  data : Word := 0
  mask : Bool := true
  deriving DecidableEq, Repr

/-- Why the device reads host memory. -/
inductive ReadFor where
  | entry (q : Nat)
  | word (sc : Nat)
  | reread (sc : Nat)
  | xfer (x : Nat)
  | xfer2 (x : Nat)
  | window (t : Nat)
  | ahead (q pos : Nat)
  | image
  deriving DecidableEq, Repr

/-- An outstanding host read (R497, R706). -/
structure ReadReq where
  fn : Nat
  addr : Nat
  len : Nat
  why : ReadFor
  deriving DecidableEq, Repr

/-- A TLP in the FP0 output Furrow, kept until its Ack (R446). -/
inductive Tlp where
  | write (fn addr : Nat) (data : Bytes) (relaxed ecrc : Bool)
  | read (fn addr len : Nat) (relaxed ecrc : Bool)
  deriving DecidableEq, Repr

/-- An entry read ahead (R45); with a START, the first two words of its chain, or the CHECK_CODE of their failed read (R47). `await`:
they are being read. -/
structure Pre where
  entry : Bytes
  words : Bytes := []
  err : Option Nat := none
  await : Bool := false
  deriving DecidableEq, Repr

/-- An autostart START that waits for a context cache entry (R73, R589). -/
structure AutoReq where
  sc : Nat
  home : Nat
  prio : Nat
  aff : Nat
  pin : Bool
  chain : Nat
  deriving DecidableEq, Repr

/-- The working state of a queue that no register shows (chapter 02). -/
structure Queue where
  head : Nat := 0          -- SQ, DQ: position of the next entry to take; CQ: position of the next entry to write
  pf : List Pre := []      -- entries read and held, head first (R45)
  reading : Bool := false  -- an entry read is outstanding
  pollWait : Bool := false -- poll mode: waiting between reads (R48)
  lag : Bool := false      -- waiting to read again (R46)
  errWait : Bool := false  -- waiting to read again (R708)
  missWait : Bool := false -- the head request waits for its context (R72, R73)
  cnt : Nat := 0           -- entries taken or posted since enable, published as TQ_COUNT
  disabling : Bool := false
  stopped : Bool := false  -- R607
  held : List Nat := []    -- held statuses, oldest first (R60)
  timer : Bool := false    -- coalescing timer running (R489)
  jseq : Nat := 0          -- latest journal record applied (R542)
  deriving DecidableEq, Repr

/-- The waiting points of a command chain (chapter 03). -/
inductive Phase where
  | none | unbound | fetching | current | joining | txidWait | portWait | moving | answer | slotWait
  | paceTimer | paceNode | deciding | rereading | suspended | ending | fixed | fencing
  deriving DecidableEq, Repr

/-- A condition that ends a chain (R127): status bits in CQ entry order without CE and DE; `de`: forced, or as the node;
CHECK_CODE and CHECK_INFO; RESIDUAL if it is not the count left. -/
structure EndCond where
  bits : Nat := 0
  ce : Bool := true
  de : Option Bool := none
  code : Nat := 0
  info : Nat := 0
  residual : Option Nat := none
  reason : Nat := 0
  deriving DecidableEq, Repr

/-- A HALT or CLEAR in progress and where its reply goes (R76, R119, R123). `reset`: made by R514, no reply. -/
structure HaltReq where
  clear : Bool := false
  reset : Bool := false
  restart : Bool := false   -- an autostart chain starts again once cleared (R610)
  discarded : Bool := false -- CLEAR withdrew a held status, whose fields the reply carries (R76)
  sq : Nat := 0
  tag : Nat := 0
  deriving DecidableEq, Repr

/-- The running chain of a subchannel (its host-visible part lies in the context bytes). -/
structure Chain where
  phase : Phase := .none
  resumed : Bool := false       -- `unbound` after a RESUME
  space : Nat := 0              -- space of the current word (CUR_CW)
  bufAddr : Nat := 0            -- words read ahead: address of the next one (R47, R104)
  bufSpace : Nat := 0
  buf : List Bytes := []
  bufErr : Option Nat := none   -- CHECK_CODE of a read ahead that failed
  prio : Nat := 0               -- PRIO of the START (R143)
  op : Option Nat := none       -- handle of the open node operation at NODE
  op2 : Option Nat := none      -- second node of a copy between nodes (R89)
  code : Nat := 0               -- first word of the operation (R97)
  node : Nat := 0
  sub : Nat := 0
  param : Nat := 0
  stg0 : Bool := false
  stg : Bool := false
  xf : Bool := false
  xform : Nat := 0
  base : Nat := 0               -- operation offset at which the current word's data begins (R98)
  bounds : List Nat := []       -- operation offsets at which the earlier words of the data chain began
  cont : Bool := false          -- the current word continues the operation (CD, R97)
  xfer : Option Nat := none
  out : Nat := 0                -- XF: bytes the routine has put out for the current word (R96)
  carry : Bytes := []           -- XF: the part of a sample that the last word's data ended in (R211)
  fwd : Option Nat := none      -- XF: the dispatch that forwards the outbound packet
  wait : Bool := false          -- XF: the word's packets are not all forwarded yet
  endStatus : Option StatusF := none
  endStatus2 : Option StatusF := none
  sent : Nat := 0               -- bytes sent to NODE in the operation that has ended (R106)
  halting : Bool := false       -- HALT or CLEAR stops the chain (R119)
  withdrawn : Bool := false     -- a domain withdrawal ends the chain (R558)
  fenced : Bool := false        -- a fence ends the chain (R610)
  halt : List HaltReq := []     -- replies owed once the chain status has posted (R76)
  sa : Bool := false            -- a transaction aborted: SA goes into the status
  ran : Bool := false           -- some word of the chain was executed (R126)
  lastCw : Nat := 0             -- LASTCW and its space
  lastSpace : Nat := 0
  residual : Nat := 0
  due : Nat := 0                -- timer WAIT_PACE: due time (R109)
  paced : Bool := false         -- PACE_BASE set since START (R109)
  mask : Nat := 0               -- RESERVE: slots still wanted (R424)
  holder : Option Nat := none   -- RESERVE: transaction it reserves for (R423); none: the subchannel
  deriving DecidableEq, Repr

/-- What a thread is bound to (R141). -/
inductive Binding where
  | free
  | sc (s : Nat)
  | attn (src : Nat)
  | cloche
  deriving DecidableEq, Repr

/-- A packet (R159, R444). `out`: its output port, in a port Furrow. -/
structure Pkt where
  tag : BitVec 4 := 0
  first : Bool := false
  last : Bool := false
  node : Nat := 0
  offset : Nat := 0
  data : Bytes := []
  out : Nat := 0
  err : Bool := false        -- one of its words was stored uncorrectable (R680)
  deriving DecidableEq, Repr

/-- A packet being written (R444); `old`: it was open when a FLUSH was requested (R450). -/
structure OpenPkt where
  pkt : Pkt := {}
  len : Nat := 0
  old : Bool := false
  deriving DecidableEq, Repr

/-- A Furrow: packets from the release point on, read position, mark, open packets (R448). -/
structure Furrow where
  pkts : List Pkt := []
  rd : Nat := 0
  mark : Option Nat := none
  opens : List OpenPkt := []
  flush : Bool := false
  staleRaised : Bool := false
  deriving DecidableEq, Repr

/-- What XCALL saves (R212), with the firmware's FPSR as it stood (R215) and the PC to return to. -/
structure Shadow where
  a : Word
  x : BitVec 16
  y : BitVec 16
  bk : Byte
  sp : BitVec 16
  pr : Byte
  fl : Byte
  fa : BitVec 64
  fpcr : Word
  fpsr : Word
  pc : BitVec 16
  entry : BitVec 16 := 0     -- the routine's start, which names its own code (R213)
  deriving DecidableEq, Repr

/-- A window load in flight (R162, R165): its engine address, where it reads, the exchange with a node that carries it until it
has ended, and what that has brought. -/
structure WinLoad where
  ea : Nat
  space : Nat
  addr : Nat
  len : Nat
  op : Option Nat := none
  got : Bytes := []
  bad : Bool := false
  deriving DecidableEq, Repr

/-- A step division in progress (R231). -/
structure Division where
  divisor : Word
  signed : Bool
  negDividend : Bool
  negDivisor : Bool
  count : Nat := 0
  deriving DecidableEq, Repr

/-- A hardware thread of a Tiller (R145). -/
structure Thread where
  a : Word := 0
  x : BitVec 16 := 0
  y : BitVec 16 := 0
  bk : Byte := 1
  sp : BitVec 16 := 0x0FC0
  fl : Byte := 0
  pr : Byte := 1
  mh : Word := 0
  ml : Word := 0
  mrdy : Bool := true
  fpsr : Word := 0
  fpcr : Word := 0
  fa : BitVec 64 := 0
  pc : BitVec 16 := 0
  bind : Binding := .free
  prio : Nat := 0
  waitcnt : Nat := 0
  ev : Byte := 0                       -- latched events (R187)
  waiting : Option Byte := none        -- WAIT mask (R188)
  timer : Word := 0                    -- thread timer; 0 not running
  product : Option (BitVec 64) := none -- multiplication in flight (R227)
  lat : Nat := 0                       -- its latency L (R226)
  div : Option Division := none
  shadow : Option Shadow := none       -- routine mode (R212)
  budget : Nat := 0                    -- cycle budget of the routine, 0 none (R210)
  load : Option Instr := none          -- the instruction whose window load is in flight
  win : Option WinLoad := none         -- that load
  winGot : List (Nat × Bytes) := []    -- window data the instruction has, by engine address, until it completes
  disp : List Nat := []                -- dispatches in progress (R301)
  furrow : Furrow := {}
  out : Mem := []                      -- outbound packet, keys 0x8000 to 0x900F (R158)
  stopped : Bool := false
  claim : Nat := 0                     -- CLAIM of the current service (R482)
  fresh : Bool := false                -- claimed for an attention and not yet issued
  deriving DecidableEq, Repr

/-- Whose transfer it is (R256). `ended`: its descriptor has completed; reads of it are still to arrive (R287). -/
inductive XOwner where
  | chain (sc : Nat)
  | disp (t addr : Nat)
  | chan (c : Nat)
  | ended
  deriving DecidableEq, Repr

/-- What an outstanding read of a transfer brings (R260, R94). -/
inductive Want where
  | list
  | data (n : Nat)
  deriving DecidableEq, Repr

/-- The position in an indirect data list (R94, R95): the current entry, read or not yet, and the bytes of it used. -/
structure ListPos where
  space : Nat := 0
  addr : Nat := 0
  entry : Bytes := []
  off : Nat := 0
  deriving DecidableEq, Repr

/-- A transfer: a dispatch or a channel's descriptor (R255-R271). Offsets count within the transfer. -/
structure Xfer where
  owner : XOwner
  op : Nat := 1              -- 1 COPY, 2 FILL, 3 COMPARE, 4 GATHER, 5 SCATTER, 6 DISCARD
  prio : Nat := 0
  age : Nat := 0             -- stamp of its first waiting (R258)
  half : Bool := false       -- home half (R256)
  fn : Nat := 0
  srcSpace : Nat := 0        -- 0 host, 1 on-chip, 2 ring, 3 thread
  dstSpace : Nat := 0
  src : Nat := 0
  dst : Nat := 0
  len : Nat := 0
  srcOp : Option Nat := none
  dstOp : Option Nat := none
  pattern : BitVec 64 := 0
  list : ListPos := {}
  skip : Nat := 0            -- bytes of the list's data still passed over (LIST_OFF)
  final : Bool := true       -- its last byte ends the node operation written (R372)
  slot : Option (Nat × Nat) := none    -- Barrow and slot (R257)
  boundAt : Nat := 0
  rd : Nat := 0              -- bytes requested from the source
  rd2 : Nat := 0             -- COMPARE: bytes requested from the destination
  want : Option Want := none -- outstanding read
  want2 : Option Want := none
  staged : Bytes := []       -- arrived in its slot and not yet written, from offset `done`
  staged2 : Bytes := []      -- COMPARE: second stream
  srcEnd : Bool := false     -- the source has ended before `len`
  srcEnd2 : Bool := false    -- COMPARE: so has the second stream
  base : Option Nat := none  -- offset, in the node operation, of its first byte (R159, R298)
  grain : Nat := 1           -- bytes of an input sample of the routine its packets go to (R210, R211)
  carry : Bytes := []        -- part of a sample that the word before left over (R211)
  beat : Bool := false       -- a beat of the running burst has issued (R294)
  done : Nat := 0            -- DONE (R284)
  paused : Bool := false
  evicting : Bool := false
  code : Option Nat := none  -- completion code once it has ended (R283)
  info : Nat := 0xFFFFFFFF   -- offset reported with the code (R128)
  mismatch : Option (Nat × Byte × Byte) := none
  nodeStatus : Byte := 0
  paced : Bool := false      -- bursts are started by pacing requests (R290-R296)
  burst : Nat := 0           -- bytes left in the running burst
  deriving DecidableEq, Repr

/-- A stand-alone DMA channel's hidden state (R272-R296). -/
structure Chan where
  desc : Bytes := []         -- the current descriptor, [] when none
  xfer : Option Nat := none
  opening : Bool := false    -- its node operations wait to be opened (R366, R370, R417, R586)
  op : Option Nat := none    -- operation at SRC_NODE
  op2 : Option Nat := none   -- operation at DST_NODE
  endStatus : Option StatusF := none
  endStatus2 : Option StatusF := none
  short : Bool := false      -- a node operation moved a length other than LENGTH (R710)
  halt : Bool := false
  abort : Bool := false
  paused : Bool := false
  code : Option Nat := none  -- completion code, once decided
  done : Nat := 0
  mismatch : Option (Nat × Byte × Byte) := none
  nodeStatus : Byte := 0
  discard : Bool := false    -- completion neither recorded nor posted (R514 step 3)
  deriving DecidableEq, Repr

/-- Payload of a CMD flit (R367). -/
structure CmdF where
  oph : Nat
  kind : Nat
  dir : Bool := false
  chained : Bool := false
  staged : Bool := false
  code : Nat := 0
  subaddr : Nat := 0
  txid : Nat := 0
  count : Nat := 0
  param : Nat := 0
  holder : Nat := 0
  htx : Bool := false
  tserial : Nat := 0
  foff : Nat := 0
  deriving DecidableEq, Repr

/-- What a flit of the device carries (R317, R367, R628). -/
inductive FlitBody where
  | idle
  | data (d : DataF)
  | cmd (c : CmdF)
  | stage (d : DataF) (txid : Nat)
  | commit (txid tserial : Nat)
  | abort (txid tserial : Nat)
  | credit (c : CreditF)
  | enumReq (op pos pre level share index : Nat)
  | token (k : TokenF)
  | mirror (m : MirrorF)
  | mack (mseq : BitVec 32)
  | beat (b : BeatF)
  | test (seqno : BitVec 32)
  deriving DecidableEq, Repr

/-- A flit to send: the node it goes to (for credit), its PATH and its body. -/
structure Flit where
  node : Nat := 0
  path : Nat := 0x3FFFF
  body : FlitBody := .idle
  err : Bool := false        -- its packet was stored uncorrectable (R680)
  ce : Bool := false         -- one of its words was stored with a correctable error
  deriving DecidableEq, Repr

/-- What a packet of the fabric carries (R440, R444): a TLP, a read request, a flit for a port (4: the twin link), a packet for a
thread while it stays bound as it is. -/
inductive FBody where
  | write (t : Tlp)
  | read (t : Tlp) (r : ReadReq)
  | flit (port : Nat) (f : Flit)
  | pkt (t : Nat) (bd : Binding) (p : Pkt)
  deriving DecidableEq, Repr

/-- A packet on its way from one fabric port to another (R439, R440); `moved`: words that have crossed (R464); `xfer`: the transfer
that produced it. -/
structure FPkt where
  src : Nat
  dst : Nat
  words : Nat
  moved : Nat := 0
  xfer : Option Nat := none
  body : FBody
  deriving DecidableEq, Repr

/-- Training phases (R330). -/
inductive TrainPhase where
  | off | base | eq | confirm | frame
  deriving DecidableEq, Repr

/-- What ring-out carries (R342). -/
inductive RingOut where
  | elecIdle | ts0 | flits
  deriving DecidableEq, Repr

/-- What a slot carried, for R318. -/
inductive SlotKind where
  | idle | cmd | other
  deriving DecidableEq, Repr

/-- An enumeration in progress (R360). -/
structure EnumSt where
  phase : Nat := 0           -- 1 direct ring, 2 sub-rings of depth 1, 3 sub-rings of depth 2, 4 SETs; 0 none
  pos : Nat := 0
  parents : List (Nat × Nat) := []  -- group nodes left: path, SUBHOPS
  sets : List Nat := []      -- nodes left for SET
  found : List (Nat × Nat × Bool) := []  -- replies: path, level, group
  subhops : List (Nat × Nat) := []
  matched : Nat := 0
  tries : Nat := 0
  sub : Option Nat := none   -- only the sub-ring of this group node's path (R359)
  seen : List Nat := []      -- node indices replied
  kept : List Nat := []      -- node indices that end with PRESENT = 1
  deriving DecidableEq, Repr

/-- A Kalgen port (0-3) or the twin link (4) behind its registers (chapters 07, 08). -/
structure Port where
  tp : TrainPhase := .off
  tgtLanes : BitVec 4 := 0
  tgtNrz : Bool := false
  attempt : Nat := 0
  planned : Bool := false
  queuedTrain : Bool := false    -- TRAIN written while not ACTIVE (R340)
  queuedLane : Bool := false     -- a lane was fenced while not ACTIVE (R612)
  prevCfg : BitVec 5 := 0        -- configuration left (NRZ, LANES), for R334
  run : Nat := 0                 -- consecutive bad windows (R333)
  unpl : Nat := 0                -- unplanned retrains in the window
  unplan : Bool := false         -- the training in progress is an unplanned retrain (R339)
  winStash : List (Nat × List Nat × Nat × Nat) := []  -- windows that ended during it (R334): bytes, corrections, UNCORR, N
  winFlits : Nat := 0            -- the running window (R333): flits decoded, corrections per lane, uncorrectable flits
  winCorr : List Nat := []
  winUncorr : Nat := 0
  tse : Bool := false            -- BASE: ring-in has locked, and TSE is sent (R330)
  uncorrRun : Nat := 0           -- consecutive uncorrectable flits (R339)
  credits : List Nat := []       -- nodes owed a CREDIT
  tokenDue : Bool := false
  tx : List Flit := []           -- flits waiting, oldest first
  hist : List SlotKind := []     -- last 16 slots, newest first
  grant : SMap Nat := []         -- last GRANT received, key node*4+VC (R324)
  sent : SMap Nat := []
  rebased : List Nat := []       -- nodes whose REBASE has arrived in this epoch
  rxFreed : SMap Nat := []       -- buffers freed since the re-base, key node*4+VC (R329)
  rxCount : SMap Nat := []       -- flits received since the re-base
  rxSaid : SMap Nat := []        -- freed count of the last CREDIT sent (R326)
  rxInit : List Nat := []        -- allotments of the last re-base, by VC (R462)
  out : RingOut := .elecIdle
  lastFlit : Bytes := []         -- the flit of the last slot, before scrambling
  flits : Nat := 0               -- flits sent since the scramblers started (R310)
  enumQueued : Bool := false
  en : EnumSt := {}
  lastHops : Option Nat := none
  firstEnum : Bool := false      -- first enumeration after the start complete (R586)
  nextSlot : Nat := 0            -- next operation slot tried (R370)
  testTx : Nat := 0              -- FAR loopback: sequence number of the next test flit, and the next expected (R670)
  testRx : Nat := 0
  deriving DecidableEq, Repr

/-- Whose exchange an operation handle names (R369, R370). -/
inductive NOwner where
  | chain (sc : Nat)
  | chain2 (sc : Nat)
  | chanSrc (c : Nat)
  | chanDst (c : Nat)
  | reserve (sc : Nat)
  | release (sc : Nat)
  | power (sc : Nat)
  | winLoad (t : Nat)
  | winStore (t : Nat)
  | unowned
  deriving DecidableEq, Repr

/-- Data of a read operation in the port's input Furrow: its buffer's credit key, the epoch it came in, what is left of it (R326,
R462). -/
structure InFlit where
  key : Nat
  epoch : Nat
  data : Bytes
  deriving DecidableEq, Repr

/-- An open exchange with a node (R369-R382). -/
structure NOp where
  node : Nat := 0
  owner : NOwner := .unowned
  gen : Nat := 0                -- OPH[15:14]
  kind : Nat := 0               -- 0 operation, 4 RESERVE, 5 RELEASE, 6 POWER
  mask : Nat := 0               -- RESERVE, RELEASE: slot mask (R385)
  read : Bool := false
  sub : Nat := 0                -- start sub-address
  sentOff : Nat := 0            -- bytes sent
  rcvd : Nat := 0               -- bytes received in order
  fetchEnd : Nat := 0           -- end of the outstanding fetch; equal to `rcvd` when none
  lastSeen : Bool := false      -- LAST received, or sent
  endSent : Bool := false
  await : Option Flit := none   -- the flit sent again on T_ANS (R378)
  tries : Nat := 0
  stage : Option (Nat × Nat) := none  -- staged: TXID and TSERIAL (R399)
  deriving DecidableEq, Repr

/-- A RESERVE or RELEASE flit waiting for its turn at a node (R385). -/
structure ResReq where
  node : Nat
  kind : Nat
  mask : Nat
  holder : Nat
  htx : Bool
  owner : NOwner := .unowned
  deriving DecidableEq, Repr

/-- A member of a transaction (R397, R405). -/
structure Member where
  node : Nat
  joined : Bool := false      -- its JOIN record is durable
  sent : Bool := false        -- COMMIT or ABORT has been sent to it
  answered : Bool := false
  unconf : Bool := false
  tries : Nat := 0
  result : Byte := 0
  deriving DecidableEq, Repr

/-- A transaction (R393-R410). -/
structure Txn where
  used : Bool := false
  tserial : Nat := 0
  sc : Nat := 0
  members : List Member := []
  decideIssued : Bool := false
  decided : Bool := false
  cause : Option Nat := none    -- aborted, with its cause (R409)
  doneIssued : Bool := false
  recovery : Bool := false
  posted : Bool := false        -- the chain has been told its outcome (R415)
  deriving DecidableEq, Repr

/-- The holder of a resource slot (R422). -/
inductive Holder where
  | none
  | tx (x : Nat)
  | sc (s : Nat)
  deriving DecidableEq, Repr

/-- A wait edge (R428): the slot waited for. -/
structure Wait where
  node : Nat
  slot : Nat
  deriving DecidableEq, Repr

/-- What becomes visible when a journal record is durable (R544). `late`: an entry whose CQ was disabled before it was written, which
the CQ gets once it is enabled again; `nothing`: a head of a queue disabled since. -/
inductive JEff where
  | start (sc : Nat) (q : Option Nat) (head : Nat)
  | qpub (q head : Nat)
  | fixed (sc : Nat)
  | posted (cq : Nat) (entry : Bytes) (pos cnt : Nat) (sq sc : Option Nat) (reply : Bool)
  | late (cq : Nat) (entry : Bytes) (sq sc : Option Nat) (reply : Bool)
  | nothing
  | cleared (sc : Nat) (h : HaltReq)
  | fenced (sc : Nat)
  | modified (sc : Nat) (e : Bytes) (q : Nat)
  | vcommit
  | vdone
  | join (tx : Nat) (nodes : List Nat)
  | decide (tx : Nat)
  | done (tx : Nat)
  deriving DecidableEq, Repr

/-- A journal record issued and not yet durable (R401, R539, R633). -/
structure JRec where
  jseq : Nat
  raw : Bytes               -- the 64 bytes (R412, R545)
  eff : JEff
  slot : Option Nat := none -- none: it waits for a free slot (R541)
  local_ : Bool := false    -- confirmed by this device's Seedbank
  mseq : Option Nat := none -- MIRROR flit it waits for (R633)
  acked : Bool := false
  deriving DecidableEq, Repr

/-- An occupied journal slot (R540). -/
structure JSlot where
  slot : Nat
  jseq : Nat
  rtype : Nat
  txid : Nat := 0
  tserial : Nat := 0
  deriving DecidableEq, Repr

/-- A Rake source (R471-R476); its state is in RK_ISRC_A or RK_NSTATE. -/
structure Src where
  level : Bool := false
  lvl : Bool := false
  info : Bytes := []
  since : Nat := 0
  ord : Nat := 0             -- order in which sources became PENDING (R481)
  hold : Bool := false
  refire : Bool := false
  thread : Option Nat := none
  deriving DecidableEq, Repr

/-- A codeword error in a protected memory (R22, R24, R680). -/
structure CwErr where
  region : MemRegion
  idx : Nat
  burst : Nat
  poisoned : Bool := false
  deriving DecidableEq, Repr

/-- The stage of a mastership claim (R638). -/
inductive Claim where
  | none | wait2 | wait10
  deriving DecidableEq, Repr

/-- Pair mode (chapter 16) behind the TW_ registers; the pair record lies in the Seedbank (R636). -/
structure Pair where
  claim : Claim := .none
  takeover : Bool := false       -- the claim in progress is a takeover (R641)
  syncEp : Nat := 0
  mseq : Nat := 0                -- next MSEQ
  rxMseq : Nat := 0              -- highest MSEQ written as standby
  unacked : List Nat := []       -- MSEQs sent and not acknowledged
  copyPos : Option Nat := none   -- next Seedbank offset a resynchronisation copies (R644)
  copyLast : Option Nat := none  -- MSEQ of the last COPY flit of a resynchronisation
  beat : Option BeatF := none    -- last BEAT received
  bseq : Nat := 0
  tseq : Nat := 0
  goSolo : Bool := false         -- waiting for a new-epoch TOKEN to return (R643)
  maxTok : Nat := 0              -- highest epoch of a forwarded TOKEN
  deriving DecidableEq, Repr

/-- An operation that the virtual node has open (R672): its direction, start sub-address, bytes so far, staged transaction. -/
structure VOp where
  oph : Nat
  read : Bool := false
  code : Nat := 0
  sub : Nat := 0
  off : Nat := 0
  txid : Nat := 0
  tserial : Nat := 0
  staged : Bool := false
  data : Bytes := []
  deriving DecidableEq, Repr

/-- The virtual node of a port at TRANSPORT (R672, R420): open operations, staged data, outcome records, slot holders. -/
structure VNode where
  ops : List VOp := []
  stages : List VOp := []
  outcomes : List (Nat × Nat × Bool) := []
  holders : List (Nat × Nat × Bool) := []   -- slot, its HOLDER, HTX (R385)
  deriving DecidableEq, Repr

/-- An image update in progress (R591). -/
structure Upd where
  hdr : Bytes := []      -- the header kept in step 1
  img : Bytes := []      -- step 2: what has been read
  pos : Nat := 0         -- bytes of the current step done
  back : Bool := false   -- step 6: the header is programmed and is read back
  abort : Bool := false  -- stops at the next flash command boundary (R593)
  deriving DecidableEq, Repr

/-- An active power-loss flush or what it left (R534). -/
structure FlushSt where
  headerDurable : Bool := false
  nctx : Nat := 0
  deriving DecidableEq, Repr

/-- What a command leaves to be done when it ends: the report of a codeword error that a read met (R22, R23; source and unit as
FAULT_REPORT names them); the end of a chain whose transform routine trapped (R216). -/
inductive Due where
  | error (src unit : Nat)
  | xtrap (sc : Nat)
  deriving DecidableEq, Repr

/-- The whole block. -/
structure State where
  life : Life := .held
  startArgs : StartArgs := {}
  hostReady : Bool := false
  porstLow : Bool := false
  mainGood : Bool := true
  refclk : Bool := true
  warnLow : Bool := false
  warnTiming : Bool := false
  backupOn : Bool := false
  slowInternal : Bool := false
  errA : Bool := false
  errB : Bool := false
  spiCsN : Bool := true              -- the SPI pins outside an access: chip select high, clock low,
  spiClk : Bool := false             -- no data line driven (R567)
  spiDrive : BitVec 4 := 0
  dack : Byte := 0
  dreq : Byte := 0                   -- request lines, as last seen
  dackWait : Byte := 0               -- lines not sampled since their DACK fell (R290)
  time : Nat := 0                    -- TIME in units of 2^-32 ns (R516)
  rate : Int := 0                    -- RATE in ppm
  ptmOpen : Bool := false            -- a dialogue waits for its response
  ptmFails : Nat := 0
  regs : SMap Word := []             -- BAR0 registers, as software reads them
  applied : SMap Word := []          -- applied values of RWB and RWU fields (R657)
  fns : SMap FnCfg := []
  msix : SMap MsixEntry := []        -- key fn*2048 + vector
  pba : SMap Bool := []
  hostOut : List Tlp := []           -- the FP0 output Furrow: TLPs not yet acknowledged (R446)
  reads : List ReadReq := []         -- reads that have left, oldest first
  readWait : List FPkt := []         -- read requests that wait for room for their data (R497)
  fab : List FPkt := []              -- packets that have not crossed the fabric, oldest first (R440)
  fbLast : SMap Nat := []            -- the requester that won last at each output (R466)
  reply : Reply := .none
  smbAddr : Word := 0
  seed : Mem := []                   -- Seedbank (R28)
  flash : Mem := []                  -- Seed flash (R565)
  buf : Mem := []                    -- buffer memory (R18)
  ctx : Mem := []                    -- context cache view, key sc*2048 + offset (R155)
  tmem : Mem := []                   -- Tiller regions, key BAR4 offset (R205)
  tpriv : Mem := []                  -- private bank 0, key thread*4096 + offset (R154)
  vnode : Mem := []                  -- virtual nodes' memory, key port*65536 + offset (R672)
  vnodes : SMap VNode := []          -- virtual nodes, key port
  cached : List Nat := []            -- cached contexts, least recently used first (R70)
  dirty : List Nat := []             -- dirty contexts, least recently changed first (R71)
  dirtyWait : List Nat := []         -- changes waiting for the dirty bound
  loading : List Nat := []           -- contexts being loaded from the Seedbank (R72)
  queues : SMap Queue := []
  chains : SMap Chain := []
  threads : SMap Thread := []        -- key Tiller*16 + thread
  rakeRR : Nat := 0
  claimTag : Nat := 0
  sources : SMap Src := []           -- key node*16 + SOURCE, or 65536 + internal source
  furrows : SMap Furrow := []        -- port Furrows 0-23
  xfers : SMap (Option Xfer) := []
  nextXfer : Nat := 0
  stamp : Nat := 0                   -- rising stamp for ages and binding order (R258)
  chans : SMap Chan := []
  ports : SMap Port := []
  ops : SMap (Option NOp) := []      -- key OPH[13:0]
  inbox : SMap (List InFlit) := []   -- data of read operations not yet taken by a transfer, key OPH[13:0], oldest first
  ophGen : SMap Nat := []            -- generation of the next use, key OPH[13:0]
  ophUse : SMap (Nat × Nat) := []    -- key OPH: node of its last use, exchanges ended at that node then (R370)
  endedAt : SMap Nat := []           -- exchanges ended at each node
  txns : SMap Txn := []
  slots : SMap Holder := []          -- key node*4 + slot
  waits : SMap (Option Wait) := []   -- key subchannel
  resq : List ResReq := []           -- RESERVE and RELEASE flits not yet sent (R385)
  recov : SMap Nat := []             -- recovery flits pending at a node (R417)
  relNeeded : List Nat := []         -- nodes that get the RELEASE of R419 before their first flit
  jpend : List JRec := []            -- issued journal records, in JSEQ order
  jslots : List JSlot := []          -- live journal slots
  jpos : Nat := 0                    -- slot of the previous record
  owed : List JEff := []             -- CQ entries that wait for their turn in the ring (R32), Bus Master Enable (R511) or their CQ
  autoWait : List AutoReq := []      -- autostart STARTs that wait for a context cache entry (R73)
  ckStart : Nat := 0                 -- JSEQ_START of the latest completed checkpoint
  ckFrom : Option Nat := none        -- a checkpoint is running: its JSEQ_START (R546)
  flushSt : FlushSt := {}
  vstage : List (Nat × Nat) := []    -- staged Vault blocks: block, staging slot
  vover : Bool := false              -- the open update has overflowed (R553)
  upd : Upd := {}
  bgCheck : Bool := false            -- the background check of R712 is running
  errs : List CwErr := []
  due : List Due := []               -- what follows at the end of the command
  conds : List Nat := []             -- fault conditions that hold (R597)
  pair : Pair := {}
  jtagIr : Byte := 0x02
  bscan : Byte := 0                  -- 0 inactive; else 1 above the code of the boundary instruction in force
  bistDom : Nat := 0                 -- the domain under BIST
  freeCtr : Nat := 0
  pending : List Instr := []
  deriving DecidableEq, Repr

/-- Reasons a step stops. -/
inductive Fault where
  /-- Raised by SBRD and SBWR: the Seedbank offset in A names no block any access reaches (R28: the spare region, or
  beyond the region table). Safe: the model stops where the manual says nothing is reached. -/
  | noSuchBlock (offset : Nat)
  deriving DecidableEq, Repr

/-- Reasons a command has no meaning. -/
inductive Refusal where
  /-- Raised by the dispatch alone, for a command that has no meaning yet. Safe. -/
  | notModelled (mnemonic : String)
  deriving DecidableEq, Repr

/-- The block right after reset: every field at its default above (INVENTORY.md, '## State'; log 1, 2, 3): the device is
held before its start, every register at its table's reset value (an empty table of changes), nothing queued. -/
def State.reset : State := {}

end Sys2Proof.Machine
end

