-- ==== Sys2Proof/Machine/SMap.lean ====
section
/-! DEFINITION. Sparse tables in one canonical form: keys strictly rising, no entry equal to the table's default. Every
memory (R27, R28) and every register and context table of the block is one. Byte order is decided here, once (R3). -/

namespace Sys2Proof.Machine

/-- The value at a key: the listed one, else the default of that key. -/
def SMap.get {α : Type} (d : Nat → α) : SMap α → Nat → α
  | [], k => d k
  | (k', v) :: r, k => if k' = k then v else SMap.get d r k

/-- The table with the value `v` at `k`. -/
def SMap.set {α : Type} [DecidableEq α] (d : Nat → α) : SMap α → Nat → α → SMap α
  | [], k, v => if v = d k then [] else [(k, v)]
  | (k', v') :: r, k, v =>
    if k < k' then (if v = d k then (k', v') :: r else (k, v) :: (k', v') :: r)
    else if k = k' then (if v = d k then r else (k, v) :: r)
    else (k', v') :: SMap.set d r k v

/-- The canonical form from a lowest key on. -/
def SMap.wfFrom {α : Type} [DecidableEq α] (d : Nat → α) : Nat → SMap α → Bool
  | _, [] => true
  | lo, (k, v) :: r => decide (lo ≤ k) && decide (v ≠ d k) && SMap.wfFrom d (k + 1) r

/-- The canonical form: keys strictly rising, no default entry. -/
def SMap.wf {α : Type} [DecidableEq α] (d : Nat → α) (m : SMap α) : Bool := SMap.wfFrom d 0 m

/-- The keys at which a table differs from its default. -/
def SMap.keys {α : Type} (m : SMap α) : List Nat := m.map Prod.fst

/-- What an unlisted byte of a memory reads as (log 3). -/
def memZero (_ : Nat) : Byte := 0

/-- What an unlisted byte of the Seed flash reads as: the erased state (log 2). -/
def memErased (_ : Nat) : Byte := 0xFF

/-- The canonical form of a byte memory. -/
def Memory.wf (m : Mem) : Bool := SMap.wf memZero m

/-- One byte of a memory. -/
def Mem.rd (m : Mem) (a : Nat) : Byte := SMap.get memZero m a

/-- `n` bytes from an address. -/
def Mem.rdN (m : Mem) (a : Nat) : Nat → Bytes
  | 0 => []
  | n + 1 => m.rd a :: Mem.rdN m (a + 1) n

/-- A memory with bytes stored from an address on. -/
def Mem.wrN (m : Mem) (a : Nat) : Bytes → Mem
  | [] => m
  | b :: r => Mem.wrN (SMap.set memZero m a b) (a + 1) r

/-- A memory without the bytes of a range (they read as unlisted). -/
def Mem.drop (m : Mem) (a n : Nat) : Mem := m.filter fun e => e.1 < a || a + n ≤ e.1

/-- The bytes of a range moved into another memory at another address. -/
def Mem.copyRange (src dst : Mem) (a b n : Nat) : Mem :=
  (src.filter fun e => a ≤ e.1 && e.1 < a + n).foldl (fun m e => SMap.set memZero m (e.1 - a + b) e.2) (dst.drop b n)

/-- The number whose little-endian bytes these are (R3). -/
def leNat : Bytes → Nat
  | [] => 0
  | b :: r => b.toNat + 256 * leNat r

/-- The little-endian bytes of a number (R3). -/
def natLE : Nat → Nat → Bytes
  | 0, _ => []
  | n + 1, v => BitVec.ofNat 8 v :: natLE n (v / 256)

/-- A little-endian number of `n` bytes in a memory. -/
def Mem.le (m : Mem) (a n : Nat) : Nat := leNat (m.rdN a n)

/-- A memory with a little-endian number stored in `n` bytes. -/
def Mem.setLe (m : Mem) (a n v : Nat) : Mem := m.wrN a (natLE n v)

/-- A field of a number: `w` bits from bit `lo`. -/
def bits (v lo w : Nat) : Nat := (v / 2 ^ lo) % 2 ^ w

/-- A number with a field replaced. -/
def setBits (v lo w x : Nat) : Nat := v - bits v lo w * 2 ^ lo + (x % 2 ^ w) * 2 ^ lo

/-- A bit of a number. -/
def bitOn (v k : Nat) : Bool := (v / 2 ^ k) % 2 = 1

/-- 1 for true. -/
def b2n (b : Bool) : Nat := if b then 1 else 0

/-- A number of `n` bytes inside a list of bytes. -/
def leAt (b : Bytes) (off n : Nat) : Nat := leNat ((b.drop off).take n)

/-- A list of bytes of exactly `n`: cut, or filled with zeros. -/
def padTo (n : Nat) (b : Bytes) : Bytes := (b ++ List.replicate (n - b.length) 0).take n

/-- A list of bytes with some of them replaced. -/
def putAt (b : Bytes) (off : Nat) (x : Bytes) : Bytes := b.take off ++ x ++ b.drop (off + x.length)

end Sys2Proof.Machine
end

