-- ==== Sys2Proof/Machine/Codes.lean ====
section
/-! DEFINITION. What is computed over bytes: the CRC-32C of records, headers and images (log 11 gives its parameters), the scrambler and
PRBS31. -/

namespace Sys2Proof.Machine

/-- One bit of CRC-32C (reflected polynomial 0x82F6_3B78; log 11). PRESUMED. -/
def crcBit (c : Word) : Word := if c &&& 1 = 1 then (c >>> 1) ^^^ 0x82F63B78 else c >>> 1

/-- One byte of CRC-32C. -/
def crcByte (c : Word) (b : Byte) : Word :=
  let c := c ^^^ b.setWidth 32
  crcBit (crcBit (crcBit (crcBit (crcBit (crcBit (crcBit (crcBit c)))))))

/-- CRC-32C of a run of bytes (log 11). -/
def crc32c (b : Bytes) : Word := (b.foldl crcByte 0xFFFFFFFF) ^^^ 0xFFFFFFFF

/-! ## Scrambler and PRBS31 (R310, R669) -/

/-- One step of x^31 + x^28 + 1. -/
def lfsrStep (r : BitVec 31) : BitVec 31 := (r <<< 1) ||| (BitVec.ofBool (r.getLsbD 30 ^^ r.getLsbD 27)).setWidth 31

/-- The next eight bits of the sequence, the first in bit 0, and the register after them. The bit that leaves the register is its
highest. PRESUMED (log 81). -/
def lfsrByte (r : BitVec 31) : Byte × BitVec 31 :=
  (List.range 8).foldl (fun a k => (if a.2.getLsbD 30 then a.1 ||| (1 : Byte) <<< k else a.1, lfsrStep a.2)) (0, r)

/-- The register after `n` bytes. -/
def lfsrAfter : Nat → BitVec 31 → BitVec 31
  | 0, r => r
  | n + 1, r => lfsrAfter n (lfsrByte r).2

/-- The bytes of a lane, scrambled, or descrambled. -/
def scramble : BitVec 31 → Bytes → Bytes
  | _, [] => []
  | r, b :: l => (b ^^^ (lfsrByte r).1) :: scramble (lfsrByte r).2 l

/-- The register of logical lane `k` at the first flit after training. -/
def scrSeed (k : Nat) : BitVec 31 := BitVec.ofNat 31 (0x20000001 + k)

/-- A start of PRBS31 (R331, R670): free (log 54), but never zero, from which no sequence comes. -/
def prbsFrom (r : BitVec 31) : BitVec 31 := if r = 0 then 1 else r

/-- `n` bytes of PRBS31 from byte `k` on. -/
def prbs (r : BitVec 31) (k n : Nat) : Bytes := scramble (lfsrAfter k (prbsFrom r)) (List.replicate n 0)

end Sys2Proof.Machine
end

