-- ==== Sys2Proof/Config.lean ====
section
/-! DEFINITION. What the manual leaves open: free values with no body, and the strapped or fused constants. -/

namespace Sys2Proof.Config

/-- A free value: what the manual leaves unpredictable or unstated (R6, R43, R139, R305, R694). Applied to the
counter `State.freeCtr`, which the step reads and advances (log 4). DESIGN CHOICE. -/
opaque freeValue : Nat → BitVec 64

/-- The fused 64-bit serial number (GLB_SERIAL, chapter 17): each part has its own. -/
opaque serial : BitVec 64

/-- The estimate RCPE returns for a normal operand with a normal reciprocal (R237 bounds it within 1 ulp and gives no
table): which neighbour, as a function of the format and the operand (log 6). -/
opaque rcpeChoice : Bool → BitVec 64 → BitVec 2

/-- The contents of the Cloche ROM image at an address of TE0's code store (R580 step 2 names it and does not give it;
log 7). -/
opaque clocheRom : Nat → BitVec 8

/-- The register from which the PRBS31 of the test flits starts: the manual gives none (R670; log 54). -/
opaque testStart : BitVec 31

/-- The register from which the PRBS31 of the training blocks of a port's lane starts: the manual gives none (R331; log 54). -/
opaque trainStart : Nat → Nat → BitVec 31

/-- Whether a code address lies in the code of the routine that starts at an address: R213 keeps CALL, CALLA and RET inside it, and
the routine table names only the start (log 52). -/
opaque ownCode : Nat → Nat → Bool

/-- The descriptor of window `w` of a thread `t` with no subchannel: R163 gives it the PF's accesses, and bank 0x01, where
descriptors lie, is unimplemented for it (R155; log 35). -/
opaque looseWindow : Nat → Nat → BitVec 128

end Sys2Proof.Config
end

