-- ==== Sys2Proof/Machine/RegMap.lean ====
section
/-! DEFINITION. The register map (chapter 17 and the register tables of every chapter): where each register lies, its
fields with their access types and guards (R652, R662), its reset value and its reset domain (R666). -/

namespace Sys2Proof.Machine

/-- The access types of R652. `ros`: a field of the Cloche island that software writes (log 10 for the others). -/
inductive Acc where
  | rw | ro | rcs | wm | rwb | rwu | ros
  deriving DecidableEq, Repr

/-- A field: lowest bit, width, access type, guarded (R662). -/
structure RegField where
  lo : Nat
  width : Nat
  acc : Acc
  g : Bool
  deriving DecidableEq, Repr

/-- A register, or an array of registers with up to two indices: base, counts and strides, reset value, fields, and
whether it is in the Cloche domain. -/
structure RegRow where
  name : String
  base : Nat
  n1 : Nat
  s1 : Nat
  n2 : Nat
  s2 : Nat
  reset : Nat
  fields : List RegField
  cloche : Bool
  deriving DecidableEq, Repr

/-- The GLB_ registers (R668 and their own tables). -/
def regsGlb : List RegRow := [
  ⟨"GLB_ID", 0x0, 1, 0x4, 1, 1, 0x1B07064, [⟨0, 16, .ro, false⟩, ⟨16, 8, .ro, false⟩, ⟨24, 8, .ro, false⟩], false⟩,
  ⟨"GLB_SERIAL_LO", 0x4, 1, 0x4, 1, 1, 0x0, [⟨0, 32, .ro, false⟩], false⟩,
  ⟨"GLB_SERIAL_HI", 0x8, 1, 0x4, 1, 1, 0x0, [⟨0, 32, .ro, false⟩], false⟩,
  ⟨"GLB_UPDATE", 0x10, 1, 0x4, 1, 1, 0x0, [⟨0, 16, .rw, true⟩], false⟩,
  ⟨"GLB_PENDING", 0x14, 1, 0x4, 1, 1, 0x0, [⟨0, 16, .ro, false⟩], false⟩,
  ⟨"GLB_STATUS", 0x18, 1, 0x4, 1, 1, 0x0, [⟨0, 1, .rcs, false⟩, ⟨1, 1, .rcs, false⟩, ⟨24, 8, .rcs, false⟩], false⟩,
  ⟨"GLB_SCRATCH", 0x1C, 1, 0x4, 1, 1, 0x0, [⟨0, 32, .rw, false⟩], false⟩,
  ⟨"GLB_TEMP", 0x20, 1, 0x4, 1, 1, 0x0, [⟨0, 12, .ro, false⟩], false⟩,
  ⟨"GLB_STRAP", 0x24, 1, 0x4, 1, 1, 0x0, [⟨0, 7, .ro, false⟩, ⟨8, 1, .ro, false⟩], false⟩,
  ⟨"GLB_CNT", 0x40, 6, 0x4, 1, 1, 0x0, [⟨0, 32, .ro, false⟩], false⟩]

/-- The PR_ registers (R668 and their own tables). -/
def regsPr : List RegRow := [
  ⟨"PR_CFG", 0x40000, 1, 0x4, 1, 1, 0x1000, [⟨0, 11, .rwu, true⟩, ⟨11, 1, .rwu, true⟩, ⟨12, 2, .rwu, true⟩], false⟩,
  ⟨"PR_STATE", 0x40004, 1, 0x4, 1, 1, 0x0, [⟨0, 1, .ro, false⟩, ⟨1, 1, .ro, false⟩, ⟨2, 1, .ro, false⟩], false⟩,
  ⟨"PR_FENCED", 0x40008, 1, 0x4, 1, 1, 0x0, [⟨0, 8, .ro, false⟩, ⟨8, 2, .ro, false⟩, ⟨10, 4, .ro, false⟩, ⟨14, 1, .ro, false⟩, ⟨16, 16, .ro, false⟩], false⟩,
  ⟨"PR_STICKY", 0x40010, 5, 0x4, 1, 1, 0x0, [⟨0, 24, .rcs, false⟩, ⟨24, 8, .rcs, false⟩], false⟩,
  ⟨"PR_FORCE", 0x40030, 5, 0x4, 1, 1, 0x0, [⟨0, 24, .rw, true⟩], false⟩,
  ⟨"PR_REACT", 0x40050, 8, 0x4, 1, 1, 0x0, [⟨0, 32, .rwu, true⟩], false⟩,
  ⟨"PR_FIRST", 0x40070, 1, 0x4, 1, 1, 0x0, [⟨0, 7, .ro, false⟩, ⟨7, 1, .ro, false⟩], false⟩,
  ⟨"PR_FIRST_TIME_LO", 0x40078, 1, 0x4, 1, 1, 0x0, [⟨0, 32, .ro, false⟩], false⟩,
  ⟨"PR_FIRST_TIME_HI", 0x4007C, 1, 0x4, 1, 1, 0x0, [⟨0, 32, .ro, false⟩], false⟩,
  ⟨"PR_SAFE_LOG", 0x40080, 1, 0x4, 1, 1, 0x0, [⟨0, 7, .ro, false⟩, ⟨7, 1, .ro, false⟩, ⟨8, 16, .ro, false⟩], true⟩,
  ⟨"PR_SAFE_TIME_LO", 0x40088, 1, 0x4, 1, 1, 0x0, [⟨0, 32, .ro, false⟩], true⟩,
  ⟨"PR_SAFE_TIME_HI", 0x4008C, 1, 0x4, 1, 1, 0x0, [⟨0, 32, .ro, false⟩], true⟩]

/-- The CL_ registers (R668 and their own tables). -/
def regsCl : List RegRow := [
  ⟨"CL_CFG", 0x80000, 1, 0x4, 1, 1, 0x114, [⟨0, 8, .ros, true⟩, ⟨8, 1, .ros, true⟩], true⟩,
  ⟨"CL_SUPPLY", 0x80004, 1, 0x4, 1, 1, 0x0, [⟨0, 7, .ro, false⟩, ⟨7, 1, .ro, false⟩, ⟨8, 1, .ro, false⟩, ⟨9, 12, .ro, false⟩], true⟩,
  ⟨"CL_LASTDOWN", 0x80010, 1, 0x4, 1, 1, 0x0, [⟨0, 3, .ro, false⟩, ⟨3, 2, .ro, false⟩, ⟨5, 10, .ro, false⟩, ⟨15, 1, .ro, false⟩], true⟩,
  ⟨"CL_DOWNCNT", 0x80014, 1, 0x4, 1, 1, 0x0, [⟨0, 32, .ro, false⟩], true⟩,
  ⟨"CL_PDOM_CTL", 0x80020, 1, 0x4, 1, 1, 0x0, [⟨0, 14, .ros, true⟩], true⟩,
  ⟨"CL_PDOM_STAT", 0x80024, 1, 0x4, 1, 1, 0x0, [⟨0, 28, .ro, false⟩], true⟩,
  ⟨"CL_PDOM_CFG", 0x80028, 1, 0x4, 1, 1, 0x3E8, [⟨0, 16, .ros, true⟩], true⟩,
  ⟨"CL_START", 0x80040, 1, 0x4, 1, 1, 0x0, [⟨0, 2, .ro, false⟩, ⟨2, 1, .ro, false⟩, ⟨3, 1, .ro, false⟩, ⟨4, 1, .ro, false⟩, ⟨5, 1, .ro, false⟩, ⟨6, 1, .ro, false⟩, ⟨7, 1, .ro, false⟩, ⟨8, 4, .ro, false⟩, ⟨12, 1, .ro, false⟩], true⟩,
  ⟨"CL_GEN_A", 0x80044, 1, 0x4, 1, 1, 0x0, [⟨0, 32, .ro, false⟩], true⟩,
  ⟨"CL_GEN_B", 0x80048, 1, 0x4, 1, 1, 0x0, [⟨0, 32, .ro, false⟩], true⟩,
  ⟨"CL_IMAGE_ID", 0x8004C, 1, 0x4, 1, 1, 0x0, [⟨0, 32, .ro, false⟩], true⟩,
  ⟨"CL_START_T", 0x80050, 1, 0x4, 1, 1, 0x0, [⟨0, 16, .ro, false⟩, ⟨16, 16, .ro, false⟩], true⟩,
  ⟨"CL_SU_ADDR_LO", 0x80058, 1, 0x4, 1, 1, 0x0, [⟨0, 32, .ros, true⟩], true⟩,
  ⟨"CL_SU_ADDR_HI", 0x8005C, 1, 0x4, 1, 1, 0x0, [⟨0, 32, .ros, true⟩], true⟩,
  ⟨"CL_SU_CTL", 0x80060, 1, 0x4, 1, 1, 0x0, [⟨0, 1, .ros, true⟩, ⟨1, 1, .ros, true⟩], true⟩,
  ⟨"CL_SU_STAT", 0x80064, 1, 0x4, 1, 1, 0x0, [⟨0, 3, .ro, false⟩, ⟨3, 3, .ro, false⟩, ⟨6, 1, .ro, false⟩, ⟨8, 12, .ro, false⟩], true⟩]

/-- The SB_ registers (R668 and their own tables). -/
def regsSb : List RegRow := [
  ⟨"SB_STATUS", 0xC0000, 1, 0x4, 1, 1, 0x0, [⟨0, 1, .rcs, false⟩, ⟨1, 1, .rcs, false⟩, ⟨2, 1, .rcs, false⟩, ⟨3, 1, .rcs, false⟩, ⟨4, 1, .rcs, false⟩, ⟨5, 1, .rcs, false⟩, ⟨6, 1, .rcs, false⟩, ⟨7, 1, .rcs, false⟩, ⟨24, 8, .rcs, false⟩], false⟩,
  ⟨"SB_JOURNAL", 0xC0004, 1, 0x4, 1, 1, 0x10000, [⟨0, 17, .ro, false⟩], false⟩,
  ⟨"SB_JLIVE", 0xC0008, 1, 0x4, 1, 1, 0x0, [⟨0, 17, .ro, false⟩], false⟩,
  ⟨"SB_JSEQ_LO", 0xC0010, 1, 0x4, 1, 1, 0x0, [⟨0, 32, .ro, false⟩], false⟩,
  ⟨"SB_JSEQ_HI", 0xC0014, 1, 0x4, 1, 1, 0x0, [⟨0, 32, .ro, false⟩], false⟩,
  ⟨"SB_CKPT", 0xC0018, 1, 0x4, 1, 1, 0x64, [⟨0, 16, .rwu, false⟩], false⟩,
  ⟨"SB_CKSTAT", 0xC001C, 1, 0x4, 1, 1, 0x0, [⟨0, 31, .ro, false⟩, ⟨31, 1, .ro, false⟩], false⟩,
  ⟨"SB_DIRTY", 0xC0020, 1, 0x4, 1, 1, 0x0, [⟨0, 10, .ro, false⟩], false⟩,
  ⟨"SB_VCTL", 0xC0040, 1, 0x4, 1, 1, 0x0, [⟨0, 1, .wm, true⟩, ⟨1, 1, .wm, true⟩, ⟨2, 1, .wm, true⟩, ⟨3, 1, .wm, true⟩], false⟩,
  ⟨"SB_VSTAT", 0xC0044, 1, 0x4, 1, 1, 0x0, [⟨0, 2, .ro, false⟩, ⟨2, 9, .ro, false⟩], false⟩,
  ⟨"SB_VCHK", 0xC0048, 1, 0x4, 1, 1, 0x0, [⟨0, 32, .rw, true⟩], false⟩,
  ⟨"SB_VSEQ", 0xC004C, 1, 0x4, 1, 1, 0x0, [⟨0, 32, .ro, false⟩], false⟩,
  ⟨"SB_CNT", 0xC0080, 10, 0x4, 1, 1, 0x0, [⟨0, 32, .ro, false⟩], false⟩]

/-- The HP_ registers (R668 and their own tables). -/
def regsHp : List RegRow := [
  ⟨"HP_FNID", 0x100000, 1, 0x4, 1, 1, 0x0, [⟨0, 5, .ro, false⟩], false⟩,
  ⟨"HP_LINK", 0x100004, 1, 0x4, 1, 1, 0x0, [⟨0, 3, .ro, false⟩, ⟨3, 5, .ro, false⟩, ⟨8, 1, .ro, false⟩, ⟨9, 1, .ro, false⟩], false⟩,
  ⟨"HP_STATUS", 0x100008, 1, 0x4, 1, 1, 0x0, [⟨0, 1, .rcs, false⟩, ⟨1, 1, .rcs, false⟩, ⟨2, 1, .rcs, false⟩, ⟨3, 1, .rcs, false⟩, ⟨4, 1, .rcs, false⟩, ⟨5, 1, .rcs, false⟩, ⟨6, 1, .rcs, false⟩, ⟨7, 1, .rcs, false⟩, ⟨8, 1, .rcs, false⟩, ⟨24, 8, .rcs, false⟩], false⟩,
  ⟨"HP_PTM_CFG", 0x10000C, 1, 0x4, 1, 1, 0xA01, [⟨0, 1, .rw, true⟩, ⟨1, 1, .rw, true⟩, ⟨8, 8, .rw, true⟩], false⟩,
  ⟨"HP_PTM_STAT", 0x100010, 1, 0x4, 1, 1, 0x0, [⟨0, 1, .ro, false⟩, ⟨1, 1, .ro, false⟩, ⟨2, 1, .ro, false⟩], false⟩,
  ⟨"HP_TIME_LO", 0x100018, 1, 0x4, 1, 1, 0x0, [⟨0, 32, .ro, false⟩], false⟩,
  ⟨"HP_TIME_HI", 0x10001C, 1, 0x4, 1, 1, 0x0, [⟨0, 32, .ro, false⟩], false⟩,
  ⟨"HP_PTM_ERR_LO", 0x100020, 1, 0x4, 1, 1, 0x0, [⟨0, 32, .ro, false⟩], false⟩,
  ⟨"HP_PTM_ERR_HI", 0x100024, 1, 0x4, 1, 1, 0x0, [⟨0, 32, .ro, false⟩], false⟩,
  ⟨"HP_CNT", 0x100040, 14, 0x4, 1, 1, 0x0, [⟨0, 32, .ro, false⟩], false⟩,
  ⟨"HP_FN_CFG", 0x101000, 32, 0x4, 1, 1, 0x0, [⟨0, 8, .rwu, true⟩, ⟨8, 8, .rwu, true⟩], false⟩,
  ⟨"HP_PERM", 0x140000, 16384, 0x4, 1, 1, 0x0, [⟨0, 32, .rw, true⟩], false⟩]

/-- The RK_ registers (R668 and their own tables). -/
def regsRk : List RegRow := [
  ⟨"RK_CFG", 0x180000, 1, 0x4, 1, 1, 0xA, [⟨0, 16, .rwu, false⟩], false⟩,
  ⟨"RK_STATUS", 0x180004, 1, 0x4, 1, 1, 0x0, [⟨0, 1, .rcs, false⟩, ⟨1, 1, .rcs, false⟩, ⟨2, 1, .rcs, false⟩, ⟨3, 1, .rcs, false⟩, ⟨4, 1, .rcs, false⟩, ⟨5, 1, .rcs, false⟩, ⟨24, 8, .rcs, false⟩], false⟩,
  ⟨"RK_SWTRIG", 0x180008, 1, 0x4, 1, 1, 0x0, [⟨0, 16, .wm, true⟩], false⟩,
  ⟨"RK_CNT", 0x180040, 14, 0x4, 1, 1, 0x0, [⟨0, 32, .ro, false⟩], false⟩,
  ⟨"RK_ISRC_A", 0x180100, 64, 0x8, 1, 1, 0x1000, [⟨0, 4, .rw, true⟩, ⟨4, 8, .rw, true⟩, ⟨12, 1, .rw, true⟩, ⟨13, 1, .rw, true⟩, ⟨14, 1, .rw, true⟩, ⟨16, 11, .rw, true⟩, ⟨27, 3, .ro, true⟩], false⟩,
  ⟨"RK_ISRC_B", 0x180104, 64, 0x8, 1, 1, 0x0, [⟨0, 14, .rw, true⟩, ⟨16, 4, .rw, true⟩], false⟩,
  ⟨"RK_NSRC_A", 0x188000, 4096, 0x8, 1, 1, 0x0, [⟨0, 4, .rw, true⟩, ⟨4, 8, .rw, true⟩, ⟨12, 4, .rw, true⟩, ⟨16, 14, .rw, true⟩], false⟩,
  ⟨"RK_NSRC_B", 0x188004, 4096, 0x8, 1, 1, 0xFFFF, [⟨0, 16, .wm, true⟩], false⟩,
  ⟨"RK_NSTATE", 0x190000, 4096, 0x4, 1, 1, 0x0, [⟨0, 32, .ro, true⟩], false⟩,
  ⟨"RK_CQI_CFG", 0x1A0000, 8192, 0x8, 1, 1, 0x10000, [⟨0, 11, .rw, false⟩, ⟨11, 1, .rw, false⟩, ⟨16, 8, .rw, false⟩], false⟩,
  ⟨"RK_CQI_TIME", 0x1A0004, 8192, 0x8, 1, 1, 0x0, [⟨0, 16, .rw, false⟩, ⟨16, 8, .ro, false⟩], false⟩]

/-- The FB_ registers (R668 and their own tables). -/
def regsFb : List RegRow := [
  ⟨"FB_PRIO", 0x200000, 12, 0x40, 12, 4, 0x0, [⟨0, 4, .rw, false⟩, ⟨8, 4, .rwu, false⟩, ⟨12, 4, .rwu, false⟩, ⟨16, 8, .ro, false⟩], false⟩,
  ⟨"FB_OUT_CFG", 0x200400, 12, 0x10, 1, 1, 0x1000, [⟨0, 1, .rwu, false⟩, ⟨1, 1, .rwu, false⟩, ⟨8, 8, .rwu, false⟩], false⟩,
  ⟨"FB_OUT_STAT", 0x200404, 12, 0x10, 1, 1, 0x0, [⟨0, 4, .ro, false⟩, ⟨4, 1, .ro, false⟩], false⟩,
  ⟨"FB_OUT_FORCED", 0x200408, 12, 0x10, 2, 4, 0x0, [⟨0, 32, .ro, false⟩], false⟩,
  ⟨"FB_TUNE", 0x200500, 1, 0x4, 1, 1, 0xA, [⟨0, 10, .rwu, false⟩, ⟨31, 1, .rw, false⟩], false⟩,
  ⟨"FB_TUNE_THR", 0x200504, 1, 0x4, 1, 1, 0x400008, [⟨0, 13, .rwu, false⟩, ⟨16, 13, .rwu, false⟩], false⟩]

/-- The FU_ registers (R668 and their own tables). -/
def regsFu : List RegRow := [
  ⟨"FU_CFG", 0x280000, 1, 0x4, 1, 1, 0x640004, [⟨0, 4, .rwu, false⟩, ⟨16, 16, .rwu, false⟩], false⟩,
  ⟨"FU_STATUS", 0x280004, 1, 0x4, 1, 1, 0x0, [⟨0, 4, .rcs, false⟩, ⟨4, 1, .rcs, false⟩, ⟨5, 1, .rcs, false⟩, ⟨24, 8, .rcs, false⟩], false⟩,
  ⟨"FU_CTL", 0x280100, 24, 0x20, 1, 1, 0x0, [⟨0, 1, .wm, false⟩], false⟩,
  ⟨"FU_STAT", 0x280104, 24, 0x20, 1, 1, 0x0, [⟨0, 13, .ro, false⟩, ⟨16, 4, .ro, false⟩, ⟨20, 1, .ro, false⟩, ⟨21, 1, .ro, false⟩], false⟩,
  ⟨"FU_EVT", 0x280108, 24, 0x20, 1, 1, 0x0, [⟨0, 1, .rcs, false⟩, ⟨1, 1, .rcs, false⟩, ⟨2, 1, .rcs, false⟩, ⟨3, 1, .rcs, false⟩, ⟨24, 8, .rcs, false⟩], false⟩,
  ⟨"FU_CEC", 0x28010C, 24, 0x20, 1, 1, 0x0, [⟨0, 32, .ro, false⟩], false⟩,
  ⟨"FU_BAD", 0x280110, 24, 0x20, 2, 4, 0x0, [⟨0, 32, .ro, false⟩], false⟩,
  ⟨"FU_TG_CEC", 0x280400, 8, 0x10, 1, 1, 0x0, [⟨0, 32, .ro, false⟩], false⟩,
  ⟨"FU_TG_DROP", 0x280404, 8, 0x10, 1, 1, 0x0, [⟨0, 32, .ro, false⟩], false⟩,
  ⟨"FU_TG_EVT", 0x280408, 8, 0x10, 1, 1, 0x0, [⟨0, 1, .rcs, false⟩, ⟨1, 1, .rcs, false⟩, ⟨2, 1, .rcs, false⟩, ⟨3, 1, .rcs, false⟩, ⟨24, 8, .rcs, false⟩], false⟩]

/-- The BW_ registers (R668 and their own tables). -/
def regsBw : List RegRow := [
  ⟨"BW_CH_CFG", 0x300000, 256, 0x40, 1, 1, 0x0, [⟨0, 1, .rw, false⟩, ⟨1, 1, .rw, false⟩, ⟨2, 2, .rw, false⟩, ⟨4, 3, .rw, false⟩, ⟨7, 1, .rw, false⟩, ⟨8, 3, .rw, false⟩, ⟨16, 13, .rw, false⟩], false⟩,
  ⟨"BW_CH_OWN", 0x300004, 256, 0x40, 1, 1, 0x0, [⟨0, 5, .rw, true⟩], false⟩,
  ⟨"BW_CH_PACE", 0x300008, 256, 0x40, 1, 1, 0x0, [⟨0, 12, .rw, false⟩, ⟨16, 16, .rw, false⟩], false⟩,
  ⟨"BW_CH_CTL", 0x30000C, 256, 0x40, 1, 1, 0x0, [⟨0, 1, .wm, false⟩, ⟨1, 1, .wm, false⟩, ⟨2, 1, .wm, false⟩, ⟨3, 1, .wm, false⟩], false⟩,
  ⟨"BW_CH_STATE", 0x300010, 256, 0x40, 1, 1, 0x0, [⟨0, 3, .ro, false⟩, ⟨3, 1, .ro, false⟩, ⟨4, 4, .ro, false⟩, ⟨8, 2, .ro, false⟩, ⟨16, 16, .ro, false⟩], false⟩,
  ⟨"BW_CH_DONE", 0x300014, 256, 0x40, 1, 1, 0x0, [⟨0, 32, .ro, false⟩], false⟩,
  ⟨"BW_CH_STAT", 0x300018, 256, 0x40, 1, 1, 0x0, [⟨0, 1, .rcs, false⟩, ⟨1, 1, .rcs, false⟩, ⟨2, 1, .rcs, false⟩, ⟨3, 1, .rcs, false⟩, ⟨4, 1, .rcs, false⟩, ⟨24, 8, .rcs, false⟩], false⟩,
  ⟨"BW_CH_PEND", 0x30001C, 256, 0x40, 1, 1, 0x0, [⟨0, 8, .ro, false⟩], false⟩,
  ⟨"BW_CH_COUNT", 0x300020, 256, 0x40, 2, 4, 0x0, [⟨0, 32, .ro, false⟩], false⟩,
  ⟨"BW_UNIT_STAT", 0x308000, 16, 0x10, 1, 1, 0x0, [⟨0, 4, .ro, false⟩, ⟨4, 4, .ro, false⟩], false⟩,
  ⟨"BW_UNIT_CEC", 0x308004, 16, 0x10, 1, 1, 0x0, [⟨0, 32, .ro, false⟩], false⟩]

/-- The KP_ registers (R668 and their own tables). -/
def regsKp : List RegRow := [
  ⟨"KP_CFG", 0x400000, 4, 0x1000, 1, 1, 0x48, [⟨0, 2, .rwu, false⟩, ⟨2, 1, .rwu, false⟩, ⟨3, 1, .rwu, false⟩, ⟨4, 4, .rwu, false⟩], false⟩,
  ⟨"KP_DEG_CFG", 0x400004, 4, 0x1000, 1, 1, 0xC043C64, [⟨0, 8, .rwu, false⟩, ⟨8, 4, .rwu, false⟩, ⟨12, 4, .rwu, false⟩, ⟨16, 8, .rwu, false⟩, ⟨24, 4, .rwu, false⟩, ⟨31, 1, .rw, false⟩], false⟩,
  ⟨"KP_CTL", 0x400008, 4, 0x1000, 1, 1, 0x0, [⟨0, 1, .wm, false⟩, ⟨1, 1, .wm, false⟩], false⟩,
  ⟨"KP_STATE", 0x40000C, 4, 0x1000, 1, 1, 0x0, [⟨0, 3, .ro, false⟩, ⟨3, 2, .ro, false⟩, ⟨5, 1, .ro, false⟩, ⟨6, 4, .ro, false⟩, ⟨10, 4, .ro, false⟩, ⟨14, 7, .ro, false⟩, ⟨21, 1, .ro, false⟩, ⟨22, 4, .ro, false⟩], false⟩,
  ⟨"KP_RTT", 0x400010, 4, 0x1000, 1, 1, 0x0, [⟨0, 16, .ro, false⟩], false⟩,
  ⟨"KP_STATUS", 0x400014, 4, 0x1000, 1, 1, 0x0, [⟨0, 1, .rcs, false⟩, ⟨1, 1, .rcs, false⟩, ⟨2, 1, .rcs, false⟩, ⟨3, 1, .rcs, false⟩, ⟨4, 1, .rcs, false⟩, ⟨5, 1, .rcs, false⟩, ⟨6, 1, .rcs, false⟩, ⟨7, 1, .rcs, false⟩, ⟨8, 1, .rcs, false⟩, ⟨24, 8, .rcs, false⟩], false⟩,
  ⟨"KP_RXGRANT", 0x400018, 4, 0x1000, 1, 1, 0x8112, [⟨0, 4, .rwu, false⟩, ⟨4, 4, .rwu, false⟩, ⟨8, 4, .rwu, false⟩, ⟨12, 8, .rwu, false⟩], false⟩,
  ⟨"KP_CNT", 0x400040, 4, 0x1000, 22, 4, 0x0, [⟨0, 32, .ro, false⟩], false⟩,
  ⟨"KP_NT_SEL", 0x410000, 1, 0x4, 1, 1, 0x0, [⟨0, 12, .rw, true⟩], false⟩,
  ⟨"KP_NT_DATA", 0x410100, 64, 0x4, 1, 1, 0x0, [⟨0, 32, .ro, true⟩], false⟩,
  ⟨"KP_ENUM_CTL", 0x410010, 4, 0x4, 1, 1, 0x0, [⟨0, 1, .wm, true⟩], false⟩,
  ⟨"KP_ENUM_STAT", 0x410020, 4, 0x4, 1, 1, 0x0, [⟨0, 1, .rcs, false⟩, ⟨1, 1, .rcs, false⟩, ⟨2, 1, .rcs, false⟩, ⟨3, 1, .rcs, false⟩, ⟨4, 1, .rcs, false⟩, ⟨5, 1, .rcs, false⟩, ⟨6, 1, .rcs, false⟩, ⟨7, 1, .rcs, false⟩, ⟨24, 8, .rcs, false⟩], false⟩,
  ⟨"KP_ENUM_RES", 0x410030, 4, 0x4, 1, 1, 0x0, [⟨0, 11, .ro, false⟩, ⟨11, 11, .ro, false⟩], false⟩]

/-- The TW_ registers (R668 and their own tables). -/
def regsTw : List RegRow := [
  ⟨"TWL_CFG", 0x480000, 1, 0x4, 1, 1, 0x48, [⟨0, 2, .rwu, false⟩, ⟨2, 1, .rwu, false⟩, ⟨3, 1, .rwu, false⟩, ⟨4, 4, .rwu, false⟩], false⟩,
  ⟨"TWL_DEG_CFG", 0x480004, 1, 0x4, 1, 1, 0xC043C64, [⟨0, 8, .rwu, false⟩, ⟨8, 4, .rwu, false⟩, ⟨12, 4, .rwu, false⟩, ⟨16, 8, .rwu, false⟩, ⟨24, 4, .rwu, false⟩, ⟨31, 1, .rw, false⟩], false⟩,
  ⟨"TWL_CTL", 0x480008, 1, 0x4, 1, 1, 0x0, [⟨0, 1, .wm, false⟩, ⟨1, 1, .wm, false⟩], false⟩,
  ⟨"TWL_STATE", 0x48000C, 1, 0x4, 1, 1, 0x0, [⟨0, 3, .ro, false⟩, ⟨3, 2, .ro, false⟩, ⟨5, 1, .ro, false⟩, ⟨6, 4, .ro, false⟩, ⟨10, 4, .ro, false⟩, ⟨14, 7, .ro, false⟩, ⟨21, 1, .ro, false⟩, ⟨22, 4, .ro, false⟩], false⟩,
  ⟨"TWL_RTT", 0x480010, 1, 0x4, 1, 1, 0x0, [⟨0, 16, .ro, false⟩], false⟩,
  ⟨"TWL_STATUS", 0x480014, 1, 0x4, 1, 1, 0x0, [⟨0, 1, .rcs, false⟩, ⟨1, 1, .rcs, false⟩, ⟨2, 1, .rcs, false⟩, ⟨3, 1, .rcs, false⟩, ⟨4, 1, .rcs, false⟩, ⟨5, 1, .rcs, false⟩, ⟨6, 1, .rcs, false⟩, ⟨7, 1, .rcs, false⟩, ⟨8, 1, .rcs, false⟩, ⟨24, 8, .rcs, false⟩], false⟩,
  ⟨"TWL_RXGRANT", 0x480018, 1, 0x4, 1, 1, 0x8112, [⟨0, 4, .rwu, false⟩, ⟨4, 4, .rwu, false⟩, ⟨8, 4, .rwu, false⟩, ⟨12, 8, .rwu, false⟩], false⟩,
  ⟨"TWL_CNT", 0x480040, 1, 0x4, 22, 4, 0x0, [⟨0, 32, .ro, false⟩], false⟩,
  ⟨"TW_CFG", 0x481000, 1, 0x4, 1, 1, 0x6432141E, [⟨0, 1, .rwu, true⟩, ⟨1, 4, .rwu, true⟩, ⟨8, 8, .rwu, true⟩, ⟨16, 8, .rwu, true⟩, ⟨24, 8, .rwu, true⟩], false⟩,
  ⟨"TW_CTL", 0x481004, 1, 0x4, 1, 1, 0x0, [⟨0, 1, .wm, true⟩, ⟨1, 1, .wm, true⟩], false⟩,
  ⟨"TW_STATE", 0x481008, 1, 0x4, 1, 1, 0x0, [⟨0, 3, .ro, false⟩, ⟨3, 1, .ro, false⟩, ⟨4, 1, .ro, false⟩, ⟨5, 1, .ro, false⟩, ⟨6, 1, .ro, false⟩, ⟨7, 1, .ro, false⟩, ⟨8, 1, .ro, false⟩], false⟩,
  ⟨"TW_STATUS", 0x48100C, 1, 0x4, 1, 1, 0x0, [⟨0, 1, .rcs, false⟩, ⟨1, 1, .rcs, false⟩, ⟨2, 1, .rcs, false⟩, ⟨3, 1, .rcs, false⟩, ⟨4, 1, .rcs, false⟩, ⟨5, 1, .rcs, false⟩, ⟨6, 1, .rcs, false⟩, ⟨7, 1, .rcs, false⟩, ⟨8, 1, .rcs, false⟩, ⟨24, 8, .rcs, false⟩], false⟩,
  ⟨"TW_EPOCH", 0x481010, 1, 0x4, 1, 1, 0x0, [⟨0, 32, .ro, false⟩], false⟩,
  ⟨"TW_LAG", 0x481014, 1, 0x4, 1, 1, 0x0, [⟨0, 16, .ro, false⟩, ⟨16, 7, .ro, false⟩], false⟩,
  ⟨"TW_CNT", 0x481040, 8, 0x4, 1, 1, 0x0, [⟨0, 32, .ro, false⟩], false⟩]

/-- The TE_ registers (R668 and their own tables). -/
def regsTe : List RegRow := [
  ⟨"TE_MIG_CFG", 0x610000, 1, 0x4, 1, 1, 0x8100064, [⟨0, 10, .rwu, false⟩, ⟨16, 8, .rwu, false⟩, ⟨24, 4, .rwu, false⟩, ⟨31, 1, .rw, false⟩], false⟩,
  ⟨"TE_TG_LOAD", 0x610010, 8, 0x4, 1, 1, 0x0, [⟨0, 8, .ro, false⟩, ⟨8, 8, .ro, false⟩], false⟩,
  ⟨"TE_GRP_CTL", 0x600000, 8, 0x8, 1, 1, 0x0, [⟨0, 1, .rw, true⟩], false⟩,
  ⟨"TE_GRP_STAT", 0x600004, 8, 0x8, 1, 1, 0xFF00, [⟨0, 8, .ro, false⟩, ⟨8, 8, .ro, false⟩, ⟨16, 1, .ro, false⟩], false⟩,
  ⟨"TE_STATUS", 0x600040, 1, 0x4, 1, 1, 0x0, [⟨0, 1, .rcs, false⟩, ⟨24, 8, .rcs, false⟩], false⟩]

/-- The GR_ registers (R668 and their own tables). -/
def regsGr : List RegRow := [
  ⟨"GR_CFG", 0x680000, 1, 0x4, 1, 1, 0xA0064, [⟨0, 16, .rwu, false⟩, ⟨16, 8, .rwu, false⟩], false⟩,
  ⟨"GR_STATUS", 0x680004, 1, 0x4, 1, 1, 0x0, [⟨0, 1, .rcs, false⟩, ⟨1, 1, .rcs, false⟩, ⟨2, 1, .rcs, false⟩, ⟨3, 1, .rcs, false⟩, ⟨4, 1, .rcs, false⟩, ⟨24, 8, .rcs, false⟩], false⟩,
  ⟨"GR_OPEN", 0x680008, 1, 0x4, 1, 1, 0x0, [⟨0, 11, .ro, false⟩, ⟨11, 11, .ro, false⟩], false⟩,
  ⟨"GR_TSERIAL", 0x68000C, 1, 0x4, 1, 1, 0x0, [⟨0, 32, .ro, false⟩], false⟩,
  ⟨"GR_RECOV", 0x680010, 1, 0x4, 1, 1, 0x0, [⟨0, 11, .ro, false⟩, ⟨11, 11, .ro, false⟩], false⟩,
  ⟨"GR_CNT", 0x680040, 26, 0x4, 1, 1, 0x0, [⟨0, 32, .ro, false⟩], false⟩]

/-- The WD_ registers (R668 and their own tables). -/
def regsWd : List RegRow := [
  ⟨"WD_STATUS", 0x6A0000, 1, 0x4, 1, 1, 0x0, [⟨0, 1, .rcs, false⟩, ⟨1, 1, .rcs, false⟩, ⟨2, 1, .rcs, false⟩, ⟨24, 8, .rcs, false⟩], false⟩,
  ⟨"WD_STATE", 0x6A0004, 1, 0x4, 1, 1, 0x0, [⟨0, 11, .ro, false⟩, ⟨11, 11, .ro, false⟩], false⟩,
  ⟨"WD_LAST", 0x6A0008, 1, 0x4, 1, 1, 0x0, [⟨0, 14, .ro, false⟩, ⟨14, 1, .ro, false⟩, ⟨15, 11, .ro, false⟩], false⟩,
  ⟨"WD_CNT", 0x6A0010, 4, 0x4, 1, 1, 0x0, [⟨0, 32, .ro, false⟩], false⟩]

/-- The TS_ registers (R668 and their own tables). -/
def regsTs : List RegRow := [
  ⟨"TS_LB_CTL", 0x700000, 6, 0x100, 1, 1, 0x0, [⟨0, 3, .rw, true⟩, ⟨4, 2, .rw, true⟩, ⟨8, 16, .rw, true⟩], false⟩,
  ⟨"TS_LB_STAT", 0x700004, 6, 0x100, 1, 1, 0x0, [⟨0, 1, .ro, false⟩, ⟨1, 1, .ro, false⟩], false⟩,
  ⟨"TS_LB_CHK", 0x700008, 6, 0x100, 2, 4, 0x0, [⟨0, 32, .ro, false⟩], false⟩,
  ⟨"TS_LB_ERR", 0x700040, 6, 0x100, 16, 4, 0x0, [⟨0, 32, .ro, false⟩], false⟩,
  ⟨"TS_SPI_ADDR", 0x700800, 1, 0x4, 1, 1, 0x0, [⟨0, 24, .rw, true⟩], false⟩,
  ⟨"TS_SPI_LEN", 0x700804, 1, 0x4, 1, 1, 0x1, [⟨0, 13, .rw, true⟩], false⟩,
  ⟨"TS_SPI_CTL", 0x700808, 1, 0x4, 1, 1, 0x0, [⟨0, 1, .rw, true⟩], false⟩,
  ⟨"TS_SPI_STAT", 0x70080C, 1, 0x4, 1, 1, 0x0, [⟨0, 2, .ro, false⟩, ⟨8, 24, .ro, false⟩], false⟩,
  ⟨"TS_SPI_CRC", 0x700810, 1, 0x4, 1, 1, 0x0, [⟨0, 32, .ro, false⟩], false⟩,
  ⟨"TS_BIST_CTL", 0x700900, 1, 0x4, 1, 1, 0x0, [⟨0, 4, .rw, true⟩, ⟨4, 1, .rw, true⟩], false⟩,
  ⟨"TS_BIST_STAT", 0x700904, 1, 0x4, 1, 1, 0x0, [⟨0, 3, .ro, false⟩, ⟨8, 8, .ro, false⟩], false⟩,
  ⟨"TS_SCRUB", 0x700A00, 1, 0x4, 1, 1, 0x3C14, [⟨0, 8, .rwu, false⟩, ⟨8, 8, .rwu, false⟩, ⟨31, 1, .rw, true⟩], false⟩,
  ⟨"TS_INJ", 0x700A10, 1, 0x4, 1, 1, 0x0, [⟨0, 3, .rw, true⟩, ⟨3, 3, .rw, true⟩, ⟨6, 6, .rw, true⟩, ⟨15, 1, .rw, true⟩], false⟩,
  ⟨"TS_STATUS", 0x700F00, 1, 0x4, 1, 1, 0x0, [⟨0, 1, .rcs, false⟩, ⟨1, 1, .rcs, false⟩, ⟨2, 1, .rcs, false⟩, ⟨3, 1, .rcs, false⟩, ⟨4, 1, .rcs, false⟩, ⟨5, 1, .rcs, false⟩, ⟨6, 1, .rcs, false⟩, ⟨24, 8, .rcs, false⟩], false⟩]

/-- The TQ_ registers (R668 and their own tables). -/
def regsTq : List RegRow := [
  ⟨"TQ_CFG", 0x800000, 8192, 0x400, 1, 1, 0x0, [⟨0, 1, .rw, false⟩, ⟨1, 2, .rw, false⟩, ⟨3, 1, .rw, false⟩, ⟨4, 1, .rw, false⟩, ⟨8, 5, .rw, false⟩, ⟨16, 13, .rw, false⟩], false⟩,
  ⟨"TQ_BASE_LO", 0x800004, 8192, 0x400, 1, 1, 0x0, [⟨12, 20, .rw, false⟩], false⟩,
  ⟨"TQ_BASE_HI", 0x800008, 8192, 0x400, 1, 1, 0x0, [⟨0, 32, .rw, false⟩], false⟩,
  ⟨"TQ_OWNER", 0x80000C, 8192, 0x400, 1, 1, 0x0, [⟨0, 5, .rw, true⟩], false⟩,
  ⟨"TQ_FETCH", 0x800010, 8192, 0x400, 1, 1, 0x400C0, [⟨0, 4, .rwb, false⟩, ⟨4, 4, .rwb, false⟩, ⟨8, 4, .ro, false⟩, ⟨12, 1, .rw, false⟩, ⟨16, 7, .rwb, false⟩], false⟩,
  ⟨"TQ_HEAD", 0x800014, 8192, 0x400, 1, 1, 0x0, [⟨0, 16, .ro, false⟩, ⟨16, 1, .ro, false⟩], false⟩,
  ⟨"TQ_TAIL", 0x800018, 8192, 0x400, 1, 1, 0x0, [⟨0, 16, .ro, false⟩, ⟨16, 1, .ro, false⟩], false⟩,
  ⟨"TQ_STATUS", 0x80001C, 8192, 0x400, 1, 1, 0x0, [⟨0, 1, .rcs, false⟩, ⟨1, 1, .rcs, false⟩, ⟨2, 1, .rcs, false⟩, ⟨3, 1, .rcs, false⟩, ⟨4, 1, .rcs, false⟩, ⟨5, 1, .rcs, false⟩, ⟨6, 1, .rcs, false⟩, ⟨24, 8, .rcs, false⟩], false⟩,
  ⟨"TQ_COUNT", 0x800020, 8192, 0x400, 2, 4, 0x0, [⟨0, 32, .ro, false⟩], false⟩,
  ⟨"TQ_HELD", 0x800028, 8192, 0x400, 1, 1, 0x0, [⟨0, 15, .ro, false⟩, ⟨15, 17, .ro, false⟩], false⟩]

/-- The SC_ registers (R668 and their own tables). -/
def regsSc : List RegRow := [
  ⟨"SC_OWNER", 0x3000200, 16384, 0x400, 1, 1, 0x0, [⟨0, 5, .rw, true⟩], false⟩]

/-- The rows of the block an offset lies in (R668). -/
def regBlock (off : Nat) : List RegRow :=
  if off < 0x40000 then regsGlb else
  if off < 0x80000 then regsPr else
  if off < 0xC0000 then regsCl else
  if off < 0x100000 then regsSb else
  if off < 0x180000 then regsHp else
  if off < 0x200000 then regsRk else
  if off < 0x280000 then regsFb else
  if off < 0x300000 then regsFu else
  if off < 0x400000 then regsBw else
  if off < 0x480000 then regsKp else
  if off < 0x600000 then regsTw else
  if off < 0x680000 then regsTe else
  if off < 0x6A0000 then regsGr else
  if off < 0x700000 then regsWd else
  if off < 0x800000 then regsTs else
  if off < 0x1000000 then regsTq else
  regsSc

/-- Reset values of PR_REACT0 to PR_REACT7: the Default column of R604. -/
def reactReset (k : Nat) : Nat :=
  match k with
  | 0 => 0x55555555
  | 1 => 0x5555
  | 2 => 0x50050000
  | 3 => 0x555
  | 4 => 0x821000
  | 5 => 0x200582A2
  | 6 => 0x88800
  | _ => 0

/-- The first index of an offset in a row, and the second. -/
def RegRow.ix (r : RegRow) (off : Nat) : Nat × Nat := ((off - r.base) / r.s1, (off - r.base) % r.s1 / r.s2)

/-- Whether an offset names a register of the row. -/
def RegRow.has (r : RegRow) (off : Nat) : Bool :=
  decide (r.base ≤ off) && decide ((r.ix off).1 < r.n1) && decide ((r.ix off).2 < r.n2) &&
  decide ((off - r.base) % r.s1 % r.s2 = 0)

/-- The register at a BAR0 offset (R668); none: a reserved location (R649). -/
def regAt (off : Nat) : Option RegRow := (regBlock off).find? fun r => r.has off

/-- Reset value of FB_PRIO for requester `r`: 12 for the Seedbank link, 10 for Trellis, else 8, in PRIO, FLOOR and CEIL. -/
def prioReset (r : Nat) : Nat := (if r = 6 then 12 else if r = 11 then 10 else 8) * 0x1101

/-- The reset value of a register. -/
def regReset (off : Nat) : Word :=
  match regAt off with
  | none => 0
  | some r =>
    if r.base = 0x200000 then BitVec.ofNat 32 (prioReset (r.ix off).2)
    else if r.base = 0x300000 then (if 128 ≤ (r.ix off).1 then 2 else 0)
    else if r.base = 0x140000 then (if off % 16 = 0 then 0xF else 0)
    else if r.base = 0x101000 then (if off = 0x101000 then 0x8000 else 0)
    else if r.base = 0x40050 then BitVec.ofNat 32 (reactReset (r.ix off).1)
    else if off = 4 then Config.serial.setWidth 32
    else if off = 8 then (Config.serial >>> 32).setWidth 32
    else BitVec.ofNat 32 r.reset

/-- The bits of a register whose field satisfies a test. -/
def RegRow.mask (r : RegRow) (p : RegField → Bool) : Word :=
  (r.fields.filter p).foldl (fun m f => m ||| BitVec.ofNat 32 ((2 ^ f.width - 1) * 2 ^ f.lo)) 0

end Sys2Proof.Machine
end

