-- ==== Sys2Proof/Machine/Ops.lean ====
section
/-! DEFINITION. The named operations over the state: registers and their fields, status bits set under R653, counters,
tables, time, codewords, context and node-table fields, free values. -/

namespace Sys2Proof.Machine

/-! ## Registers -/

/-- The value of a BAR0 register, as software reads it. -/
def State.reg (s : State) (off : Nat) : Word := SMap.get regReset s.regs off

/-- A state with a register replaced. -/
def State.setReg (s : State) (off : Nat) (w : Word) : State := { s with regs := SMap.set regReset s.regs off w }

/-- A register as a number. -/
def State.rn (s : State) (off : Nat) : Nat := (s.reg off).toNat

/-- A field of a register. -/
def State.rf (s : State) (off lo w : Nat) : Nat := bits (s.rn off) lo w

/-- A bit of a register. -/
def State.rb (s : State) (off k : Nat) : Bool := bitOn (s.rn off) k

/-- A state with a field of a register replaced. -/
def State.wf (s : State) (off lo w x : Nat) : State := s.setReg off (BitVec.ofNat 32 (setBits (s.rn off) lo w x))

/-- A state with a bit of a register replaced. -/
def State.wb (s : State) (off k : Nat) (b : Bool) : State := s.wf off k 1 (b2n b)

/-- The applied value of a buffered register (R657): it differs from the value read until its boundary or strobe. -/
def State.appReg (s : State) (off : Nat) : Word := SMap.get regReset s.applied off

/-- A state with an applied value replaced. -/
def State.setApp (s : State) (off : Nat) (w : Word) : State := { s with applied := SMap.set regReset s.applied off w }

/-- A field of an applied value. -/
def State.af (s : State) (off lo w : Nat) : Nat := bits (s.appReg off).toNat lo w

/-- A bit of an applied value. -/
def State.ab (s : State) (off k : Nat) : Bool := bitOn (s.appReg off).toNat k

/-- Hardware sets status bits of an RCS register (R653, R654): SEQ advances when a bit goes from 0 to 1. -/
def State.setStatus (s : State) (off mask : Nat) : State :=
  let v := s.reg off
  let m := BitVec.ofNat 32 (mask % 2 ^ 24)
  if m &&& ~~~v = 0 then s
  else s.setReg off (((v ||| m) &&& 0xFFFFFF) ||| ((v >>> 24) + 1) <<< 24)

/-- Sets one status bit. -/
def State.setBit (s : State) (off k : Nat) : State := s.setStatus off (2 ^ k)

/-- A 64-bit counter held as two registers (R664, R665): it wraps modulo 2^64. -/
def State.count64 (s : State) (off : Nat) : Nat := s.rn off + 2 ^ 32 * s.rn (off + 4)

/-- A state with a 64-bit value stored in two registers. -/
def State.set64 (s : State) (off v : Nat) : State :=
  (s.setReg off (BitVec.ofNat 32 v)).setReg (off + 4) (BitVec.ofNat 32 (v / 2 ^ 32))

/-- A 64-bit counter advances. -/
def State.bump (s : State) (off : Nat) (n : Nat := 1) : State := s.set64 off (s.count64 off + n)

/-- A 32-bit counter that saturates advances. -/
def State.bumpSat (s : State) (off : Nat) (n : Nat := 1) : State :=
  s.setReg off (BitVec.ofNat 32 (min (s.rn off + n) 0xFFFFFFFF))

/-! ## Offsets (R668) -/

/-- A register of queue `q`. -/
def tq (q k : Nat) : Nat := 0x800000 + 0x400 * q + k
/-- SC_OWNER of subchannel `sc` (R69). -/
def scOwner (sc : Nat) : Nat := 0x3000200 + 0x400 * sc
/-- A register of DMA channel `c`. -/
def bwCh (c k : Nat) : Nat := 0x300000 + 0x40 * c + k
/-- A register of Kalgen port `p`; port 4 is the twin link, whose registers lie at 0x0048_0000. -/
def kp (p k : Nat) : Nat := if p = 4 then 0x480000 + k else 0x400000 + 0x1000 * p + k
/-- A register of port Furrow `f`. -/
def fu (f k : Nat) : Nat := 0x280100 + 0x20 * f + k
/-- A register of the thread Furrows of group `g`. -/
def fuTg (g k : Nat) : Nat := 0x280400 + 0x10 * g + k
/-- RK_CQI_CFG of queue `q`; RK_CQI_TIME lies 4 above. -/
def cqi (q : Nat) : Nat := 0x1A0000 + 8 * q
/-- A counter of GLB_CNT, PR-free blocks: the base of the block's counters and the counter. -/
def cnt (base k : Nat) : Nat := base + 8 * k

/-! ## Tables -/

/-- The hidden state of queue `k`. -/
def State.queue (s : State) (k : Nat) : Queue := SMap.get (fun _ => {}) s.queues k

/-- A state with the hidden state of queue `k` replaced. -/
def State.setQueue (s : State) (k : Nat) (v : Queue) : State := { s with queues := SMap.set (fun _ => {}) s.queues k v }

/-- A state with the hidden state of queue `k` changed by `f`. -/
def State.modQueue (s : State) (k : Nat) (f : Queue → Queue) : State := s.setQueue k (f (s.queue k))

/-- The running chain of subchannel `k`. -/
def State.chain (s : State) (k : Nat) : Chain := SMap.get (fun _ => {}) s.chains k

/-- A state with the running chain of subchannel `k` replaced. -/
def State.setChain (s : State) (k : Nat) (v : Chain) : State := { s with chains := SMap.set (fun _ => {}) s.chains k v }

/-- A state with the running chain of subchannel `k` changed by `f`. -/
def State.modChain (s : State) (k : Nat) (f : Chain → Chain) : State := s.setChain k (f (s.chain k))

/-- Thread `k`. -/
def State.thread (s : State) (k : Nat) : Thread := SMap.get (fun _ => {}) s.threads k

/-- A state with thread `k` replaced. -/
def State.setThread (s : State) (k : Nat) (v : Thread) : State := { s with threads := SMap.set (fun _ => {}) s.threads k v }

/-- A state with thread `k` changed by `f`. -/
def State.modThread (s : State) (k : Nat) (f : Thread → Thread) : State := s.setThread k (f (s.thread k))

/-- Rake source `k`. -/
def State.src (s : State) (k : Nat) : Src := SMap.get (fun _ => {}) s.sources k

/-- A state with Rake source `k` replaced. -/
def State.setSrc (s : State) (k : Nat) (v : Src) : State := { s with sources := SMap.set (fun _ => {}) s.sources k v }

/-- A state with Rake source `k` changed by `f`. -/
def State.modSrc (s : State) (k : Nat) (f : Src → Src) : State := s.setSrc k (f (s.src k))

/-- Port Furrow `k`. -/
def State.furrow (s : State) (k : Nat) : Furrow := SMap.get (fun _ => {}) s.furrows k

/-- A state with port Furrow `k` replaced. -/
def State.setFurrow (s : State) (k : Nat) (v : Furrow) : State := { s with furrows := SMap.set (fun _ => {}) s.furrows k v }

/-- A state with port Furrow `k` changed by `f`. -/
def State.modFurrow (s : State) (k : Nat) (f : Furrow → Furrow) : State := s.setFurrow k (f (s.furrow k))

/-- Transfer `k`. -/
def State.xfer (s : State) (k : Nat) : (Option Xfer) := SMap.get (fun _ => none) s.xfers k

/-- A state with transfer `k` replaced. -/
def State.setXfer (s : State) (k : Nat) (v : (Option Xfer)) : State := { s with xfers := SMap.set (fun _ => none) s.xfers k v }

/-- DMA channel `k`. -/
def State.chan (s : State) (k : Nat) : Chan := SMap.get (fun _ => {}) s.chans k

/-- A state with DMA channel `k` replaced. -/
def State.setChan (s : State) (k : Nat) (v : Chan) : State := { s with chans := SMap.set (fun _ => {}) s.chans k v }

/-- A state with DMA channel `k` changed by `f`. -/
def State.modChan (s : State) (k : Nat) (f : Chan → Chan) : State := s.setChan k (f (s.chan k))

/-- Kalgen port `k`. -/
def State.port (s : State) (k : Nat) : Port := SMap.get (fun _ => {}) s.ports k

/-- A state with Kalgen port `k` replaced. -/
def State.setPort (s : State) (k : Nat) (v : Port) : State := { s with ports := SMap.set (fun _ => {}) s.ports k v }

/-- A state with Kalgen port `k` changed by `f`. -/
def State.modPort (s : State) (k : Nat) (f : Port → Port) : State := s.setPort k (f (s.port k))

/-- The exchange of operation handle `k`. -/
def State.op (s : State) (k : Nat) : (Option NOp) := SMap.get (fun _ => none) s.ops k

/-- A state with the exchange of operation handle `k` replaced. -/
def State.setOp (s : State) (k : Nat) (v : (Option NOp)) : State := { s with ops := SMap.set (fun _ => none) s.ops k v }

/-- Transaction `k`. -/
def State.txn (s : State) (k : Nat) : Txn := SMap.get (fun _ => {}) s.txns k

/-- A state with transaction `k` replaced. -/
def State.setTxn (s : State) (k : Nat) (v : Txn) : State := { s with txns := SMap.set (fun _ => {}) s.txns k v }

/-- A state with transaction `k` changed by `f`. -/
def State.modTxn (s : State) (k : Nat) (f : Txn → Txn) : State := s.setTxn k (f (s.txn k))

/-- The holder of slot key `k`. -/
def State.holder (s : State) (k : Nat) : Holder := SMap.get (fun _ => .none) s.slots k

/-- A state with the holder of slot key `k` replaced. -/
def State.setHolder (s : State) (k : Nat) (v : Holder) : State := { s with slots := SMap.set (fun _ => .none) s.slots k v }

/-- The wait edge of subchannel `k`. -/
def State.wait (s : State) (k : Nat) : (Option Wait) := SMap.get (fun _ => none) s.waits k

/-- A state with the wait edge of subchannel `k` replaced. -/
def State.setWait (s : State) (k : Nat) (v : (Option Wait)) : State := { s with waits := SMap.set (fun _ => none) s.waits k v }

/-- The configuration of function `k`. -/
def State.fnc (s : State) (k : Nat) : FnCfg := SMap.get (fun _ => {}) s.fns k

/-- A state with the configuration of function `k` replaced. -/
def State.setFnc (s : State) (k : Nat) (v : FnCfg) : State := { s with fns := SMap.set (fun _ => {}) s.fns k v }

/-- A state with the configuration of function `k` changed by `f`. -/
def State.modFnc (s : State) (k : Nat) (f : FnCfg → FnCfg) : State := s.setFnc k (f (s.fnc k))

/-- MSI-X entry `k`. -/
def State.vec (s : State) (k : Nat) : MsixEntry := SMap.get (fun _ => {}) s.msix k

/-- A state with MSI-X entry `k` replaced. -/
def State.setVec (s : State) (k : Nat) (v : MsixEntry) : State := { s with msix := SMap.set (fun _ => {}) s.msix k v }

/-- A state with MSI-X entry `k` changed by `f`. -/
def State.modVec (s : State) (k : Nat) (f : MsixEntry → MsixEntry) : State := s.setVec k (f (s.vec k))

/-- The pending bit of MSI-X entry `k`. -/
def State.pbit (s : State) (k : Nat) : Bool := SMap.get (fun _ => false) s.pba k

/-- A state with the pending bit of MSI-X entry `k` replaced. -/
def State.setPbit (s : State) (k : Nat) (v : Bool) : State := { s with pba := SMap.set (fun _ => false) s.pba k v }

/-! ## Free values and time -/

/-- A free value (log 4): nothing constrains it. -/
def State.free (s : State) : BitVec 64 := Config.freeValue s.freeCtr

/-- The state after a free value was taken. -/
def State.tick (s : State) : State := { s with freeCtr := s.freeCtr + 1 }

/-- TIME in nanoseconds (R516). -/
def State.now (s : State) : Nat := s.time / 2 ^ 32 % 2 ^ 64

/-! ## Codeword errors (R22-R24, R680) -/

/-- A codeword that no read delivers: a burst beyond correction, or poisoned (R22, R24). -/
def CwErr.lost (e : CwErr) : Bool := e.poisoned || decide (32 < e.burst)

/-- The worst error among the codewords `lo` to `hi` of a region: 0 none, 1 corrected as it is read, 2 uncorrectable. -/
def State.cwWorst (s : State) (r : MemRegion) (lo hi : Nat) : Nat :=
  s.errs.foldl (fun m e => if e.region = r ∧ lo ≤ e.idx ∧ e.idx ≤ hi then max m (if e.lost then 2 else 1) else m) 0

/-- The source that a corrected codeword reports (R604). -/
def scrubCe (r : MemRegion) (idx : Nat) : Nat :=
  match r with
  | .context => 79
  | .furrow => 86
  | .tiller => 24 + idx / 4096 / 8 % 8
  | .barrow => 44 + idx / 32 % 2
  | .seedbank => 92
  | .queueState | .buffer => 91

/-- What an uncorrectable codeword reports, and the unit it names. -/
def scrubUe (r : MemRegion) (idx : Nat) : Nat × Nat :=
  match r with
  | .context => (78, idx / 8)
  | .furrow => (85, 0)
  | .tiller => (16 + idx / 4096 / 8 % 8, 0)
  | .barrow => (42 + idx / 32 % 2, idx % 32)
  | .queueState => (76, idx / 2)
  | .buffer => (90, 0)
  | .seedbank => if idx < 0x20000 then (78, idx / 8) else if idx < 0x24000 then (76, (idx - 0x20000) / 2) else (93, 0)

/-- Something to be done when the command ends. -/
def State.owe (s : State) (d : Due) : State := { s with due := s.due ++ [d] }

/-- A read met a codeword error (R22): its report falls due. `w`: 1 corrected, 2 uncorrectable. -/
def State.metErr (s : State) (r : MemRegion) (idx w : Nat) : State :=
  if w = 0 then s
  else if w = 1 then s.owe (.error (scrubCe r idx) 65535)
  else s.owe (.error (scrubUe r idx).1 (scrubUe r idx).2)

/-- The errors of a codeword are gone: a whole write has replaced it. -/
def State.cwClear (s : State) (r : MemRegion) (idx : Nat) : State :=
  { s with errs := s.errs.filter fun e => decide (e.region ≠ r ∨ e.idx ≠ idx) }

/-- A codeword is marked poisoned (R24). -/
def State.cwPoison (s : State) (r : MemRegion) (idx : Nat) : State :=
  { s with errs := s.errs.map fun e => if e.region = r ∧ e.idx = idx then { e with poisoned := true } else e }

/-- Bytes stored at address `a`, cut at the 64-byte codewords. -/
def cwPieces : Nat → Nat → Bytes → List (Nat × Bytes)
  | 0, _, _ => []
  | _ + 1, _, [] => []
  | n + 1, a, b :: bs => (a, (b :: bs).take (64 - a % 64)) :: cwPieces n (a + (64 - a % 64)) ((b :: bs).drop (64 - a % 64))

/-- A store of any width into a protected memory (R24): `wr` stores the bytes of one codeword, `idx` numbers it. A whole codeword is
replaced. A narrower write reads it first: corrected data is merged and reported; an uncorrectable codeword is not written, and is
poisoned. -/
def State.cwStore (r : MemRegion) (idx : Nat → Nat) (wr : Nat → Bytes → State → State) (a : Nat) (b : Bytes) (s : State) : State :=
  if s.errs.isEmpty then wr a b s
  else (cwPieces b.length a b).foldl (fun s p =>
    let i := idx p.1
    let w := s.cwWorst r i i
    if w = 0 then wr p.1 p.2 s
    else if p.2.length = 64 then (wr p.1 p.2 s).cwClear r i
    else if w = 1 then ((wr p.1 p.2 s).cwClear r i).metErr r i 1
    else (s.cwPoison r i).metErr r i 2) s

/-- Bytes stored in buffer memory. -/
def State.bufPut (s : State) (a : Nat) (b : Bytes) : State :=
  State.cwStore .buffer (fun a => a / 64) (fun a b s => { s with buf := s.buf.wrN a b }) a b s

/-- Bytes stored in a Tiller's region, at a BAR4 offset. -/
def State.tmemPut (s : State) (a : Nat) (b : Bytes) : State :=
  State.cwStore .tiller (fun a => a / 64) (fun a b s => { s with tmem := s.tmem.wrN a b }) a b s

/-- An armed injection meets a full write in the region `target` of TS_INJ: the bits it inverts. -/
def State.injBurst (s : State) (target : Nat) : Option Nat :=
  if s.rb 0x700A10 15 && decide (s.rf 0x700A10 0 3 = target) then some (s.rf 0x700A10 6 6 + 1) else none

/-- A codeword error comes to lie in a memory. -/
def State.addErr (s : State) (region : MemRegion) (idx burst : Nat) : State := { s with errs := s.errs ++ [{ region, idx, burst }] }

/-- The injection has been made. -/
def State.injDone (s : State) : State := (s.wb 0x700A10 15 false).setBit 0x700F00 6

/-! ## Subchannel contexts (chapter 02) -/

/-- A field of `n` bytes of a subchannel's context, at its byte offset. -/
def State.cx (s : State) (sc off n : Nat) : Nat := s.ctx.le (sc * 2048 + off) n

/-- A context in use is cached, and the most recently used (R70). -/
def State.useCtx (s : State) (sc : Nat) : State := { s with cached := s.cached.erase sc ++ [sc] }

/-- Marks a context used and changed (R70, R71): it joins the dirty contexts, at the young end, or waits for the dirty bound (log 34). -/
def State.touch (s : State) (sc : Nat) : State :=
  let s := s.useCtx sc
  if sc ∈ s.dirty then { s with dirty := s.dirty.erase sc ++ [sc] }
  else if s.dirty.length < 512 then { s with dirty := s.dirty ++ [sc] }.wf 0xC0020 0 10 (s.dirty.length + 1)
  else if sc ∈ s.dirtyWait then s
  else { s with dirtyWait := s.dirtyWait ++ [sc] }

/-- A state with bytes of a context replaced, whatever its codeword holds: FENCED, and a whole context (R74). -/
def State.cxRaw (s : State) (sc off : Nat) (b : Bytes) : State := { s with ctx := s.ctx.wrN (sc * 2048 + off) b }.touch sc

/-- A state with bytes of a context, or of what lies behind it in bank 0x01, replaced (R24, R157). -/
def State.cxPut (s : State) (sc off : Nat) (b : Bytes) : State :=
  let k := sc * 2048 + off
  (if 512 ≤ off then { s with ctx := s.ctx.wrN k b }
   else State.cwStore .context (fun a => sc * 8 + (a - sc * 2048) / 64) (fun a b s => { s with ctx := s.ctx.wrN a b }) k b s).touch sc

/-- A state with a field of a context replaced. -/
def State.cxSet (s : State) (sc off n v : Nat) : State := s.cxPut sc off (natLE n v)

/-- The state of a subchannel: 0 IDLE, 1 START_PENDING, 2 ACTIVE, 3 SUSPENDED, 4 STATUS_PENDING, 5 HALT_PENDING,
6 CLEAR_PENDING, 7 FENCED. -/
def State.scState (s : State) (sc : Nat) : Nat := bits (s.cx sc 2 1) 0 4

/-- Bits of byte 3 of the context: 0 PRES, 1 HELD, 2 AUTO, 3 PIN, 4 TXOPEN. -/
def State.cxFlag (s : State) (sc k : Nat) : Bool := bitOn (s.cx sc 3 1) k

/-- A state with a bit of byte 3 replaced. -/
def State.setCxFlag (s : State) (sc k : Nat) (b : Bool) : State :=
  s.cxSet sc 3 1 (setBits (s.cx sc 3 1) k 1 (b2n b))

/-- A state change of a subchannel: CHGSEQ increments (chapter 02, byte 92). -/
def State.setScState (s : State) (sc st : Nat) : State :=
  (s.cxSet sc 2 1 st).cxSet sc 92 4 (s.cx sc 92 4 + 1)

/-- The function that owns a subchannel (R80). -/
def State.scFn (s : State) (sc : Nat) : Nat := s.rf (scOwner sc) 0 5

/-- The function on whose behalf a chain works: the PF for autostart chains (R510). -/
def State.chainFn (s : State) (sc : Nat) : Nat := if s.cxFlag sc 2 then 0 else s.scFn sc

/-! ## Node table (R355) -/

/-- A field of `n` bytes of the entry of node `N`. -/
def State.nt (s : State) (node off n : Nat) : Nat := s.seed.le (0x900000 + 256 * node + off) n

/-- The port of a node index (R345). -/
def nodePort (node : Nat) : Nat := node / 1024 % 4

/-- The path of a node (R346). -/
def State.nodePath (s : State) (node : Nat) : Nat := bits (s.nt node 4 3) 0 18

/-! ## Power domains, fences, service -/

/-- State of domain `d` (CL_PDOM_STAT): 0 ON, 1 DRAINING, 2 OFF, 3 POWERING_UP; ports 0-3, groups 4-11, halves 12-13. -/
def State.pdom (s : State) (d : Nat) : Nat := s.rf 0x80024 (2 * d) 2

/-- Safe state (R615). -/
def State.safe (s : State) : Bool := s.rb 0x40004 0

/-- A device of a pair that is not master (R626, R646). -/
def State.standby (s : State) : Bool := s.ab 0x481000 0 && decide (s.rf 0x481008 0 3 ≠ 1)

/-- The device works: a start has run and no flush, loss of REFCLK or safe state has stopped it. -/
def State.running (s : State) : Bool := decide (s.life = .live) && !s.safe

/-- Tiller group `g` takes new work: powered, not fenced (R86). -/
def State.tgIn (s : State) (g : Nat) : Bool := decide (s.pdom (4 + g) = 0) && !s.rb 0x40008 g

/-- Barrow half `h` takes new work (R256). -/
def State.bwIn (s : State) (h : Nat) : Bool := decide (s.pdom (12 + h) = 0) && !s.rb 0x40008 (8 + h)

/-- A port withdrawn by its power domain (R558). -/
def State.kpWithdrawn (s : State) (p : Nat) : Bool := decide (p < 4) && decide (s.pdom p = 1 ∨ s.pdom p = 2)

/-- The state of a port's link (KP_STATE.ST): 0 DOWN, 1 TRAINING, 2 ACTIVE, 3 QUIESCE. -/
def State.kpSt (s : State) (p : Nat) : Nat := s.rf (kp p 0xC) 0 3

/-! ## Buffer memory (R18, R19, R504) -/

/-- The size of buffer memory in bytes (R18): FU_CFG.BUFSZ in MiB, at most 8. -/
def State.bufSize (s : State) : Nat := min (s.af 0x280000 0 4) 8 * 2 ^ 20

/-- The share of buffer memory of function `fn` (R504): its first byte and the byte after its last. -/
def State.share (s : State) (fn : Nat) : Nat × Nat :=
  let base := min (s.af (0x101000 + 4 * fn) 0 8) 127 * 2 ^ 16
  (base, min (base + min (s.af (0x101000 + 4 * fn) 8 8) 128 * 2 ^ 16) s.bufSize)

/-- How many of `n` bytes from `a` on lie in the share, before the first that does not (R19). -/
def State.shareRun (s : State) (fn a n : Nat) : Nat :=
  let r := s.share fn
  if r.1 ≤ a ∧ a < r.2 then min n (r.2 - a) else 0

end Sys2Proof.Machine
end

