-- ==== Sys2Proof/Machine/Switch.lean ====
section
/-! DEFINITION. The fabric between the port Furrows (R439, R440, R444, R456-R458, R460-R466): packets wait in the sequences of their
input Furrow, and each output's arbiter takes them while its output Furrow has room. With it, what leaves for the host: writes,
reads (R497), MSI-X messages. Producers hand a packet over whole, and all that can cross does so in the same command (log 21). -/

namespace Sys2Proof.Machine

/-! ## Sizes (R437, R439, R444) -/

/-- The group of a thread (R140). -/
def groupOf (t : Nat) : Nat := t / 128

/-- The fabric port of a thread's group: FP9 or FP10 (chapter 01). -/
def tgPort (t : Nat) : Nat := 9 + groupOf t / 4

/-- The words of the input Furrow of fabric port `r`. -/
def inSize (r : Nat) : Nat :=
  if r = 0 then 1536 else if r < 6 then 4096 else if r = 6 ∨ r = 11 then 512 else 256

/-- The words of the output Furrow of fabric port `o`. -/
def outSize (o : Nat) : Nat :=
  if o = 0 then 1536 else if o < 6 then 1024 else if o = 6 ∨ o = 11 then 512 else 256

/-- The words that hold `n` data bytes with a packet's header. -/
def pktWords (n : Nat) : Nat := (16 + n + 63) / 64

/-- The words a packet of a thread Furrow fills. -/
def Pkt.words (p : Pkt) : Nat := pktWords p.data.length

/-- The words a TLP fills. -/
def Tlp.words : Tlp → Nat
  | .write _ _ d _ _ => pktWords d.length
  | .read .. => 1

/-- CREDIT flits are the link's own and take no Furrow words. -/
def FlitBody.isCredit : FlitBody → Bool | .credit _ => true | _ => false

/-- The words of each thread Furrow (R437). -/
def State.furrowWords (s : State) : Nat := (14 - min (s.af 0x280000 0 4) 8) * 16

/-! ## What the Furrows hold -/

/-- The packets of a source that its input Furrow of `w` words holds, oldest first; its producer has not opened the later ones
(R460). -/
def inFurrow (r : Nat) : Nat → List FPkt → List FPkt
  | _, [] => []
  | w, k :: ks =>
    if k.src ≠ r then inFurrow r w ks
    else if k.words - k.moved ≤ w then k :: inFurrow r (w - (k.words - k.moved)) ks
    else []

/-- The packets in the input Furrow of fabric port `r`. -/
def State.inPkts (s : State) (r : Nat) : List FPkt := inFurrow r (inSize r) s.fab

/-- Words held in the input Furrow of fabric port `r`: packets that have not crossed, and flits of nodes (R462). -/
def State.inUsed (s : State) (r : Nat) : Nat :=
  (s.inPkts r).foldl (fun a k => a + (k.words - k.moved)) 0 +
  if 1 ≤ r ∧ r ≤ 4 then s.inbox.foldl (fun a e => if e.1 / 4096 = r - 1 then a + 4 * e.2.length else a) 0 else 0

/-- Whether the input Furrow of fabric port `r` has room for a packet (R460). -/
def State.inRoom (s : State) (r words : Nat) : Bool :=
  decide ((s.fab.foldl (fun a k => if k.src = r then a + (k.words - k.moved) else a) 0) + words ≤ inSize r)

/-- Words held or reserved in the output Furrow of fabric port `o` (R461): the TLPs not acknowledged, the flits not sent (four words
each), and the packets that are crossing. -/
def State.outUsed (s : State) (o : Nat) : Nat :=
  (if o = 0 then s.hostOut.foldl (fun a t => a + t.words) 0
   else if o < 6 then 4 * (s.port (o - 1)).tx.countP (fun f => !f.body.isCredit) else 0) +
  s.fab.foldl (fun a k => if k.dst = o ∧ k.moved ≠ 0 then a + k.words else a) 0

/-- Words held or reserved in a thread Furrow (R456). -/
def State.tgUsed (s : State) (t : Nat) : Nat :=
  (s.thread t).furrow.pkts.foldl (fun a p => a + p.words) 0 +
  s.fab.foldl (fun a k => match k.body with
    | .pkt u _ _ => if u = t ∧ k.moved ≠ 0 then a + k.words else a
    | _ => a) 0

/-- The flits that wait for a port, in its output Furrow and before it. -/
def State.waitingFlits (s : State) (p : Nat) : List Flit :=
  (s.port p).tx ++ s.fab.filterMap fun k => match k.body with | .flit q f => if q = p then some f else none | _ => none

/-- Drops the flits waiting for a port that satisfy a test. -/
def State.dropTx (s : State) (p : Nat) (t : Flit → Bool) : State :=
  { s with fab := s.fab.filter fun k => match k.body with | .flit q f => !(decide (q = p) && t f) | _ => true }.modPort p
    fun q => { q with tx := q.tx.filter fun f => !t f }

/-! ## Eligible requesters (R440, R456, R457, R461) -/

/-- The handle of the exchange whose flit a packet carries. -/
def FPkt.oph? (k : FPkt) : Option Nat :=
  match k.body with
  | .flit _ f => match f.body with
    | .cmd c => some c.oph
    | .data d | .stage d _ => some d.oph.toNat
    | _ => none
  | _ => none

/-- The output has room for a packet: its Furrow for the whole of it, and, for a thread, the thread's Furrow. One whose thread is no
longer bound as it was is discarded at the Tiller-group port, and needs none (R458). -/
def State.hasRoom (s : State) (k : FPkt) : Bool :=
  decide (s.outUsed k.dst + k.words ≤ outSize k.dst) &&
  match k.body with
  | .pkt t bd _ => decide ((s.thread t).bind ≠ bd) || decide (s.tgUsed t + k.words ≤ s.furrowWords)
  | _ => true

/-- What packets stand in one line: those for one thread, at a Tiller-group port; else all. -/
def FPkt.line (k : FPkt) : Nat := match k.body with | .pkt t _ _ => t + 1 | _ => 0

/-- The packet a requester offers: the first of each line of its sequence, passing those that wait for a thread Furrow (R457). -/
def fabFirst (ok : FPkt → Bool) : List Nat → List FPkt → Option FPkt
  | _, [] => none
  | seen, k :: ks => if k.line ∈ seen then fabFirst ok seen ks else if ok k then some k else fabFirst ok (k.line :: seen) ks

/-- The packet that requester `r` offers at output `o`; none: it is not eligible. A flit stands behind the earlier ones of its
exchange, wherever they come from (R371; log 21). -/
def State.fabHead (s : State) (o r : Nat) : Option FPkt :=
  fabFirst (fun k => decide (k.moved ≠ 0) ||
    (s.hasRoom k && (k.oph?.isNone || !((s.fab.takeWhile fun j => decide (j ≠ k)).any fun j => decide (j.oph? = k.oph?)))))
    [] ((s.inPkts r).filter fun k => decide (k.dst = o))

/-! ## Arbitration (R464, R466) -/

/-- FB_PRIO of requester `r` at output `o`. -/
def fbPrio (o r : Nat) : Nat := 0x200000 + 0x40 * o + 4 * r
/-- FB_OUT_CFG of output `o`. -/
def fbOut (o : Nat) : Nat := 0x200400 + 16 * o

/-- WAIT of a requester. -/
def State.fbWait (s : State) (o r : Nat) : Nat := s.rf (fbPrio o r) 16 8

/-- LIMIT of an output; 0 acts as 1. -/
def State.fbLimit (s : State) (o : Nat) : Nat := max (s.af (fbOut o) 8 8) 1

/-- The requester that won last at an output. Before any has, the order starts at requester 0. DESIGN CHOICE (log 21). -/
def State.fbLast_ (s : State) (o : Nat) : Nat := SMap.get (fun _ => 11) s.fbLast o

/-- The requester of highest score, first in round-robin order. -/
def rrBest (last : Nat) (score : Nat → Nat) (e : List Nat) : Option Nat :=
  (List.range 12).foldl (fun best i =>
    let r := (last + 1 + i) % 12
    if r ∉ e then best
    else match best with
      | some b => if score b < score r then some r else some b
      | none => some r) none

/-- The eligible requesters of an output. -/
def State.fabElig (s : State) (o : Nat) : List Nat := (List.range 12).filter fun r => (s.fabHead o r).isSome

/-- The winner of a decision among the eligible requesters, and whether it was forced. -/
def State.fabPick (s : State) (o : Nat) (e : List Nat) : Option (Nat × Bool) :=
  let f := e.filter fun r => decide (s.fbLimit o ≤ s.fbWait o r)
  match rrBest (s.fbLast_ o) (fun r => 16 * s.fbWait o r + s.rf (fbPrio o r) 0 4) f with
  | some w => some (w, true)
  | none => (rrBest (s.fbLast_ o) (fun r => s.rf (fbPrio o r) 0 4) e).map fun w => (w, false)

/-- A wait count takes its new value. -/
def State.setFbWait (s : State) (o r v : Nat) : State := if s.fbWait o r = v then s else s.wf (fbPrio o r) 16 8 v

/-- A decision: the winner's WAIT is 0, the other eligible requesters' rise, a forced win is counted. The winner's Furrow is read (R455). -/
def State.fabDecide (s : State) (o : Nat) (e : List Nat) (w : Nat) (forced : Bool) : State :=
  let s := e.foldl (fun s r => s.setFbWait o r (if r = w then 0 else min (s.fbWait o r + 1) 255)) s
  let s := { s with fbLast := SMap.set (fun _ => 11) s.fbLast o w }
  let s := if (s.furrow (2 * w)).staleRaised then s.modFurrow (2 * w) fun k => { k with staleRaised := false } else s
  if forced then s.bump (fbOut o + 8) else s

/-! ## Arrival -/

/-- A full write of Furrow words meets an armed injection (R443, R447, R680): in the output Furrow of port `o`, 0 nothing, 1 a word
that is delivered corrected, 2 one that is not. -/
def State.furrowHit (s : State) : Nat := (s.injBurst 1).elim 0 fun b => if b ≤ 32 then 1 else 2

/-- Packets for a thread that is not there are discarded and counted (R458, R459). -/
def State.dropPkts (s : State) (t n : Nat) : State :=
  if n = 0 then s else (s.bumpSat (fuTg (groupOf t) 4) n).setBit (fuTg (groupOf t) 8) 3

/-- A packet is stored in port Furrow `f` and read from it: a corrected word is counted (R443), a packet with an uncorrectable one is
removed (R447). Answers whether it is delivered. -/
def State.furrowPass (s : State) (f : Nat) : State × Bool :=
  let h := s.furrowHit
  if h = 0 then (s, true)
  else if h = 1 then ((s.injDone.bumpSat (fu f 0xC)).metErr .furrow 0 1, true)
  else (((s.injDone.setBit (fu f 8) 1).bump (fu f 0x10)).metErr .furrow 0 2, false)

/-- A completion comes into Furrow 0: what reaches the reader is its error, or that its data was removed. One with an error is abandoned:
its packet is rewound (R446). -/
def State.hostIn (s : State) (err : RdErr) : State × RdErr :=
  if err = .ok then (let r := s.furrowPass 0; (r.1, if r.2 then .ok else .ue))
  else if err = .ur ∨ err = .ca ∨ err = .poison then ((s.setBit (fu 0 8) 0).bump (fu 0 0x10), err)
  else (s, err)

/-- A TLP enters the FP0 output Furrow. One that is removed is not sent; a read so lost stays outstanding. -/
def State.tlpOut (s : State) (t : Tlp) (r : Option ReadReq) : State :=
  let x := s.furrowPass 1
  { x.1 with hostOut := if x.2 then x.1.hostOut ++ [t] else x.1.hostOut, reads := x.1.reads ++ r.toList }

/-- A flit enters the output Furrow of a port. -/
def State.flitOut (s : State) (p : Nat) (f : Flit) : State :=
  let h := s.furrowHit
  let s := if h = 0 then s else s.injDone
  s.modPort p fun t => { t with tx := t.tx ++ [if h = 0 then f else { f with err := decide (h = 2), ce := decide (h = 1) }] }

/-- A packet enters its thread's Furrow (R456). -/
def State.pktIn (s : State) (t : Nat) (bd : Binding) (p : Pkt) : State :=
  if (s.thread t).bind ≠ bd then s.dropPkts t 1
  else
    let h := s.furrowHit
    let s := if h = 0 then s else s.injDone
    let s := if h = 1 then (s.bumpSat (fuTg (groupOf t) 0)).metErr .furrow 0 1 else s
    s.modThread t fun k => { k with furrow := { k.furrow with pkts := k.furrow.pkts ++ [if h = 2 then { p with err := true } else p] } }

/-- A packet's last word has crossed. -/
def State.arrived (s : State) (k : FPkt) : State :=
  match k.body with
  | .write t => s.tlpOut t none
  | .read t r => s.tlpOut t (some r)
  | .flit p f => s.flitOut p f
  | .pkt t b p => s.pktIn t b p

/-- The decisions of output `o` while a requester is eligible: a whole packet each, or a word each (FB_OUT_CFG.MODE). -/
def State.fabRun (o : Nat) : Nat → State → State
  | 0, s => s
  | n + 1, s =>
    let e := s.fabElig o
    match s.fabPick o e with
    | none => s
    | some (w, forced) => match s.fabHead o w with
      | none => s
      | some k =>
        let s := s.fabDecide o e w forced
        if s.ab (fbOut o) 0 && decide (k.moved + 1 < k.words) then
          State.fabRun o n { s with fab := s.fab.replace k { k with moved := k.moved + 1 } }
        else State.fabRun o n ({ s with fab := s.fab.erase k }.arrived k)

/-- Everything that can cross to output `o` crosses. -/
def State.fabTo (s : State) (o : Nat) : State := State.fabRun o (s.fab.foldl (fun a k => a + k.words) 1) s

/-- Everything that can cross the fabric crosses. -/
def State.fabAll (s : State) : State := if s.fab.isEmpty then s else [0, 1, 2, 3, 4, 5, 9, 10].foldl (fun s o => s.fabTo o) s

/-- A packet is handed to the fabric. -/
def State.offer (s : State) (k : FPkt) : State := { s with fab := s.fab ++ [k] }.fabTo k.dst

/-- Queues a flit on a port: from the Seedbank link, a Barrow half, a Tiller group, or Trellis (`src`). -/
def State.queueFlit (s : State) (p : Nat) (f : Flit) (src : Nat := 11) (x : Option Nat := none) : State :=
  s.offer { src, dst := p + 1, words := 4, xfer := x, body := .flit p f }

/-- A packet leaves for a thread, while that is bound as now. -/
def State.pushPkt (s : State) (t : Nat) (p : Pkt) (src : Nat) (x : Option Nat := none) : State :=
  s.offer { src, dst := tgPort t, words := p.words, xfer := x, body := .pkt t (s.thread t).bind p }

/-! ## The host port -/

/-- A function may master the bus: Bus Master Enable 1 and not in D3hot (R511). -/
def State.masters (s : State) (fn : Nat) : Bool := (s.fnc fn).bme && !(s.fnc fn).d3

/-- A memory write leaves for the host; `data`: it carries transfer data (R53, R496); with ECRC where the function generates it
(R522). Entries and messages come from Trellis's port (DESIGN CHOICE: log 21). -/
def State.hostWrite (s : State) (fn addr : Nat) (b : Bytes) (data : Bool := false) (src : Nat := 11) (x : Option Nat := none) : State :=
  let t : Tlp := .write fn addr b (data && (s.fnc fn).relaxed) (s.fnc fn).ecrc
  s.offer { src, dst := 0, words := t.words, xfer := x, body := .write t }

/-- The reads that have been issued. -/
def State.readsOut (s : State) : List ReadReq :=
  s.reads ++ s.fab.filterMap fun k => match k.body with | .read _ r => some r | _ => none

/-- A read of `n` bytes may be issued (R495, R497): Furrow 0 has room for its completion data beside that of the reads outstanding,
which are fewer than 512 and bring at most 80 KiB. -/
def State.readRoom (s : State) (n : Nat) : Bool :=
  let l := s.readsOut
  decide (l.length < 512) && decide ((l.foldl (fun a r => a + r.len) 0) + n ≤ 81920) &&
  decide ((l.foldl (fun a r => a + pktWords r.len) 0) + pktWords n + s.inUsed 0 ≤ inSize 0)

/-- A read request leaves for the host, or waits for room (R497), behind the earlier ones. -/
def State.hostRead (s : State) (fn addr len : Nat) (why : ReadFor) (data : Bool := false) (src : Nat := 11) : State :=
  let t : Tlp := .read fn addr len (data && (s.fnc fn).relaxed) (s.fnc fn).ecrc
  let k : FPkt := { src, dst := 0, words := t.words, body := .read t { fn, addr, len, why } }
  if s.readWait.isEmpty && s.readRoom len then s.offer k else { s with readWait := s.readWait ++ [k] }

/-- The reads that wait are issued while there is room. -/
def State.readGo : Nat → State → State
  | 0, s => s
  | n + 1, s => match s.readWait with
    | k :: ks => match k.body with
      | .read _ r => if s.readRoom r.len then State.readGo n ({ s with readWait := ks }.offer k) else s
      | _ => State.readGo n { s with readWait := ks }
    | [] => s

/-- Every read not yet completed, issued or not. -/
def State.readsAll (s : State) : List ReadReq :=
  s.readsOut ++ s.readWait.filterMap fun k => match k.body with | .read _ r => some r | _ => none

/-- The size of a function's MSI-X table (R491). -/
def msixSize (fn : Nat) : Nat := if fn = 0 then 2048 else 64

/-- A message falls due on a vector (R492, R511); `pr`: it is the Pruner's vector, the one safe state still sends (R615). -/
def State.message (s : State) (fn vec : Nat) (pr : Bool := false) : State :=
  let k := fn * 2048 + vec
  if (s.safe && !pr) || s.life ≠ .live || !(s.fnc fn).msixEn || msixSize fn ≤ vec then s
  else if (s.vec k).mask || (s.fnc fn).fmask || !s.masters fn then (s.setPbit k true).bump (cnt 0x180040 6)
  else (s.hostWrite fn (s.vec k).addr.toNat (natLE 4 (s.vec k).data.toNat)).bump (cnt 0x180040 5)

/-- A message that waits pending is sent once nothing masks it, and the pending bit clears (R493, R511); in safe state only one of the
Pruner's vector (R615). -/
def State.sendPending (s : State) (fn vec : Nat) : State :=
  let k := fn * 2048 + vec
  let pr := decide (fn = 0 ∧ vec = s.af 0x40000 0 11) && s.ab 0x40000 11
  if s.pbit k && (s.fnc fn).msixEn && !(s.vec k).mask && !(s.fnc fn).fmask && s.masters fn && (!s.safe || pr) then
    ((s.hostWrite fn (s.vec k).addr.toNat (natLE 4 (s.vec k).data.toNat)).setPbit k false).bump (cnt 0x180040 5)
  else s

/-- Every pending vector of a function is offered (R493). -/
def State.sendPendings (s : State) (fn : Nat) : State :=
  (s.pba.filterMap fun e => if e.1 / 2048 = fn then some (e.1 % 2048) else none).foldl (fun s v => s.sendPending fn v) s

end Sys2Proof.Machine
end

