-- ==== Sys2Proof/Machine/Faults.lean ====
section
/-! DEFINITION. Rake's source states (R476), the Pruner's records and reactions short of fencing (R594-R603, R615), the safe state (R615),
and ports going DOWN (R340-R342). -/

namespace Sys2Proof.Machine

/-! ## Rake sources -/

/-- The key of an internal source; a node source has the key node × 16 + SOURCE. -/
def intSrc (i : Nat) : Nat := 65536 + i

/-- The state of a source: 0 IDLE, 1 PENDING, 2 ACTIVE, 3 ACTIVE_PENDING (RK_ISRC_A.STATE, RK_NSTATE). -/
def State.srcSt (s : State) (k : Nat) : Nat :=
  if 65536 ≤ k then s.rf (0x180100 + 8 * (k - 65536)) 27 3 else s.rf (0x190000 + 4 * (k / 16)) (2 * (k % 16)) 2

/-- A source enters a state; it takes its place in the order of PENDING sources (R481). -/
def State.setSrcSt (s : State) (k st : Nat) : State :=
  let s := if st = 1 then { s with stamp := s.stamp + 1 }.modSrc k fun c => { c with ord := s.stamp + 1 } else s
  if 65536 ≤ k then s.wf (0x180100 + 8 * (k - 65536)) 27 3 st else s.wf (0x190000 + 4 * (k / 16)) (2 * (k % 16)) 2 st

/-- The time of the event, or rise, that makes a source PENDING (R482). -/
def State.srcNow (s : State) (k : Nat) : State := s.modSrc k fun c => { c with since := s.now }

/-- A level source (R471, R472): of the software sources, one whose EDGE is 0. -/
def State.srcIsLevel (s : State) (k : Nat) : Bool :=
  if k < 65536 then (s.src k).level
  else if k < 65536 + 48 then decide (65536 + 32 ≤ k)
  else !s.rb (0x180100 + 8 * (k - 65536)) 13

/-- An event merged into one already waiting (R476). -/
def State.merged (s : State) : State := (s.bump (cnt 0x180040 1)).setBit 0x180004 0

/-- An internal source whose target is MSI-X: it keeps no state (RK_ISRC_A.TGT). -/
def State.srcTgt (s : State) (k : Nat) : Bool := decide (65536 ≤ k) && s.rb (0x180100 + 8 * (k - 65536)) 14

/-- The message of such a source, at an edge event or a rise of its level, unless masked. -/
def State.srcMsg (s : State) (k : Nat) : State :=
  let a := 0x180100 + 8 * (k - 65536)
  if s.rb a 12 then s else s.message 0 (s.rf a 16 11)

/-- An event of an edge source (R476). -/
def State.srcEvent (s : State) (k : Nat) : State :=
  if s.srcTgt k then s.srcMsg k
  else match s.srcSt k with
    | 0 => (s.srcNow k).setSrcSt k 1
    | 2 => (s.srcNow k).setSrcSt k 3
    | _ => s.merged

/-- LEVEL in the record of the claim that serves a source is rewritten (R476, R482). -/
def State.srcRecord (s : State) (k : Nat) (b : Bool) : State :=
  match (s.src k).thread with
  | some t =>
    let a := t * 4096 + 0xFC2
    { s with tpriv := s.tpriv.setLe a 1 (setBits (s.tpriv.le a 1) 4 1 (b2n b)) }
  | none => s

/-- The level of a level source is now `b` (R472, R476). -/
def State.srcLevel (s : State) (k : Nat) (b : Bool) : State :=
  if (s.src k).lvl = b then s
  else
    let s := s.modSrc k fun c => { c with lvl := b, since := if b then s.now else c.since }
    if s.srcTgt k then (if b then s.srcMsg k else s)
    else match s.srcSt k, b with
      | 0, true => s.setSrcSt k 1
      | 1, false => s.setSrcSt k 0
      | 2, _ => s.srcRecord k b
      | _, _ => s

/-! ## The Pruner -/

/-- The unit a fault source names (R604, Unit). -/
inductive FUnit where
  | none | tg (g : Nat) | tgs (lo : Nat) | bw (h : Nat) | kp (p : Nat) | lane (p : Nat) | twin
  deriving DecidableEq, Repr

/-- The Unit column of R604. -/
def srcUnit (n : Nat) : FUnit :=
  if n < 40 then .tg (n % 8)
  else if n < 46 then .bw (n % 2)
  else if n < 50 then .kp (n - 46)
  else if n < 54 then .lane (n - 50)
  else if n < 70 then .kp ((n - 54) % 4)
  else if n < 72 then .twin
  else if n = 88 then .tgs 0
  else if n = 89 then .tgs 4
  else .none

/-- The Lowest column of R604: 0 LOG, 1 FENCE, 2 SAFE. -/
def srcLowest (n : Nat) : Nat :=
  if n < 24 ∨ n = 40 ∨ n = 41 ∨ (46 ≤ n ∧ n < 50) ∨ n = 70 ∨ n = 88 ∨ n = 89 then 1
  else if n ∈ [75, 80, 82, 83, 84, 87, 94, 103, 105] then 2 else 0

/-- Condition sources (R604, Kind C). -/
def srcIsCond (n : Nat) : Bool := decide (n ∈ [66, 67, 68, 69, 97, 100, 102, 103])

/-- The reaction in force for a source (R599, R600): 0 LOG, 1 FENCE, 2 SAFE. -/
def State.react (s : State) (n : Nat) : Nat :=
  if n = 105 then 2
  else
    let v := max (min (s.af (0x40050 + 4 * (n / 16)) (2 * (n % 16)) 2) 2) (srcLowest n)
    if v = 1 && decide (srcUnit n = .none) then 2 else v

/-- The sticky bit of a source. -/
def State.sticky (s : State) (n : Nat) : Bool := s.rb (0x40010 + 4 * (n / 24)) (n % 24)

/-- Whether any sticky bit is set. -/
def State.anySticky (s : State) : Bool :=
  (List.range 5).any fun k => decide (s.rf (0x40010 + 4 * k) 0 24 ≠ 0)

/-- Whether some sticky bit is set whose source's reaction satisfies a test. -/
def State.stickyWith (s : State) (p : Nat → Bool) : Bool :=
  s.anySticky && (List.range 106).any fun n => s.sticky n && p (s.react n)

/-- A report is recorded (R594, R595, R598, R603). -/
def State.record (s : State) (n : Nat) : State :=
  if 106 ≤ n then s
  else
    let first := !s.anySticky
    let rise := !s.sticky n
    let s := s.setBit (0x40010 + 4 * (n / 24)) (n % 24)
    let s := if first then (s.setReg 0x40070 (BitVec.ofNat 32 (n + 128))).set64 0x40078 s.now else s
    if rise && decide (1 ≤ s.react n) && s.ab 0x40000 11 then s.message 0 (s.af 0x40000 0 11) true else s

/-! ## Ports going down -/

/-- The link of a port goes DOWN (R340-R342): nothing on it survives; BYP_HOLD falls; ring-out sends for 2 ms more. -/
def State.linkDown (s : State) (p : Nat) : State :=
  let st := s.kpSt p
  let s := ((s.wf (kp p 0xC) 0 3 0).wf (kp p 0xC) 21 1 0).dropTx p fun _ => true
  { s with inbox := s.inbox.filter fun e => decide (e.1 / 4096 ≠ p) }.modPort p fun t =>
    { t with
      tp := .off, attempt := 0, planned := false, queuedTrain := false, queuedLane := false, firstEnum := true, run := 0, unpl := 0, unplan := false, tse := false,
      uncorrRun := 0, credits := [], tokenDue := false, tx := [], hist := [], grant := [], sent := [], rebased := [],
      rxFreed := [], rxCount := [], rxSaid := [], rxInit := [],
      out := if st = 2 ∨ st = 3 then .flits else if st = 1 then .ts0 else t.out,
      enumQueued := t.enumQueued || decide (t.en.phase ≠ 0), en := {} }

/-! ## Loopbacks -/

/-- The loopback registers of interface `i`: 0 the host port, 1 to 4 KP0 to KP3, 5 the twin link (chapter 18). -/
def lbReg (i : Nat) : Nat := 0x700000 + 0x100 * i

/-- The loopback depth of an interface. -/
def State.lbDepth (s : State) (i : Nat) : Nat := s.rf (lbReg i) 0 3

/-- The host's link comes up: at a rate and a width that both partners have, which are free (R2, R495; log 55). In loopback it is down. -/
def State.linkUp (s : State) : State :=
  if s.lbDepth 0 ≠ 0 then s.setReg 0x100004 0
  else
    let v := s.free.toNat
    s.tick.setReg 0x100004 (BitVec.ofNat 32 (1 + v % 4 + 8 * ([1, 4, 8, 16].getD (v / 4 % 4) 16) + 256 + 512 * (v / 16 % 2)))

/-- A depth in progress ends at once (R674). The host port leaves it through a DL_Down (R673). -/
def State.lbStop (s : State) (i : Nat) : State :=
  if s.lbDepth i = 0 then s
  else
    let s := (s.wf (lbReg i) 0 3 0).wf (lbReg i + 4) 0 2 0
    if i = 0 then s.linkUp.setBit 0x100008 6 else { s with vnode := s.vnode.drop ((i - 1) * 65536) 65536, vnodes := SMap.set (fun _ => {}) s.vnodes (i - 1) {} }

/-! ## Safe state -/

/-- The device enters safe state for source `n` (R615): the ports and the twin link go DOWN; work stops where it stands. -/
def State.enterSafe (s : State) (n : Nat) : State :=
  if s.safe then s
  else
    let s := [0, 1, 2, 3, 4].foldl (fun s p => s.linkDown p) s
    let s := [0, 1, 2, 3, 4, 5].foldl (fun s i => s.lbStop i) s
    let s := (s.wb 0x40004 0 true).wb 0x481008 7 false
    let c := min (s.rf 0x40080 8 16 + 1) 0xFFFF
    (s.setReg 0x40080 (BitVec.ofNat 32 (n + 128 + 256 * c))).set64 0x40088 s.now


end Sys2Proof.Machine
end

