-- ==== Sys2Proof/Machine/Journal.lean ====
section
/-! DEFINITION. The journal (R538-R545): issuing records, their slots, their 64-byte layouts; and the mirror of Seedbank
blocks to the partner (R631). What becomes visible when a record is durable is in Machine/Chains.lean. -/

namespace Sys2Proof.Machine

/-! ## Mirroring -/

/-- The device is master in pair mode and its partner's last BEAT says it is in sync (R628, R631). -/
def State.mirroring (s : State) : Bool := 
  s.ab 0x481000 0 && decide (s.rf 0x481008 0 3 = 1) && !s.rb 0x481008 5 && (s.pair.beat.elim false fun b => b.insync)

/-- TEPOCH of the flits the device originates: 1 in single operation (R367, R389). -/
def State.tepoch (s : State) : Nat := if s.ab 0x481000 0 then s.rn 0x481010 else 1

/-- Sends Seedbank blocks to the partner, at most three to a flit (R628, R631); answers the MSEQ of the last flit. -/
def State.mirrorGo (copy : Bool) : Nat → List (Nat × Bytes) → State → State
  | 0, _, s => s
  | _ + 1, [], s => s
  | n + 1, b :: bs, s =>
    let m : MirrorF := { mseq := BitVec.ofNat 32 s.pair.mseq, copy, blocks := (b :: bs).take 3 }
    let s := s.queueFlit 4 { path := 0, body := .mirror m } 6
    let s := { s with pair := { s.pair with mseq := s.pair.mseq + 1, unacked := s.pair.unacked ++ [s.pair.mseq] } }
    let s := (s.bump (cnt 0x481040 1)).wf 0x481014 0 16 (min s.pair.unacked.length 0xFFFF)
    State.mirrorGo copy n ((b :: bs).drop 3) s

/-- The master's writes flow to the partner: it is in sync, or a resynchronisation runs (R631, R644). -/
def State.streaming (s : State) : Bool := s.mirroring || s.pair.copyPos.isSome || s.pair.copyLast.isSome

/-- Mirrors blocks while they flow to the partner. -/
def State.mirror (s : State) (bs : List (Nat × Bytes)) : State :=
  if s.streaming then State.mirrorGo false bs.length bs s else s

/-- The 64-byte blocks of a Seedbank range, as they stand. -/
def State.blocksOf (s : State) (a n : Nat) : List (Nat × Bytes) :=
  (List.range ((a + n + 63) / 64 - a / 64)).map fun i =>
    let b := (a / 64 + i) * 64
    (b, s.seed.rdN b 64)

/-- Bytes written to the Seedbank, and mirrored (R631). -/
def State.seedWr (s : State) (a : Nat) (b : Bytes) : State :=
  let s := { s with seed := s.seed.wrN a b }
  if s.streaming then s.mirror (s.blocksOf a b.length) else s

/-- The regions of the Seedbank an injection may hit (R680): contexts, queue state, node table, Vault. -/
def injRegion (a : Nat) : Bool := decide (a < 0xA00000) || (decide (0x1600000 ≤ a) && decide (a < 0x3600000))

/-- Bytes written to the Seedbank, as R24 says of every width; an armed injection hits the first whole block among them (R680). -/
def State.seedPut (s : State) (a : Nat) (b : Bytes) : State :=
  let lo := (a + 63) / 64
  let hi := (a + b.length) / 64
  let s := State.cwStore .seedbank (fun a => a / 64) (fun a b s => s.seedWr a b) a b s
  if s.rb 0x700A10 15 then
    match s.injBurst 5 with
    | some n => if lo < hi ∧ injRegion (64 * lo) = true then (s.addErr .seedbank lo n).injDone else s
    | none => s
  else s

/-- A write of a node table entry: NTSEQ increments (R356). -/
def State.ntPut (s : State) (node off : Nat) (b : Bytes) : State :=
  let a := 0x900000 + 256 * node
  let put := State.cwStore .seedbank (fun a => a / 64) fun a b s => { s with seed := s.seed.wrN a b }
  let s := put (a + off) b s
  let s := put (a + 12) (natLE 4 (s.seed.le (a + 12) 4 + 1)) s
  if s.streaming then s.mirror (s.blocksOf a 16 ++ if 64 ≤ off then s.blocksOf (a + off) b.length else []) else s

/-- A field of a node table entry written. -/
def State.ntSet (s : State) (node off n v : Nat) : State := s.ntPut node off (natLE n v)

/-! ## Records -/

/-- A record of 64 bytes (R412, R538): RTYPE, FORMAT 1, JSEQ, the body of bytes 16-59, CRC over bytes 0-59. -/
def jRaw (rtype jseq : Nat) (body : Bytes) : Bytes :=
  let h := [BitVec.ofNat 8 rtype, 1, 0, 0, 0, 0, 0, 0] ++ natLE 8 jseq ++ padTo 44 body
  h ++ natLE 4 (crc32c h).toNat

/-- Free journal slots (R540). -/
def State.jFree (s : State) : Nat := 65536 - s.jslots.length

/-- The first slot not occupied at or after `c`, wrapping at the end of the region (R540). -/
def jFirstFree (occ : List JSlot) : Nat → Nat → Nat
  | 0, c => c
  | n + 1, c => if occ.any fun e => e.slot = c then jFirstFree occ n ((c + 1) % 65536) else c

/-- Counts of the journal shown in registers: free slots, live JOIN and DECIDE records. -/
def State.jCounts (s : State) : State :=
  (s.wf 0xC0004 0 17 s.jFree).wf 0xC0008 0 17 (s.jslots.countP fun e => e.rtype = 0x20 ∨ e.rtype = 0x21)

/-- A record takes its JSEQ and its slot, and is issued (R539, R540, R631). -/
def State.jAssign1 (s : State) (r : JRec) : State × JRec :=
  let jseq := s.count64 0xC0010
  let slot := jFirstFree s.jslots s.jslots.length s.jpos
  let rtype := (r.raw.headD 0).toNat
  -- a DECIDE or DONE record holds the time at which it was issued (R412)
  let body := if rtype = 0x21 ∨ rtype = 0x22 then putAt (r.raw.drop 1) 12 (natLE 8 s.now) else r.raw.drop 1
  let raw := jRaw rtype jseq body
  let g := decide (0x20 ≤ rtype)
  let e : JSlot := { slot, jseq, rtype, txid := if g then leAt raw 16 2 % 1024 else 0, tserial := if g then leAt raw 20 4 else 0 }
  let s := { s with jslots := s.jslots ++ [e], jpos := slot }
  let s := ((s.set64 0xC0010 (jseq + 1)).jCounts).bump (cnt 0xC0080 0)
  let m := s.mirroring
  let q := s.pair.mseq
  (s.mirror [(0xA00000 + 64 * slot, raw)],
    { r with jseq, raw, slot := some slot, mseq := if m then some q else none, acked := !m })

/-- Records that wait for a slot take one, in order: none while no slot is free; JOIN records none while 2048 or fewer are
free, and the others pass them (R541). -/
def State.jAssign : List JRec → List JRec → State → State
  | [], done, s => { s with jpend := done.reverse }
  | r :: rs, done, s =>
    if r.slot.isSome then State.jAssign rs (r :: done) s
    else if s.jFree = 0 then { s with jpend := done.reverse ++ r :: rs }.setBit 0xC0000 2
    else if s.jFree ≤ 2048 ∧ r.raw.headD 0 = 0x20 then State.jAssign rs (r :: done) (s.setBit 0xC0000 2)
    else
      let x := s.jAssign1 r
      State.jAssign rs (x.2 :: done) x.1

/-- A record is issued: `body` gives bytes 16-59 (R412, R545). In safe state only Vault records are (R615). -/
def State.jIssue (s : State) (rtype : Nat) (body : Bytes) (eff : JEff) : State :=
  if s.safe && decide ((rtype ≠ 0x10 ∧ rtype ≠ 0x11) ∨ s.rf 0x40080 0 7 = 94) then s
  else State.jAssign (s.jpend ++ [{ jseq := 0, raw := BitVec.ofNat 8 rtype :: body, eff }]) [] s

/-- The slots kept when a checkpoint with JSEQ_START `start` completes: records from it on, and the JOIN and DECIDE records
of transactions without a durable DONE (R411, R540). -/
def State.jReclaim (s : State) (start : Nat) (openTx : List (Nat × Nat)) : State :=
  { s with
    ckStart := start,
    jslots := s.jslots.filter fun e =>
      decide (start ≤ e.jseq) || ((e.rtype = 0x20 ∨ e.rtype = 0x21) && decide ((e.txid, e.tserial) ∈ openTx)) }.jCounts

/-- A queue-state record (R28, R542). The manual gives it no layout; this one holds the registers a start restores (R585), the
JSEQ of the latest journal record applied, and the first held subchannel. DESIGN CHOICE (log 22). -/
def State.queueImage (s : State) (q : Nat) : Bytes :=
  padTo 128 (([0, 4, 8, 0xC, 0x10, 0x14, 0x18, 0x20, 0x24].flatMap fun k => natLE 4 (s.rn (tq q k))) ++ natLE 8 (s.queue q).jseq ++
    natLE 2 ((s.queue q).held.head?.elim 0 fun sc => sc + 32768))

/-- A queue-state record is written home (R28). -/
def State.queueHome (s : State) (q : Nat) : State := s.seedPut (0x800000 + 128 * q) (s.queueImage q)

end Sys2Proof.Machine
end

