-- ==== Sys2Proof/Machine/Ring.lean ====
section
/-! DEFINITION. Exchanges with Kalgen nodes (R357, R366-R385): the checks before a first flit, operation handles, the flits of
an operation, and the RESERVE and RELEASE flits in their order. -/

namespace Sys2Proof.Machine

/-! ## Checks -/

/-- A flag of a node table entry (R355): 0 VALID, 1 PRESENT, 2 GROUP, 3 MISMATCH, 4 SEEDED, 5 REQUIRED, 6 DUP. -/
def State.ntFlag (s : State) (node k : Nat) : Bool := bitOn (s.nt node 2 1) k

/-- A state with such a flag set or cleared (R356). -/
def State.setNtFlag (s : State) (node k : Nat) (b : Bool) : State :=
  s.ntSet node 2 1 (setBits (s.nt node 2 1) k 1 (b2n b))

/-- A field of a node's capability record (R358). -/
def State.cap (s : State) (node off n : Nat) : Nat := s.nt node (64 + off) n

/-- MAXOPS of a node. -/
def State.maxOps (s : State) (node : Nat) : Nat := bits (s.cap node 20 2) 0 13

/-- The checks of R357: none when they pass, else the CHECK_CODE, 17 NODE_UNCONFIGURED or 2 NODE_ABSENT. -/
def State.nodeCheck (s : State) (node : Nat) : Option Nat :=
  if !s.ntFlag node 0 || s.ntFlag node 3 then some 17 else if !s.ntFlag node 1 then some 2 else none

/-- Whether new work may open at a node now. -/
inductive Gate where
  | go | wait | absent
  deriving DecidableEq, Repr

/-- New work waits for the port's enumeration (R366, R586) and for recovery flits (R417); on a port that is DOWN it ends as
open work does (R382). DEDUCED (log 12). -/
def State.gate (s : State) (node : Nat) : Gate :=
  let t := s.port (nodePort node)
  if s.kpSt (nodePort node) = 0 then (if t.firstEnum then .absent else .wait)
  else if !t.firstEnum || decide (t.en.phase ≠ 0) || decide (SMap.get (fun _ => 0) s.recov node ≠ 0) then .wait
  else .go

/-- Work naming a node ends with NODE_ABSENT: the entry's ABSENT increments (R356). -/
def State.countAbsent (s : State) (node : Nat) : State := s.ntSet node 140 4 (s.nt node 140 4 + 1)

/-! ## Data in the input Furrow (R326, R462) -/

/-- The data of a read operation that no transfer has taken yet. -/
def State.inboxOf (s : State) (key : Nat) : List InFlit := SMap.get (fun _ => []) s.inbox key

/-- A state with that data replaced. -/
def State.setInbox (s : State) (key : Nat) (l : List InFlit) : State := { s with inbox := SMap.set (fun _ => []) s.inbox key l }

/-- The bytes of it. -/
def State.inboxLen (s : State) (key : Nat) : Nat := (s.inboxOf key).foldl (fun a f => a + f.data.length) 0

/-- A credited flit takes a buffer (R329). -/
def Port.rxArrive (t : Port) (key : Nat) : Port :=
  { t with rxCount := SMap.set (fun _ => 0) t.rxCount key ((SMap.get (fun _ => 0) t.rxCount key + 1) % 65536) }

/-- A buffer is freed: a CREDIT falls due once four have been (R326). -/
def Port.rxFree (t : Port) (key : Nat) : Port :=
  let z : Nat → Nat := fun _ => 0
  let freed := (SMap.get z t.rxFreed key + 1) % 65536
  let adv := (freed + 65536 - SMap.get z t.rxSaid key) % 65536
  let st := key / 4
  { t with rxFreed := SMap.set z t.rxFreed key freed,
           credits := if 4 ≤ adv && !t.credits.contains st then t.credits ++ [st] else t.credits }

/-- The buffers of flits on port `p` are freed; those of an earlier epoch are not counted in this one's totals (R338). -/
def State.freeFlits (s : State) (p : Nat) (l : List InFlit) : State :=
  l.foldl (fun s f => if f.epoch = s.rf (kp p 0xC) 10 4 then s.modPort p fun t => t.rxFree f.key else s) s

/-- At most `n` bytes of flits: the bytes, the flits left, the flits used up. -/
def takeFlits : Nat → List InFlit → Bytes × List InFlit × List InFlit
  | _, [] => ([], [], [])
  | n, f :: fs =>
    if f.data.length ≤ n then
      let r := takeFlits (n - f.data.length) fs
      (f.data ++ r.1, r.2.1, f :: r.2.2)
    else (f.data.take n, { f with data := f.data.drop n } :: fs, [])

/-- A transfer takes at most `n` bytes of an operation's data. -/
def State.inboxTake (s : State) (key n : Nat) : State × Bytes :=
  let r := takeFlits n (s.inboxOf key)
  (((s.setInbox key r.2.1).freeFlits (key / 4096 % 4) r.2.2).modFurrow (2 * (key / 4096 % 4 + 1)) fun k => { k with staleRaised := false }, r.1)

/-- What no transfer will take is discarded. -/
def State.inboxDrop (s : State) (key : Nat) : State :=
  if (s.inboxOf key).isEmpty then s else (s.setInbox key []).freeFlits (key / 4096 % 4) (s.inboxOf key)

/-! ## Handles (R370) -/

/-- Exchanges open at a node. -/
def State.openAt (s : State) (node : Nat) : Nat := s.ops.countP fun e => e.2.elim false fun o => o.node = node

/-- Whether a handle value is outside the last 2 × MAXOPS exchanges ended at a node. -/
def State.ophFree (s : State) (node oph : Nat) : Bool :=
  let u := SMap.get (fun _ => (0, 0)) s.ophUse oph
  decide (u.2 = 0) || decide (u.1 ≠ node) ||
    decide (2 * s.maxOps node ≤ SMap.get (fun _ => 0) s.endedAt node - u.2)

/-- The handle of a new exchange with a node; none: the work waits. -/
def State.findOph (s : State) (node : Nat) : Option Nat :=
  let p := nodePort node
  if s.maxOps node ≤ s.openAt node then none
  else (List.range 4096).findSome? fun i =>
    let key := p * 4096 + ((s.port p).nextSlot + i) % 4096
    let oph := SMap.get (fun _ => 0) s.ophGen key * 16384 + key
    if (s.op key).isNone && (s.inboxOf key).isEmpty && s.ophFree node oph then some oph else none

/-- The slot key of a handle. -/
def ophKey (oph : Nat) : Nat := oph % 16384

/-- An exchange takes its handle. -/
def State.openEx (s : State) (oph : Nat) (o : NOp) : State :=
  let key := ophKey oph
  let s := s.setOp key (some { o with gen := oph / 16384 })
  let s := { s with ophGen := SMap.set (fun _ => 0) s.ophGen key ((oph / 16384 + 1) % 4) }
  s.modPort (nodePort o.node) fun t => { t with nextSlot := (key + 1) % 4096 }

/-- An exchange ends: its handle is remembered for R370. -/
def State.closeEx (s : State) (key : Nat) : State :=
  match s.op key with
  | none => s
  | some o =>
    let n := SMap.get (fun _ => 0) s.endedAt o.node + 1
    { s with endedAt := SMap.set (fun _ => 0) s.endedAt o.node n,
             ophUse := SMap.set (fun _ => (0, 0)) s.ophUse (o.gen * 16384 + key) (o.node, n) }.setOp key none

/-- A state with an open exchange changed. -/
def State.modOp (s : State) (key : Nat) (f : NOp → NOp) : State :=
  match s.op key with
  | some o => s.setOp key (some (f o))
  | none => s

/-! ## Flits -/

/-- A flit to a node. -/
def State.toNode (s : State) (node : Nat) (b : FlitBody) : Flit := { node, path := s.nodePath node, body := b }

/-- Queues a flit to a node; `src`: the fabric port it comes from. -/
def State.sendNode (s : State) (node : Nat) (b : FlitBody) (src : Nat := 11) : State := s.queueFlit (nodePort node) (s.toNode node b) src

/-- Whether a flit belongs to a handle. -/
def Flit.ofOph (f : Flit) (oph : Nat) : Bool :=
  match f.body with
  | .cmd c => decide (c.oph = oph)
  | .data d => decide (d.oph.toNat = oph)
  | .stage d _ => decide (d.oph.toNat = oph)
  | _ => false

/-- Whether a flit carries write data of a handle. -/
def Flit.dataOf (f : Flit) (oph : Nat) : Bool :=
  match f.body with
  | .cmd _ => false
  | _ => f.ofOph oph

/-- Whether the OPEN of an exchange has left. -/
def State.opened (s : State) (key node oph : Nat) : Bool :=
  !((s.waitingFlits (nodePort node)).any fun f => match f.body with
    | .cmd c => decide (c.oph = oph) && decide (c.kind = 0 ∨ 4 ≤ c.kind) && decide (ophKey oph = key)
    | _ => false)

/-- A CMD of an exchange, with the flit sent again when T_ANS passes (R378). -/
def State.sendCmd (s : State) (key : Nat) (c : CmdF) (await : Bool) : State :=
  match s.op key with
  | none => s
  | some o =>
    let f := s.toNode o.node (.cmd c)
    (s.queueFlit (nodePort o.node) f).modOp key fun o => if await then { o with await := some f, tries := 0 } else o

/-- What is sent when T_ANS passes without a STATUS END: STATQ (R378). -/
def State.awaitEnd (s : State) (key : Nat) : State :=
  s.modOp key fun o => { o with await := some (s.toNode o.node (.cmd { oph := o.gen * 16384 + key, kind := 3 })), tries := 0 }

/-- Opens an operation (R371-R373): the OPEN, which fetches at offset 0 in the read direction. -/
def State.openOp (s : State) (oph node : Nat) (o : NOp) (c : CmdF) : State :=
  let key := ophKey oph
  let s := s.openEx oph { o with node, fetchEnd := if o.read then min c.count 4096 else 0 }
  s.sendCmd key { c with oph, kind := 0, dir := o.read } (o.read && decide (c.count ≠ 0))

/-- Asks for the next bytes of a read operation (R373, R374). -/
def State.sendFetch (s : State) (key n : Nat) : State :=
  match s.op key with
  | none => s
  | some o =>
    (s.sendCmd key { oph := o.gen * 16384 + key, kind := 1, count := n, foff := o.rcvd } true).modOp key
      fun o => { o with fetchEnd := o.rcvd + n }

/-- A channel's operation none of whose data has been issued, or any other: withdrawing it loses nothing that was issued (R289). -/
def NOp.mayDrop (o : NOp) : Bool :=
  match o.owner with
  | .chanSrc _ | .chanDst _ => decide (o.sentOff = 0)
  | _ => true

/-- END of an operation (R375): it follows the data already issued (R289). Answers whether a STATUS END is awaited. Other exchanges have no
END. -/
def State.sendEnd (s : State) (key : Nat) : State × Bool :=
  match s.op key with
  | none => (s, false)
  | some o =>
    if o.kind ≠ 0 then (s, false)
    else if o.endSent then (s, true)
    else (((s.sendCmd key { oph := o.gen * 16384 + key, kind := 2 } false).awaitEnd key).modOp key fun o => { o with endSent := true }, true)

/-- An operation is stopped (R119, R289): one whose OPEN has not left is withdrawn, and nothing is sent for it; else it gets END. -/
def State.endOp (s : State) (key : Nat) : State × Bool :=
  match s.op key with
  | none => (s, false)
  | some o =>
    let oph := o.gen * 16384 + key
    if o.kind = 0 && o.mayDrop && !s.opened key o.node oph then ((s.dropTx (nodePort o.node) fun f => f.ofOph oph).closeEx key, false)
    else s.sendEnd key

/-- END to an operation whose data has not ended of itself (R375, R709). -/
def State.endShort (s : State) (o : Option Nat) : State :=
  match o.bind fun k => (s.op k).map fun q => (k, q) with
  | some (k, q) => if q.lastSeen then s else (s.sendEnd k).1
  | none => s

/-- Sends write data of an operation, at most 224 bytes to a flit (R367, R372); `last`: the operation's data ends with it; `src`, `x`:
the fabric port and the transfer it comes from. -/
def State.sendData (key : Nat) (last : Bool) (src : Nat) (x : Option Nat) : Nat → Bytes → State → State
  | 0, _, s => s
  | n + 1, b, s =>
    match s.op key with
    | none => s
    | some o =>
      let c := b.take 224
      let r := b.drop 224
      let l := last && r.isEmpty
      if c.isEmpty && !l then s
      else
        let d : DataF := { oph := BitVec.ofNat 16 (o.gen * 16384 + key), first := decide (o.sentOff = 0), last := l,
                           fend := false, offset := BitVec.ofNat 32 o.sentOff, data := c }
        let s := s.queueFlit (nodePort o.node) (s.toNode o.node (match o.stage with | some (t, _) => .stage d t | none => .data d)) src x
        let s := s.modOp key fun o => { o with sentOff := o.sentOff + c.length, lastSeen := l }
        let s := if l then s.awaitEnd key else s
        if r.isEmpty then s else State.sendData key last src x n r s

/-- Sends write data of an operation. -/
def State.opData (s : State) (key : Nat) (b : Bytes) (last : Bool) (src : Nat := 11) (x : Option Nat := none) : State :=
  State.sendData key last src x (b.length / 224 + 1) b s

/-! ## RESERVE and RELEASE flits (R385, R419) -/

/-- A request may not be sent before an earlier one for one of its slots is answered. -/
def State.resBlocked (s : State) (r : ResReq) (before : List ResReq) : Bool :=
  (before.any fun e => decide (e.node = r.node) && decide (e.mask &&& r.mask ≠ 0)) ||
  s.ops.any fun e => e.2.elim false fun o => decide (o.node = r.node) && decide (o.kind = 4 ∨ o.kind = 5) && decide (o.mask &&& r.mask ≠ 0)

/-- Sends the waiting RESERVE and RELEASE flits whose turn has come. One with no chain behind it, for a node on a port that
is DOWN, is dropped (R382). -/
def State.resGo : List ResReq → List ResReq → State → State
  | [], kept, s => { s with resq := kept.reverse }
  | r :: rs, kept, s =>
    match s.gate r.node with
    | .wait => State.resGo rs (r :: kept) s
    | .absent => State.resGo rs (if r.owner = .unowned then kept else r :: kept) s
    | .go =>
      if s.resBlocked r kept then State.resGo rs (r :: kept) s
      else match s.findOph r.node with
        | none => State.resGo rs (r :: kept) s
        | some oph =>
          let s := s.openEx oph { node := r.node, owner := r.owner, kind := r.kind, mask := r.mask }
          State.resGo rs kept (s.sendCmd (ophKey oph)
            { oph, kind := r.kind, param := r.mask, holder := r.holder, htx := r.htx } true)

/-- Offers every waiting RESERVE and RELEASE flit. -/
def State.resRun (s : State) : State := State.resGo s.resq [] s

/-- A RESERVE or RELEASE flit joins the queue. -/
def State.resAsk (s : State) (r : ResReq) : State := { s with resq := s.resq ++ [r] }.resRun

/-- Before the first flit of any work to a node after a power cut, a RELEASE of every slot of every holder (R419). -/
def State.firstRelease (s : State) (node : Nat) : State :=
  if node ∈ s.relNeeded then
    let s := { s with relNeeded := s.relNeeded.erase node }
    if bits (s.cap node 19 1) 0 3 ≠ 0 then s.resAsk { node, kind := 5, mask := 0xF, holder := 0x3FFF, htx := true } else s
  else s

end Sys2Proof.Machine
end

