-- ==== Sys2Proof/Machine/Cq.lean ====
section
/-! DEFINITION. Completion queues: indices (R33, R34), the entry layout, posting through the journal (R544), held statuses
(R59-R63), coalescing (R489-R491). -/

namespace Sys2Proof.Machine

/-! ## Indices -/

/-- The ring size of a queue (R30). -/
def State.qSize (s : State) (q : Nat) : Nat := 2 ^ s.rf (tq q 0) 8 5

/-- A queue is enabled, or its disable is in progress (TQ_CFG.EN). -/
def State.qEn (s : State) (q : Nat) : Bool := s.rb (tq q 0) 0

/-- The type of a queue: 1 SQ, 2 CQ, 3 DQ. -/
def State.qType (s : State) (q : Nat) : Nat := s.rf (tq q 0) 1 2

/-- The paired CQ of an SQ or DQ (R31). -/
def State.qPair (s : State) (q : Nat) : Nat := s.rf (tq q 0) 16 13

/-- The owner of a queue (R80). -/
def State.qFn (s : State) (q : Nat) : Nat := s.rf (tq q 0xC) 0 5

/-- The host address of slot 0. -/
def State.qBase (s : State) (q : Nat) : Nat := s.rf (tq q 4) 12 20 * 4096 + 2 ^ 32 * s.rn (tq q 8)

/-- A position, from 0 to 2 × size − 1, as an index value: entry index and wrap bit (R33). -/
def State.posVal (s : State) (q pos : Nat) : Nat := pos % s.qSize q + 65536 * (pos / s.qSize q % 2)

/-- The position an index value names. -/
def State.valPos (s : State) (q v : Nat) : Nat := v % 65536 % s.qSize q + s.qSize q * (v / 65536 % 2)

/-- The position after one. -/
def State.nextPos (s : State) (q pos : Nat) : Nat := (pos + 1) % (2 * s.qSize q)

/-- The entries between two positions (R34). -/
def State.qCount (s : State) (q head tail : Nat) : Nat := (tail + 2 * s.qSize q - head) % (2 * s.qSize q)

/-- The phase of the lap of a position: 1 on even laps (R35). -/
def State.phase (s : State) (q pos : Nat) : Bool := decide (pos / s.qSize q % 2 = 0)

/-- The host address of the slot of a position. -/
def State.slotAddr (s : State) (q pos n : Nat) : Nat := (s.qBase q + n * (pos % s.qSize q)) % 2 ^ 64

/-! ## Room -/

/-- Slots of a CQ reserved for replies. -/
def State.rsv (s : State) (q : Nat) : Nat := s.rf (tq q 0x28) 15 17

/-- A state with that number changed. -/
def State.setRsv (s : State) (q n : Nat) : State := s.wf (tq q 0x28) 15 17 n

/-- An effect is the posting of a reply in a CQ. -/
def JEff.replyIn (q : Nat) : JEff → Bool
  | .posted c _ _ _ _ _ r => r && (c == q)
  | _ => false

/-- Replies of a CQ that have taken their slots and are not written yet: their slots no longer count as reserved beside the tail (R57). -/
def State.replyOut (s : State) (q : Nat) : Nat := s.jpend.countP (fun r => r.eff.replyIn q) + s.owed.countP fun e => e.replyIn q

/-- Free unreserved slots of a CQ: none while it is not enabled (R83), is stopped (R607), or its owner may not master the bus
(R511). -/
def State.cqFree (s : State) (q : Nat) : Nat :=
  if s.qEn q && decide (s.qType q = 2) && s.masters (s.qFn q) && !(s.queue q).stopped then
    s.qSize q - s.qCount q (s.valPos q (s.rn (tq q 0x14))) (s.queue q).head - (s.rsv q - s.replyOut q)
  else 0

/-- Whether a CQ has room for a status: a free unreserved slot and no held status (R60, R111, R486). -/
def State.cqRoom (s : State) (q : Nat) : Bool := decide (0 < s.cqFree q) && (s.queue q).held.isEmpty

/-! ## Entries -/

/-- The fields of a CQ entry. -/
structure CqE where
  ts : Nat
  lastCw : Nat := 0
  residual : Nat := 0
  sc : Nat
  kind : Nat
  bits : Nat := 0
  tag : Nat := 0
  space : Nat := 0
  reason : Nat := 0

/-- A CQ entry, OWN and SQHEAD not yet written. -/
def CqE.enc (e : CqE) : Bytes :=
  natLE 8 e.ts ++ natLE 8 e.lastCw ++ natLE 4 e.residual ++ natLE 2 (e.sc % 16384 + 16384 * e.kind) ++ natLE 2 e.bits ++
  natLE 4 e.tag ++ natLE 2 0 ++ natLE 1 (e.space % 4 + 4 * e.reason) ++ natLE 1 0

/-! ## Coalescing -/

/-- The CQ's vector is signalled (R489, R491), and U returns to 0. -/
def State.cqSignal (s : State) (q : Nat) : State :=
  let fn := s.qFn q
  let v := s.rf (cqi q) 0 11
  let s := (s.wf (cqi q + 4) 16 8 0).modQueue q fun k => { k with timer := false }
  if msixSize fn ≤ v then s.setBit 0x180004 5 else s.message fn v

/-- An entry of a CQ counts once its last write has been issued (R489, R490). -/
def State.cqPosted (s : State) (q : Nat) : State :=
  if s.rb (cqi q) 11 then
    let u := min (s.rf (cqi q + 4) 16 8 + 1) 255
    let s := s.wf (cqi q + 4) 16 8 u
    if max (s.rf (cqi q) 16 8) 1 ≤ u then s.cqSignal q
    else if u = 1 then s.modQueue q fun k => { k with timer := true } else s
  else s

/-! ## Posting -/

/-- The writes of one CQ entry (R53, R54), then its interrupt (R55). -/
def State.cqWrite (s : State) (q pos : Nat) (e : Bytes) : State :=
  let fn := s.qFn q
  let a := s.slotAddr q pos 32
  let s := if s.rb (tq q 0) 4 then (s.hostWrite fn a (e.take 31)).hostWrite fn (a + 31) (e.drop 31) else s.hostWrite fn a e
  s.cqPosted q

/-- An entry takes the CQ's next slot: its position, the count after it, and the entry with OWN written (R36). -/
def State.cqTake (s : State) (q : Nat) (e : Bytes) : State × Nat × Nat × Bytes :=
  let k := s.queue q
  let e := putAt e 31 [BitVec.ofNat 8 (setBits (leAt e 31 1) 7 1 (b2n (s.phase q k.head)))]
  (s.setQueue q { k with head := s.nextPos q k.head, cnt := k.cnt + 1 }, k.head, k.cnt + 1, e)

/-- The POSTED record of a CQ entry is issued; the entry is written once it is durable (R544, R545). `owner`: the subchannel
or channel, and CHGSEQ after the change; `sq`: the queue whose head SQHEAD gives; `sc`: its chain status is posted;
`reply`: it occupies a reserved slot (R57). An entry for a CQ that is not enabled waits until it is (R67). -/
def State.postEntry (s : State) (q : Nat) (e : Bytes) (owner chgseq : Nat) (sq sc : Option Nat) (reply : Bool) : State :=
  if !s.qEn q then { s with owed := s.owed ++ [.late q e sq sc reply] } else
  let x := s.cqTake q e
  let s := x.1
  let pos := x.2.1
  let c := x.2.2.1
  s.jIssue 0x03 (natLE 2 owner ++ natLE 2 q ++ natLE 4 chgseq ++ natLE 4 (s.posVal q (s.nextPos q pos)) ++
    natLE 4 (leAt e 20 2 / 16384) ++ natLE 8 c) (.posted q x.2.2.2 pos c sq sc reply)

/-- A request reply (KIND 1): it occupies the slot its request reserved (R57). -/
def State.postReply (s : State) (q sc bits reason tag : Nat) (from_ : Option (Nat × Nat × Nat × Nat) := none) : State :=
  let e : CqE := { ts := s.now, sc, kind := 1, bits, tag, reason }
  let e := match from_ with
    | some (lastCw, residual, b, sp) => { e with lastCw, residual, bits := bits ||| b, space := sp }
    | none => e
  s.postEntry (s.qPair q) e.enc sc (s.cx sc 92 4) (some q) none true

/-- The CQ of a chain's statuses: HOME_CQ for an autostart chain, else the CQ paired with the SQ of its START (R63). -/
def State.chainCq (s : State) (sc : Nat) : Nat :=
  if s.cxFlag sc 2 then bits (s.cx sc 4 2) 0 13 else s.qPair (bits (s.cx sc 6 2) 0 13)

/-- A chain status joins the held list of its CQ (R60). BACKPRESSURE is set at every hold, also where the CQ is not enabled or the list is
made again at a start. DESIGN CHOICE (log 83). -/
def State.holdStatus (s : State) (sc q : Nat) : State :=
  let k := s.queue q
  let s := match k.held.getLast? with
    | some l => s.cxSet l 90 2 (sc + 32768)
    | none => s
  let s := (s.setCxFlag sc 1 true).setQueue q { k with held := k.held ++ [sc] }
  (s.wf (tq q 0x28) 0 15 (k.held.length + 1)).setBit (tq q 0x1C) 2

/-- The chain status in HELD_ENTRY is posted (R74). -/
def State.postHeld (s : State) (sc q : Nat) : State :=
  let auto := s.cxFlag sc 2
  s.postEntry q (s.ctx.rdN (sc * 2048 + 128) 32) sc (s.cx sc 92 4 + 1)
    (if auto then none else some (bits (s.cx sc 6 2) 0 13)) (some sc) false

/-- A fixed status posts, or is held (R60). -/
def State.postStatus (s : State) (sc : Nat) : State :=
  let q := s.chainCq sc
  if s.cqRoom q then s.postHeld sc q else s.holdStatus sc q

/-- The oldest held status leaves the list. -/
def State.unhold (s : State) (sc q : Nat) : State :=
  let k := s.queue q
  let l := k.held.erase sc
  let s := ((s.setCxFlag sc 1 false).cxSet sc 90 2 0).setQueue q { k with held := l }
  s.wf (tq q 0x28) 0 15 l.length

/-- What an effect still does once a queue is disabled (R67): the ring it would have changed is gone. -/
def JEff.without (q : Nat) : JEff → JEff
  | .posted c e p n sq sc r => if c = q then .late c e sq sc r else .posted c e p n sq sc r
  | .start sc (some p) h => if p = q then .start sc none h else .start sc (some p) h
  | .qpub p h => if p = q then .nothing else .qpub p h
  | e => e

/-- A queue is disabled: nothing issued before changes it afterwards. -/
def State.forgetQueue (s : State) (q : Nat) : State :=
  { s with jpend := s.jpend.map fun r => { r with eff := r.eff.without q }, owed := s.owed.map fun e => e.without q }

/-- SQ or DQ entries are taken only while the paired CQ has a free unreserved slot and no held status (R57, R59), and the
queue's function may master the bus (R511). -/
def State.mayTake (s : State) (q : Nat) : Bool := s.cqRoom (s.qPair q) && s.masters (s.qFn q)

end Sys2Proof.Machine
end

