-- ==== Sys2Proof/Machine/Flags.lean ====
section
/-! DEFINITION. The flags of the Tiller's integer instructions (R219-R224) and the condition codes (R173). FL: bit 0 C, 1 Z,
2 N, 3 V, 4 DZ, [6:5] MODE, 7 TIP (R148). -/

namespace Sys2Proof.Machine

/-- A bit of FL or PR replaced. -/
def setFl (fl : Byte) (k : Nat) (b : Bool) : Byte :=
  if b then fl ||| (1 : Byte) <<< k else fl &&& ~~~((1 : Byte) <<< k)

/-- A bit of FL or PR. -/
def flBit (fl : Byte) (k : Nat) : Bool := fl.getLsbD k

/-- N and Z of a 32-bit result. -/
def flNZ (fl : Byte) (r : Word) : Byte := setFl (setFl fl 2 r.msb) 1 (r == 0)

/-- N, Z, C and V of a 32-bit result. -/
def flNZCV (fl : Byte) (r : Word) (c v : Bool) : Byte := setFl (setFl (flNZ fl r) 0 c) 3 v

/-- A + op + carry: the result and its flags (R219, R220). -/
def addFlags (fl : Byte) (a b : Word) (cin : Bool) : Word × Byte :=
  let u := a.toNat + b.toNat + b2n cin
  let i := a.toInt + b.toInt + (b2n cin : Int)
  let r := BitVec.ofNat 32 u
  (r, flNZCV fl r (decide (2 ^ 32 ≤ u)) (decide (r.toInt ≠ i)))

/-- A − op − borrow: the result and its flags; C is 1 when no borrow occurs (R219, R220). -/
def subFlags (fl : Byte) (a b : Word) (bor : Bool) : Word × Byte :=
  let i := a.toInt - b.toInt - (b2n bor : Int)
  let r := a - b - BitVec.ofNat 32 (b2n bor)
  (r, flNZCV fl r (decide (b.toNat + b2n bor ≤ a.toNat)) (decide (r.toInt ≠ i)))

/-- The 16-bit comparison of CPX and CPY (R219). -/
def cmp16Flags (fl : Byte) (x y : BitVec 16) : Byte :=
  let r := x - y
  setFl (setFl (setFl (setFl fl 2 r.msb) 1 (r == 0)) 0 (decide (y.toNat ≤ x.toNat)))
    3 (decide (r.toInt ≠ x.toInt - y.toInt))

/-- SHL by the whole operand (R222, R223). -/
def shlFlags (fl : Byte) (a : Word) (n : Nat) : Word × Byte :=
  if n = 0 then (a, flNZ fl a)
  else
    let r := if n ≤ 31 then a <<< n else 0
    (r, setFl (flNZ fl r) 0 (decide (n ≤ 32) && a.getLsbD (32 - n)))

/-- SHR by the whole operand (R222, R223). -/
def shrFlags (fl : Byte) (a : Word) (n : Nat) : Word × Byte :=
  if n = 0 then (a, flNZ fl a)
  else
    let r := if n ≤ 31 then a >>> n else 0
    (r, setFl (flNZ fl r) 0 (decide (n ≤ 32) && a.getLsbD (n - 1)))

/-- SAR by the whole operand (R222, R223). -/
def sarFlags (fl : Byte) (a : Word) (n : Nat) : Word × Byte :=
  if n = 0 then (a, flNZ fl a)
  else
    let r := a.sshiftRight (min n 32)
    (r, setFl (flNZ fl r) 0 (if n ≤ 32 then a.getLsbD (n - 1) else a.msb))

/-- ROL by the operand modulo 32; C changes unless the whole operand is 0 (R222, R223). -/
def rolFlags (fl : Byte) (a : Word) (n : Nat) : Word × Byte :=
  let r := a.rotateLeft (n % 32)
  (r, if n = 0 then flNZ fl r else setFl (flNZ fl r) 0 (r.getLsbD 0))

/-- ROR by the operand modulo 32; C changes unless the whole operand is 0 (R222, R223). -/
def rorFlags (fl : Byte) (a : Word) (n : Nat) : Word × Byte :=
  let r := a.rotateRight (n % 32)
  (r, if n = 0 then flNZ fl r else setFl (flNZ fl r) 0 r.msb)

/-- The condition codes of PSET (R173). -/
def condTrue (fl : Byte) (code : Nat) : Bool :=
  let c := flBit fl 0; let z := flBit fl 1; let n := flBit fl 2; let v := flBit fl 3
  match code with
  | 0 => z | 1 => !z | 2 => c | 3 => !c | 4 => n | 5 => !n | 6 => v | 7 => !v
  | 8 => c && !z | 9 => !c || z | 10 => n == v | 11 => n != v | 12 => !z && n == v | 13 => z || n != v
  | 14 => true | 15 => flBit fl 4 | _ => false

end Sys2Proof.Machine
end

