-- ==== Sys2Proof/Machine/Operands.lean ====
section
/-! DEFINITION. The operand forms of the Tiller's instructions (R169, R170, R172) and the engine address space (R152-R166,
R213): what an access reads, writes or traps. -/

namespace Sys2Proof.Machine

/-- An instruction being performed: its thread, its form, and whether it is a step of a decode-table instruction (R203). -/
structure TArg where
  t : Nat
  f : TForm
  step : Bool := false

/-- What an instruction's effect comes to: done, a trap with cause and INFO (R183), a trap that leaves what the instruction
has already moved (R181), a window load in flight (R165), a stall that leaves the thread at the instruction, or a read of a
codeword that is not delivered (R22): its fault falls due and the thread goes no further. -/
inductive TRes where
  | done (s : State)
  | trap (cause info : Nat)
  | trapAt (s : State) (cause info : Nat)
  | hold (s : State)
  | stall
  | lost (r : MemRegion) (idx : Nat)

/-- What an operand read comes to. -/
inductive MRes where
  | val (b : Bytes)
  | trap (cause info : Nat)
  | hold (s : State)
  | stall
  | lost (r : MemRegion) (idx : Nat)

/-- What follows from an operand read. -/
def MRes.go (m : MRes) (k : Bytes → TRes) : TRes :=
  match m with
  | .val b => k b
  | .trap c i => .trap c i
  | .hold s => .hold s
  | .stall => .stall
  | .lost r i => .lost r i

/-- The Tiller of a thread. -/
def tillerOf (t : Nat) : Nat := t / 16

/-- FL.MODE of a thread: 0 normal, 1 routine, 2 Cloche (R148). -/
def Thread.mode (th : Thread) : Nat := bits th.fl.toNat 5 2

/-- The binary64 format is in force (R149). -/
def Thread.dbl (th : Thread) : Bool := th.fpcr.getLsbD 2

/-- The subchannel bound to a thread. -/
def Thread.sc? (th : Thread) : Option Nat := match th.bind with | .sc n => some n | _ => none

/-! ## Permissions and windows -/

/-- Whether function `fn` has class `cls` on a node: 0 Read, 1 Write, 2 Control, 3 Reserve (R507). -/
def State.perm (s : State) (fn node cls : Nat) : Bool := s.rb (0x140000 + 16 * node + 4 * (fn / 8)) (4 * (fn % 8) + cls)

/-- The function a thread's window accesses are made for (R163). -/
def State.winFn (s : State) (th : Thread) : Nat := th.sc?.elim 0 s.chainFn

/-- The 16 bytes that describe window `w` of a thread (R162), as a number. -/
def State.winDesc (s : State) (t : Nat) (th : Thread) (w : Nat) : Nat :=
  th.sc?.elim (Config.looseWindow t w).toNat fun sc => s.cx sc (0x700 + 16 * w) 16

/-- A translation window access: space, address, node (R162); none: it traps WINDOW (R164). `n` bytes, `wr` a store. A node that
R357 or its port turns away reports an error. -/
def State.window (s : State) (t : Nat) (th : Thread) (ea n : Nat) (wr : Bool) : Option (Nat × Nat × Nat) :=
  let bank := ea / 65536
  let w := (bank - 0x80) / 32
  let d := s.winDesc t th w
  let base := bits d 16 48 * 65536
  let sp := bits d 64 2
  let node := bits d 80 12
  let a := (base + (bank - 0x80 - 32 * w) * 65536 + ea % 65536) % 2 ^ 64
  let fn := s.winFn th
  if !bitOn d 66 || sp = 3 || (wr && bitOn d 67) then none
  else if sp = 2 && (2 ^ 46 ≤ a || !s.perm fn node (b2n wr) || (s.nodeCheck node).isSome || decide (s.gate node = .absent)) then none
  else if sp = 1 && s.shareRun fn a n < n then none
  else if sp = 0 && !s.masters fn then none
  else some (sp, a, node)

/-- Posted window stores of a thread that its node has not answered (R165). -/
def State.winStores (s : State) (t : Nat) : Nat := s.ops.countP fun e => e.2.elim false fun o => decide (o.owner = .winStore t)

/-- The exchange of a window access to a node (R162, R369; log 35): the OPEN of one operation; none: its node cannot take it yet. -/
def State.winOpen (s : State) (node a n : Nat) (o : NOp) (code : Nat) : Option (State × Nat) :=
  if s.gate node = .wait then none
  else (s.findOph node).map fun oph =>
    ((s.firstRelease node).openOp oph node { o with sub := a } { oph, kind := 0, code, subaddr := a, count := n }, ophKey oph)

/-- A window load sets out (R165), once the thread's earlier stores are complete. -/
def State.winLoad (s : State) (t : Nat) (th : Thread) (ea n sp a node : Nat) : MRes :=
  let w : WinLoad := { ea, space := sp, addr := a, len := n }
  let put := fun (s : State) w => MRes.hold (s.modThread t fun h => { h with win := some w })
  if s.winStores t ≠ 0 then .stall
  else if sp = 0 then put (s.hostRead (s.winFn th) a n (.window t) false (tgPort t)) w
  else if sp = 1 then put s w
  else match s.winOpen node a n { owner := .winLoad t, read := true } 0x02 with
    | some (s, k) => put s { w with op := some k }
    | none => .stall

/-- A window store is made: posted, at most eight outstanding (R165). -/
def State.winStore (s : State) (t : Nat) (th : Thread) (b : Bytes) (sp a node : Nat) : TRes :=
  if 8 ≤ s.winStores t then .stall
  else if sp = 0 then .done (s.hostWrite (s.winFn th) a b false (tgPort t))
  else if sp = 1 then .done (s.bufPut a b)
  else match s.winOpen node a b.length { owner := .winStore t } 0x01 with
    | some (s, k) => .done (s.opData k b true (tgPort t))
    | none => .stall

/-! ## The Furrow window -/

/-- A packet as the window shows it: header, then data (R159). -/
def Pkt.bytes (p : Pkt) : Bytes :=
  let b0 := p.tag.toNat + 16 * b2n p.first + 32 * b2n p.last
  natLE 2 b0 ++ natLE 2 p.data.length ++ natLE 2 p.node ++ [0, 0] ++ natLE 8 p.offset ++ p.data

/-- The idle item (R454). -/
def idlePkt : Pkt := { tag := 0xF }

/-- The k-th inbound packet from the read position (R158); none: the position is empty. -/
def State.pkt (s : State) (t k : Nat) : Option Pkt := (s.thread t).furrow.pkts[(s.thread t).furrow.rd + k]?

/-- What the window shows at a position: a packet, or the idle item (R160). -/
def State.pktAt (s : State) (t k : Nat) : Pkt := (s.pkt t k).getD idlePkt

/-- `n` bytes of a packet at an offset of its window; bytes beyond LEN are zero (R454). -/
def Pkt.rd (p : Pkt) (off n : Nat) : Bytes := padTo n ((p.bytes.drop off).take n)

/-! ## Engine space -/

/-- A read of protected memory (R22): corrected data is delivered (its report: `State.noted`), what is uncorrectable is not. -/
def State.rdCw (s : State) (r : MemRegion) (idx : Nat) (b : Bytes) : MRes := if s.cwWorst r idx idx = 2 then .lost r idx else .val b

/-- Reads `n` bytes at an engine address, `al`-byte aligned. DESIGN CHOICE (log 83): an access that is neither aligned nor
implemented traps ALIGN; banks 0x02 to 0x0F are unimplemented. -/
def State.engRd (s : State) (x : TArg) (ea n al : Nat) : MRes :=
  let th := s.thread x.t
  let bank := ea / 65536 % 256
  let off := ea % 65536
  let rout := th.mode = 1
  if off % al ≠ 0 then .trap 6 ea
  else if bank = 0 then
    if off < 0x1000 then .val (s.tpriv.rdN (x.t * 4096 + off) n)
    else if off < 0xD000 then
      let a := tillerOf x.t * 0x40000 + 0x20000 + (off - 0x1000)
      s.rdCw .tiller (a / 64) (s.tmem.rdN a n)
    else .trap 5 ea
  else if bank < 0x10 then
    match th.sc? with
    | some sc =>
      let b := s.ctx.rdN (sc * 2048 + off) n
      if bank = 1 && off + n ≤ 0x800 then (if off < 512 then s.rdCw .context (sc * 8 + off / 64) b else .val b) else .trap 5 ea
    | none => .trap 5 ea
  else if bank = 0x10 && 0x8000 ≤ off && off + n ≤ 0x9010 && !(rout && off < 0x8010) then .val (th.out.rdN off n)
  else if bank < 0x20 then
    if off + n ≤ 0x1010 && !(rout && bank ≠ 0x10) then
      -- R447: a packet read uncorrectable is removed, and the load traps WINDOW
      (if (s.pktAt x.t (bank - 0x10)).err then .trap 9 ea else .val ((s.pktAt x.t (bank - 0x10)).rd off n))
    else .trap 5 ea
  else if bank < 0x80 || rout then .trap 5 ea
  else if x.step then .trap 4 2
  else match th.winGot.find? fun e => e.1 = ea with
    | some e => .val (padTo n e.2)
    | none =>
      match s.window x.t th ea n false with
      | none => .trap 9 ea
      | some (sp, a, node) => s.winLoad x.t th ea n sp a node

/-- Bytes of a context that threads may not write (R156). -/
def ctxReadOnly (off n : Nat) : Bool :=
  decide (off < 12) || (decide (off < 104) && decide (88 < off + n)) || (decide (off < 120) && decide (112 < off + n))

/-- Stores bytes at an engine address, `al`-byte aligned. DESIGN CHOICE (log 83): ALIGN comes before BADADDR; banks 0x02 to 0x0F are
unimplemented; the inbound packet of bank 0x10 is read-only, as R158 says of the later ones. -/
def State.engWr (s : State) (x : TArg) (ea : Nat) (b : Bytes) (al : Nat) : TRes :=
  let th := s.thread x.t
  let n := b.length
  let bank := ea / 65536 % 256
  let off := ea % 65536
  let rout := th.mode = 1
  if off % al ≠ 0 then .trap 6 ea
  else if bank = 0 then
    if off < 0x0FC0 || (off < 0x1000 && !rout) then .done { s with tpriv := s.tpriv.wrN (x.t * 4096 + off) b }
    else if off < 0xD000 && 0x1000 ≤ off && !rout then
      .done (s.tmemPut (tillerOf x.t * 0x40000 + 0x20000 + (off - 0x1000)) b)
    else .trap 5 ea
  else if bank < 0x10 then
    match th.sc? with
    | some sc =>
      if bank = 1 && off + n ≤ 0x800 && !(rout && off < 0x740) && !ctxReadOnly off n then
        -- R157: a write that would make a 513th dirty context stalls
        (if sc ∉ s.dirty && decide (512 ≤ s.dirty.length) then .stall else .done (s.cxPut sc off b))
      else .trap 5 ea
    | none => .trap 5 ea
  else if bank = 0x10 && 0x8000 ≤ off && off + n ≤ 0x9010 && !(rout && off < 0x8010) then
    .done (s.setThread x.t { th with out := th.out.wrN off b })
  else if bank < 0x80 || rout then .trap 5 ea
  else if x.step then .trap 4 2
  else match s.window x.t th ea n true with
    | none => .trap 9 ea
    | some (sp, a, node) => s.winStore x.t th b sp a node

/-! ## Operands -/

/-- The effective engine address of a form; none: an immediate (R152, R169, R170). -/
def opEa (f : TForm) (th : Thread) : Option Nat :=
  match f with
  | .short _ .d8 o => some (o.toNat * 4)
  | .short .. => none
  | .long _ _ m v =>
    match m.toNat with
    | 0 => none
    | 1 => some v.toNat
    | 2 => some (th.bk.toNat * 65536 + (v.toNat + th.x.toNat) % 65536)
    | _ => some (th.bk.toNat * 65536 + (v.toNat + th.y.toNat) % 65536)

/-- The immediate of a form, zero-extended (R169, R170). -/
def opImm (f : TForm) : Nat := match f with | .short _ _ o => o.toNat | .long _ _ _ v => v.toNat

/-- The guard of a form holds (R171); P0 reads 1 (R146). -/
def opGuard (f : TForm) (th : Thread) : Bool :=
  let p := fun k : Nat => k = 0 || flBit th.pr k
  match f with
  | .short g _ _ => p g.toNat
  | .long sn pg _ _ => p pg.toNat != sn

/-- The bytes of an instruction (R168). -/
def opSize (f : TForm) : Nat := match f with | .short .. => 2 | .long .. => 4

/-- The codeword of protected memory that an operand at an engine address lies in. -/
def State.cwAt (s : State) (t ea : Nat) : Option (MemRegion × Nat) :=
  let th := s.thread t
  let bank := ea / 65536 % 256
  let off := ea % 65536
  if bank = 0 ∧ 0x1000 ≤ off ∧ off < 0xD000 then some (.tiller, (tillerOf t * 0x40000 + 0x20000 + (off - 0x1000)) / 64)
  else if bank = 1 ∧ off < 512 then th.sc?.map fun sc => (.context, sc * 8 + off / 64)
  else none

/-- An instruction has read a word of its thread Furrow: the packet there is no longer stale (R455). -/
def State.windowRead (s : State) (t : Nat) (ea : Option Nat) : State :=
  let bank := ea.elim 0 fun a => a / 65536 % 256
  let off := ea.elim 0 fun a => a % 65536
  if 0x10 ≤ bank ∧ bank < 0x20 ∧ off < 0x1010 ∧ (s.thread t).furrow.staleRaised = true then
    s.modThread t fun h => { h with furrow := { h.furrow with staleRaised := false } }
  else s

/-- An instruction whose operand lay in a codeword with a correctable error has read it, or merged into it: the correction is reported
(R22). `before`: the state it began in. -/
def State.noted (before s : State) (x : TArg) (ea : Option Nat) : State :=
  let s := s.windowRead x.t ea
  if before.errs.isEmpty then s
  else match ea.bind fun a => before.cwAt x.t a with
    | some (r, i) => if before.cwWorst r i i = 1 ∧ s.cwWorst r i i = 1 then s.metErr r i 1 else s
    | none => s

/-- An integer operand of `n` bytes as a number: an immediate, of which it takes the low bytes (DESIGN CHOICE: LDB in mode 0 takes V
modulo 256; log 83), or a read; what follows from it. -/
def State.operand (s : State) (x : TArg) (n : Nat) (k : Nat → TRes) : TRes :=
  match opEa x.f (s.thread x.t) with
  | none => k (opImm x.f % 2 ^ (8 * n))
  | some ea => (s.engRd x ea n n).go fun b => k (leNat b)

/-- A word operand; of a direct word, its low `n` bytes (R174: LDX, LDY, CPX, CPY). -/
def State.operandLow (s : State) (x : TArg) (n : Nat) (k : Nat → TRes) : TRes :=
  match x.f with
  | .short .. => s.operand x 4 fun v => k (v % 2 ^ (8 * n))
  | .long .. => s.operand x n k

/-- A store to a form's operand; an immediate form traps ILLEGAL (R172). -/
def State.storeOp (s : State) (x : TArg) (b : Bytes) (al : Nat) : TRes :=
  match opEa x.f (s.thread x.t) with
  | none => .trap 4 0
  | some ea => s.engWr x ea b al

/-- The bytes of an FP value in the format in force (R240). -/
def Thread.fpBytes (th : Thread) : Nat := if th.dbl then 8 else 4

/-- Reads `k` consecutive elements of `n` bytes. -/
def State.engRdMany (s : State) (x : TArg) (ea n : Nat) : Nat → MRes
  | 0 => .val []
  | k + 1 =>
    match s.engRd x (ea / 65536 * 65536 + ea % 65536) n n with
    | .val b =>
      match s.engRdMany x (ea / 65536 * 65536 + (ea + n) % 65536) n k with
      | .val r => .val (b ++ r)
      | m => m
    | m => m

/-- Stores consecutive elements of `n` bytes, whole or not at all. -/
def State.engWrMany (s : State) (x : TArg) (ea n : Nat) (b : Bytes) : Nat → TRes
  | 0 => .done s
  | k + 1 =>
    match s.engWr x ea (b.take n) n with
    | .done s' => s'.engWrMany x (ea / 65536 * 65536 + (ea + n) % 65536) n (b.drop n) k
    | r => r

/-- `k` consecutive floating-point values at a form's operand; an immediate form traps ILLEGAL (R172). -/
def State.fpOperand (s : State) (x : TArg) (k : Nat) (f : Bytes → TRes) : TRes :=
  let th := s.thread x.t
  let n := th.fpBytes
  match opEa x.f th with
  | none => .trap 4 0
  | some ea => (s.engRdMany x ea n k).go f

end Sys2Proof.Machine
end

