-- ==== Sys2Proof/Machine/Movers.lean ====
section
/-! DEFINITION. Barrow transfers (R255-R271): binding and eviction, the reads a transfer issues, and what its write beats
write. One read of each stream is outstanding at a time (log 13). -/

namespace Sys2Proof.Machine

/-! ## Bookkeeping -/

/-- A state with a transfer changed. -/
def State.modXfer (s : State) (x : Nat) (f : Xfer → Xfer) : State :=
  match s.xfer x with
  | some v => s.setXfer x (some (f v))
  | none => s

/-- A new transfer: it waits unbound from now on (R258). -/
def State.newXfer (s : State) (v : Xfer) : State × Nat :=
  ({ s with nextXfer := s.nextXfer + 1, stamp := s.stamp + 1 }.setXfer s.nextXfer (some { v with age := s.stamp }), s.nextXfer)

/-- BW_UNIT_STAT and BW_CH_STATE follow a slot. -/
def State.slotMark (s : State) (v : Xfer) (b k : Nat) (on : Bool) : State :=
  let s := (s.wb (0x308000 + 16 * b) k on).wb (0x308000 + 16 * b) (4 + k) (on && v.paused)
  match v.owner with
  | .chan c =>
    let s := s.wb (bwCh c 0x10) 3 on
    if on then (s.wf (bwCh c 0x10) 4 4 b).wf (bwCh c 0x10) 8 2 k else s
  | _ => s

/-- A transfer gives up its slot. -/
def State.unbind (s : State) (x : Nat) : State :=
  match s.xfer x with
  | some v => match v.slot with
    | some (b, k) => (s.slotMark v b k false).setXfer x (some { v with slot := none, evicting := false })
    | none => s
  | none => s

/-- The half that serves a transfer: its home half, unless that is fenced or powered down (R256). -/
def State.serves (s : State) (v : Xfer) : Bool := if s.bwIn (b2n v.half) then v.half else !v.half

/-- Free slots of a Barrow. -/
def State.freeSlots (s : State) (b : Nat) : List Nat := (List.range 4).filter fun k => !s.rb (0x308000 + 16 * b) k

/-- The slot a transfer of a half is bound to (R257). -/
def State.pickSlot (s : State) (h : Bool) : Option (Nat × Nat) :=
  ((List.range 8).map fun i => 8 * b2n h + i).foldl (fun best b =>
    match s.freeSlots b with
    | [] => best
    | k :: ks => match best with
      | some (b', k') => if (s.freeSlots b').length ≤ ks.length then some (b, k) else some (b', k')
      | none => some (b, k)) none

/-- The transfer bound next in a half: highest priority, then longest waiting (R258). -/
def State.nextUnbound (s : State) (h : Bool) : Option Nat :=
  (s.xfers.foldl (fun best e => match e.2 with
    | some v =>
      if v.slot.isSome || v.code.isSome || v.paused || s.serves v != h then best
      else match best with
        | some (_, p, a) => if p < v.prio ∨ (p = v.prio ∧ v.age < a) then some (e.1, v.prio, v.age) else best
        | none => some (e.1, v.prio, v.age)
    | none => best) (none : Option (Nat × Nat × Nat))).map fun r => r.1

/-- The transfer evicted for one of priority `p`: the lowest of strictly lower priority, bound most recently on a tie, not
paused, and, if paced, between two bursts (R264, R266). -/
def State.victim (s : State) (h : Bool) (p : Nat) : Option Nat :=
  (s.xfers.foldl (fun best e => match e.2 with
    | some v =>
      if v.slot.isNone || v.paused || decide (p ≤ v.prio) || (v.slot.elim 0 fun q => q.1 / 8) != b2n h ||
        (v.paced && decide (v.burst ≠ 0)) then best
      else match best with
        | some (_, q, b) => if v.prio < q ∨ (v.prio = q ∧ b < v.boundAt) then some (e.1, v.prio, v.boundAt) else best
        | none => some (e.1, v.prio, v.boundAt)
    | none => best) (none : Option (Nat × Nat × Nat))).map fun r => r.1

/-! ## Lists (R94) -/

/-- The current segment of a list: space, address and length of what is left of it; none while no entry is read or it is used
up. -/
def ListPos.seg (l : ListPos) : Option (Nat × Nat × Nat) :=
  let len := leAt l.entry 8 4
  if l.entry.isEmpty ∨ len ≤ l.off then none else some (leAt l.entry 12 1 % 4, leAt l.entry 0 8 + l.off, len - l.off)

/-- Bytes of the current segment are used; a used-up entry gives way to the next. -/
def ListPos.use (l : ListPos) (n : Nat) : ListPos :=
  let o := l.off + n
  if leAt l.entry 8 4 ≤ o then { l with addr := l.addr + 16, entry := [], off := 0 } else { l with off := o }

/-- An entry arrives; bytes still to be passed over are passed over (LIST_OFF). -/
def Xfer.gotEntry (v : Xfer) (e : Bytes) : Xfer :=
  let k := min v.skip (leAt e 8 4)
  { v with list := ({ v.list with entry := e, off := 0 } : ListPos).use k, skip := v.skip - k }

/-- Whether the transfer's next source bytes come from a list (GATHER), or its next destination bytes do (SCATTER). -/
def Xfer.needEntry (v : Xfer) : Bool :=
  (decide (v.op = 4) && v.list.seg.isNone && decide (v.rd < v.len)) ||
  (decide (v.op = 5) && v.list.seg.isNone && decide (v.done < v.len))

/-! ## Ending -/

/-- A transfer ends with a code (R283), at an offset of its count; its staged bytes are discarded. An operation that a
descriptor opened and that is still open is ended (R375), or, where nothing of it has left, withdrawn. Its slot is freed when it completes (R257), or, aborted, as soon as no
read of it is outstanding (R287). -/
def State.endXfer (s : State) (x code : Nat) (info : Nat := 0xFFFFFFFF) (ns : Byte := 0) : State :=
  match s.xfer x with
  | none => s
  | some v =>
    if v.code.isSome then s
    else
      let s := s.setXfer x (some { v with code := some code, info, nodeStatus := ns, staged := [], staged2 := [] })
      let s := match v.owner with
        | .chan c =>
          let s := [v.srcOp, v.dstOp].foldl (fun s o => match o with
            | some k => match s.op k with
              | some q => if q.lastSeen && code = 0 then s else (s.endOp k).1
              | none => s
            | none => s) s
          s.modChan c fun q => { q with op := q.op.filter fun k => (s.op k).isSome, op2 := q.op2.filter fun k => (s.op k).isSome }
        | _ => s
      if code = 2 && v.want.isNone && v.want2.isNone then s.unbind x else s

/-! ## Write beats -/

/-- The fabric port of the half that holds a transfer's slot. -/
def Xfer.port (v : Xfer) : Nat := v.slot.elim 7 fun q => 7 + q.1 / 8

/-- The bytes of a destination run that one packet carries: a TLP of at most 512 bytes of payload that ends on a beat's edge and
crosses no 4 KiB boundary (R271), a DATA flit of 224, a packet of 4096. -/
def pktCut (sp a k : Nat) : Nat :=
  if sp = 0 then min k (min ((a + 512) / 64 * 64 - a) (4096 - a % 4096)) else if sp = 2 then min k 224 else k

/-- The thread a transfer serves. -/
def State.xferThread (s : State) (o : XOwner) : Option Nat :=
  match o with
  | .disp t _ => some t
  | .chain sc => (s.threads.find? fun e => e.2.bind = .sc sc).map fun e => e.1
  | .chan _ | .ended => none

/-- Pattern bytes of a FILL: byte (a mod 8) at address a (R277). -/
def fillBytes (pat : BitVec 64) (a : Nat) : Nat → Bytes
  | 0 => []
  | n + 1 => BitVec.ofNat 8 (pat.toNat / 2 ^ (8 * (a % 8))) :: fillBytes pat (a + 1) n

/-- The run of destination bytes at the write position: space, address, bytes in the run; none: a list entry is awaited. -/
def State.dstRun (s : State) (v : Xfer) : Option (Nat × Nat × Nat) :=
  if v.op = 6 then some (4, 0, v.len - v.done)
  else if v.op = 5 then v.list.seg
  else if v.dstSpace = 2 then
    some (2, (v.dstOp.elim 0 fun k => (s.op k).elim 0 fun o => o.sub + o.sentOff), v.len - v.done)
  else some (v.dstSpace, v.dst + v.done, v.len - v.done)

/-- Bytes of a destination run that are written now, of `n` that could be: whole 64-byte words (R270), whole packets of 4096 for a
thread; all of them when nothing more comes, but for a thread only whole samples unless the word ends (R211). -/
def Xfer.runCut (v : Xfer) (sp a n : Nat) (fin ends : Bool) : Nat :=
  if sp = 4 then n
  else if sp = 3 then
    let c := v.carry.length
    if 4096 ≤ c + n then 4096 - c
    else if ends then n
    else if fin then (c + n) / v.grain * v.grain - c
    else 0
  else if fin then n
  else (a + n) / 64 * 64 - a

/-- The node whose operation a transfer belongs to (R159). -/
def State.xferNode (s : State) (v : Xfer) : Nat :=
  match v.srcOp with
  | some k => (s.op k).elim 0 fun o => o.node
  | none => match v.owner with
    | .chain sc => (s.chain sc).node
    | .disp t _ => (s.thread t).sc?.elim 0 fun sc => (s.chain sc).node
    | .chan _ | .ended => 0

/-- The packet of a run for a thread (R159, R211, R299): whole samples, but that the one which ends the operation holds what is left;
what a word leaves over goes to the next word. `last`: the operation's data ends with it. -/
def State.putPkt (s : State) (x : Nat) (v : Xfer) (b : Bytes) (last : Bool) : State :=
  let all := v.carry ++ b
  let n := if last then all.length else all.length / v.grain * v.grain
  let off := v.base.getD 0 + v.done - v.carry.length
  let s := s.modXfer x fun v => { v with carry := [] }
  let s := match v.owner with
    | .chain sc => s.modChain sc fun c => { c with carry := all.drop n }
    | _ => s
  if n = 0 && !last then s
  else match s.xferThread v.owner with
    | some t => s.pushPkt t { first := decide (off = 0), last, node := s.xferNode v, offset := off, data := all.take n } v.port (some x)
    | none => s

/-- The words of the input Furrow that a run's packet needs; none where it does not wait for any. -/
def Xfer.needs (v : Xfer) (sp k : Nat) : Nat :=
  if sp = 0 then pktWords k else if sp = 2 then 4 else if sp = 3 then pktWords (v.carry.length + k) else 0

/-- The effect of writing bytes at a destination run; answers how many were written (R19: none at or above the first byte
outside the share). `last`: the operation's data ends with them. -/
def State.putRun (s : State) (x : Nat) (v : Xfer) (sp a : Nat) (b : Bytes) (last : Bool) : State × Nat :=
  if sp = 0 then (s.hostWrite v.fn (a % 2 ^ 64) b true v.port (some x), b.length)
  else if sp = 1 then
    let k := s.shareRun v.fn a b.length
    (s.bufPut a (b.take k), k)
  else if sp = 2 then (v.dstOp.elim s fun k => s.opData k b (v.final && decide (v.done + b.length = v.len)) v.port (some x), b.length)
  else if sp = 3 then (s.putPkt x v b last, b.length)
  else (s, b.length)

/-- A transfer may write to its node operation: it is open, and no dispatch before it still writes to it. -/
def State.mayWrite (s : State) (x : Nat) (v : Xfer) : Bool :=
  match v.dstOp with
  | some k => (s.op k).isSome && !(s.xfers.any fun e => decide (e.1 < x) && e.2.elim false fun w => decide (w.dstOp = some k) && w.code.isNone)
  | none => false

/-- BW_CH_DONE follows a channel's transfer. -/
def State.showDone (s : State) (v : Xfer) (n : Nat) : State :=
  match v.owner with
  | .chan c => s.setReg (bwCh c 0x14) (BitVec.ofNat 32 n)
  | _ => s

/-- The write beats that can issue (R261, R269, R270); of an evicted transfer, whatever its pacing (R265). One that finds no room in
the input Furrow waits (R460). -/
def State.writeOut (x : Nat) : Nat → State → State
  | 0, s => s
  | n + 1, s =>
    match s.xfer x with
    | none => s
    | some v =>
      if v.code.isSome || v.paused || v.slot.isNone || decide (v.op = 3) then s
      else
        let have_ := if v.op = 2 then v.len - v.done else v.staged.length
        let lim := if v.paced && !v.evicting then min have_ v.burst else have_
        match s.dstRun v with
        | none => s
        | some (sp, a, room) =>
          let k := min (min lim room) 4096
          let ends := (v.srcEnd && decide (k = have_)) || decide (v.done + k = v.len)
          let fin := v.evicting || ends || decide (k = room) || (v.paced && decide (k = v.burst))
          let k := pktCut sp a (v.runCut sp a k fin ends)
          if k = 0 then (if sp = 3 && v.srcEnd && v.staged.isEmpty && !v.carry.isEmpty then s.putPkt x v [] true else s)
          else if sp = 2 ∧ s.mayWrite x v = false then s
          else if sp = 0 && !s.masters v.fn then s.endXfer x 3 v.done
          else if v.needs sp k ≠ 0 ∧ s.inRoom v.port (v.needs sp k) = false then s
          else
            let b := if v.op = 2 then fillBytes v.pattern a k else v.staged.take k
            let last := (v.srcEnd && decide (k = have_)) || (v.final && decide (v.done + k = v.len))
            let r := s.putRun x v sp a b last
            let s := r.1.modXfer x fun v => { v with
              done := v.done + r.2, staged := v.staged.drop r.2, burst := v.burst - r.2, beat := true,
              list := if v.op = 5 then v.list.use r.2 else v.list }
            let s := s.showDone v (v.done + r.2)
            if r.2 < k then s.endXfer x 5 (v.done + r.2) else State.writeOut x n s

/-- The bytes of a COMPARE that agree from the start, and the first pair that differs. -/
def agree : Bytes → Bytes → Nat × Option (Byte × Byte)
  | a :: as, b :: bs => if a = b then let r := agree as bs; (r.1 + 1, r.2) else (0, some (a, b))
  | _, _ => (0, none)

/-- COMPARE: what has arrived on both streams is compared (R278). -/
def State.compareOut (s : State) (x : Nat) : State :=
  match s.xfer x with
  | none => s
  | some v =>
    if v.op ≠ 3 || v.code.isSome || v.paused || v.slot.isNone then s
    else
      let k := if v.paced then v.burst else v.len
      let r := agree (v.staged.take k) (v.staged2.take k)
      let s := (s.setXfer x (some { v with
        done := v.done + r.1, burst := v.burst - r.1, staged := v.staged.drop r.1, staged2 := v.staged2.drop r.1,
        beat := v.beat || decide (r.1 ≠ 0), mismatch := r.2.map fun p => (v.done + r.1, p.1, p.2) })).showDone v (v.done + r.1)
      if r.2.isSome then s.endXfer x 1 else s

/-! ## Reads -/

/-- Bytes that the next data read of a stream may ask for (R259, R260). -/
def readCut (sp a left room : Nat) : Nat :=
  if sp = 1 then min (min left room) (64 - a % 64) else min (min left room) (4096 - a % 4096)

/-- Marks a stream's outstanding read. -/
def Xfer.setWant (v : Xfer) (second : Bool) (w : Want) (n : Nat) : Xfer :=
  if second then { v with want2 := some w, rd2 := v.rd2 + n, beat := true } else { v with want := some w, rd := v.rd + n, beat := true }

/-- The exchange a stream reads. -/
def Xfer.streamOp (v : Xfer) (second : Bool) : Option Nat := if second then (if v.op = 3 then v.dstOp else none) else v.srcOp

/-- The transfer that takes the data of an exchange: of those that read it, the first, and whether it is its second stream (R298). -/
def State.opXfer (s : State) (key : Nat) : Option (Nat × Bool) :=
  s.xfers.findSome? fun e => e.2.bind fun v =>
    if v.code.isSome then none
    else if v.streamOp false = some key && !v.srcEnd then some (e.1, false)
    else if v.streamOp true = some key && !v.srcEnd2 then some (e.1, true)
    else none

/-- The position of an operation: the first of its bytes that no transfer has taken. -/
def State.opPos (s : State) (key : Nat) : Nat := (s.op key).elim 0 fun o => o.rcvd - s.inboxLen key

/-- A node's data goes from the input Furrow into the slot, as far as that has room (R257, R259, R262): also that of a transfer which
is paused or being evicted. -/
def State.stage (s : State) (x : Nat) (second : Bool) : State :=
  match s.xfer x with
  | none => s
  | some v =>
    match v.streamOp second with
    | none => s
    | some key =>
      if v.slot.isNone || decide (s.opXfer key ≠ some (x, second)) then s
      else
        let got := if second then v.staged2 else v.staged
        let n := min ((if v.op = 3 then 2048 else 4096) - got.length) (v.len - v.done - got.length)
        let base := if second then v.base else some (v.base.getD (s.opPos key))
        let r := s.inboxTake key n
        let s := r.1
        let due := (s.op key).elim 0 fun o => o.fetchEnd - o.rcvd
        let w : Option Want := if v.want = some .list && !second then v.want else if due = 0 then none else some (.data due)
        let gone := decide (due = 0) && (s.inboxOf key).isEmpty && (s.op key).elim true fun o => o.lastSeen
        s.setXfer x (some (if second then { v with staged2 := got ++ r.2, want2 := w, srcEnd2 := gone }
          else { v with staged := got ++ r.2, want := w, srcEnd := gone, base }))

/-- An operation has ended and nothing more of it is in the Furrow: what reads it has its last data. -/
def State.opOver (s : State) (key : Nat) : State :=
  s.xfers.foldl (fun s e => match e.2 with
    | some v =>
      let a := decide (v.streamOp false = some key) && v.code.isNone && (s.inboxOf key).isEmpty
      let b := decide (v.streamOp true = some key) && v.code.isNone && (s.inboxOf key).isEmpty
      let ring := fun second => decide (v.streamOp second = some key)
      if a || b || ring false || ring true then s.setXfer e.1 (some { v with
        srcEnd := v.srcEnd || a, srcEnd2 := v.srcEnd2 || b,
        want := if ring false && v.want ≠ some .list then none else v.want, want2 := if ring true then none else v.want2 })
      else s
    | none => s) s

/-- A stream issues its next read: `sp`, `a`: where it reads; `left`: bytes it still needs; `room`: free space for it. -/
def State.readData (s : State) (x : Nat) (v : Xfer) (second : Bool) (sp a left room : Nat) : State :=
  if sp = 2 then
    match v.streamOp second with
    | none => s
    | some k => match s.op k with
      | none => s
      | some o =>
        let n := readCut 0 (o.sub + o.rcvd) left room
        if n = 0 ∨ o.rcvd < o.fetchEnd ∨ o.lastSeen ∨ o.endSent ∨ (s.inboxOf k).isEmpty = false ∨ s.opXfer k ≠ some (x, second) then s
        else (s.sendFetch k n).setXfer x (some (v.setWant second (.data n) 0))
  else if sp = 3 then
    match s.xferThread v.owner with
    | some t =>
      let n := min left 4096
      s.setXfer x (some { v with rd := v.rd + n, staged := v.staged ++ (s.thread t).out.rdN 0x8010 n, beat := true })
    | none => s
  else
    let n := readCut sp a left room
    if n = 0 then s
    else if sp = 0 then
      if !s.masters v.fn then s.endXfer x 3 v.rd
      else
        let lo := a / 64 * 64
        (s.hostRead v.fn lo ((a + n + 63) / 64 * 64 - lo) (if second then .xfer2 x else .xfer x) true v.port).setXfer x
          (some (v.setWant second (.data n) n))
    else if s.shareRun v.fn a n < n then s.endXfer x 5 v.rd
    else s.setXfer x (some (v.setWant second (.data n) n))

/-- A list entry is read (R94). -/
def State.readEntry (s : State) (x : Nat) (v : Xfer) : State :=
  let a := v.list.addr
  if v.list.space = 0 then
    if !s.masters v.fn then s.endXfer x 3
    else (s.hostRead v.fn (a / 64 * 64) 64 (.xfer x) false v.port).setXfer x (some { v with want := some .list, beat := true })
  else if s.shareRun v.fn a 16 < 16 then s.endXfer x 5
  else s.setXfer x (some { v with want := some .list, beat := true })

/-- The reads that can issue (R260, R261). -/
def State.issueReads (s : State) (x : Nat) : State :=
  match s.xfer x with
  | none => s
  | some v =>
    if v.code.isSome || v.paused || v.evicting || v.slot.isNone || decide (v.op = 2) ||
      (v.paced && decide (v.burst ≤ v.staged.length)) then s
    else
      let room := (if v.op = 3 then 2048 else 4096) - v.staged.length
      let s :=
        if v.want.isSome then s
        else if v.needEntry then s.readEntry x v
        else if v.srcSpace = 2 ∧ v.op ≠ 4 then
          (if v.done + v.staged.length < v.len && !v.srcEnd then s.readData x v false 2 0 (v.len - v.done - v.staged.length) room else s)
        else if v.rd < v.len then
          (if v.op = 4 then match v.list.seg with
            | some (sp, a, n) => s.readData x v false sp a (min n (v.len - v.rd)) room
            | none => s
          else s.readData x v false v.srcSpace (v.src + v.rd) (v.len - v.rd) room)
        else s
      match s.xfer x with
      | some v =>
        if v.op = 3 && v.want2.isNone && v.code.isNone && !v.srcEnd2 && decide (v.done + v.staged2.length < v.len) then
          s.readData x v true v.dstSpace (v.dst + v.rd2) (v.len - v.done - v.staged2.length) (2048 - v.staged2.length)
        else s
      | none => s

/-- A transfer whose bytes are all written, or whose source has ended, completes. -/
def State.checkDone (s : State) (x : Nat) : State :=
  match s.xfer x with
  | none => s
  | some v =>
    if v.code.isNone && (decide (v.done = v.len) || (v.srcEnd && v.staged.isEmpty) || (v.srcEnd2 && v.staged2.isEmpty)) then s.endXfer x 0
    else s

/-- Everything a transfer can do now, once. -/
def State.pump1 (s : State) (x : Nat) : State :=
  let s := (s.stage x false).stage x true
  let fuel := (s.xfer x).elim 0 fun v => (if v.op = 2 then v.len else v.staged.length) / 32 + 4
  ((((State.writeOut x fuel s).compareOut x).checkDone x).issueReads x)

/-- Everything a transfer can do now. A thread source delivers in the same command, and room that writing makes takes more of a
node's data. -/
def State.pump (s : State) (x : Nat) : State :=
  let s := s.pump1 x
  match s.xfer x with
  | some v =>
    if v.srcSpace = 3 || v.srcEnd || v.srcEnd2 || [v.streamOp false, v.streamOp true].any (fun o => o.elim false fun k => !(s.inboxOf k).isEmpty)
    then (s.pump1 x).pump1 x else s
  | none => s

/-- A transfer takes its place: behind those of higher priority, and those of its own bound before it. -/
def putXfer (e : Nat × Nat × Nat) : List (Nat × Nat × Nat) → List (Nat × Nat × Nat)
  | [] => [e]
  | b :: bs => if b.1 < e.1 ∨ (b.1 = e.1 ∧ e.2.1 < b.2.1) then e :: b :: bs else b :: putXfer e bs

/-- The bound transfers in the order in which a Barrow chooses among those that can issue (R261). -/
def State.boundXfers (s : State) : List Nat :=
  (s.xfers.foldl (fun l e => match e.2 with
    | some v => if v.slot.isSome && v.code.isNone then putXfer (v.prio, v.boundAt, e.1) l else l
    | none => l) []).map fun r => r.2.2

/-- Every bound transfer goes on as far as it can, highest priority first, then bound earliest (R261). -/
def State.pumpAll (s : State) : State := s.boundXfers.foldl (fun s x => s.pump x) s

/-! ## Binding -/

/-- A transfer is bound to a slot and begins, or continues (R257, R263). -/
def State.bindXfer (s : State) (x b k : Nat) : State :=
  match s.xfer x with
  | some v => ({ s with stamp := s.stamp + 1 }.slotMark v b k true).setXfer x (some { v with slot := some (b, k), boundAt := s.stamp })
      |>.pump x
  | none => s

/-- The next waiting transfer of a half takes a free slot, if there are both. -/
def State.bindNext (s : State) (h : Bool) : State :=
  match s.nextUnbound h, s.pickSlot h with
  | some x, some (b, k) => s.bindXfer x b k
  | _, _ => s

/-- What an evicted transfer has staged is written, as far as its destination is known (R265); what is left is part of a sample (R211),
or waits for a list entry, or is compared. -/
def State.evictClear (s : State) (x : Nat) : Bool :=
  match s.xfer x with
  | some v => v.staged.isEmpty || decide (v.op = 3) || (s.dstRun v).isNone ||
      ((s.dstRun v).elim false fun r => decide (r.1 = 3) && decide (v.carry.length + v.staged.length < v.grain))
  | none => true

/-- An eviction whose outstanding reads are complete and whose staged bytes are written ends: the slot passes to the waiting transfer
(R265). A transfer paused meanwhile is not evicted (R266). -/
def State.evictDone (s : State) (x : Nat) : State :=
  match s.xfer x with
  | some v =>
    if !v.evicting then s
    else if v.paused then s.setXfer x (some { v with evicting := false })
    else if v.want.isNone && v.want2.isNone then
      let h := s.serves v
      let s := State.writeOut x (v.staged.length / 32 + 4) s
      if !s.evictClear x then s
      else
        let s := match v.owner with
          | .chan c => s.setBit (bwCh c 0x18) 4
          | _ => s
        (s.unbind x).bindNext h
    else s
  | none => s

/-- An aborted or ended transfer is forgotten once no read of it is outstanding (R287). -/
def State.dropXfer (s : State) (x : Nat) : State :=
  match s.xfer x with
  | some v => if v.want.isNone && v.want2.isNone then (s.unbind x).setXfer x none else s
  | none => s

/-- Stops a transfer as by ABORT (R287, R304): staged data is discarded, reads still arriving are discarded. -/
def State.abortXfer (s : State) (x : Nat) : State := (s.endXfer x 2).dropXfer x

/-- A list entry that no host may build (R94, R139, R305): a wrong space, a segment beyond host space, one that shares bytes with the
transfer's other side. -/
def Xfer.badEntry (v : Xfer) (e : Bytes) : Bool :=
  let a := leAt e 0 8
  let n := leAt e 8 4
  let sp := leAt e 12 1 % 4
  let o := if v.op = 4 then (v.dstSpace, v.dst) else (v.srcSpace, v.src)
  decide (2 ≤ sp) || (decide (sp = 0) && decide (2 ^ 64 < a + n)) ||
  (decide (sp = o.1) && decide (0 < n) && decide (a < o.2 + v.len) && decide (o.2 < a + n))

/-- Free bytes (log 4). -/
def State.freeBytes (s : State) (n : Nat) : Bytes := (List.range n).map fun i => BitVec.ofNat 8 (Config.freeValue (s.freeCtr + i)).toNat

/-- The state after `n` free values were taken. -/
def State.ticks (s : State) (n : Nat) : State := { s with freeCtr := s.freeCtr + n }

/-- The destinations of work whose result is unpredictable (R6, R7): free bytes at a free place of the function's share of buffer
memory and at a free place of its host memory. -/
def State.freeWrites (s : State) (fn : Nat) : State :=
  let a := s.free.toNat
  let n := a % 65
  let r := s.share fn
  let lo := r.1 + a / 128 % (r.2 - r.1 + 1)
  let s := s.tick
  let b := s.freeBytes n
  let s := s.ticks n
  let s := s.bufPut lo (b.take (s.shareRun fn lo n))
  if s.masters fn && decide (n ≠ 0) then s.tick.hostWrite fn (s.free.toNat / 64 * 64) b true 7 else s

/-- Read data of one stream arrives (R262, R267): the bytes of the transfer among those read. -/
def State.arrive (s : State) (x : Nat) (second : Bool) (b : Bytes) : State :=
  match s.xfer x with
  | none => s
  | some v =>
    let w := if second then v.want2 else v.want
    match w with
    | none => s
    | some .list =>
      let e := padTo 16 b
      if v.badEntry e then
        -- unpredictable (R6, R139, R305): a free completion, free destinations
        ((s.tick.setXfer x (some { v with want := none })).freeWrites v.fn).endXfer x (s.free.toNat % 6)
      else (s.setXfer x (some ({ v with want := none }.gotEntry e))).pump x
    | some (.data n) =>
      let b := padTo n b
      let v := if second then { v with want2 := none, staged2 := v.staged2 ++ b }
        else { v with want := none, staged := v.staged ++ b, list := if v.op = 4 then v.list.use n else v.list }
      (s.setXfer x (some v)).pump x

end Sys2Proof.Machine
end

