-- ==== Sys2Proof/Machine/Graft.lean ====
section
/-! DEFINITION. Resource slots and waits (R422-R428), and transactions (R393-R415). What an outcome does to a chain is in
Machine/Chains.lean. -/

namespace Sys2Proof.Machine

/-- The thread bound to a subchannel. -/
def State.threadOf (s : State) (sc : Nat) : Option Nat := (s.threads.find? fun e => e.2.bind = .sc sc).map fun e => e.1

/-- Latches an event of a thread (R187): 1 DISP_DONE, 2 TIMER, 3 REQ, 4 GRAFT, 5 ATTN, 6 RSV. -/
def State.latch (s : State) (t k : Nat) : State := s.modThread t fun h => { h with ev := h.ev ||| (1 : Byte) <<< k }

/-- Latches an event of the thread bound to a subchannel, if any. -/
def State.latchSc (s : State) (sc k : Nat) : State := (s.threadOf sc).elim s fun t => s.latch t k

/-! ## Slots -/

/-- The subchannels that hold a slot (R422). -/
def State.scHolders (s : State) : List Nat :=
  s.slots.foldl (fun l e => match e.2 with | .sc n => if n ∈ l then l else n :: l | _ => l) []

/-- WD_STATE shows the waits and the subchannel holders. -/
def State.wdState (s : State) : State :=
  s.setReg 0x6A0004 (BitVec.ofNat 32 (s.waits.length + 2048 * s.scHolders.length))

/-- The transaction open for a subchannel's chain (byte 3 TXOPEN, bytes 88-89 TXID). -/
def State.openTx (s : State) (sc : Nat) : Option Nat := if s.cxFlag sc 4 then some (bits (s.cx sc 88 2) 0 10) else none

/-- Whether a slot is held by either holder of a chain (R424). -/
def State.holdsSlot (s : State) (sc key : Nat) : Bool :=
  match s.holder key with
  | .none => false
  | .sc n => decide (n = sc)
  | .tx x => decide (s.openTx sc = some x)

/-- A RESERVE continues: it takes its slots in ascending order, and waits at the first that another holds (R424); when it has
them all, the RESERVE flit goes to the node (R385). -/
def State.reserveGo (sc : Nat) : List Nat → State → State
  | [], s =>
    let c := s.chain sc
    let s := s.modChain sc fun c => { c with phase := .answer }
    s.resAsk { node := c.node, kind := 4, mask := c.mask, holder := c.holder.getD sc, htx := c.holder.isSome, owner := .reserve sc }
  | k :: ks, s =>
    let c := s.chain sc
    let key := c.node * 4 + k
    if !bitOn c.mask k || s.holdsSlot sc key then State.reserveGo sc ks s
    else if s.holder key = .none then
      if c.holder.isNone && decide (1024 ≤ s.scHolders.length) && decide (sc ∉ s.scHolders) then
        (s.setBit 0x6A0000 1).modChain sc fun c => { c with phase := .slotWait }
      else State.reserveGo sc ks (s.setHolder key (match c.holder with | some x => .tx x | none => .sc sc)).wdState
    else ((s.setWait sc (some { node := c.node, slot := k })).wdState).modChain sc fun c => { c with phase := .slotWait }

/-- The waiting chain a freed slot is granted to: the oldest AGE, then the lower SC (R426). -/
def State.oldestWaiter (s : State) (key : Nat) : Option Nat :=
  (s.waits.foldl (fun best e => match e.2 with
    | some w =>
      if w.node * 4 + w.slot ≠ key then best
      else match best with
        | some (_, a) => if s.cx e.1 96 8 < a then some (e.1, s.cx e.1 96 8) else best
        | none => some (e.1, s.cx e.1 96 8)
    | none => best) (none : Option (Nat × Nat))).map fun r => r.1

/-- A freed slot is granted (R426). -/
def State.grantSlot (s : State) (key : Nat) : State :=
  match s.oldestWaiter key with
  | none => s
  | some sc => State.reserveGo sc [0, 1, 2, 3] (((s.setWait sc none).wdState).latchSc sc 6)

/-- Releases every slot whose key and holder satisfy a test: the device's record frees them at once, the nodes are told, and
they are granted (R385, R426, R427). `owner`: whose exchange the RELEASE flit is. -/
def State.releaseSlots (s : State) (p : Nat → Holder → Bool) (owner : NOwner := .unowned) : State :=
  let l := s.slots.filter fun e => p e.1 e.2
  let s := l.foldl (fun s e => s.setHolder e.1 .none) s
  let groups := l.foldl (fun (g : List (Nat × Holder × Nat)) e =>
    let node := e.1 / 4
    match g.find? fun r => r.1 = node ∧ r.2.1 = e.2 with
    | some _ => g.map fun r => if r.1 = node ∧ r.2.1 = e.2 then (r.1, r.2.1, r.2.2 + 2 ^ (e.1 % 4)) else r
    | none => g ++ [(node, e.2, 2 ^ (e.1 % 4))]) []
  let s := groups.foldl (fun s r => s.resAsk
    { node := r.1, kind := 5, mask := r.2.2, owner,
      holder := match r.2.1 with | .tx x => x | .sc n => n | .none => 0,
      htx := match r.2.1 with | .tx _ => true | _ => false }) s
  (l.foldl (fun s e => s.grantSlot e.1) s).wdState

/-- A chain's wait at a slot is withdrawn (R119, R433). -/
def State.unwait (s : State) (sc : Nat) : State :=
  if (s.wait sc).isSome then ((s.setWait sc none).wdState).latchSc sc 6 else s

/-! ## Transactions -/

/-- GR_OPEN shows the TXIDs in use, and those whose outcome is fixed and which await answers or DONE. -/
def State.grOpen (s : State) : State :=
  let o := s.txns.countP fun e => e.2.used
  let p := s.txns.countP fun e => e.2.used && (e.2.decided || e.2.cause.isSome)
  s.setReg 0x680008 (BitVec.ofNat 32 (o + 2048 * p))

/-- The lowest-numbered free TXID (R393). -/
def State.freeTxid (s : State) : Option Nat := (List.range 1024).find? fun k => !(s.txn k).used

/-- A group is opened (R393). -/
def State.openGroup (s : State) (sc x : Nat) : State :=
  let t := s.rn 0x68000C
  let s := s.setTxn x { used := true, tserial := t, sc }
  let s := (s.setReg 0x68000C (BitVec.ofNat 32 (t + 1))).grOpen
  (s.setCxFlag sc 4 true).cxSet sc 88 2 x

/-- The common body of Graft's records, bytes 16-23 (R412). -/
def State.grBody (s : State) (x : Nat) : Bytes := natLE 2 x ++ natLE 2 (s.txn x).sc ++ natLE 4 (s.txn x).tserial

/-- A member joins: its JOIN record is issued (R400, R413). -/
def State.joinTx (s : State) (x node : Nat) : State :=
  let s := s.modTxn x fun t => { t with members := t.members ++ [{ node }] }
  s.jIssue 0x20 (s.grBody x ++ natLE 4 1 ++ natLE 2 node) (.join x [node])

/-- A state with a member changed. -/
def State.modMember (s : State) (x node : Nat) (f : Member → Member) : State :=
  s.modTxn x fun t => { t with members := t.members.map fun m => if m.node = node then f m else m }

/-- Sends COMMIT or ABORT to a member: never while its port is not ACTIVE, nor to an entry that is not the member (R405), nor
before its port's first enumeration, until which a node answers nothing (R361, R586). -/
def State.sendDecision (s : State) (x node : Nat) : State :=
  let t := s.txn x
  if s.kpSt (nodePort node) ≠ 2 || !(s.port (nodePort node)).firstEnum || !s.ntFlag node 0 || s.ntFlag node 3 then s
  else (s.sendNode node (if t.decided then .commit x t.tserial else .abort x t.tserial)).modMember x node fun m => { m with sent := true }

/-- Tells every member. -/
def State.tellMembers (s : State) (x : Nat) : State := (s.txn x).members.foldl (fun s m => s.sendDecision x m.node) s

/-- Every member has answered (R403, R409). -/
def Txn.allIn (t : Txn) : Bool := t.members.all fun m => m.answered

/-- Every member has answered or is unconfirmed (R406). -/
def Txn.settled (t : Txn) : Bool := t.members.all fun m => m.answered || m.unconf

/-- A member answered a COMMIT with a RESULT other than OK (R408). -/
def Txn.faulty (t : Txn) : Bool := t.decided && t.members.any fun m => m.answered && decide (m.result ≠ 0)

/-- The DONE record is issued once every member has answered (R403, R407, R409). -/
def State.tryDone (s : State) (x : Nat) : State :=
  let t := s.txn x
  if t.used && !t.doneIssued && (t.decided || t.cause.isSome) && t.allIn then
    (s.modTxn x fun t => { t with doneIssued := true }).jIssue 0x22
      (s.grBody x ++ natLE 1 (b2n t.cause.isSome + 2 * b2n t.faulty) ++ natLE 1 (t.cause.getD 0) ++ natLE 2 0 ++ natLE 8 s.now)
      (.done x)
  else s

/-- The Graft outcome for the chain (R415): the mailbox, GRAFT, and the counter. `node`, `result`: the node concerned. -/
def State.outcome (s : State) (x node result : Nat) : State :=
  let t := s.txn x
  let c := t.cause.getD 0
  let u := t.members.any fun m => m.unconf && !m.answered
  let b := natLE 2 x ++ natLE 1 (b2n t.cause.isSome + 2 * b2n (t.decided && u) + 4 * b2n t.faulty) ++ natLE 1 c ++
    natLE 4 t.tserial ++ natLE 2 node ++ natLE 1 result ++ natLE 5 0
  let s := (s.modTxn x fun t => { t with posted := true }).bump (cnt 0x680040 c)
  match s.threadOf t.sc with
  | some th => { s with tpriv := s.tpriv.wrN (th * 4096 + 0xFE0) b }.latch th 4
  | none => s

/-- The outcome of a group that never got a TXID (R395, R415): cause TXID_WAIT. The manual gives its TXID and TSERIAL no value: free. -/
def State.txidOutcome (s : State) (sc : Nat) : State :=
  let v := s.free.toNat
  let s := s.tick.bump (cnt 0x680040 8)
  match s.threadOf sc with
  | some th =>
    { s with tpriv := s.tpriv.wrN (th * 4096 + 0xFE0) (natLE 2 (v % 1024) ++ [1, 8] ++ natLE 4 (v / 2 ^ 32) ++ natLE 8 0) }.latch th 4
  | none => s

/-- An undecided transaction aborts (R404, R409): the chain's context forgets it, its slots are released, the members are
told. -/
def State.abortTx (s : State) (x cause : Nat) (node : Nat := 0) (result : Nat := 0) : State :=
  let t := s.txn x
  if !t.used || t.decideIssued || t.cause.isSome then s
  else
    let s := s.modTxn x fun t => { t with cause := some cause }
    let s := if s.openTx t.sc = some x then s.setCxFlag t.sc 4 false else s
    let s := s.outcome x node result
    let s := s.tellMembers x
    let s := s.releaseSlots fun _ h => h = .tx x
    (s.tryDone x).grOpen

/-- The decision is made: the DECIDE record is issued (R403, R412). -/
def State.decideTx (s : State) (x : Nat) : State :=
  let t := s.txn x
  (s.modTxn x fun t => { t with decideIssued := true }).jIssue 0x21
    (s.grBody x ++ natLE 4 t.members.length ++ natLE 8 s.now ++ natLE 8 (s.cx t.sc 96 8)) (.decide x)

end Sys2Proof.Machine
end

