-- ==== Sys2Proof/Machine/Chains.lean ====
section
/-! DEFINITION. Command chains (chapter 03): threads bound and freed, words fetched and becoming current, the operations of
data-moving words, word ends, suspend points, and the end of a chain. Channel firmware's part is taken as done by these
operations. -/

namespace Sys2Proof.Machine

/-! ## Threads -/

/-- Tillers in Cloche mode (TE_GRP_STAT.CLOCHE). -/
def State.inCloche (s : State) (T : Nat) : Bool := s.rb (0x600004 + 8 * (T / 8)) (8 + T % 8)

/-- Bound threads of a Tiller. -/
def State.boundOn (s : State) (T : Nat) : Nat := s.threads.countP fun e => decide (e.1 / 16 = T) && decide (e.2.bind ≠ .free)

/-- TE_GRP_STAT.FREE and DRAINED of a group follow its threads (R209). -/
def State.teStat (s : State) (g : Nat) : State :=
  let f := (List.range 8).foldl (fun a i => a + if s.boundOn (8 * g + i) = 0 && !s.inCloche (8 * g + i) then 2 ^ i else 0) 0
  let a := 0x600004 + 8 * g
  (s.wf a 0 8 f).wb a 16 (s.rb (0x600000 + 8 * g) 0 && decide (f = 255))

/-- The lowest-numbered free thread of a Tiller (R141). -/
def State.freeThread (s : State) (T : Nat) : Option Nat :=
  (List.range 16).findSome? fun i => let t := T * 16 + i; if (s.thread t).bind = .free then some t else none

/-- The thread a subchannel of group `g` is bound to: on the Tiller with the most free threads, the lowest number on a tie
(R141); none while the group is drained, powered down or fenced (R209, R609). -/
def State.pickThread (s : State) (g : Nat) : Option Nat :=
  if !s.tgIn g || s.rb (0x600000 + 8 * g) 0 then none
  else
    ((List.range 8).foldl (fun best i =>
      let T := 8 * g + i
      let n := s.boundOn T
      if s.inCloche T || decide (n = 16) then best
      else match best with
        | some (_, m) => if n < m then some (T, n) else best
        | none => some (T, n)) (none : Option (Nat × Nat))).bind fun r => s.freeThread r.1

/-- The end of an operation is not waited for any more (R375). -/
def State.leaveOp (s : State) (o : Option Nat) : State :=
  match o with
  | some k => ((s.sendEnd k).1).modOp k fun q => { q with owner := .unowned }
  | none => s

/-- A thread is freed: its Furrow is flushed (R450, R459); its private bank keeps its contents. -/
def State.freeThreadOf (s : State) (t : Nat) : State :=
  let s := s.dropPkts t (s.thread t).furrow.pkts.length
  let s := s.leaveOp ((s.thread t).win.bind fun w => w.op)
  (s.modThread t fun h => { h with
    bind := .free, waiting := none, load := none, win := none, winGot := [], ev := 0, timer := 0, waitcnt := 0, product := none,
    mrdy := true, div := none, shadow := none, budget := 0, fl := h.fl &&& 0x1F, furrow := {}, stopped := false, fresh := false }).teStat (groupOf t)

/-- DONE and CODE are written into a dispatch record (R302), at its engine address; one in bank 0 may run from the thread's private part
into the shared one (R154). -/
def State.dispPut (s : State) (t a done code : Nat) : State :=
  let b := natLE 4 done ++ natLE 1 code
  let a := a + 32
  if a < 0x10000 then
    let k := 0x1000 - a
    let m := tillerOf t * 0x40000 + 0x20000
    if k = 0 then s.tmemPut (m + (a - 0x1000)) b
    else
      let s := { s with tpriv := s.tpriv.wrN (t * 4096 + a) (b.take k) }
      if (b.drop k).isEmpty then s else s.tmemPut m (b.drop k)
  else match (s.thread t).sc? with
    | some sc => s.cxPut sc (a % 65536) b
    | none => s

/-- Each dispatch in progress for a thread ends as by ABORT, with CODE ABORTED and DONE (R304); one that has ended keeps its code. -/
def State.abortDisps (s : State) (t : Nat) : State :=
  if (s.thread t).disp.isEmpty then s
  else (((s.thread t).disp.foldl (fun s x => match s.xfer x with
    | some v => match v.owner with
      | .disp _ a => (s.dispPut t a v.done (v.code.getD 2)).abortXfer x
      | _ => s.abortXfer x
    | none => s) s).modThread t fun h => { h with disp := [] }).latch t 1

/-- The thread bound to a subchannel is freed. -/
def State.freeSc (s : State) (sc : Nat) : State :=
  match s.threadOf sc with
  | some t => (s.abortDisps t).freeThreadOf t
  | none => s

/-- A code store address: bit 0 is 0 (R145). -/
def codeAddr (v : Nat) : BitVec 16 := BitVec.ofNat 16 (v / 2 * 2)

/-- Registers at a vector (R151, R218): PC is the vector's word. Dispatches of the thread that are still in progress go on (R301). -/
def startThread (h : Thread) (vec a : Nat) (b : Binding) (prio : Nat) : Thread :=
  { h with
    a := BitVec.ofNat 32 a, x := 0, y := 0, bk := 1, sp := 0x0FC0, pr := 1, fl := 0, fa := 0, mh := 0, ml := 0, mrdy := true,
    fpsr := 0, fpcr := 0, pc := BitVec.ofNat 16 (4 * vec), bind := b, prio, waitcnt := 0, ev := 0, waiting := none, timer := 0,
    product := none, div := none, shadow := none, budget := 0, load := none, win := none, winGot := [], furrow := {},
    stopped := false, fresh := false }

/-- THREAD_SAVE is written from a thread (R190). -/
def State.saveThread (s : State) (sc t : Nat) : State :=
  let h := s.thread t
  s.cxPut sc 192 (natLE 4 h.a.toNat ++ natLE 2 h.x.toNat ++ natLE 2 h.y.toNat ++ [h.bk, h.fl &&& 0x1F, h.pr, 0] ++
    natLE 2 h.sp.toNat ++ natLE 2 h.pc.toNat ++ natLE 8 h.fa.toNat ++ natLE 4 h.fpsr.toNat ++ natLE 4 h.fpcr.toNat ++
    natLE 4 h.mh.toNat ++ natLE 4 h.ml.toNat ++ List.replicate 24 0)

/-- A thread is restored from THREAD_SAVE (R189, R190). -/
def State.loadThread (s : State) (sc t prio : Nat) : State :=
  let g := fun off n => s.cx sc off n
  s.modThread t fun h => { startThread h 0 (g 192 4) (.sc sc) prio with
    x := BitVec.ofNat 16 (g 196 2), y := BitVec.ofNat 16 (g 198 2), bk := BitVec.ofNat 8 (g 200 1),
    fl := BitVec.ofNat 8 (g 201 1) &&& 0x1F, pr := BitVec.ofNat 8 (g 202 1) ||| 1, sp := BitVec.ofNat 16 (g 204 2),
    pc := codeAddr (g 206 2), fa := BitVec.ofNat 64 (g 208 8), fpsr := BitVec.ofNat 32 (g 216 4),
    fpcr := BitVec.ofNat 32 (g 220 4), mh := BitVec.ofNat 32 (g 224 4), ml := BitVec.ofNat 32 (g 228 4) }

/-! ## The command word -/

/-- A field of `n` bytes of the current command word (context bytes 40-71). -/
def State.cw (s : State) (sc off n : Nat) : Nat := s.cx sc (40 + off) n

/-- A flag of the current word: 0 CD, 1 CC, 2 SKP, 3 SUS, 4 PRG, 5 STG, 6 IDL, 7 XF. -/
def State.cwFlag (s : State) (sc k : Nat) : Bool := bitOn (s.cw sc 1 1) k

/-- COUNT of the current word. -/
def State.cwCount (s : State) (sc : Nat) : Nat := s.cw sc 4 4

/-- The code that governs the current word: its own if it is a BRANCH (R103) or starts an operation, else that of its
operation's first word (R97). -/
def State.cwCode (s : State) (sc : Nat) : Nat :=
  if s.cw sc 0 1 = 8 || !(s.chain sc).cont then s.cw sc 0 1 else (s.chain sc).code

/-- Codes whose data goes to memory. -/
def readCode (code : Nat) : Bool := decide (code = 2 ∨ code = 4) || (decide (0x40 ≤ code ∧ code < 0x80) && decide (code % 2 = 1))

/-- The node access class of a code (R90): 0 Read, 1 Write, 2 Control. -/
def codeClass (code : Nat) : Nat := if readCode code then 0 else if code = 3 then 2 else 1

/-! ## The end of a chain -/

/-- IDL_STATE keeps the list position (R95). -/
def State.saveList (s : State) (sc : Nat) (v : Xfer) : State :=
  if v.op = 4 ∨ v.op = 5 then
    s.cxPut sc 160 (natLE 8 v.list.addr ++ natLE 4 v.list.space ++ natLE 4 v.list.off ++ padTo 16 v.list.entry)
  else s

/-- The word copies between two nodes (R89): it uses its DATA_ADDR (R108), and moves data. -/
def State.two (s : State) (sc : Nat) : Bool :=
  decide (s.cw sc 2 1 % 4 = 2) && decide ((s.chain sc).code = 1 ∨ (s.chain sc).code = 2) && !s.cwFlag sc 2 &&
  (decide (s.cwCount sc ≠ 0) || !s.cwFlag sc 0)

/-- The second node of such a word. -/
def State.node2 (s : State) (sc : Nat) : Nat := bits (s.cw sc 8 8) 46 12

/-- A request notice is written for the thread bound to a subchannel (R154, R187). The manual lays it out nowhere: free bytes (log 83). -/
def State.notice (s : State) (sc : Nat) : State :=
  match s.threadOf sc with
  | some t => ({ s with tpriv := s.tpriv.wrN (t * 4096 + 0xFD0) (s.freeBytes 16) }.ticks 16).latch t 3
  | none => s

/-- The transfer of the current word is stopped as by ABORT; the count left is kept (R119, R284). -/
def State.stopXfer0 (s : State) (sc : Nat) : State :=
  match (s.chain sc).xfer with
  | some x => match s.xfer x with
    | some v => ((s.saveList sc v).abortXfer x).modChain sc fun c => { c with xfer := none, residual := v.len - v.done }
    | none => s
  | none => s

/-- A forwarding of transformed data in progress is stopped as by ABORT (R119). -/
def State.stopFwd (s : State) (sc : Nat) : State :=
  match (s.chain sc).fwd.bind fun x => (s.xfer x).map fun v => (x, v) with
  | some (x, v) => ((s.saveList sc v).abortXfer x).modChain sc fun c => { c with fwd := none }
  | none => s

/-- The transfers of the current word are stopped as by ABORT (R119). -/
def State.stopXfer (s : State) (sc : Nat) : State := (s.stopXfer0 sc).stopFwd sc

/-- A RESERVE of a chain is withdrawn: it waits no more, and no answer that is still to come, also to a RELEASE or a POWER request, is
the chain's (R119). -/
def State.unreserve (s : State) (sc : Nat) : State :=
  let s := s.unwait sc
  { s with
    resq := s.resq.filter fun r => decide (r.owner ≠ NOwner.reserve sc),
    ops := s.ops.map fun e => (e.1, e.2.map fun o =>
      if o.owner = .reserve sc ∨ o.owner = .release sc ∨ o.owner = .power sc then { o with owner := .unowned } else o) }

/-- A fence ends a chain without a status (R610): nothing of it stays; what follows is in Machine/Pruner.lean. -/
def State.fenceChain (s : State) (sc : Nat) : State :=
  let s := s.stopXfer sc
  let c := s.chain sc
  (((s.leaveOp c.op).leaveOp c.op2).unreserve sc |>.freeSc sc).setChain sc { phase := .fencing }

/-- The chain status is fixed (R125-R129, R136): an undecided transaction aborts, PRES is cleared (R77), the entry is
prepared, the thread is freed, and the FIXED record is issued (R544). Where no word of the chain was executed, CE and DE are 0 (R126). -/
def State.fixStatus (s : State) (sc : Nat) (e : EndCond) : State :=
  let ph := (s.chain sc).phase
  if ph = .none ∨ ph = .fixed ∨ ph = .fencing then s
  else if (s.chain sc).fenced then s.fenceChain sc
  else
    let s := match s.openTx sc with
      | some x => if (s.txn x).decideIssued then s else (s.abortTx x 1).modChain sc fun c => { c with sa := true }
      | none => s
    let c := s.chain sc
    let de := c.ran && e.de.getD ((c.op.isNone || c.endStatus.isSome) && (c.op2.isNone || c.endStatus2.isSome))
    let b := e.bits ||| (if c.sa then 32 else 0) ||| (if c.withdrawn then 128 else 0) |||
      (if c.ran && e.ce then 1 else 0) ||| (if de then 2 else 0)
    let acc := bits (s.cx sc 84 4) 0 16 ||| b
    let s := (s.leaveOp c.op).leaveOp c.op2
    let s := (s.cxSet sc 84 4 (acc + 65536 * e.reason)).setCxFlag sc 0 false
    let s := if bitOn e.bits 2 ∨ bitOn e.bits 4 then s.cxPut sc 256 (natLE 4 e.code ++ natLE 4 e.info) else s
    let ent : CqE := { ts := s.now, sc, kind := 0, bits := acc, tag := s.cx sc 12 4, reason := e.reason,
                       lastCw := if c.ran then c.lastCw else 0, space := if c.ran then c.lastSpace else 0,
                       residual := if c.ran then e.residual.getD c.residual else 0 }
    let s := s.cxPut sc 128 ent.enc
    let s := (s.unreserve sc).freeSc sc
    let s := s.setChain sc { phase := .fixed, halting := c.halting, halt := c.halt }
    s.jIssue 0x02 (natLE 2 sc ++ natLE 2 0 ++ natLE 4 (s.cx sc 92 4 + 1) ++ ent.enc) (.fixed sc)

/-- A condition ends the chain (R127): its transfer stops, its operation is ended, its status is fixed. -/
def State.endChain (s : State) (sc : Nat) (e : EndCond) : State := (s.stopXfer sc).fixStatus sc e

/-- UC with NODE_ABSENT (R127, R356). -/
def State.endAbsent (s : State) (sc node : Nat) : State :=
  (s.countAbsent node).endChain sc { bits := 4, de := some false, code := 2 }

/-- CK, before any flit was sent (R126, R127, R131): PERM_DENIED 16 or NODE_UNCONFIGURED 17. -/
def State.endRefused (s : State) (sc code node : Nat) : State :=
  s.endChain sc { bits := 16, ce := false, de := some false, code, info := node }

/-- An unpredictable result (R6, R139): the chain ends with a status every field of which is free, and its destinations are written
with free values (log 26). -/
def State.endFree (s : State) (sc : Nat) : State :=
  let v := s.free.toNat
  let w := s.tick.free.toNat
  let s := (s.ticks 3).freeWrites (s.chainFn sc) |>.modChain sc fun c =>
    { c with ran := true, lastCw := (Config.freeValue (s.freeCtr + 2)).toNat, lastSpace := bits v 48 2 }
  s.endChain sc { bits := bits v 0 10, ce := false, de := some false, reason := bits v 10 6, code := bits v 16 32, info := bits w 0 32,
                  residual := some (bits w 32 32) }

/-- SA alone: the group was aborted, or never opened (R395, R397, R398). -/
def State.endAborted (s : State) (sc : Nat) : State := s.endChain sc { bits := 32, de := some true }

/-! ## Words -/

/-- A word is read from memory (R104): UC and HOST_ERROR, or RANGE, where it cannot be. -/
def State.readWord (s : State) (sc space addr : Nat) (why : ReadFor) (ph : Phase) : State :=
  let fn := s.chainFn sc
  if space % 2 = 0 then
    if !s.masters fn then s.endChain sc { bits := 4, code := 3, info := 0xFFFFFFFF }
    else (s.hostRead fn addr 32 why).modChain sc fun c => { c with phase := ph }
  else if s.shareRun fn addr 32 < 32 then s.endChain sc { bits := 4, code := 5, info := 0xFFFFFFFF }
  else s.modChain sc fun c => { c with phase := ph }

/-- The intermediate status of PRG (R111), or PA in the accumulated status (R112). -/
def State.progress (s : State) (sc addr space : Nat) : State :=
  let q := s.chainCq sc
  if s.cqRoom q then
    let e : CqE := { ts := s.now, lastCw := addr, residual := s.cwCount sc, sc, kind := 2, bits := 256, tag := s.cx sc 12 4, space }
    s.postEntry q e.enc sc (s.cx sc 92 4) (if s.cxFlag sc 2 then none else some (bits (s.cx sc 6 2) 0 13)) none false
  else s.cxSet sc 84 4 (s.cx sc 84 4 ||| 256)

/-- The codes of R90, and which move data. -/
def codeKnown (c : Nat) : Bool := decide (1 ≤ c ∧ c ≤ 5) || decide (8 ≤ c ∧ c ≤ 13) || decide (0x40 ≤ c ∧ c < 0x80)

/-- The data-moving codes. -/
def codeData (c : Nat) : Bool := decide (1 ≤ c ∧ c ≤ 4) || decide (0x40 ≤ c ∧ c < 0x80)

/-- A construction error of R139 that shows in the current word `w` at `addr`. -/
def State.badWord (s : State) (sc space addr : Nat) (w : Bytes) : Bool :=
  let c := s.chain sc
  let own := leAt w 0 1
  let code := if own = 8 || !c.cont then own else c.code
  let fl := leAt w 1 1
  let sp := leAt w 2 1 % 4
  let n := leAt w 4 4
  let a := leAt w 8 8
  let data := codeData code
  let uses := (data && !bitOn fl 2) || decide (code = 8 ∨ code = 12)   -- the word uses DATA_ADDR (R108)
  decide (addr % 32 ≠ 0) || decide (2 ≤ space) || !codeKnown code ||
  (uses && decide (sp = 3)) ||
  ((data || decide (code = 8 ∨ code = 12)) && decide (sp = 2) && (decide (code ≠ 1 ∧ code ≠ 2) || (uses && decide (2 ^ 58 ≤ a)))) ||
  (decide (code = 8) && decide (a % 32 ≠ 0)) ||
  (!data && code != 8 && (bitOn fl 6 || bitOn fl 7)) ||
  (data && bitOn fl 6 && !bitOn fl 2 && (decide (a % 16 ≠ 0) || decide (2 ≤ sp))) ||
  (data && !bitOn fl 6 && !bitOn fl 2 && decide (sp = 0) && decide (2 ^ 64 < a + n)) ||
  (data && decide (2 ^ 46 < (if c.cont then c.sub else leAt w 18 6 % 2 ^ 46) + c.base + n)) ||
  (uses && decide (sp = 2) && decide (code = 1 ∨ code = 2) && decide (2 ^ 46 < a % 2 ^ 46 + n)) ||
  (decide (code = 12) && decide (sp = 0) && decide (2 ^ 64 < a + 16)) ||
  (c.cont && own != 8 && bitOn fl 5 != c.stg0) ||
  (!c.cont && decide (code = 9 ∨ code = 10) && decide (16 ≤ leAt w 24 4))

/-- What the first word of an operation supplies for all of it (R97; STG: R134). -/
def Chain.begins (c : Chain) (w : Bytes) : Chain :=
  let code := leAt w 0 1
  let fl := leAt w 1 1
  { c with code, node := leAt w 16 2 % 4096, sub := leAt w 18 6 % 2 ^ 46, param := leAt w 24 4, stg0 := bitOn fl 5,
           stg := bitOn fl 5 && codeData code && decide (codeClass code ≠ 0), xf := bitOn fl 7 && codeData code, xform := leAt w 3 1 }

/-- A word becomes the current word (R97, R102, R111). The chain's first word lies in CW buffer slot 0 (R151). -/
def State.becomeCurrent (s : State) (sc space addr : Nat) (w : Bytes) : State :=
  let w := padTo 32 w
  let bad := s.badWord sc space addr w
  let s := (s.cxPut sc 32 (natLE 8 addr ++ w ++ natLE 8 (leAt w 8 8) ++ natLE 4 (leAt w 4 4)))
  let s := if !(s.chain sc).ran && decide (addr = s.cx sc 16 8) then s.cxPut sc 0x200 w else s
  let br := decide (leAt w 0 1 = 8)
  let s := s.modChain sc fun c =>
    if br then { c with phase := .current, space }
    else
      let c := if c.cont then c else c.begins w
      { c with phase := .current, space, residual := leAt w 4 4, ran := true, lastCw := addr, lastSpace := space, out := 0, wait := false }
  if bad then s.endFree sc
  else if bitOn (leAt w 1 1) 4 && !br then s.progress sc addr space else s

/-- The next word of the chain: one already read ahead, or a fetch (R104). -/
def State.fetchNext (s : State) (sc space addr : Nat) : State :=
  let c := s.chain sc
  match c.buf with
  | w :: ws =>
    if c.bufAddr = addr ∧ c.bufSpace = space then
      (s.setChain sc { c with buf := ws, bufAddr := addr + 32 }).becomeCurrent sc space addr w
    else (s.setChain sc { c with buf := [] }).readWord sc space addr (.word sc) .fetching |>.cxPut sc 32 (natLE 8 addr)
      |>.modChain sc fun c => { c with space }
  | [] => (s.modChain sc fun c => { c with space }).cxPut sc 32 (natLE 8 addr) |>.readWord sc space addr (.word sc) .fetching

/-- A fresh read of the word at its suspend point (R115). -/
def State.reread (s : State) (sc : Nat) : State := s.readWord sc (s.chain sc).space (s.cx sc 32 8) (.reread sc) .rereading

/-- The subchannel enters SUSPENDED and gives up its thread (R116, R117). -/
def State.suspend (s : State) (sc : Nat) : State :=
  let s := match s.threadOf sc with
    | some t => (s.saveThread sc t).freeSc sc
    | none => s
  (s.setScState sc 3).modChain sc fun c => { c with phase := .suspended, buf := [] }

/-- What follows a word that ended without a chain-ending condition and with no suspend point left (R99, R102). -/
def State.wordNext (s : State) (sc : Nat) : State :=
  let c := s.chain sc
  let addr := s.cx sc 32 8 + 32
  if s.cwFlag sc 0 then
    (s.setChain sc { c with cont := true, bounds := c.bounds ++ [c.base], base := c.base + s.cwCount sc, residual := 0, op2 := none,
                            endStatus2 := none }).fetchNext sc c.space addr
  else if s.cwFlag sc 1 then
    (s.setChain sc { c with cont := false, bounds := [], base := 0, residual := 0, op := none, op2 := none, endStatus := none,
                            endStatus2 := none, carry := [] }).fetchNext sc c.space addr
  else s.fixStatus sc { de := some true, residual := some 0 }

/-- A word ends (R102). -/
def State.wordEnd (s : State) (sc : Nat) : State :=
  let s := s.modChain sc fun c => { c with residual := 0 }
  if s.cwFlag sc 3 then
    if s.cxFlag sc 0 then (s.setCxFlag sc 0 false).reread sc else s.suspend sc
  else s.wordNext sc

/-! ## The end of an operation -/

/-- RESIDUAL for a node that took `acc` bytes of an operation: the count left in the word in which that point lies (R106). -/
def Chain.left (c : Chain) (acc word : Nat) : Nat :=
  if c.base ≤ acc then word - (acc - c.base)
  else match (c.bounds ++ [c.base]).dropWhile fun b => b ≤ acc with
    | b :: _ => b - acc
    | [] => 0

/-- How an operation that has ended ends its chain, if it does (R105, R106, R127, R368, R402): every condition that arises sets its bits.
`got`: bytes of the current word moved. Where a routine made the bytes that NODE did not accept, the count left is not given: free
(log 83). -/
def State.judge (s : State) (sc : Nat) (st : StatusF) : Option EndCond :=
  let c := s.chain sc
  let r := st.result.toNat
  let read := readCode c.code
  let word := s.cwCount sc
  let got := word - c.residual
  let acc := st.accepted.toNat
  let short := decide (got < word) || (!read && decide (acc < c.sent))
  let il := short || (if read then st.trunc else st.more)
  let left :=
    if !short then 0
    else if read then word - got
    else if c.xf then (if acc < c.sent then s.free.toNat % 2 ^ 32 else word - got)
    else c.left acc word
  if r = 0x85 ∨ r = 0x86 then some { bits := 4, de := some false, code := 2 }
  else if r ≠ 0 then some { bits := if il then 12 else 4, de := some true, code := 1, info := r, residual := some left }
  else if il then some { bits := 8, de := some true, residual := some left }
  else none

/-- The same for a word that copies between two nodes (R709); `st`: the ending status of NODE's operation, if it has ended. The bytes
of the second node's operation are this word's. -/
def State.judge2 (s : State) (sc : Nat) (st : Option StatusF) (st2 : StatusF) : Option EndCond :=
  let c := s.chain sc
  let read := readCode c.code
  let word := s.cwCount sc
  let got := word - c.residual
  let acc := if read then st2.accepted.toNat else st.elim got fun d => d.accepted.toNat - c.base
  let rd := if read then st else some st2
  let wr := if read then some st2 else st
  let both := min got acc
  let il := decide (both < word) || wr.elim false (fun d => d.more) || rd.elim false fun d => d.trunc
  let absent := fun d : StatusF => decide (d.result = 0x85 ∨ d.result = 0x86)
  let r := rd.elim 0 fun d => d.result.toNat
  let r := if r = 0 then wr.elim 0 fun d => d.result.toNat else r
  if rd.elim false absent || wr.elim false absent then some { bits := 4, de := some false, code := 2 }
  else if r ≠ 0 then some { bits := if il then 12 else 4, de := some true, code := 1, info := r, residual := some (word - both) }
  else if il then some { bits := 8, de := some true, residual := some (word - both) }
  else none

/-- The operation ends the chain: a staged one aborts its group (R402). -/
def State.endData (s : State) (sc : Nat) (e : EndCond) : State :=
  let c := s.chain sc
  let r := c.endStatus.elim 0 fun d => d.result.toNat
  let s := if e.code = 2 then s.countAbsent (if r = 0x85 ∨ r = 0x86 then c.node else s.node2 sc) else s
  let s := if c.xf then s.tick else s
  match s.openTx sc with
  | some x =>
    if c.stg && decide (r = 0x84) then ((s.abortTx x 4 c.node 0x84).modChain sc fun c => { c with sa := true }).endAborted sc
    else if c.stg then ((s.abortTx x 3 c.node r).modChain sc fun c => { c with sa := true }).endChain sc e
    else s.endChain sc e
  | none => s.endChain sc e

/-- Takes a word on once its transfer has ended: operations whose data is over get END (R375, R709), and with their ends in, the chain
ends or the word does (R100, R107). A data-chained word whose count is exhausted does not wait for NODE; one that NODE cut short does.
-/
def State.advance (s : State) (sc : Nat) : State :=
  let c := s.chain sc
  if c.phase ≠ .moving ∨ c.xfer.isSome ∨ c.wait then s
  else
    let s := s.endShort c.op2
    let past := !s.cwFlag sc 0 || decide (c.residual ≠ 0)   -- NODE's data is over too
    match c.endStatus, c.endStatus2 with
    | some st, none => if c.op2.isSome then s else (s.judge sc st).elim (s.wordEnd sc) fun e => s.endData sc e
    | some st, some st2 => (s.judge2 sc (some st) st2).elim (s.wordEnd sc) fun e => s.endData sc e
    | none, some st2 =>
      if !past && (s.judge2 sc none st2).isNone then (s.modChain sc fun c => { c with endStatus2 := none }).wordEnd sc
      else s.endShort c.op
    | none, none => if past then s.endShort c.op else if c.op2.isSome then s else s.wordEnd sc

/-- A dispatch of a chain ended with a code other than OK: what the chain's status becomes (R304). `de`: DE, if it is not as the node. -/
def State.moveFailed (s : State) (sc code info : Nat) (ns : Byte) (de : Option Bool := none) : State :=
  match code with
  | 3 => s.endChain sc { bits := 4, de, code := 3, info }
  | 4 => s.endChain sc { bits := 4, de, code := 4, info }
  | 5 => s.endChain sc { bits := 4, de, code := 5, info }
  | 6 => s.endChain sc { bits := 4, de, code := 1, info := ns.toNat }
  | 7 => s.endAbsent sc (s.chain sc).node
  | 10 => s.endChain sc { bits := 128, de }
  | _ => s

/-- The transfer of the current word has completed (R302, R304). -/
def State.moved (s : State) (sc x : Nat) : State :=
  match s.xfer x with
  | none => s
  | some v =>
    let s := (s.saveList sc v).dropXfer x
    let s := s.modChain sc fun c => { c with xfer := none, residual := v.len - v.done }
    match v.code.getD 0 with
    | 0 | 12 => (s.cxPut sc 72 (natLE 8 (s.cw sc 8 8 + v.done) ++ natLE 4 (v.len - v.done))).advance sc
    | k => s.moveFailed sc k v.info v.nodeStatus

/-! ## Data-moving words -/

/-- Entry `i` of the transform routine table (R210). -/
def State.xformEntry (s : State) (t i : Nat) : Nat := s.tmem.le (tillerOf t * 0x40000 + 0x40 + 4 * i) 4

/-- The bytes of an input sample of the routine of a chain's operation (R210, R211). -/
def State.grainOf (s : State) (sc : Nat) : Nat := (s.threadOf sc).elim 1 fun t => 2 ^ bits (s.xformEntry t (s.chain sc).xform) 16 2

/-- The data of the current word begins to move, as a dispatch of channel firmware (R93, R94, R96, R108). -/
def State.startData (s : State) (sc : Nat) : State :=
  let c := s.chain sc
  let n := s.cwCount sc
  let read := readCode c.code
  let a := s.cw sc 8 8
  let sp := s.cw sc 2 1 % 4
  let skp := s.cwFlag sc 2
  let idl := s.cwFlag sc 6
  let xf := c.xf && !skp
  let h := decide (4 ≤ bits (s.cx sc 10 1) 0 3)
  let prio := (s.threadOf sc).elim 0 fun t => (s.thread t).prio
  let v : Xfer := { owner := .chain sc, prio, half := h, fn := s.chainFn sc, len := n, final := !s.cwFlag sc 0 }
  let v : Xfer := if xf then { v with grain := s.grainOf sc, carry := c.carry } else v
  let v : Xfer :=
    if read then
      let v : Xfer := { v with srcSpace := 2, srcOp := c.op, dstSpace := sp, dst := a }
      if skp then { v with op := 6 }
      else if c.xf then { v with dstSpace := 3 }
      else if idl then { v with op := 5, list := { space := sp, addr := a } }
      else if sp = 2 then { v with dstOp := c.op2, final := true }
      else v
    else
      let v : Xfer := { v with dstSpace := 2, dstOp := c.op, srcSpace := sp, src := a, base := some c.base }
      if skp then { v with op := 2 }
      else
        let v : Xfer := if c.xf then { v with dstSpace := 3, dstOp := none } else v
        if idl then { v with op := 4, list := { space := sp, addr := a } }
        else if sp = 2 then { v with srcOp := c.op2 }
        else v
  let r := s.newXfer v
  (r.1.modChain sc fun c => { c with xfer := some r.2, phase := .moving, wait := xf, carry := if xf then [] else c.carry }).cxPut sc 160
    (natLE 32 0)

/-- An operation whose word moves no data: one written gets its LAST (R101, R372). -/
def State.zeroData (s : State) (o : Option Nat) : State :=
  match o.bind fun k => (s.op k).map fun q => (k, q) with
  | some (k, q) => if q.read || q.lastSeen then s else s.opData k [] true
  | none => s

/-- A data-moving word whose operation is open, or is continued, moves its data; one that moves none ends, or ends its
operation (R101, R373). -/
def State.goData (s : State) (sc : Nat) : State :=
  let c := s.chain sc
  let s := s.modChain sc fun c => { c with phase := .moving }
  if c.endStatus.isSome then s.advance sc
  else if s.cwCount sc ≠ 0 then s.startData sc
  else if s.cwFlag sc 0 then s.wordEnd sc
  else ((s.zeroData c.op).zeroData c.op2).advance sc

/-- The operation of a POWER request (R386). -/
def State.isPower (s : State) (sc : Nat) : Bool :=
  decide ((s.chain sc).code = 3) && decide (s.cw sc 18 6 % 2 ^ 46 = 0x3FFFFFFFFF00) && decide (s.cwCount sc = 8)

/-- The second node's operation of a word opens, and the word's data moves (R89): one operation for each word, since each word names its
own second node and address. DESIGN CHOICE (log 83). -/
def State.openSecond (s : State) (sc : Nat) : State :=
  if !s.two sc then s.goData sc
  else
    let node := s.node2 sc
    let read := readCode (s.chain sc).code
    let sub := s.cw sc 8 8 % 2 ^ 46
    let s := s.firstRelease node
    match s.findOph node with
    | none => s.modChain sc fun c => { c with phase := .portWait }
    | some oph =>
      ((s.openOp oph node { owner := .chain2 sc, read := !read, sub }
        { oph, kind := 0, code := if read then 1 else 2, subaddr := sub, count := s.cwCount sc }).modChain sc
          fun c => { c with op2 := some (ophKey oph) }).goData sc

/-- The first word of an operation passed its checks and its JOIN is durable: it opens, or waits (R366, R370, R417). A POWER request
leaves unstaged also where its word has STG = 1 and has joined its group. DESIGN CHOICE (log 83). -/
def State.openWord (s : State) (sc : Nat) : State :=
  let c := s.chain sc
  let node := c.node
  let two := s.two sc
  let node2 := s.node2 sc
  let n := s.cwCount sc
  let read := readCode c.code
  if s.gate node = .absent then s.endAbsent sc node
  else if two && s.gate node2 = .absent then s.endAbsent sc node2
  else if s.gate node = .wait ∨ (two && s.gate node2 = .wait) then s.modChain sc fun c => { c with phase := .portWait }
  else if s.isPower sc then
    let sp := s.cw sc 2 1 % 4
    let a := s.cw sc 8 8
    let r := s.newXfer { owner := .chain sc, prio := 15, half := decide (4 ≤ bits (s.cx sc 10 1) 0 3), fn := s.chainFn sc, len := 8,
                         srcSpace := sp, src := a, dstSpace := 3,
                         op := if s.cwFlag sc 2 then 2 else if s.cwFlag sc 6 then 4 else 1,
                         list := { space := sp, addr := a } }
    r.1.modChain sc fun c => { c with xfer := some r.2, phase := .moving, wait := true }
  else
    let s := s.firstRelease node
    match s.findOph node with
    | none => s.modChain sc fun c => { c with phase := .portWait }
    | some oph =>
      if two && node2 ≠ node && (s.findOph node2).isNone then s.modChain sc fun c => { c with phase := .portWait }
      else
        let x := s.openTx sc
        let stage := if c.stg then x.map fun k => (k, (s.txn k).tserial) else none
        let s := s.openOp oph node { owner := .chain sc, read, stage, sub := c.sub }
          { oph, kind := 0, chained := s.cwFlag sc 0, staged := stage.isSome, code := c.code, subaddr := c.sub,
            txid := stage.elim 0 fun t => t.1, tserial := stage.elim 0 fun t => t.2, count := n, param := c.param }
        (s.modChain sc fun c => { c with op := some (ophKey oph) }).openSecond sc

/-- Transactions that a node has joined and that have no durable DONE record (R398). -/
def State.stagedAt (s : State) (node : Nat) : Nat :=
  s.txns.countP fun e => e.2.used && e.2.members.any fun m => m.node = node

/-- A staged operation takes its member into the transaction (R397, R398, R400). -/
def State.joinWord (s : State) (sc x : Nat) : State :=
  let t := s.txn x
  let node := (s.chain sc).node
  if t.members.any fun m => m.node = node then s.openWord sc
  else
    let abort := fun c : Nat => ((s.abortTx x c (if c = 6 then 0 else node)).modChain sc fun c => { c with sa := true }).endAborted sc
    if 64 ≤ t.members.length then abort 6
    else if s.cap node 30 2 = 0 then abort 5
    else if s.cap node 32 2 ≤ s.stagedAt node then abort 4
    else (s.modChain sc fun c => { c with phase := .joining }).joinTx x node

/-- A staged operation needs an open group: it opens one, or waits for a TXID (R393, R395). -/
def State.stageWord (s : State) (sc : Nat) : State :=
  match s.openTx sc with
  | some x => s.joinWord sc x
  | none =>
    match s.freeTxid with
    | some x => (s.openGroup sc x).joinWord sc x
    | none =>
      if s.af 0x680000 0 16 = 0 then ((s.setBit 0x680004 1).txidOutcome sc).endAborted sc
      else (s.setBit 0x680004 0).modChain sc fun c => { c with phase := .txidWait }

/-- What turns a word away from its nodes (R130, R357, R366, R382, R558), each with its access class: the chain ends, or waits; none:
they may be used. -/
def State.turnedAway (s : State) (sc : Nat) (ns : List (Nat × Nat)) : Option State :=
  match ns.find? fun n => !s.perm (s.chainFn sc) n.1 n.2 with
  | some n => some (s.endRefused sc 16 n.1)
  | none =>
    if ns.any fun n => s.kpWithdrawn (nodePort n.1) then some (s.endChain sc { bits := 128, de := some false })
    else if ns.any fun n => s.gate n.1 = .wait then some (s.modChain sc fun c => { c with phase := .portWait })
    else match ns.findSome? fun n => (s.nodeCheck n.1).map fun k => (n.1, k) with
      | some (n, k) => some (if k = 17 then s.endRefused sc 17 n else s.endAbsent sc n)
      | none => (ns.find? fun n => s.gate n.1 = .absent).map fun n => s.endAbsent sc n.1

/-- A data-moving word: permission, node table, staging (R130, R357, R133, R134). A later word of a data chain uses its own SPACE and
DATA_ADDR, so its second node is checked (R97). -/
def State.dataWord (s : State) (sc : Nat) : State :=
  let c := s.chain sc
  let cls := codeClass c.code
  let second := if s.two sc then [(s.node2 sc, if c.code = 1 then 0 else 1)] else []
  if c.cont || c.op.isSome || c.endStatus.isSome then
    if c.endStatus.isSome then s.goData sc else (s.turnedAway sc second).getD (s.openSecond sc)
  else match s.turnedAway sc ((c.node, cls) :: second) with
    | some s => s
    | none =>
      let s := if c.xf then s.cxPut sc 0x740 (List.replicate 0xC0 0) else s
      if c.stg then s.stageWord sc else s.openWord sc

/-! ## HALT and CLEAR -/

/-- The node operations are ended, and their ends awaited (R119, R376). -/
def State.haltOps (s : State) (sc : Nat) : State :=
  let c := s.chain sc
  let a := match c.op with | some k => s.endOp k | none => (s, false)
  let b := match c.op2 with | some k => a.1.endOp k | none => (a.1, false)
  if a.2 || b.2 then b.1.modChain sc fun c => { c with phase := .ending }
  else (b.1.modChain sc fun c => { c with op := none, op2 := none }).fixStatus sc { ce := c.ran, de := some c.ran }

/-- HALT or CLEAR stops a running chain (R119, R121-R124): its status is fixed at once, or once the node confirms the end, or
once a commit past its decision point has run to its end. The thread's dispatches end at once (R304). -/
def State.haltChain (s : State) (sc : Nat) (clear : Bool) : State :=
  let c := s.chain sc
  let s := s.modChain sc fun c => { c with halting := true }
  let s := (s.threadOf sc).elim s fun t => s.abortDisps t
  let s := if clear then s.setCxFlag sc 0 false else s
  match c.phase with
  | .fixed | .none | .ending => s
  | .suspended =>
    let s := match s.openTx sc with
      | some x => (s.abortTx x 2).modChain sc fun c => { c with sa := true }
      | none => s
    let s := if clear then s.releaseSlots fun _ h => decide (h = Holder.sc sc) else s
    s.fixStatus sc { de := some true, residual := some 0 }
  | _ =>
    let s := s.unreserve sc
    let s := if clear then s.releaseSlots fun _ h => decide (h = Holder.sc sc) else s
    match s.openTx sc with
    | some x =>
      if (s.txn x).decideIssued then s
      else
        let s := (s.abortTx x 2).modChain sc fun c => { c with sa := true }
        s.stopXfer sc |>.haltOps sc
    | none => s.stopXfer sc |>.haltOps sc

end Sys2Proof.Machine
end

