-- ==== Sys2Proof/Machine/Requests.lean ====
section
/-! DEFINITION. Requests (R57, R76): placement (R86), the entries of SQs and DQs read and taken (R45-R48, R66), a START
accepted, threads bound (R141), replies, the context cache (R70-R73). -/

namespace Sys2Proof.Machine

/-! ## Placement -/

/-- The groups a subchannel may be placed in (R86). -/
def State.candGroups (s : State) (sc : Nat) : List Nat :=
  let aff := s.cx sc 9 1
  (List.range 8).filter fun g => (aff = 0 || bitOn aff g) && s.tgIn g

/-- LOAD of a group. -/
def State.load (s : State) (g : Nat) : Nat := s.rf (0x610010 + 4 * g) 0 8

/-- The group of least LOAD, the lowest number on a tie. -/
def State.leastLoad (s : State) (g : Nat) (gs : List Nat) : Nat := gs.foldl (fun m g => if s.load g < s.load m then g else m) g

/-- Placement of a START (R86); none: no group is left. -/
def State.place (s : State) (sc : Nat) : Option State :=
  match s.candGroups sc with
  | [] => none
  | g :: gs =>
    let m := s.leastLoad g gs
    let tg := bits (s.cx sc 10 1) 0 3
    if !bitOn (s.cx sc 10 1) 3 || !(tg ∈ g :: gs) then some (s.cxSet sc 10 1 (m + 8))
    else if decide (m ≠ tg) && !s.rb 0x610000 31 && !s.cxFlag sc 3 && decide (s.load m + s.af 0x610000 16 8 ≤ s.load tg) &&
        decide (s.rf (0x610010 + 4 * tg) 8 8 < s.af 0x610000 24 4) then
      some ((s.wf (0x610010 + 4 * tg) 8 8 (s.rf (0x610010 + 4 * tg) 8 8 + 1)).cxSet sc 10 1 (m + 8))
    else some (s.cxSet sc 10 1 (tg + 8))

/-- No entry still to be posted ends a chain of a subchannel. -/
def JEff.detach (sc : Nat) : JEff → JEff
  | .posted c e p n sq x r => .posted c e p n sq (if x = some sc then none else x) r
  | .late c e sq x r => .late c e sq (if x = some sc then none else x) r
  | e => e

/-- A subchannel is to enter FENCED with a cause (R74): the FENCED record is issued. A status it holds is not posted, and one that is being
posted no longer changes its state. -/
def State.enterFenced (s : State) (sc cause : Nat) : State :=
  let s := if s.cxFlag sc 1 then s.unhold sc (s.chainCq sc) else s
  let s : State := { s with jpend := s.jpend.map fun r => { r with eff := r.eff.detach sc }, owed := s.owed.map fun e => e.detach sc }
  (s.setChain sc {}).jIssue 0x05 (natLE 2 sc ++ natLE 2 0 ++ natLE 4 (s.cx sc 92 4 + 1) ++ natLE 4 cause) (.fenced sc)

/-! ## START -/

/-- A START (R76, R589). -/
structure StartReq where
  sc : Nat
  prio : Nat
  tag : Nat := 0
  chain : Nat
  space : Nat
  auto : Bool := false
  sq : Nat := 0
  head : Nat := 0
  pos : Nat := 0

/-- The body of a START record (R545). -/
def State.startBody (s : State) (r : StartReq) : Bytes :=
  natLE 2 r.sc ++ natLE 2 r.sq ++ natLE 4 (s.cx r.sc 92 4) ++ natLE 4 r.tag ++ natLE 8 r.chain ++
  natLE 1 (r.space % 4 + 4 * (r.prio % 16) + 64 * b2n r.auto + 128 * b2n (s.cxFlag r.sc 3)) ++ natLE 1 (s.cx r.sc 9 1) ++
  natLE 4 r.head ++ natLE 2 (s.cx r.sc 4 2) ++ natLE 8 (s.cx r.sc 96 8) ++ natLE 8 (s.cx r.sc 104 8)

/-- The word after one read with it may be kept (R104). -/
def mayAhead (w : Bytes) : Bool := !bitOn (leAt w 1 1) 3 && (bitOn (leAt w 1 1) 0 || bitOn (leAt w 1 1) 1)

/-- The words of a read of one or two: the first, and the one after it if it may be kept. -/
def splitWords (b : Bytes) : List Bytes :=
  b.take 32 :: if 64 ≤ b.length ∧ mayAhead (b.take 32) = true then [(b.drop 32).take 32] else []

/-- A read is made for another purpose. -/
def State.retag (s : State) (a b : ReadFor) : State :=
  let f := fun r : ReadReq => if r.why = a then { r with why := b } else r
  let g := fun k : FPkt => match k.body with | .read t r => { k with body := .read t (f r) } | _ => k
  { s with reads := s.reads.map f, readWait := s.readWait.map g, fab := s.fab.map g }

/-- The first two words of a chain are read when its START is taken, unless they came with the entry, or are on their way (R47). -/
def State.readFirst (s : State) (r : StartReq) (p : Option Pre) : State :=
  let fn := s.chainFn r.sc
  match p with
  | some w =>
    if w.await then s.retag (.ahead r.sq r.pos) (.word r.sc)
    else if w.err.isSome then s.modChain r.sc fun c => { c with bufErr := w.err }
    else if !w.words.isEmpty then s.modChain r.sc fun c => { c with buf := splitWords w.words }
    else if r.space % 2 = 0 ∧ s.masters fn = true then s.hostRead fn r.chain 64 (.word r.sc) else s
  | none => if r.space % 2 = 0 ∧ s.masters fn = true then s.hostRead fn r.chain 64 (.word r.sc) else s

/-- A START is accepted (R75-R77, R86, R129, R434): the context is set up, the chain placed, the START record issued. `w`: its entry as
it was read ahead. -/
def State.acceptStart (s : State) (r : StartReq) (w : Option Pre := none) : State :=
  let sc := r.sc
  let wa := bitOn (s.cx sc 84 4) 6
  let age := if wa then s.cx sc 96 8 else s.now
  let b3 := setBits (setBits (setBits (s.cx sc 3 1) 0 1 0) 2 1 (b2n r.auto)) 4 1 0
  let s := (((s.cxSet sc 3 1 b3).cxSet sc 12 4 r.tag).cxSet sc 16 8 r.chain).cxSet sc 24 1 (r.space % 4)
  let s := if r.auto then s else s.cxSet sc 6 2 r.sq
  let s := ((s.cxSet sc 84 4 0).cxPut sc 256 (natLE 8 0)).cxSet sc 276 2 (s.cx sc 276 2 % 32768)
  let s := (s.cxSet sc 96 8 age).cxSet sc 104 8 s.now
  let p := s.place sc
  let s := ((p.getD s).setScState sc 1).setChain sc { phase := .unbound, prio := r.prio, bufAddr := r.chain, bufSpace := r.space % 4 }
  let s := s.jIssue 0x01 (s.startBody r) (.start sc (if r.auto then none else some r.sq) r.head)
  if p.isSome then s.readFirst r w else s.enterFenced sc 1

/-! ## Threads -/

/-- A thread is bound to a subchannel and its chain begins or resumes (R141, R151, R117). -/
def State.bindThread (s : State) (sc t : Nat) : State :=
  let c := s.chain sc
  if c.resumed then
    ((s.loadThread sc t c.prio).teStat (groupOf t)).modChain sc (fun c => { c with resumed := false }) |>.reread sc
  else
    let s := (s.modThread t fun h => startThread h 1 sc (.sc sc) c.prio).teStat (groupOf t)
    let s := (s.setScState sc 2).setChain sc { c with phase := .fetching, space := c.bufSpace }
    let addr := s.cx sc 16 8
    match c.bufErr with
    | some k => s.endChain sc { bits := 4, code := k, info := 0xFFFFFFFF }
    | none =>
      if c.buf.isEmpty && (s.readsAll.any fun r => r.why = .word sc) then s.cxPut sc 32 (natLE 8 addr)
      else s.fetchNext sc c.bufSpace addr

/-! ## Taking entries -/

/-- The last doorbell of an SQ or DQ allows the entry at a position to be read (R45); in poll mode only the head (R48). -/
def State.belowTail (s : State) (q pos : Nat) : Bool :=
  decide (s.qCount q (s.queue q).head pos < s.qCount q (s.queue q).head (s.valPos q (s.rn (tq q 0x18))))

/-- Poll mode (TQ_CFG.MODE). -/
def State.polls (s : State) (q : Nat) : Bool := s.rb (tq q 0) 3

/-- PFDEPTH in force, at most 64. -/
def State.pfDepth (s : State) (q : Nat) : Nat := min (s.af (tq q 0x10) 16 7) 64

/-- A queue that takes entries: enabled, not being disabled, not stopped. -/
def State.qLive (s : State) (q : Nat) : Bool :=
  s.qEn q && decide (s.qType q = 1 ∨ s.qType q = 3) && !(s.queue q).disabling && !(s.queue q).stopped

/-- A descriptor of a DQ could be taken at once (R274): its channel is IDLE and not paused. -/
def State.dqReady (s : State) (q : Nat) : Bool :=
  (List.range 256).any fun c => decide (s.rf (bwCh c 0) 16 13 = q) && decide (s.rf (bwCh c 0x10) 0 3 = 1) && (s.chan c).desc.isEmpty &&
    !(s.chan c).paused

/-- The entry at the head of a queue could be taken at once (R57, R59, R274, R607). -/
def State.takeable (s : State) (q : Nat) : Bool :=
  s.mayTake q && !(s.queue (s.qPair q)).stopped && (decide (s.qType q ≠ 3) || s.dqReady q)

/-- The position of the next entry read of a queue. -/
def State.readPos (s : State) (q : Nat) : Nat := ((s.queue q).head + (s.queue q).pf.length) % (2 * s.qSize q)

/-- The next entry read of a queue, if one may be issued (R45, R48, R49, R52). -/
def State.readEntries (s : State) (q : Nat) : State :=
  let k := s.queue q
  let pos := s.readPos q
  let go := s.qLive q && s.running && !s.standby && !k.reading && !k.pollWait && !k.lag && !k.errWait && s.masters (s.qFn q) &&
    (if s.polls q then k.pf.isEmpty && s.mayTake q
     else s.belowTail q pos && (decide (k.pf.length < s.pfDepth q) || (k.pf.isEmpty && s.takeable q)))
  if go then (s.hostRead (s.qFn q) (s.slotAddr q pos 64) 64 (.entry q)).modQueue q fun k => { k with reading := true } else s

/-- The entry at the head, if it can be taken now (R57, R59, R66, R607). -/
def State.headEntry (s : State) (q : Nat) : Option Bytes :=
  if s.qLive q && s.running && !s.standby && s.mayTake q && !(s.queue (s.qPair q)).stopped then
    match (s.queue q).pf with
    | [] => none
    | p :: _ => if bitOn (leAt p.entry 63 1) 7 = s.phase q (s.queue q).head then some p.entry else none
  else none

/-- An entry is taken (R66): the head advances; answers its new value. RWB fields apply when it passes from size − 1 to 0
(R658); a poll-mode hit brings the interval down (R48). -/
def State.takeHead (s : State) (q : Nat) : State × Nat :=
  let k := s.queue q
  let h := s.nextPos q k.head
  let s := s.setQueue q { k with head := h, pf := k.pf.drop 1, cnt := k.cnt + 1, missWait := false }
  let s := if h % s.qSize q = 0 then s.setApp (tq q 0x10) (s.reg (tq q 0x10)) else s
  let emin := min (s.af (tq q 0x10) 0 4) 12
  let s := if s.polls q && !s.rb (tq q 0x10) 12 then s.wf (tq q 0x10) 8 4 (max (s.rf (tq q 0x10) 8 4 - 1) emin) else s
  (s, s.posVal q h)

/-- The QPUB record of an entry other than an accepted START (R544, R545). -/
def State.publish (s : State) (q head : Nat) : State :=
  s.jIssue 0x08 (natLE 2 0 ++ natLE 2 q ++ natLE 4 0 ++ natLE 4 head ++ natLE 8 (s.queue q).cnt) (.qpub q head)

/-- A slot of the paired CQ is reserved for a reply (R57). -/
def State.reserveReply (s : State) (q : Nat) : State := s.setRsv (s.qPair q) (s.rsv (s.qPair q) + 1)

/-- A request whose reply posts at once: it is taken, its head published, its reply posted. -/
def State.replyNow (s : State) (q sc bits reason tag : Nat) : State := s.postReply q sc bits reason tag

/-! ## The context cache (R70-R73) -/

/-- Whether a journal record of a subchannel is not yet durable. -/
def State.scPending (s : State) (sc : Nat) : Bool :=
  s.jpend.any fun r => match r.eff with
    | .start n _ _ | .fixed n | .cleared n _ | .fenced n | .modified n _ _ => decide (n = sc)
    | .posted _ _ _ _ _ n _ | .late _ _ _ n _ => decide (n = some sc)
    | _ => false

/-- Contexts that may be evicted (R70): in a state that allows it, and, where the image differs, every change of it durable (R71). -/
def State.evictable (s : State) (sc : Nat) : Bool :=
  decide (s.scState sc ∈ [0, 3, 4, 7]) && (decide (sc ∉ s.dirty ∧ sc ∉ s.dirtyWait) || !s.scPending sc)

/-- A context may be changed now: no 513th dirty one results (R71). -/
def State.mayChange (s : State) (sc : Nat) : Bool := decide (sc ∈ s.dirty) || decide (s.dirty.length < 512)

/-- The context written back for a change that waits (R71): the least recently changed one whose every change is durable. -/
def State.writeBackNext (s : State) : Option Nat := s.dirty.find? fun k => !s.scPending k

/-- A context is written home (R71). -/
def State.writeHome (s : State) (sc : Nat) : State :=
  { s with dirty := s.dirty.erase sc }.seedPut (sc * 512) (s.ctx.rdN (sc * 2048) 512) |>.wf 0xC0020 0 10 (s.dirty.erase sc).length

/-- A context is evicted (R70). -/
def State.evict (s : State) (k : Nat) : State :=
  let s := if k ∈ s.dirty then s.writeHome k else s
  { s with cached := s.cached.erase k, dirtyWait := s.dirtyWait.erase k, ctx := s.ctx.drop (k * 2048 + 512) 1536 }

/-- A context that misses the cache takes an entry: a free one, or the least recently used evictable one's (R70). False: none
is evictable. -/
def State.loadCtx (s : State) (sc : Nat) : State × Bool :=
  if sc ∈ s.loading then (s, true)
  else if s.cached.length + s.loading.length < 4096 then ({ s with loading := s.loading ++ [sc] }, true)
  else match s.cached.find? fun k => s.evictable k with
    | none => (s, false)
    | some k => ({ s.evict k with loading := s.loading ++ [sc] }, true)

/-- Contexts used without a request of theirs have taken entries: those too many are evicted (R70). -/
def State.trimCache (s : State) : State :=
  if s.cached.length + s.loading.length ≤ 4096 then s
  else ((s.cached.filter fun k => s.evictable k).take (s.cached.length + s.loading.length - 4096)).foldl (fun s k => s.evict k) s

/-- A START that an AUTOSTART record asks for is taken, or the record is skipped (R589). -/
def State.autoTake (s : State) (r : AutoReq) : State :=
  if s.scFn r.sc ≠ 0 ∨ s.scState r.sc ≠ 0 then s.wb 0x80040 5 true
  else
  let s := (((s.cxSet r.sc 4 2 r.home).cxSet r.sc 8 1 r.prio).cxSet r.sc 9 1 r.aff).setCxFlag r.sc 3 r.pin
  s.acceptStart { sc := r.sc, prio := r.prio, chain := r.chain, space := 1, auto := true }

/-- A context has a cache entry, or can take one (R73). -/
def State.cacheRoom (s : State) (sc : Nat) : Bool :=
  decide (sc ∈ s.cached) || decide (s.cached.length + s.loading.length < 4096) || s.cached.any fun k => s.evictable k

/-- Autostart STARTs that wait for a cache entry are taken while there is one (R73). -/
def State.autoGo : List AutoReq → State → State
  | [], s => s
  | r :: rs, s => if s.cacheRoom r.sc then State.autoGo rs (({ s with autoWait := rs }.autoTake r).trimCache) else s

end Sys2Proof.Machine
end

