-- ==== Sys2Proof/Machine/Link.lean ====
section
/-! DEFINITION. The link of a Kalgen port and of the twin link (R310-R342): configurations, training begun, planned
retrains, and a port going DOWN with the work open on it (R382). -/

namespace Sys2Proof.Machine

/-! ## Configurations -/

/-- Lane `l` of port `p` is fenced (R612). -/
def State.laneFenced (s : State) (p l : Nat) : Bool := decide (p < 4) && s.rb 0x40008 (16 + 4 * p + l)

/-- The lane sets of R314 of at most a width code, widest first. -/
def laneSets (maxw : Nat) : List (BitVec 4) :=
  (if maxw = 0 then [0xF] else []) ++ (if maxw ≤ 1 then [0x3, 0xC] else []) ++ [0x1, 0x2, 0x4, 0x8]

/-- The lanes of the highest configuration that KP_CFG allows and that uses no fenced lane (R335, R612); none: none is left. -/
def State.bestLanes (s : State) (p : Nat) : Option (BitVec 4) :=
  (laneSets (min (s.af (kp p 0) 0 2) 2)).find? fun m => (List.range 4).all fun l => !m.getLsbD l || !s.laneFenced p l

/-- The rate that KP_CFG allows: true is NRZ. -/
def State.bestNrz (s : State) (p : Nat) : Bool := s.ab (kp p 0) 2

/-- The number of lanes of a set. -/
def laneCount (m : BitVec 4) : Nat := (List.range 4).countP fun l => m.getLsbD l

/-- WIDTH of a lane set: 0 four, 1 two, 2 one. -/
def widthCode (m : BitVec 4) : Nat := if laneCount m = 4 then 0 else if laneCount m = 2 then 1 else 2

/-- The lower and the upper half of the active lanes (R332). -/
def laneHalves (m : BitVec 4) : BitVec 4 × BitVec 4 :=
  let ls := (List.range 4).filter fun l => m.getLsbD l
  let mask := fun (l : List Nat) => l.foldl (fun a k => a ||| (1 : BitVec 4) <<< k) (0 : BitVec 4)
  (mask (ls.take (ls.length / 2)), mask (ls.drop (ls.length / 2)))

/-- LANES and NRZ of a port as one value. -/
def State.linkCfg (s : State) (p : Nat) : BitVec 5 := BitVec.ofNat 5 (s.rf (kp p 0xC) 6 4 + 16 * s.rf (kp p 0xC) 5 1)

/-- EPOCH of a port. -/
def State.linkEpoch (s : State) (p : Nat) : Nat := s.rf (kp p 0xC) 10 4

/-! ## Training -/

/-- Training begins at BASE with a target (R330). -/
def State.beginTraining (s : State) (p : Nat) (lanes : BitVec 4) (nrz : Bool) : State :=
  let st := s.kpSt p
  let cfg := s.linkCfg p
  (s.wf (kp p 0xC) 0 3 1).modPort p fun t =>
    { t with tp := .base, tgtLanes := lanes, tgtNrz := nrz, out := .ts0, flits := 0, uncorrRun := 0, tse := false,
             prevCfg := if st = 2 ∨ st = 3 then cfg else t.prevCfg }

/-- A broadcast CREDIT of the device; the twin link's flits carry PATH 0 (R627). -/
def State.broadcastCredit (s : State) (p : Nat) (c : CreditF) : State :=
  s.modPort p fun t => { t with tx := { path := if p = 4 then 0 else 0x3FFFF, body := .credit c } :: t.tx }

/-- A planned retrain to a target: the ring is quiesced (R336). -/
def State.plannedRetrain (s : State) (p : Nat) (lanes : BitVec 4) (nrz : Bool) : State :=
  let e := BitVec.ofNat 4 (s.linkEpoch p)
  ((s.wf (kp p 0xC) 0 3 3).modPort p fun t => { t with planned := true, unplan := false, tgtLanes := lanes, tgtNrz := nrz, attempt := 0 }).broadcastCredit p
    { cmd := 0, data := 0, decide := 0, attn := 0, epoch := e, rebase := false, quiesce := true }

/-- An unplanned retrain (R339, R340): at once, at the current configuration, or at the planned target out of QUIESCE. -/
def State.unplannedRetrain (s : State) (p : Nat) : State :=
  let st := s.kpSt p
  let t := s.port p
  let lanes : BitVec 4 := if st = 3 then t.tgtLanes else BitVec.ofNat 4 (s.rf (kp p 0xC) 6 4)
  let nrz := if st = 3 then t.tgtNrz else s.rb (kp p 0xC) 5
  let s := s.setBit (kp p 0x14) 1
  (s.beginTraining p lanes nrz).modPort p fun t => { t with planned := false, attempt := 0, unpl := t.unpl + 1, unplan := true }

/-- A port that this device may train as ring master: powered, not fenced, and not a forwarding station (R609, R626); the twin
link in pair mode. -/
def State.kpUsable (s : State) (p : Nat) : Bool :=
  if s.lbDepth (p + 1) ∉ [0, 4] then false
  else if p = 4 then (s.ab 0x481000 0 || decide (s.lbDepth 5 = 4)) && !s.rb 0x40008 14
  else decide (p < 4) && decide (s.pdom p = 0) && !s.rb 0x40008 (10 + p) &&
    !(s.ab 0x481000 0 && decide (s.rf 0x481008 0 3 ≠ 1) && s.ab 0x481000 (1 + p))

/-- TRAIN at a port (R335, R340): a DOWN port trains, an ACTIVE one retrains, one that is neither does so once ACTIVE. -/
def State.trainPort (s : State) (p : Nat) : State :=
  if !s.kpUsable p then s
  else match s.bestLanes p with
  | none => s
  | some m =>
    match s.kpSt p with
    | 0 => (s.beginTraining p m (s.bestNrz p)).modPort p fun t => { t with attempt := 0, planned := false, unplan := false }
    | 2 => s.plannedRetrain p m (s.bestNrz p)
    | _ => s.modPort p fun t => { t with queuedTrain := true }

/-- A status with a RESULT that stands for a node that cannot be reached (R368). -/
def lostStatus (oph : Nat) : StatusF :=
  { oph := BitVec.ofNat 16 oph, endd := true, more := false, trunc := false, dack := false, ans := false, result := 0x85,
    accepted := 0, slots := 0, pdomOn := 0, txid := 0, tserial := 0 }

/-! ## Work that loses its node -/

/-- A staged operation that ends otherwise than OK aborts its group (R402). -/
def State.stagedLost (s : State) (sc : Nat) (o : NOp) : State :=
  match o.stage with
  | some (x, _) => (s.abortTx x 3 o.node 0x85).modChain sc fun c => { c with sa := true }
  | none => s

/-- An open exchange ends with NODE_ABSENT (R379, R382). -/
def State.opLost (s : State) (key : Nat) : State :=
  match s.op key with
  | none => s
  | some o =>
    let st := lostStatus (o.gen * 16384 + key)
    let s := (s.closeEx key).inboxDrop key
    match o.owner with
    | .chain sc =>
      if (s.chain sc).phase = .suspended then s.modChain sc fun c => { c with endStatus := some st }
      else (s.stagedLost sc o).endAbsent sc o.node
    | .chain2 sc =>
      if (s.chain sc).phase = .suspended then s.modChain sc fun c => { c with endStatus2 := some st }
      else s.endAbsent sc o.node
    | .chanSrc c | .chanDst c =>
      let drop := fun o : Option Nat => if o = some key then none else o
      let s := (s.countAbsent o.node).modChan c fun q => { q with code := some (q.code.getD 7), op := drop q.op, op2 := drop q.op2 }
      match (s.chan c).xfer with
      | some x => s.endXfer x 7
      | none => s
    | .reserve sc | .release sc | .power sc => s.endAbsent sc o.node
    | .winLoad t => s.modThread t fun h => { h with win := h.win.map fun w => { w with op := none, bad := true } }
    | .winStore _ | .unowned => s

/-- The subchannel whose chain an exchange belongs to. -/
def NOwner.sc? : NOwner → Option Nat
  | .chain sc | .chain2 sc | .reserve sc | .release sc | .power sc => some sc
  | _ => none

/-- The exchanges open on a port. -/
def State.portOps (s : State) (p : Nat) : List Nat :=
  s.ops.filterMap fun e => match e.2 with
    | some o => if nodePort o.node = p then some e.1 else none
    | none => none

/-- The subchannels whose chains satisfy a test. -/
def State.chainsWhere (s : State) (f : Nat → Chain → Bool) : List Nat := (s.chains.filter fun e => f e.1 e.2).map fun e => e.1

/-- What a chain has open, or waits for, on a port that goes DOWN ends with NODE_ABSENT (R382, R110). -/
def State.chainDown (s : State) (p sc : Nat) : State :=
  let s := ((s.portOps p).filter fun k => decide ((s.op k).bind (fun o => o.owner.sc?) = some sc)).foldl (fun s k => s.opLost k) s
  let c := s.chain sc
  if c.phase = .paceNode ∧ nodePort c.node = p then s.endAbsent sc c.node else s

/-- A port goes DOWN: its link, and the work open or waiting on it (R340, R382, R110). The statuses that follow are fixed in the same
cycle, so they are fixed in ascending SC order (R61). -/
def State.portDown (s : State) (p : Nat) : State :=
  let s := s.linkDown p
  if 4 ≤ p then s
  else
    let own := fun k => (s.op k).bind fun o => o.owner.sc?
    let scs := (s.portOps p).filterMap own ++ s.chainsWhere fun _ c => decide (c.phase = .paceNode) && decide (nodePort c.node = p)
    let s := ((s.portOps p).filter fun k => (own k).isNone).foldl (fun s k => s.opLost k) s
    (scs.foldr (List.orderedInsert (· ≤ ·)) []).dedup.foldl (fun s sc => s.chainDown p sc) s

end Sys2Proof.Machine
end

