-- ==== Sys2Proof/Machine/Pruner.lean ====
section
/-! DEFINITION. Reports and fencing (R594-R614), the end of an attention service (R483-R485), and what a fence or a power-down
takes from the work in flight (R558-R560, R609, R610). -/

namespace Sys2Proof.Machine

/-! ## Attention services -/

/-- A service ends (R476, R483-R485): `defer` is op[16]; `hold`: the HOLDOFF of R484 applies. -/
def State.endService (s : State) (k : Nat) (defer hold : Bool) : State :=
  let c := s.src k
  let st := s.srcSt k
  let new := if s.srcIsLevel k then (if c.lvl then 1 else 0) else if defer || decide (st = 3) then 1 else 0
  let s := (s.modSrc k fun c => { c with thread := none, refire := decide (new = 1), hold := defer && hold }).setSrcSt k new
  if defer then (s.setBit 0x180004 4).bump (cnt 0x180040 3) else s

/-- A thread stopped by a fence or a power-down of its group: its service ends (R485), and it is freed. A subchannel's
thread is dealt with through its chain. -/
def State.stopThread (s : State) (t : Nat) : State :=
  match (s.thread t).bind with
  | .attn k => (s.endService k true false).freeThreadOf t
  | .cloche => s.freeThreadOf t
  | .sc _ => s.modThread t fun h => { h with stopped := true }
  | .free => s

/-- The threads of a group that are bound. -/
def State.boundThreads (s : State) (g : Nat) : List Nat :=
  s.threads.filterMap fun e => if groupOf e.1 = g ∧ e.2.bind ≠ .free then some e.1 else none

/-- The chains of the subchannels whose TG is `g`. -/
def State.chainsOf (s : State) (g : Nat) : List Nat :=
  s.chainsWhere fun sc c => decide (c.phase ≠ .none) && decide (bits (s.cx sc 10 1) 0 3 = g)

/-! ## Withdrawal -/

/-- A chain is ended by a power-down (R558, R560): its undecided transaction aborts, its transfer stops, its operations get
END and their ends are awaited; a commit past its decision point runs to its end first. -/
def State.withdrawChain (s : State) (sc : Nat) : State :=
  let c := s.chain sc
  if c.phase = .none ∨ c.phase = .fixed ∨ c.phase = .fencing then s
  else
    let s := s.modChain sc fun c => { c with withdrawn := true }
    match s.openTx sc with
    | some x =>
      if (s.txn x).decideIssued then s
      else ((((s.abortTx x 9).modChain sc fun c => { c with sa := true }).unreserve sc).stopXfer sc).fixStatus sc {}
    | none =>
      if c.phase = .unbound && !c.resumed then s.fixStatus sc { de := some true, residual := some 0 }
      else if c.phase = .ending then s
      else ((s.unreserve sc).stopXfer sc).haltOps sc

/-- Undecided transactions with a member on a port. -/
def State.undecidedAt (s : State) (p : Nat) : List Nat :=
  s.txns.filterMap fun e =>
    if e.2.used && !e.2.decideIssued && e.2.cause.isNone && e.2.members.any (fun m => decide (nodePort m.node = p)) then some e.1
    else none

/-- Every transfer bound in a half ends with DOMAIN_WITHDRAWN, after its writes already issued (R558, R609). -/
def State.withdrawHalf (s : State) (h : Nat) : State :=
  s.xfers.foldl (fun s e => match e.2 with
    | some v => match v.slot with
      | some (b, _) => if b / 8 = h then s.endXfer e.1 10 else s
      | none => s
    | none => s) s

/-! ## Fencing -/

/-- Tiller group `g` is fenced (R609, R610). -/
def State.fenceTg (s : State) (g : Nat) : State :=
  let s := s.wb 0x40008 g true
  let s := (s.boundThreads g).foldl (fun s t => s.stopThread t) s
  (s.chainsOf g).foldl (fun s sc =>
    let st := s.scState sc
    let c := s.chain sc
    if c.phase = .fixed ∨ c.phase = .fencing ∨ st = 6 then s
    else if st = 1 then
      match s.place sc with
      | some s' => s'
      | none => s.enterFenced sc 1
    else
      match s.openTx sc with
      | some x =>
        if (s.txn x).decideIssued then s.modChain sc fun c => { c with fenced := true }
        else (s.abortTx x 10).fenceChain sc
      | none => s.fenceChain sc) s

/-- Barrow half `h` is fenced (R609). -/
def State.fenceBw (s : State) (h : Nat) : State := (s.wb 0x40008 (8 + h) true).withdrawHalf h

/-- Port `p` is fenced (R609): undecided transactions with a member on it abort, and it goes DOWN. -/
def State.fenceKp (s : State) (p : Nat) : State :=
  let s := (s.wb 0x40008 (10 + p) true).lbStop (p + 1)
  let s := (s.undecidedAt p).foldl (fun s x =>
    let sc := (s.txn x).sc
    let s := (s.abortTx x 10).modChain sc fun c => { c with sa := true }
    match (s.chain sc).op.bind fun k => s.op k with
    | some o => if nodePort o.node = p then s else s.endAborted sc
    | none => s.endAborted sc) s
  s.portDown p

/-- A lane of a port is fenced: a planned retrain leaves it out; a port with no lane left is fenced (R612). -/
def State.fenceLane (s : State) (p l : Nat) : State :=
  let s := s.wb 0x40008 (16 + 4 * p + l) true
  match s.bestLanes p with
  | none => if s.rb 0x40008 (10 + p) then s else s.fenceKp p
  | some m =>
    match s.kpSt p with
    | 0 => s
    | 2 => s.plannedRetrain p m (s.rb (kp p 0xC) 5)
    | _ => s.modPort p fun t => { t with queuedLane := true }

/-- The lane a report of KP_LANE names (R714): the one given, else the lowest that is not fenced, of the active set if the
port is ACTIVE. -/
def State.namedLane (s : State) (p : Nat) (given : Option Nat) : Option Nat :=
  match given with
  | some l => some l
  | none =>
    (List.range 4).find? fun l => !s.laneFenced p l && (decide (s.kpSt p ≠ 2) || s.rb (kp p 0xC) (6 + l))

/-- Groups, or halves, in service other than those of a list (R613). -/
def State.leavesNone (s : State) (u : FUnit) : Bool :=
  match u with
  | .tg g => !(List.range 8).any fun k => decide (k ≠ g) && s.tgIn k
  | .tgs lo => !(List.range 8).any fun k => decide (k / 4 ≠ lo / 4) && s.tgIn k
  | .bw h => !s.bwIn (1 - h)
  | _ => false

/-- The reaction FENCE (R609-R613). -/
def State.fence (s : State) (n : Nat) (lane : Option Nat) : State :=
  let u := srcUnit n
  if s.leavesNone u then s.enterSafe n
  else match u with
    | .tg g => if s.rb 0x40008 g then s else s.fenceTg g
    | .tgs lo => [lo, lo + 1, lo + 2, lo + 3].foldl (fun s g => if s.rb 0x40008 g then s else s.fenceTg g) s
    | .bw h => if s.rb 0x40008 (8 + h) then s else s.fenceBw h
    | .kp p => if s.rb 0x40008 (10 + p) then s else s.fenceKp p
    | .lane p => match lane with
      | some l => if s.laneFenced p l then s else s.fenceLane p l
      | none => s
    | .twin => if s.rb 0x40008 14 then s else ((s.wb 0x40008 14 true).lbStop 5).linkDown 4
    | .none => s

/-- A report of source `n` (R594-R603, R714): recorded, and the source's reaction applied. `lane`: the lane a real report of
KP_LANE names. -/
def State.report (s : State) (n : Nat) (lane : Option Nat := none) : State :=
  if s.life ≠ .live ∨ 106 ≤ n then s
  else
    let s := s.record n
    let lane := match srcUnit n with
      | .lane p => s.namedLane p lane
      | _ => none
    let s := match srcUnit n, lane with
      | .lane p, some l => s.wb (kp p 0xC) (22 + l) true
      | _, _ => s
    match s.react n with
    | 0 => s
    | 1 => s.fence n lane
    | _ => s.enterSafe n

/-- A fault condition begins to hold, or no longer holds (R597). -/
def State.setCond (s : State) (n : Nat) (b : Bool) : State :=
  if b then (if n ∈ s.conds then s else { s with conds := s.conds ++ [n] }.report n)
  else { s with conds := s.conds.erase n }

end Sys2Proof.Machine
end

