-- ==== Sys2Proof/Machine/Dma.lean ====
section
/-! DEFINITION. Stand-alone DMA channels (R272-R296): descriptors taken, their node operations opened, pacing, and their
completion. -/

namespace Sys2Proof.Machine

/-! ## The channel -/

/-- The function that owns a channel. -/
def State.chFn (s : State) (c : Nat) : Nat := s.rf (bwCh c 4) 0 5

/-- The DQ of a channel. -/
def State.chDq (s : State) (c : Nat) : Nat := s.rf (bwCh c 0) 16 13

/-- BW_CH_STATE.ST follows the channel: 2 ACTIVE, 3 PAUSED, 4 STOPPING, else 1 IDLE; DISABLED and STOPPED stay. -/
def State.chShow (s : State) (c : Nat) : State :=
  let q := s.chan c
  let st := s.rf (bwCh c 0x10) 0 3
  if st = 0 ∨ st = 5 then s
  else s.wf (bwCh c 0x10) 0 3 (if q.halt || q.abort then 4 else if q.paused then 3 else if q.desc.isEmpty then 1 else 2)

/-- A channel becomes STOPPED: HALT and ABORT read 0 again (R287). -/
def State.chStop (s : State) (c : Nat) : State :=
  let s := s.modChan c fun q => { q with halt := false, abort := false }
  (s.wf (bwCh c 0xC) 1 2 0).wf (bwCh c 0x10) 0 3 (if s.rb (bwCh c 0) 0 then 5 else 0)

/-! ## Descriptors (R275) -/

/-- A field of a channel's descriptor. -/
def State.dsc (s : State) (c off n : Nat) : Nat := leAt (s.chan c).desc off n

/-- OP of a descriptor: 1 COPY, 2 FILL, 3 COMPARE, 4 GATHER, 5 SCATTER. -/
def dscOp (e : Bytes) : Nat := leAt e 0 1 % 16

/-- Whether two ranges share a byte. -/
def overlap (a b n : Nat) : Bool := decide (0 < n) && decide (a < b + n) && decide (b < a + n)

/-- A construction error of R305 that the descriptor itself shows. -/
def badDsc (e : Bytes) : Bool :=
  let op := dscOp e
  let ss := leAt e 2 1 % 4
  let ds := leAt e 2 1 / 4 % 4
  let n := leAt e 4 4
  let src := leAt e 8 8
  let dst := leAt e 16 8
  let far := fun (sp a : Nat) => (decide (sp = 2) && decide (2 ^ 46 ≤ a ∨ 2 ^ 46 < a + n)) || (decide (sp = 0) && decide (2 ^ 64 < a + n))
  decide (op = 0 ∨ 5 < op) || (decide (op ≠ 2) && decide (ss = 3)) || decide (ds = 3) ||
  (decide (op ≠ 2 ∧ op ≠ 4) && far ss src) || (decide (op ≠ 5) && far ds dst) ||
  (decide (op = 4) && (decide (2 ≤ ss) || decide (src % 16 ≠ 0))) || (decide (op = 5) && (decide (2 ≤ ds) || decide (dst % 16 ≠ 0))) ||
  (bitOn (leAt e 3 1) 1 && decide (leAt e 32 8 % 32 ≠ 0)) ||
  (decide (op = 1) && decide (ss = ds) && (decide (ss ≠ 2) || decide (leAt e 24 2 % 4096 = leAt e 26 2 % 4096)) && overlap src dst n)

/-- The nodes a descriptor names: node, and whether it is only read. -/
def dscNodes (e : Bytes) : List (Nat × Bool) :=
  let op := dscOp e
  (if leAt e 2 1 % 4 = 2 ∧ op ≠ 2 ∧ op ≠ 4 then [(leAt e 24 2 % 4096, true)] else []) ++
  (if leAt e 2 1 / 4 % 4 = 2 ∧ op ≠ 5 then [(leAt e 26 2 % 4096, decide (op = 3))] else [])

/-- The code that ends a descriptor before it accesses anything, if any (R276, R279, R558, R711). -/
def State.dscCheck (s : State) (c : Nat) (e : Bytes) : Option Nat :=
  let fn := s.chFn c
  let ns := dscNodes e
  if bitOn (leAt e 3 1) 1 && bitOn (leAt e 3 1) 2 && decide (s.shareRun fn (leAt e 32 8) 32 < 32) then some 5
  else if leAt e 4 4 = 0 then some 0
  else if ns.any fun n => !s.perm fn n.1 (b2n !n.2) then some 8
  else if ns.any fun n => s.kpWithdrawn (nodePort n.1) then some 10
  else none

/-- The node table checks of a descriptor's nodes (R276, R357). -/
def State.dscNodeCheck (s : State) (e : Bytes) : Option (Nat × Nat) :=
  (dscNodes e).findSome? fun n => (s.nodeCheck n.1).map fun k => (n.1, if k = 17 then 9 else 7)

/-- A completion code is decided. -/
def State.chCode (s : State) (c code : Nat) : State :=
  s.modChan c fun q => { q with code := some (q.code.getD code), opening := false }

/-- The operation on one node of a descriptor (R276). COUNT is LENGTH, as R276 has it, so the first fetch is of it (R373). -/
def State.dscOpen (s : State) (node : Nat) (read : Bool) (sub n : Nat) (owner : NOwner) : Option (State × Nat) :=
  (s.findOph node).map fun oph =>
    (s.openOp oph node { owner, read, sub } { oph, kind := 0, code := if read then 2 else 1, subaddr := sub, count := n }, ophKey oph)

/-- A descriptor's transfer begins to wait for a slot (R256, R257), or its nodes are waited for (R366). Its node operations open once it is
bound. -/
def State.dscBegin (s : State) (c : Nat) : State :=
  let q := s.chan c
  let e := q.desc
  let op := dscOp e
  let ns := dscNodes e
  if ns.any fun n => s.kpWithdrawn (nodePort n.1) then s.chCode c 10
  else if ns.any fun n => s.gate n.1 = .wait then s.modChan c fun q => { q with opening := true }
  else match s.dscNodeCheck e, ns.find? fun n => s.gate n.1 = .absent with
    | some (n, k), _ => (if k = 7 then s.countAbsent n else s).chCode c k
    | none, some (n, _) => (s.countAbsent n).chCode c 7
    | none, none =>
      let ss := leAt e 2 1 % 4
      let ds := leAt e 2 1 / 4 % 4
      let src := leAt e 8 8
      let dst := leAt e 16 8
      let x := s.newXfer {
        owner := .chan c, op, prio := leAt e 1 1 % 16, half := s.rb (bwCh c 0) 1, fn := s.chFn c, srcSpace := ss, dstSpace := ds,
        src, dst, len := leAt e 4 4, pattern := BitVec.ofNat 64 src,
        list := if op = 4 then { space := ss, addr := src } else { space := ds, addr := dst },
        paced := decide (s.rf (bwCh c 0) 2 2 ≠ 0), paused := q.paused }
      x.1.modChan c fun q => { q with xfer := some x.2, opening := !ns.isEmpty }

/-- The operations of a bound transfer's descriptor open (R257, R276); or they wait (R366, R370), or end it (R382, R558). -/
def State.dscOpenOps (s : State) (c : Nat) : State :=
  let q := s.chan c
  let e := q.desc
  let op := dscOp e
  let ns := dscNodes e
  match q.xfer.bind fun x => (s.xfer x).map fun v => (x, v) with
  | none => s
  | some (x, v) =>
    if v.slot.isNone || v.code.isSome || v.evicting then s
    else if ns.any fun n => s.kpWithdrawn (nodePort n.1) then (s.chCode c 10).endXfer x 10
    else match ns.find? fun n => s.gate n.1 = .absent with
    | some (n, _) => ((s.countAbsent n).chCode c 7).endXfer x 7
    | none =>
      if ns.any fun n => s.gate n.1 = .wait then s
      else
        let s := ns.foldl (fun s n => s.firstRelease n.1) s
        let a : Option (State × Option Nat) :=
          if leAt e 2 1 % 4 = 2 ∧ op ≠ 2 ∧ op ≠ 4 then
            (s.dscOpen (leAt e 24 2 % 4096) true (v.src % 2 ^ 46) v.len (.chanSrc c)).map fun r => (r.1, some r.2)
          else some (s, none)
        let b : Option (State × Option Nat × Option Nat) := a.bind fun r =>
          if leAt e 2 1 / 4 % 4 = 2 ∧ op ≠ 5 then
            (r.1.dscOpen (leAt e 26 2 % 4096) (decide (op = 3)) (v.dst % 2 ^ 46) v.len (.chanDst c)).map fun t => (t.1, r.2, some t.2)
          else some (r.1, r.2, none)
        match b with
        | none => s
        | some (s, k1, k2) =>
          ((s.modXfer x fun v => { v with srcOp := k1, dstOp := k2 }).modChan c fun q => { q with op := k1, op2 := k2, opening := false }).pump x

/-- What waits for the nodes of a channel's descriptor goes on. -/
def State.dscGo (s : State) (c : Nat) : State :=
  if !(s.chan c).opening then s
  else if (s.chan c).xfer.isNone then (s.modChan c fun q => { q with opening := false }).dscBegin c
  else s.dscOpenOps c

/-- A descriptor with the operation `op` is at the head of an idle channel's DQ and may be taken (R274). One with a reserved
operation (R305) is taken as a COPY is. -/
def State.dscReady (s : State) (c op : Nat) : Option Bytes :=
  let q := s.chan c
  if s.rf (bwCh c 0x10) 0 3 = 1 ∧ q.desc.isEmpty ∧ q.paused = false then
    (s.headEntry (s.chDq c)).bind fun e => if dscOp e = op || (op = 1 && decide (dscOp e = 0 ∨ 5 < dscOp e)) then some e else none
  else none

/-- A descriptor is taken (R274): a CQ slot is reserved, the channel is ACTIVE. -/
def State.dscTake (s : State) (c : Nat) (e : Bytes) : State :=
  let q := s.chDq c
  let slot := (s.queue q).head % s.qSize q
  let r := s.takeHead q
  let s := (r.1.publish q r.2).reserveReply q
  let s := s.modChan c fun k => { k with desc := padTo 64 e, xfer := none, op := none, op2 := none, endStatus := none, endStatus2 := none,
                                         short := false, code := none, done := 0, mismatch := none, nodeStatus := 0 }
  let s := ((s.wf (bwCh c 0x10) 16 16 slot).setReg (bwCh c 0x14) 0).chShow c
  if badDsc e then
    -- unpredictable (R6, R305): a free completion, free destinations
    let v := s.free.toNat
    ((s.tick.freeWrites (s.chFn c)).modChan c fun k =>
      { k with done := v / 256 % 2 ^ 32, nodeStatus := BitVec.ofNat 8 (v / 2 ^ 40) }).chCode c (v % 13)
  else match s.dscCheck c e with
    | some k => s.chCode c k
    | none => s.dscBegin c

/-- What a channel does with a descriptor of one operation at its head. -/
def State.dscRun (s : State) (c op : Nat) : State :=
  match s.dscReady c op with
  | some e => s.dscTake c e
  | none => s

/-! ## Pacing (R290-R296) -/

/-- The request line of a channel paced by one (PACE 1). -/
def State.chLine (s : State) (c : Nat) : Option Nat := if s.rf (bwCh c 0) 2 2 = 1 then some (s.rf (bwCh c 0) 4 3) else none

/-- A pacing request is added to PEND (R292). -/
def State.pend (s : State) (c n : Nat) : State :=
  let v := s.rf (bwCh c 0x1C) 0 8 + n
  let s := s.wf (bwCh c 0x1C) 0 8 (min v 255)
  if 255 < v then s.setBit (bwCh c 0x18) 2 else s

/-- A bit of a byte of pins, set or cleared. -/
def pinSet (v : Byte) (l : Nat) (b : Bool) : Byte := if b then v ||| (1 : Byte) <<< l else v &&& ~~~((1 : Byte) <<< l)

/-- DACK of a channel's line rises (R294). -/
def State.dackUp (s : State) (c : Nat) : State :=
  match s.chLine c with
  | some l => { s with dack := pinSet s.dack l true }
  | none => s

/-- DACK of a channel's line falls: DREQ is sampled no earlier than 16 ns later (R290). -/
def State.dackDown (s : State) (c : Nat) : State :=
  match s.chLine c with
  | some l => { s with dack := pinSet s.dack l false, dackWait := pinSet s.dackWait l true }
  | none => s

/-- DACK follows the running burst of a channel's transfer: high from its first beat on, low after its last (R294). -/
def State.paceShow (s : State) (c x : Nat) (v : Xfer) : State :=
  if !v.paced || !v.beat then s
  else if v.burst ≠ 0 ∧ v.code.isNone = true then s.dackUp c
  else (s.dackDown c).setXfer x (some { v with beat := false })

/-- A pacing request waits to be served (R290, R291, R296). -/
def State.paceReq (s : State) (c : Nat) : Bool :=
  if s.rf (bwCh c 0) 2 2 = 2 || s.rb (bwCh c 0) 7 then decide (s.rf (bwCh c 0x1C) 0 8 ≠ 0)
  else (s.chLine c).elim false fun l => s.dreq.getLsbD l && !s.dackWait.getLsbD l

/-- The bursts of a channel's transfer: one that has ended lowers DACK, and the next begins if a request waits for it. -/
def State.bursts (c : Nat) : Nat → State → State
  | 0, s => s
  | n + 1, s =>
    match (s.chan c).xfer with
    | none => s
    | some x =>
      let s := (s.xfer x).elim s fun v => s.paceShow c x v
      match s.xfer x with
      | none => s
      | some v =>
        if !v.paced || v.code.isSome || v.paused || v.slot.isNone || (s.chan c).opening || decide (v.burst ≠ 0) || decide (v.done = v.len) ||
          !s.paceReq c then s
        else
          let p := s.rf (bwCh c 0x1C) 0 8
          let s := if s.rf (bwCh c 0) 2 2 = 2 || s.rb (bwCh c 0) 7 then s.wf (bwCh c 0x1C) 0 8 (p - 1) else s
          let s := s.setXfer x (some { v with burst := min (64 * 2 ^ s.rf (bwCh c 0) 8 3) (v.len - v.done), beat := false })
          State.bursts c n (s.pump x)

/-- The pacing of a channel after anything that may move it on. -/
def State.pace (s : State) (c : Nat) : State := State.bursts c 257 s

/-! ## Completion (R280-R285) -/

/-- The code of a node's ending status (R283). -/
def statusCode (st : StatusF) : Nat :=
  if st.result = 0 then 0 else if st.result = 0x85 ∨ st.result = 0x86 then 7 else 6

/-- The completion of a descriptor whose transfer ended in full, or at an end that a node set: the ending statuses judge it (R283,
R710). -/
def Chan.judge (q : Chan) (v : Xfer) : Nat × Nat × Nat :=
  match [q.endStatus, q.endStatus2].findSome? fun x => x.bind fun st => if st.result ≠ 0 then some st else none with
  | some st => (statusCode st, v.done, if statusCode st = 6 then st.result.toNat else 0)
  | none =>
    let trunc := fun r : Option StatusF => r.elim false fun r => r.trunc
    match (if v.op = 3 then none else q.endStatus2) with
    | some st =>
      if st.accepted.toNat < v.done then (12, st.accepted.toNat, 0)
      else if v.done < v.len then (12, v.done, 0)
      else if st.more || trunc q.endStatus then (12, v.len, 0)
      else (0, v.done, 0)
    | none =>
      if v.done < v.len then (12, v.done, 0)
      else if trunc q.endStatus || trunc q.endStatus2 then (12, v.len, 0)
      else (0, v.done, 0)

/-- The ending statuses that a descriptor's completion waits for (R280, R558, R710): of a node written; and of every node, where they
judge the length moved, or its port was withdrawn. -/
def Chan.awaits (q : Chan) (v : Xfer) (code : Nat) : Bool :=
  let src := q.op.isSome && q.endStatus.isNone
  let dst := q.op2.isSome && q.endStatus2.isNone
  if code = 0 ∨ code = 10 then src || dst else dst && decide (v.op ≠ 3)

/-- A descriptor's code, DONE and NODE_STATUS, once it has completed (R280, R283, R284, R710): all it wrote has left. -/
def State.dscResult (s : State) (c : Nat) : Option (Nat × Nat × Nat) :=
  let q := s.chan c
  if q.desc.isEmpty then none
  else
    match q.xfer.bind fun x => (s.xfer x).map fun v => (x, v) with
    | none => q.code.map fun k => (k, q.done, q.nodeStatus.toNat)
    | some (x, v) =>
      match v.code with
      | none => none
      | some k =>
        let k := q.code.getD k
        if (s.fab.any fun p => decide (p.xfer = some x)) || q.awaits v k then none
        else if k ≠ 0 then some (k, v.done, if k = 6 then v.nodeStatus.toNat else 0)
        else some (q.judge v)

/-- The completion record (R282). -/
def State.dscRecord (s : State) (c code done ns : Nat) : Bytes :=
  let q := s.chan c
  let m := (q.xfer.bind s.xfer).bind fun v => v.mismatch
  let mm := if code = 1 then m else none
  natLE 8 s.now ++ natLE 4 done ++ natLE 4 (mm.elim 0 fun r => r.1) ++ [mm.elim 0 fun r => r.2.1, mm.elim 0 fun r => r.2.2] ++
    natLE 1 code ++ natLE 1 ns ++ natLE 2 (c % 256) ++ natLE 2 (s.rf (bwCh c 0x10) 16 16) ++ natLE 4 (s.dsc c 28 4) ++ [0, 0, 0, 0x80]

/-- A completion record is written (R281): as its CQ's entries are, in one TLP or two. -/
def State.dscRecordPut (s : State) (c code done ns : Nat) : State :=
  let fn := s.chFn c
  let a := s.dsc c 32 8
  let b := s.dscRecord c code done ns
  if !bitOn (s.dsc c 3 1) 1 then s
  else if bitOn (s.dsc c 3 1) 2 then
    if s.shareRun fn a 32 < 32 then s else s.bufPut a b
  else if !s.masters fn then s
  else if s.rb (tq (s.qPair (s.chDq c)) 0) 4 then (s.hostWrite fn a (b.take 31)).hostWrite fn (a + 31) (b.drop 31)
  else s.hostWrite fn a b

/-- The current descriptor completes (R281, R285, R287, R288). An operation whose end it did not wait for is left to its node; a read
still to arrive keeps its slot. -/
def State.dscFinish (s : State) (c code done ns : Nat) : State :=
  let q := s.chan c
  let dq := s.chDq c
  let cq := s.qPair dq
  let s := s.setReg (bwCh c 0x14) (BitVec.ofNat 32 done)
  let s := if code = 0 ∨ code = 1 then s else s.setBit (bwCh c 0x18) 3
  let s := s.bump (bwCh c 0x20)
  let s :=
    if q.discard then s.setRsv cq (s.rsv cq - 1)
    else
      let s := s.dscRecordPut c code done ns
      if bitOn (s.dsc c 3 1) 0 ∨ code ≠ 0 then
        let e : CqE := { ts := s.now, sc := c, kind := 1, bits := 1 + (if code = 0 ∨ code = 1 then 0 else 4), tag := s.dsc c 28 4 }
        s.postEntry cq e.enc c 0 (some dq) none true
      else s.setRsv cq (s.rsv cq - 1)
  let s := (s.leaveOp q.op).leaveOp q.op2
  let s := match q.xfer with
    | some x => ((s.modXfer x fun v => { v with owner := .ended }).dropXfer x).wb (bwCh c 0x10) 3 false
    | none => s
  let s := s.setChan c { halt := q.halt, abort := q.abort, paused := q.paused }
  if q.abort || (q.halt && !q.paused) then s.chStop c else s.chShow c

/-! ## Channel commands (R286-R288) -/

/-- HALT of a channel: at once in IDLE, else at the descriptor's completion. -/
def State.chHalt (s : State) (c : Nat) : State :=
  let s := (s.modChan c fun q => { q with halt := true }).wb (bwCh c 0xC) 1 true
  let q := s.chan c
  if q.desc.isEmpty && !q.paused then s.chStop c else s.chShow c

/-- ABORT of a channel: at once in IDLE; the current descriptor ends with ABORTED, unless its last beat has issued. -/
def State.chAbort (s : State) (c : Nat) : State :=
  let s := (s.modChan c fun q => { q with abort := true }).wb (bwCh c 0xC) 2 true
  let q := s.chan c
  if q.desc.isEmpty then s.chStop c
  else
    let s := match q.xfer with
      | some x => s.endXfer x 2
      | none => s.chCode c 2
    s.chShow c

end Sys2Proof.Machine
end

