-- ==== Sys2Proof/Machine/Wake.lean ====
section
/-! DEFINITION. What follows by itself after a command: work that had to wait goes on, and derived state is brought up to
date. Every command but those of a Tiller thread ends with `finish`. -/

namespace Sys2Proof.Machine

/-! ## Derived state -/

/-- The condition of the internal level sources 32 to 40 (R471, R602). -/
def State.intCond (s : State) (i : Nat) : Bool :=
  if i < 36 then decide (s.rf (kp (i - 32) 0x14) 0 9 ≠ 0)
  else if i = 36 then decide (s.rf 0x48100C 0 9 ≠ 0)
  else if i = 37 then [0, 1, 2, 3].any fun p => decide (s.rf (0x410020 + 4 * p) 0 8 ≠ 0)
  else if i = 38 then decide (s.rf 0x680004 0 5 ≠ 0)
  else if i = 39 then decide (s.rf 0x6A0000 0 3 ≠ 0)
  else s.stickyWith fun r => decide (r = 0)

/-- Whether the fault pins show Fault (R621). -/
def State.faulty (s : State) : Bool :=
  s.safe || decide (s.rn 0x40008 ≠ 0) || s.stickyWith fun r => decide (min (s.af 0x40000 12 2) 2 ≤ r)

/-- A condition source sets its sticky bit again while its condition holds (R597, R656). -/
def State.persist (s : State) : State :=
  s.conds.foldl (fun s n => if s.sticky n then s else s.report n) s

/-- Steps 7 to 10 of a start (R580): every port ACTIVE, then enumerated, then every recovery flit answered. A withdrawn or fenced port
is not waited for. T_LIVE is free (log 19), and START_LATE follows from it. -/
def State.startProgress (s : State) : State :=
  let at_ := fun (s : State) n => decide (s.rf 0x80040 8 4 = n)
  let ports := [0, 1, 2, 3].filter fun p => !s.kpWithdrawn p && !s.rb 0x40008 (10 + p)
  let s := if at_ s 6 && ports.all fun p => decide (s.kpSt p = 2) then s.wf 0x80040 8 4 7 else s
  let s := if at_ s 7 && ports.all fun p => (s.port p).firstEnum then s.wf 0x80040 8 4 8 else s
  if at_ s 8 && s.recov.isEmpty then
    let ready := s.rf 0x80050 0 16
    let live := ready + s.free.toNat % (0xFFFF - ready)
    let s := (s.tick.wf 0x80040 8 4 10).wf 0x80050 16 16 live
    if 450 < live then s.report 104 else s
  else s

/-! ## The pair's heartbeat (R629, R643) -/

/-- TW_STATE.ROLE: 0 single or undecided, 1 master, 2 standby, 3 claiming, 4 stopped. -/
def State.role (s : State) : Nat := s.rf 0x481008 0 3
def State.setRole (s : State) (r : Nat) : State := s.wf 0x481008 0 3 r

/-- Pair mode is enabled (TW_CFG.PAIR). -/
def State.paired (s : State) : Bool := s.ab 0x481000 0

/-- A status bit of TW_STATUS is set; bits 1 to 7 report source 71. -/
def State.twStat (s : State) (k : Nat) : State :=
  if s.rb 0x48100C k then s else
  let s := s.setBit 0x48100C k
  if 1 ≤ k ∧ k ≤ 7 then s.report 71 else s

/-- Where the pair record stands (R636). -/
def pairAt : Nat := 0x37AC000

/-- Bytes stored in the Seedbank and not mirrored: during resolution, and the pair record (R24, R636). -/
def State.put (s : State) (a : Nat) (b : Bytes) : State :=
  State.cwStore .seedbank (fun a => a / 64) (fun a b s => { s with seed := s.seed.wrN a b }) a b s

/-- The pair record is written, locally only. -/
def State.pairPut (s : State) (role : Nat) : State :=
  let r := natLE 4 0x4C4B5052 ++ natLE 4 (role + 4 * s.rf 0x481008 3 1) ++ natLE 4 (s.rn 0x481010) ++ natLE 4 s.pair.syncEp ++ natLE 8 s.now ++
    List.replicate 36 0
  s.put pairAt (r ++ natLE 4 (crc32c r).toNat)

/-- The ports in PORTS. -/
def State.pairPorts (s : State) : List Nat := [0, 1, 2, 3].filter fun p => s.ab 0x481000 (1 + p)

/-- The master raises TEPOCH and sends a TOKEN with it on every ACTIVE port in PORTS; mirrored records wait for its return. -/
def State.soloGo (s : State) : State :=
  if s.role ≠ 1 ∨ s.pair.goSolo = true ∨ s.mirroring = false then s
  else
    let s := (s.setReg 0x481010 (BitVec.ofNat 32 (s.rn 0x481010 + 1))).pairPut 1
    let s := { s with pair := { s.pair with goSolo := true } }
    s.pairPorts.foldl (fun s p => if s.kpSt p = 2 then s.modPort p fun t => { t with tokenDue := true } else s) s

/-- The heartbeat is lost (R629, R643): a resynchronisation ends; a master that mirrors goes solo. -/
def State.heartbeatLost (s : State) : State :=
  let s := ((s.wb 0x481008 4 false).twStat 1).bump (cnt 0x481040 2)
  let s := { s with pair := { s.pair with copyPos := none, copyLast := none } }
  if s.safe then s else s.soloGo

/-- A twin link that is not ACTIVE carries no heartbeat (R629). -/
def State.heartbeatGo (s : State) : State :=
  if s.paired && s.rb 0x481008 4 && decide (s.kpSt 4 ≠ 2) then s.heartbeatLost else s

/-! ## All of it -/

/-- Brings the derived state up to date: the heartbeat, condition sources, PR_STATE, PR_FIRST.VALID, the levels of Rake's internal sources
and the fault pins (R621, R622). -/
def State.settle (s : State) : State :=
  match s.life with
  | .lost => { s with errA := false, errB := true }
  | .live =>
    let s := s.heartbeatGo.startProgress.persist
    let s := if s.rb 0x40070 7 && !s.anySticky then s.wb 0x40070 7 false else s
    let s := [32, 33, 34, 35, 36, 37, 38, 39, 40].foldl (fun s i => s.srcLevel (intSrc i) (s.intCond i)) s
    let f := s.faulty
    let up := decide (6 ≤ s.rf 0x80040 8 4)
    let s := (s.wb 0x40004 1 (decide (s.rn 0x40008 ≠ 0))).wb 0x40004 2 (f && up)
    { s with errA := up && !f, errB := up && f }
  | _ => { s with errA := false, errB := false }

/-! ## Clears -/

/-- The body of a CLEARED record (R545). -/
def State.clearedBody (s : State) (sc home : Nat) (reset : Bool) : Bytes :=
  natLE 2 sc ++ natLE 2 0 ++ natLE 4 (s.cx sc 92 4 + 1) ++ natLE 2 home ++ natLE 1 (s.scFn sc + 128 * b2n reset)

/-- A subchannel is to become IDLE by a clear: the CLEARED record is issued (R74, R123). -/
def State.clearNow (s : State) (sc : Nat) (h : HaltReq) : State :=
  let home := if s.scState sc = 7 then s.qPair h.sq else s.cx sc 4 2
  s.jIssue 0x04 (s.clearedBody sc home h.reset) (.cleared sc h)

/-! ## Faults that the device meets or is told of -/

/-- An AER error of a function (R521): 0 Unsupported Request, 1 Completer Abort, 2 Poisoned TLP, 3 Completion Timeout,
4 Uncorrectable Internal, 5 Corrected Internal, 6 ECRC. -/
def State.aer (s : State) (fn k : Nat) : State := s.modFnc fn fun c => { c with aer := c.aer ||| (1 : Byte) <<< k }

/-- What a packet reads for. -/
def FPkt.why? (k : FPkt) : Option ReadFor := match k.body with | .read _ r => some r.why | _ => none

/-- The outstanding reads for a purpose are over. -/
def State.readOver (s : State) (why : ReadFor) : State := { s with reads := s.reads.filter fun r => decide (r.why ≠ why) }

/-- Reads are given up, issued or not. -/
def State.readDrop (s : State) (p : ReadFor → Bool) : State :=
  let keep := fun k : FPkt => !(k.why?.elim false p)
  { s with reads := s.reads.filter fun r => !p r.why, readWait := s.readWait.filter keep, fab := s.fab.filter keep }

/-- A read for the prefetch of a queue. -/
def ReadFor.prefetch (q : Nat) : ReadFor → Bool
  | .entry k | .ahead k _ => k == q
  | _ => false

/-- A queue stops taking entries and forgets what it read ahead. -/
def State.dropPrefetch (s : State) (q : Nat) : State :=
  (s.readDrop (ReadFor.prefetch q)).modQueue q fun k =>
    { k with pf := [], reading := false, pollWait := false, lag := false, errWait := false, missWait := false }

/-- A queue whose record is uncorrectable stops, and its owner is told (R607). -/
def State.stopQueue (s : State) (q : Nat) : State :=
  if (s.queue q).stopped then s
  else
    let s := (s.modQueue q fun k => { k with stopped := true }).setBit (tq q 0x1C) 4
    let fn := s.qFn q
    let v := s.rf (cqi (if s.qType q = 2 then q else s.qPair q)) 0 11
    if msixSize fn ≤ v then s.setBit 0x180004 5 else s.message fn v

/-- A context found uncorrectable: its subchannel enters FENCED with cause 0 (R23, R74). An undecided transaction aborts as at
a fence. -/
def State.ctxLost (s : State) (sc : Nat) : State :=
  if s.scState sc = 7 || s.jpend.any fun r => decide (r.eff = .fenced sc) then s
  else
    let s := match s.openTx sc with
      | some x => s.abortTx x 10
      | none => s
    if (s.chain sc).phase = .none then s.enterFenced sc 0 else (s.fenceChain sc).enterFenced sc 0

/-- The transfer bound to a staging slot (R257). -/
def State.boundTo (s : State) (b k : Nat) : Option Nat :=
  (s.xfers.find? fun e => e.2.elim false fun v => v.slot = some (b, k)).map fun e => e.1

/-- What a reported fault brings besides its reaction (R23, R601, R607, R608, R521). `unit` names where it lies: the queue of
TQ_STATE_UE and TQ_PF_UE (8192 + sc for the command words of a subchannel), the subchannel of CTX_UE, the staging slot
4 × Barrow + slot of BW_UE, the function of HP_UE and HP_CE. -/
def State.faultEffect (s : State) (n unit : Nat) : State :=
  if n = 76 then (if unit < 8192 then s.stopQueue unit else s)
  else if n = 77 then (if unit < 8192 then s.dropPrefetch unit else s.modChain (unit - 8192) fun c => { c with buf := [] })
  else if n = 78 then (if unit < 16384 then s.ctxLost unit else s)
  else if n = 42 ∨ n = 43 then
    (match s.boundTo (8 * (n - 42) + unit / 4 % 8) (unit % 4) with
     | some x => s.endXfer x 4
     | none => s)
  else if n = 73 then (if unit < 32 then s.aer unit 4 else s)
  else if n = 74 then (if unit < 32 then s.aer unit 5 else s)
  else s

/-- A command ends: what codeword errors and traps it met bring, in order (R22, R23, R216). -/
def State.dueGo : Nat → State → State
  | 0, s => s
  | n + 1, s =>
    match s.due with
    | [] => s
    | d :: ds =>
      let s : State := { s with due := ds }
      State.dueGo n (match d with
        | .error src unit => (if s.safe then s else s.faultEffect src unit).report src
        | .xtrap sc => s.endChain sc { bits := 4, code := 7, info := 0 })

/-! ## Replies and entries -/

/-- The reply that a HALT or CLEAR is owed (R76, R119, R123). -/
def State.haltReply (s : State) (sc : Nat) (h : HaltReq) : State :=
  if h.reset then s
  else if h.discarded then
    let e := s.ctx.rdN (sc * 2048 + 128) 32
    s.postReply h.sq sc 0 7 h.tag (some (leAt e 8 8, leAt e 16 4, leAt e 22 2, leAt e 30 1 % 4))
  else s.postReply h.sq sc 0 0 h.tag

/-- The replies owed before a clear, or all of them. -/
def State.haltReplies (s : State) (sc : Nat) (hs : List HaltReq) : State := hs.foldl (fun s h => s.haltReply sc h) s

/-- A head is published (R39, R544). -/
def State.pubHead (s : State) (q head cnt : Nat) : State :=
  (s.setReg (tq q 0x14) (BitVec.ofNat 32 head)).set64 (tq q 0x20) cnt

/-- A CQ entry whose record is durable is written (R39, R54, R55, R57). -/
def State.writeEntry (s : State) (q : Nat) (e : Bytes) (pos cnt : Nat) (sq : Option Nat) (reply : Bool) : State :=
  let e := match sq with
    | some v => putAt (putAt e 28 (natLE 2 (s.rf (tq v 0x14) 0 16))) 31 [BitVec.ofNat 8 (setBits (leAt e 31 1) 0 1 1)]
    | none => e
  let s := if s.count64 (tq q 0x20) < cnt then
      (s.setReg (tq q 0x18) (BitVec.ofNat 32 (s.posVal q (s.nextPos q pos)))).set64 (tq q 0x20) cnt
    else s
  let s := if reply then s.setRsv q (s.rsv q - 1) else s
  s.cqWrite q pos e

/-- The chain status of a subchannel has been posted (R74, R76): IDLE, or the clear that is owed. A fenced one stays as it is. -/
def State.statusPosted (s : State) (sc : Nat) : State :=
  if s.scState sc = 7 then s
  else
    let hs := (s.chain sc).halt
    let s := s.haltReplies sc (hs.filter fun h => !h.clear)
    match hs.find? fun h => h.clear with
    | some h => s.clearNow sc h
    | none => (s.setScState sc 0).setChain sc {}

/-- An entry of queue `q` that comes before count `cnt` is still to be written. -/
def JEff.before (q cnt : Nat) : JEff → Bool
  | .posted c _ _ n _ _ _ => (c == q) && n.blt cnt
  | _ => false

/-- An entry that is owed can be written now: its function masters the bus (R511), its CQ is enabled (R67), and no earlier entry of
that CQ waits (R32). In safe state none is (R615). -/
def State.payable (s : State) : JEff → Bool
  | .posted q _ _ cnt _ _ _ =>
    !s.safe && s.masters (s.qFn q) && s.qEn q && !(s.owed.any fun e => e.before q cnt) && !(s.jpend.any fun r => r.eff.before q cnt)
  | .late q _ _ _ reply => !s.safe && s.masters (s.qFn q) && s.qEn q && decide (s.qType q = 2) && (reply || decide (0 < s.cqFree q))
  | _ => false

/-- An entry that is owed is written; one that was late takes a slot of its CQ. -/
def State.payOne (s : State) : JEff → State
  | .posted q b pos cnt sq sc reply =>
    let s := s.writeEntry q b pos cnt sq reply
    match sc with
    | some n => s.statusPosted n
    | none => s
  | .late q b sq sc reply =>
    let n := sc.getD (leAt b 20 2 % 16384)
    let dq := sq.elim false fun v => decide (s.qType v = 3)
    s.postEntry q b n (if dq then 0 else s.cx n 92 4 + b2n sc.isSome) sq sc reply
  | _ => s

/-- The entries that are owed are written while one can be. -/
def State.payOwedGo : Nat → State → State
  | 0, s => s
  | n + 1, s =>
    match s.owed.find? fun e => s.payable e with
    | some e => State.payOwedGo n ({ s with owed := s.owed.erase e }.payOne e)
    | none => s

/-- Every entry that is owed and can be written is. -/
def State.payOwed (s : State) : State := State.payOwedGo s.owed.length s

/-- An entry is owed, and written at once if it can be. -/
def State.owes (s : State) (e : JEff) : State := { s with owed := s.owed ++ [e] }.payOwed

/-! ## Transfers -/

/-- What a ring stream has asked for has come, or will not come any more. -/
def State.ringOver (s : State) (o : Option Nat) : Bool :=
  o.elim false fun k => (s.op k).elim true fun q => q.lastSeen || decide (q.fetchEnd ≤ q.rcvd)

/-- A transfer that has ended gives up its slot once its reads are in, and is forgotten unless its owner still has to take note of it
(R257, R287). -/
def State.orphaned (s : State) (x : Nat) : State :=
  match s.xfer x with
  | none => s
  | some v =>
    let kept := match v.owner with
      | .chain sc => decide ((s.chain sc).xfer = some x ∨ (s.chain sc).fwd = some x)
      | .disp t _ => decide (x ∈ (s.thread t).disp)
      | .chan c => decide ((s.chan c).xfer = some x)
      | .ended => false
    if v.code.isNone then s
    else
      let w := if s.ringOver (v.streamOp false) && v.want ≠ some .list then none else v.want
      let w2 := if s.ringOver (v.streamOp true) then none else v.want2
      let s := if w = v.want ∧ w2 = v.want2 then s else s.setXfer x (some { v with want := w, want2 := w2 })
      if kept then (if w.isNone && w2.isNone then s.unbind x else s) else s.dropXfer x

/-- The data of an operation that no transfer takes any more is discarded (R374, R375). -/
def State.inboxTidy (s : State) : State :=
  s.inbox.foldl (fun s e =>
    if ((s.op e.1).elim true fun o => o.endSent || decide (o.owner = .unowned)) && (s.opXfer e.1).isNone then s.inboxDrop e.1 else s) s

/-- The transfers go on: evictions end, those bound do what they can, twice since each may make room for another, those that have ended
give up what they hold. -/
def State.xfersGo (s : State) : State :=
  let s := s.pumpAll.pumpAll
  let s := s.xfers.foldl (fun s e => if e.2.elim false fun v => v.evicting then s.evictDone e.1 else s) s
  let s := s.xfers.foldl (fun s e => if e.2.elim false fun v => v.code.isSome then s.orphaned e.1 else s) s
  s.inboxTidy

/-! ## Work that waits -/

/-- What follows for a chain that a fence ended (R610): FENCED with cause 2, or, for an autostart chain, a clear and a new
START. -/
def State.fenced2 (s : State) (sc : Nat) : State :=
  if s.cxFlag sc 2 then
    ((s.releaseSlots fun _ h => decide (h = Holder.sc sc)).setChain sc { phase := .fixed }).clearNow sc { clear := true, reset := true, restart := true }
  else s.enterFenced sc 2

/-- A RESERVE or RELEASE flit of a chain that waits to be sent: its node's port has gone DOWN, or its entry no longer allows it; the
work ends (R357, R366, R382). -/
def State.answerLost (s : State) (sc : Nat) : State :=
  let node := (s.chain sc).node
  let mine := fun r : ResReq => decide (r.owner = NOwner.reserve sc ∨ r.owner = NOwner.release sc)
  let z : State := { s with resq := s.resq.filter fun r => !mine r }
  if !s.resq.any mine || decide (s.gate node = .wait) then s
  else match s.nodeCheck node with
    | some 17 => z.endRefused sc 17 node
    | some _ => z.endAbsent sc node
    | none => if s.gate node = .absent then z.endAbsent sc node else s

/-- The chain in a phase with the oldest AGE. -/
def State.oldestIn (s : State) (ph : Phase) : Option Nat :=
  ((s.chains.foldl (fun best e =>
    if e.2.phase ≠ ph then best
    else match best with
      | some (_, a) => if s.cx e.1 96 8 < a then some (e.1, s.cx e.1 96 8) else best
      | none => some (e.1, s.cx e.1 96 8)) (none : Option (Nat × Nat)))).map fun r => r.1

/-- Chains that wait for a TXID take the free ones, oldest AGE first. -/
def State.txidGo : Nat → State → State
  | 0, s => s
  | n + 1, s =>
    match s.freeTxid, s.oldestIn .txidWait with
    | some _, some sc => State.txidGo n (s.stageWord sc)
    | _, _ => s

/-- The queues that any register of theirs has been written for. -/
def State.liveQueues (s : State) : List Nat :=
  s.regs.filterMap fun e => if 0x800000 ≤ e.1 ∧ e.1 < 0x1000000 ∧ e.1 % 0x400 = 0 then some ((e.1 - 0x800000) / 0x400) else none

/-! ## Checkpoints (R546, R548, R549) -/

/-- A checkpoint header: 0 A, 1 B. -/
def ckAt (k : Nat) : Nat := 0x3600000 + 0x800 * k

/-- A checkpoint header is valid (R549). -/
def State.ckValid (s : State) (k : Nat) : Bool :=
  let h := s.seed.rdN (ckAt k) 64
  decide (leAt h 0 4 = 0x4C4B5043) && decide (leAt h 4 1 = 1) && decide (crc32c (h.take 60) = BitVec.ofNat 32 (leAt h 60 4))

/-- CKSEQ of a header. -/
def State.ckSeq (s : State) (k : Nat) : Nat := s.seed.le (ckAt k + 8) 8

/-- The valid header with the higher CKSEQ (R547). -/
def State.ckBest (s : State) : Option Nat :=
  match s.ckValid 0, s.ckValid 1 with
  | true, true => some (if s.ckSeq 0 < s.ckSeq 1 then 1 else 0)
  | true, false => some 0
  | false, true => some 1
  | false, false => none

/-- The transactions that have no durable DONE record: TXID and TSERIAL. -/
def State.ckTxns (s : State) : List (Nat × Nat) := s.txns.filterMap fun e => if e.2.used then some (e.1, e.2.tserial) else none

/-- The transaction list of a checkpoint slot (R548); 16 bytes for each transaction (log 22). -/
def ckList (k : Nat) : Nat := 0x3621000 + 0x4000 * k

/-- A completed checkpoint: the dirty contexts and the queue-state records go home, then the transaction list and the header that
the previous checkpoint did not use are written (R546 steps 2 to 4). -/
def State.checkpoint (s : State) (start : Nat) : State :=
  let s := (s.dirty ++ s.dirtyWait).foldl (fun s sc => s.writeHome sc) s
  let s := s.liveQueues.foldl (fun s q => s.queueHome q) { s with dirtyWait := [] }
  let n := s.ckBest.elim 1 fun k => s.ckSeq k + 1
  let k := s.ckBest.elim 0 fun k => 1 - k
  let l := s.ckTxns
  let s := s.seedPut (ckList k) (l.flatMap fun e => natLE 2 e.1 ++ natLE 2 0 ++ natLE 4 e.2 ++ natLE 8 0)
  let h := natLE 4 0x4C4B5043 ++ natLE 4 1 ++ natLE 8 n ++ natLE 8 start ++ natLE 8 s.now ++ natLE 4 (s.rn 0x68000C) ++ natLE 4 l.length ++
    natLE 4 (s.rn 0xC004C) ++ List.replicate 16 0
  let s := s.seedPut (ckAt k) (h ++ natLE 4 (crc32c h).toNat)
  ({ s with ckFrom := none }.setReg 0xC001C (BitVec.ofNat 32 (n % 2 ^ 31))).bump (cnt 0xC0080 1) |>.jReclaim start l

/-- A running checkpoint completes once every record is durable and applied. -/
def State.checkpointGo (s : State) : State :=
  match s.ckFrom with
  | some j => if s.jpend.isEmpty && s.owed.isEmpty then s.checkpoint j else s
  | none => s

/-- Work that had to wait goes on as far as it now can. -/
def State.wake (s : State) : State :=
  if !s.running then s
  else
    let s := State.readGo s.readWait.length s.fabAll
    let s := (s.chainsWhere fun _ c => decide (c.phase = .fencing)).foldl (fun s sc => s.fenced2 sc) s
    let s := (s.chainsWhere fun _ c => decide (c.phase = .portWait)).foldl
      (fun s sc => if (s.chain sc).phase = .portWait then s.dataWord sc else s) s
    let s := (s.chainsWhere fun _ c => decide (c.phase = .answer)).foldl (fun s sc => s.answerLost sc) s
    let s := State.txidGo (s.chainsWhere fun _ c => decide (c.phase = .txidWait)).length s
    let s := (s.chainsWhere fun sc c => decide (c.phase = .slotWait) && (s.wait sc).isNone).foldl
      (fun s sc => if s.scHolders.length < 1024 then State.reserveGo sc [0, 1, 2, 3] s else s) s
    let s := s.chans.foldl (fun s e => s.dscGo e.1) s
    let s := s.xfersGo
    let s := State.autoGo s.autoWait s.trimCache
    let s := s.resRun
    let s := s.checkpointGo
    let s := if s.jpend.any fun r => r.slot.isNone then State.jAssign s.jpend [] s else s
    let s := s.liveQueues.foldl (fun s q => s.readEntries q) s
    s.chans.foldl (fun s e => s.pace e.1) s.payOwed

/-- Everything that follows a command by itself. -/
def State.finish (s : State) : State := (State.dueGo (2 * s.due.length + 8) s).wake.settle

/-- The outcome of a command that is complete: its state, with everything that follows. -/
def fin (s : State) : Host.Outcome State Fault Refusal := .next s.finish

end Sys2Proof.Machine
end

