-- ==== Sys2Proof/Machine/Durable.lean ====
section
/-! DEFINITION. What becomes visible when a journal record is durable (R544, R401): queue heads, statuses, CQ entries, clears,
MODIFY fields, joins, decisions and their ends, Vault updates. -/

namespace Sys2Proof.Machine

/-! ## Clears -/

/-- The bytes that a CLEAR out of FENCED rewrites (R78): zero, so IDLE, but for SC, FN and HOME_CQ; poisoned codewords are replaced
(R24). The record of it goes on counting CHGSEQ (log 15). -/
def State.wipeCtx (s : State) (sc home : Nat) : State :=
  s.cxPut sc 0 (natLE 2 sc ++ natLE 2 0 ++ natLE 2 home ++ List.replicate 5 0 ++ natLE 1 (s.scFn sc) ++ List.replicate 500 0)

/-- A CLEARED record is durable (R74, R78, R123, R610). -/
def State.cleared (s : State) (sc : Nat) (h : HaltReq) : State :=
  let s := if s.scState sc = 7 then s.wipeCtx sc (s.qPair h.sq) else ((s.setCxFlag sc 0 false).setCxFlag sc 1 false).setScState sc 0
  let prio := (s.chain sc).prio
  let s := (s.setChain sc {}).haltReply sc h
  if h.restart && s.running then
    s.acceptStart { sc, prio := if s.cxFlag sc 2 then s.cx sc 8 1 % 16 else prio, chain := s.cx sc 16 8, space := s.cx sc 24 1, auto := true }
  else s

/-! ## MODIFY -/

/-- MODIFY's fields take effect (R76): those that MOD_MASK selects. -/
def State.modified (s : State) (sc : Nat) (e : Bytes) (q : Nat) : State :=
  let m := leAt e 24 2
  let s := if bitOn m 0 then s.cxSet sc 4 2 (leAt e 26 2 % 8192) else s
  let s := if bitOn m 1 then s.cxSet sc 8 1 (leAt e 28 1 % 16) else s
  let s := if bitOn m 2 then s.cxSet sc 9 1 (leAt e 29 1) else s
  let s := if bitOn m 3 then s.setCxFlag sc 3 (bitOn (leAt e 30 1) 0) else s
  let s := if bitOn m 4 then s.cxSet sc 112 8 (leAt e 32 8) else s
  (s.cxSet sc 92 4 (s.cx sc 92 4 + 1)).postReply q sc 0 0 (leAt e 4 4)

/-! ## Transactions -/

/-- END_GROUP, or a HALT or CLEAR that waits for it, treats the commit as ended (R403 step 7, R406, R415). -/
def State.endCommit (s : State) (x : Nat) : State :=
  let t := s.txn x
  if t.posted || !t.decided || !t.settled then s
  else
    let un := t.members.find? fun m => m.unconf && !m.answered
    let bad := t.members.find? fun m => m.answered && decide (m.result ≠ 0)
    let who := if un.isSome then un else bad
    let sc := t.sc
    let mine := decide (s.openTx sc = some x)
    let s := s.outcome x (who.elim 0 fun m => m.node) (who.elim 0 fun m => if m.answered then m.result.toNat else 0)
    if !mine then s
    else
      let s := s.setCxFlag sc 4 false
      let c := s.chain sc
      if c.phase ≠ .deciding then s
      else if t.recovery then s.fixStatus sc { de := some false }
      else match un, bad with
        | some m, _ => (s.countAbsent m.node).endChain sc { bits := 4, de := some false, code := 2, residual := some 0 }
        | none, some m => s.endChain sc { bits := 4, de := some true, code := 1, info := m.result.toNat, residual := some 0 }
        | none, none =>
          if c.halting || c.withdrawn || c.fenced then s.fixStatus sc { de := some true, residual := some 0 } else s.wordEnd sc

/-- A DONE record is durable (R396, R403, R409, R427): the reservations are released, the outcome given, the TXID freed. -/
def State.txDone (s : State) (x : Nat) : State :=
  let s := s.releaseSlots fun _ h => decide (h = Holder.tx x)
  let s := s.endCommit x
  (s.setTxn x {}).grOpen

/-- JOIN is durable: the first flits may go to the nodes (R400). -/
def State.joined (s : State) (x : Nat) (nodes : List Nat) : State :=
  let s := s.modTxn x fun t => { t with members := t.members.map fun m => if m.node ∈ nodes then { m with joined := true } else m }
  let sc := (s.txn x).sc
  let c := s.chain sc
  if c.phase = .joining && decide (c.node ∈ nodes) && decide (s.openTx sc = some x) then s.openWord sc else s

/-! ## The effects -/

/-- The queue part of a record counts as applied (R542). -/
def State.queueSeq (s : State) (q jseq : Nat) : State := s.modQueue q fun k => { k with jseq }

/-- What becomes visible when a record is durable (R544). In safe state only what was issued completes (R615). -/
def State.applyEff (s : State) (jseq : Nat) (e : JEff) : State :=
  match e with
  | .start _ (some q) head => (s.queueSeq q jseq).pubHead q head (s.count64 (tq q 0x20) + 1)
  | .start _ none _ => s
  | .qpub q head => (s.queueSeq q jseq).pubHead q head (s.count64 (tq q 0x20) + 1)
  | .fixed sc =>
    let s := if s.scState sc = 6 then s.cxSet sc 92 4 (s.cx sc 92 4 + 1) else s.setScState sc 4
    if s.safe then s
    else match (s.chain sc).halt.find? fun h => h.reset with
      | some h => s.clearNow sc h
      | none => s.postStatus sc
  | .posted q .. => (s.queueSeq q jseq).owes e
  | .late .. => s.owes e
  | .nothing => s
  | .cleared sc h => s.cleared sc h
  | .fenced sc => (s.cxRaw sc 2 [7]).cxRaw sc 92 (natLE 4 (s.cx sc 92 4 + 1))
  | .modified sc b q => s.modified sc b q
  | .vcommit => (s.wf 0xC0044 0 2 3).bump (cnt 0xC0080 2) |>.setReg 0xC004C (s.reg 0xC004C + 1)
  | .vdone => { s.setReg 0xC0044 0 with vstage := [] }
  | .join x nodes => if s.safe then s else s.joined x nodes
  | .decide x =>
    let s := (s.modTxn x fun t => { t with decided := true }).grOpen
    if s.safe then s else s.tellMembers x
  | .done x => s.txDone x

/-- The records whose durability is now confirmed take effect, in JSEQ order (R539, R633). -/
def State.drainDurable : Nat → State → State
  | 0, s => s
  | n + 1, s =>
    match s.jpend with
    | [] => s
    | r :: rs =>
      if r.local_ && r.acked then State.drainDurable n ({ s with jpend := rs }.applyEff r.jseq r.eff) else s

/-- The Seedbank confirms the next journal record (R539): its slot holds it. -/
def State.confirmNext (s : State) : State :=
  match s.jpend.find? fun r => !r.local_ && r.slot.isSome with
  | none => s
  | some r =>
    { s with
      seed := s.seed.wrN (0xA00000 + 64 * r.slot.getD 0) r.raw,
      jpend := s.jpend.map fun k => if k.slot = r.slot && decide (k.jseq = r.jseq) && !k.local_ then { k with local_ := true } else k
      : State }.cwClear .seedbank (0x28000 + r.slot.getD 0)

/-- JOURNAL_RECORD_DURABLE (R401, R539): after a power-loss flush has stopped the device, the record is durable and nothing
more (R534 step 3). -/
def execJournalRecordDurable (s : State) : Host.Outcome State Fault Refusal :=
  let s := s.confirmNext
  if s.life = .live then fin (State.drainDurable s.jpend.length s)
  else .next { s with jpend := s.jpend.dropWhile fun r => r.local_ && r.acked }

end Sys2Proof.Machine
end

