-- ==== Sys2Proof/Machine/Access.lean ====
section
/-! DEFINITION. Register and window accesses: who may reach what (R499-R503, R524, R662), when a port serves them (R512-R514,
R713), what a write changes (R649-R652, R657), and what a read gives. -/

namespace Sys2Proof.Machine

/-! ## Who -/

/-- The function a requester acts as (R503, R524). -/
def reqFn : Req → Nat | .fn f => f | _ => 0

/-- A requester admitted to guarded fields: the PF, the management port, Cloche firmware (R662). -/
def reqAdm (who : Req) : Bool := decide (reqFn who = 0)

/-- The owner of a DMA channel (BW_CH_OWN). -/
def State.chOwner (s : State) (c : Nat) : Nat := s.rf (bwCh c 4) 0 5

/-- Whether a requester reaches a BAR0 location (R501, R503, R524). -/
def State.reaches (s : State) (who : Req) (off : Nat) : Bool :=
  match who with
  | .cloche => true
  | .mgmt => decide (off < 0x1000000) || decide (0x3000000 ≤ off ∧ off < 0x4000000)
  | .fn 0 => true
  | .fn f =>
    if 0x800000 ≤ off ∧ off < 0x1000000 then decide (s.qFn ((off - 0x800000) / 0x400) = f)
    else if 0x1A0000 ≤ off ∧ off < 0x1B0000 then decide (s.qFn ((off - 0x1A0000) / 8) = f)
    else if 0x3000000 ≤ off ∧ off < 0x4000000 then decide (s.scFn ((off - 0x3000000) / 0x400) = f)
    else if 0x300000 ≤ off ∧ off < 0x304000 then decide (s.chOwner ((off - 0x300000) / 0x40) = f)
    else off = 0x100000 || off = 0x100018 || off = 0x10001C

/-- How the host port serves a memory request of a function. -/
inductive Serve where
  | gone      -- no port, or a port that completes nothing (R512, R713)
  | ur        -- Unsupported Request (R514, R521)
  | limited   -- before step 6 (R512)
  | full
  deriving DecidableEq, Repr

/-- The step a start has reached (CL_START.STEP). -/
def State.startStep (s : State) : Nat := s.rf 0x80040 8 4

/-- A function exists: the PF, or a VF while VF Enable is set. -/
def State.fnExists (s : State) (fn : Nat) : Bool := decide (fn = 0) || (decide (fn < 32) && (s.fnc 0).vfEn)

/-- The port is there: R713 leaves none from step 2 of a flush and while PORST_N holds the device; nor is there one while the host port
is in loopback (R669, R674). -/
def State.portThere (s : State) : Bool := decide (s.life = .live ∨ s.life = .waiting) && decide (s.lbDepth 0 = 0)

/-- How a memory request of a function is served now: in the limited form until step 6 of a start (R512), unless the start was
stopped in safe state, where R616 says what is served (log 82). -/
def State.memServe (s : State) (fn : Nat) : Serve :=
  if !s.hostReady || !s.portThere || !s.fnExists fn then .gone
  else if (s.fnc fn).resetting || !(s.fnc fn).memEn then .ur
  else if s.life = .waiting ∨ (s.startStep < 6 ∧ s.safe = false) then .limited
  else .full

/-- Whether a register write of a requester acts now. -/
def State.serves_ (s : State) (who : Req) : Bool :=
  match who with
  | .fn f => decide (s.memServe f = .full)
  | .mgmt => decide (s.life = .live ∨ s.life = .waiting)
  | .cloche => decide (s.life = .live)

/-- A request to a function that is not served: an Unsupported Request is reported (R521). -/
def State.unserved (s : State) (who : Req) : State :=
  match who with
  | .fn f => if s.memServe f = .ur && !(s.fnc f).resetting then s.aer f 0 else s
  | _ => s

/-- A request that cannot be trusted is discarded (R521): one that arrives poisoned, and, with ECRC checking enabled, one whose
ECRC is wrong. None: the request is taken. -/
def State.discards (s : State) (who : Req) (form : ReqForm) : Option State :=
  match who, form with
  | .fn f, .poisoned => some (((s.setBit 0x100008 1).bump (cnt 0x100040 2)).aer f 2)
  | .fn f, .badEcrc => if (s.fnc f).ecrcChk then some (((s.setBit 0x100008 4).bump (cnt 0x100040 5)).aer f 6) else none
  | _, _ => none

/-- A request is one aligned DW with every byte enable set. -/
def reqFull (f : ReqForm) : Bool := decide (f = .dword ∨ f = .badEcrc)

/-- An Unsupported Request is sent in answer. -/
def State.replyUr (s : State) : State := { s.bump (cnt 0x100040 1) with reply := .unsupported }

/-- A write to a register by a requester: `k` is its effect where it is served and reaches the register. -/
def regGo (s : State) (who : Req) (off : Nat) (k : State → State) : Host.Outcome State Fault Refusal :=
  if !s.serves_ who then .next (s.unserved who) else if s.reaches who off then fin (k s) else .next s

/-- The same for a register whose fields are guarded (R650, R662). -/
def regGuarded (s : State) (who : Req) (k : State → State) : Host.Outcome State Fault Refusal :=
  if !s.serves_ who then .next (s.unserved who) else if reqAdm who then fin (k s) else .next s

/-! ## Plain writes -/

/-- The GLB_UPDATE group of an offset (R661). -/
def updGroup (off : Nat) : Option Nat :=
  if 0x400000 ≤ off ∧ off < 0x404000 then some ((off - 0x400000) / 0x1000)
  else if 0x480000 ≤ off ∧ off < 0x481000 then some 4
  else if off = 0x481000 then some 5
  else if off = 0x610000 then some 6
  else if 0x200000 ≤ off ∧ off < 0x280000 then some 7
  else if off = 0x280000 then some 8
  else if off = 0x680000 then some 9
  else if off = 0x180000 then some 10
  else if off = 0xC0018 then some 11
  else if 0x101000 ≤ off ∧ off < 0x101080 then some 12
  else if 0x40000 ≤ off ∧ off < 0x80000 then some 13
  else if 0x700000 ≤ off ∧ off < 0x800000 then some 14
  else none

/-- The bits of a register that a requester's write of `v` replaces (R650, R652): all but read-only, clear-by-sequence and
masked-off bits. -/
def RegRow.writable (r : RegRow) (adm : Bool) (v : Word) : Word :=
  let ok := fun f : RegField => adm || !f.g
  (r.mask fun f => ok f && decide (f.acc = .rw ∨ f.acc = .rwb ∨ f.acc = .rwu ∨ f.acc = .ros)) |||
  ((r.mask fun f => ok f && decide (f.acc = .wm)) &&& (v >>> 16))

/-- A write of a register as its access types say (R652); RWU fields wait for their strobe (R657), RWB fields of a disabled
queue apply at once (R658). -/
def State.softWrite (s : State) (who : Req) (off : Nat) (v : Word) : State :=
  match regAt off with
  | none => s
  | some r =>
    let m := r.writable (reqAdm who) v
    let s := s.setReg off ((s.reg off &&& ~~~m) ||| (v &&& m))
    let u := r.mask fun f => (reqAdm who || !f.g) && decide (f.acc = .rwu)
    let s := if u = 0 then s else match updGroup off with
      | some g => s.wb 0x14 g true
      | none => s
    let s := if (r.fields.any fun f => decide (f.acc = .rwb)) && !s.rb (off / 0x400 * 0x400) 0 then s.setApp off (s.reg off) else s
    if 0x800000 ≤ off ∧ off < 0x1000000 then s.queueHome ((off - 0x800000) / 0x400) else s

/-- RWU fields of the named groups are applied (R659, R660). -/
def State.applyGroups (s : State) (groups : Nat) : State :=
  let s := (s.regs.keys ++ s.applied.keys).foldl (fun s k =>
    match updGroup k with
    | some g =>
      if bitOn groups g then
        match regAt k with
        | some r =>
          let m := r.mask fun f => decide (f.acc = .rwu)
          s.setApp k ((s.appReg k &&& ~~~m) ||| (s.reg k &&& m))
        | none => s
      else s
    | none => s) s
  s.setReg 0x14 (s.reg 0x14 &&& ~~~(BitVec.ofNat 32 (groups % 65536)))

/-! ## Reads -/

/-- A word of an MSI-X table or pending bit array. -/
def State.msixWord (s : State) (fn off : Nat) : Word :=
  if off < 0x110000 then
    let v := (off - 0x108000) / 16
    if msixSize fn ≤ v then 0
    else
      let e := s.vec (fn * 2048 + v)
      match off / 4 % 4 with
      | 0 => e.addr.setWidth 32
      | 1 => (e.addr >>> 32).setWidth 32
      | 2 => e.data
      | _ => BitVec.ofNat 32 (b2n e.mask)
  else
    let k := (off - 0x110000) / 4
    if msixSize fn ≤ 32 * k then 0
    else BitVec.ofNat 32 ((List.range 32).foldl (fun a i => a + if s.pbit (fn * 2048 + 32 * k + i) then 2 ^ i else 0) 0)

/-- FU_STAT of a port Furrow: what its unit has waiting (log 21), its open packets, its mark, a pending FLUSH. -/
def State.fuStat (s : State) (f : Nat) : Nat :=
  let k := s.furrow f
  let used := (k.pkts.foldl (fun a p => a + p.words) 0) + (k.opens.foldl (fun a p => a + (16 + p.len + 63) / 64) 0) +
    (if f % 2 = 1 then s.outUsed (f / 2) else s.inUsed (f / 2))
  used % 8192 + 65536 * min k.opens.length 12 + 2 ^ 20 * b2n (k.mark.isSome || (decide (f = 1) && !s.hostOut.isEmpty)) + 2 ^ 21 * b2n k.flush

/-- The port shows a function no context yet (R512). -/
def State.blind (s : State) (who : Req) : Bool := match who with | .fn f => decide (s.memServe f = .limited) | _ => false

/-- What a register read gives a requester (R500-R501, R649, R652, R662). -/
def State.readReg (s : State) (who : Req) (off : Nat) : Word :=
  if 0x108000 ≤ off ∧ off < 0x110100 then s.msixWord (reqFn who) off
  else if !s.reaches who off then 0
  else if 0x3000000 ≤ off ∧ s.blind who = true then 0
  else if 0x3000000 ≤ off ∧ off < 0x4000000 ∧ off % 0x400 < 0x200 then
    BitVec.ofNat 32 (s.cx ((off - 0x3000000) / 0x400) (off % 0x400) 4)
  else if off = 0x100000 then BitVec.ofNat 32 (reqFn who)
  else if off = 0x100018 then BitVec.ofNat 32 s.now
  else if off = 0x10001C then BitVec.ofNat 32 (s.now / 2 ^ 32)
  else if 0x410100 ≤ off ∧ off < 0x410200 then (if reqAdm who then BitVec.ofNat 32 (s.nt (s.rf 0x410000 0 12) (off - 0x410100) 4) else 0)
  else if 0x280100 ≤ off ∧ off < 0x280400 ∧ off % 0x20 = 4 then BitVec.ofNat 32 (s.fuStat ((off - 0x280100) / 0x20))
  else match regAt off with
    | none => 0
    | some r => if reqAdm who then s.reg off else s.reg off &&& r.mask fun f => !f.g

end Sys2Proof.Machine
end

