-- ==== Sys2Proof/Machine/QueueCmds.lean ====
section
/-! DEFINITION. The commands of queues: doorbells (R41-R49), entry reads (R45-R52, R708), enable and disable (R67), held
statuses (R61). -/

namespace Sys2Proof.Machine

/-! ## Doorbells -/

/-- A doorbell value that R43 calls a construction error, for a queue in doorbell mode or a CQ. -/
def State.badBell (s : State) (q v : Nat) : Bool :=
  let n := s.qSize q
  let p := s.valPos q v
  decide (n ≤ v % 65536) ||
  (if s.qType q = 2 then
    let h := s.valPos q (s.rn (tq q 0x14))
    decide (s.qCount q h (s.valPos q (s.rn (tq q 0x18))) < s.qCount q h p)
  else
    let h := (s.queue q).head
    decide (n < s.qCount q h p) || decide (s.qCount q h p < s.qCount q h (s.valPos q (s.rn (tq q 0x18)))))

/-- A doorbell acts (R42, R49). An unchecked construction error has an unpredictable result (R43): a free position. -/
def State.bell (s : State) (q v : Nat) : State :=
  let v := v % 2 ^ 17
  let cq := decide (s.qType q = 2)
  let poll := !cq && s.polls q
  let bad := !poll && s.badBell q v
  let x := if bad then s.posVal q (s.free.toNat % (2 * s.qSize q)) else v
  let s := if bad then s.tick else s
  if cq then s.setReg (tq q 0x14) (BitVec.ofNat 32 x)
  else
    (s.setReg (tq q 0x18) (BitVec.ofNat 32 x)).modQueue q fun k =>
      { k with errWait := false, pollWait := if poll then false else k.pollWait }

/-- A write of `len` bytes at an offset of a doorbell page by a function (R41, R502, R616). -/
def State.doorbell (s : State) (fn q off len v : Nat) : State :=
  if s.safe || s.standby || decide (off ≠ 0 ∨ len ≠ 4 ∨ 8192 ≤ q) || !s.qEn q || decide (s.qFn q ≠ fn) then s else s.bell q v

/-- DOORBELL (R41, R42, R44, R502, R616). -/
def execDoorbell (fn q off len : Nat) (v : Word) (s : State) : Host.Outcome State Fault Refusal :=
  if s.memServe fn ≠ .full then .next (s.unserved (.fn fn)) else fin (s.doorbell fn q off len v.toNat)

/-! ## Entry reads -/

/-- Whether a read for a purpose is outstanding. -/
def State.readOut (s : State) (why : ReadFor) : Bool := s.reads.any fun r => decide (r.why = why)

/-- What a failed read reports (R521). -/
def State.readError (s : State) (fn : Nat) (e : RdErr) : State :=
  match e with
  | .ok | .ue => s
  | .ur => ((s.setBit 0x100008 3).bump (cnt 0x100040 4)).aer fn 0
  | .ca => ((s.setBit 0x100008 3).bump (cnt 0x100040 4)).aer fn 1
  | .poison => ((s.setBit 0x100008 3).bump (cnt 0x100040 4)).aer fn 2
  | .timeout => ((s.setBit 0x100008 2).bump (cnt 0x100040 3)).aer fn 3

/-- A poll-mode miss (R48): the interval code rises, and a wait begins. -/
def State.pollMiss (s : State) (q : Nat) : State :=
  let emin := min (s.af (tq q 0x10) 0 4) 12
  let hi := max emin (min (s.af (tq q 0x10) 4 4) 12)
  let s := if s.rb (tq q 0x10) 12 then s else s.wf (tq q 0x10) 8 4 (min (s.rf (tq q 0x10) 8 4 + 1) hi)
  s.modQueue q fun k => { k with pollWait := true }

/-- POLL_READ (R48): the interval has expired. -/
def execPollRead (q : Nat) (s : State) : Host.Outcome State Fault Refusal :=
  if s.running && s.qLive q && (s.queue q).pollWait then fin (s.modQueue q fun k => { k with pollWait := false }) else .next s

/-- The first two words of a chain in buffer memory, as far as the share goes, or the CHECK_CODE of what prevents it (R19, R22, R23). -/
def State.chipWords (s : State) (fn a : Nat) : State × Bytes × Option Nat :=
  let n := s.shareRun fn a 64 / 32 * 32
  if n = 0 then (s, [], none)
  else
    let w := s.cwWorst .buffer (a / 64) ((a + n - 1) / 64)
    (s.metErr .buffer (a / 64) w, s.buf.rdN a n, if w = 2 then some 4 else none)

/-- An entry is kept at a position. A START that is not about to be taken brings its first two command words (R47); `taken`: the entry was
read to be taken at once. Which of the two an entry is, is judged as it arrives. DEDUCED (log 83). -/
def State.keepEntry (s : State) (q pos : Nat) (e : Bytes) (taken : Bool) : State :=
  let keep := fun (s : State) (p : Pre) => s.modQueue q fun k => { k with pf := k.pf ++ [p] }
  let fn := s.qFn q
  if s.qType q ≠ 1 || leAt e 0 1 ≠ 1 || s.polls q || s.pfDepth q = 0 || taken || decide (s.scFn (leAt e 2 2 % 16384) ≠ fn) then
    keep s { entry := e }
  else if leAt e 16 1 % 2 = 0 then
    (if s.masters fn then keep (s.hostRead fn (leAt e 8 8) 64 (.ahead q pos)) { entry := e, await := true } else keep s { entry := e })
  else
    let r := s.chipWords fn (leAt e 8 8)
    keep r.1 { entry := e, words := r.2.1, err := r.2.2 }

/-- An entry that was read arrives (R45, R46, R48). -/
def State.gotEntry (s : State) (q : Nat) (e : Bytes) : State :=
  let k := s.queue q
  let pos := s.readPos q
  let taken := k.pf.isEmpty && s.takeable q
  let s := (s.readOver (.entry q)).setQueue q { k with reading := false }
  let inj := s.injBurst 2
  let s := if inj.isSome then s.injDone else s
  -- R608: an uncorrectable slot is discarded and read again
  if inj.elim false fun n => decide (32 < n) then s.report 77
  else if bitOn (leAt e 63 1) 7 = s.phase q pos then s.keepEntry q pos (padTo 64 e) taken
  else if s.polls q then s.pollMiss q
  else (s.setBit (tq q 0x1C) 3).modQueue q fun k => { k with lag := true }

/-- An entry read failed (R708). -/
def State.entryFailed (s : State) (q : Nat) (err : RdErr) : State :=
  let s := (s.readOver (.entry q)).readError (s.qFn q) err
  let s := (s.setBit (tq q 0x1C) 6).modQueue q fun k => { k with reading := false }
  if s.polls q then s.pollMiss q else s.modQueue q fun k => { k with errWait := true }

/-- ENTRY_READ_DONE (R52). -/
def execEntryReadDone (q : Nat) (e : Bytes) (s : State) : Host.Outcome State Fault Refusal :=
  if !s.running || !s.readOut (.entry q) || !(s.queue q).reading then .next s
  else
    let i := s.hostIn .ok
    if i.2 = .ok then fin (i.1.gotEntry q e) else fin (i.1.entryFailed q i.2)

/-- ENTRY_READ_ERROR (R708). -/
def execEntryReadError (q : Nat) (err : RdErr) (s : State) : Host.Outcome State Fault Refusal :=
  if !s.running || !s.readOut (.entry q) || !(s.queue q).reading || decide (err = .ok) then .next s else fin ((s.hostIn err).1.entryFailed q err)

/-- ENTRY_REREAD_TIMER (R708). -/
def execEntryRereadTimer (q : Nat) (s : State) : Host.Outcome State Fault Refusal :=
  if s.running && s.qLive q && (s.queue q).errWait then fin (s.modQueue q fun k => { k with errWait := false }) else .next s

/-- DB_LAG_REREAD (R46). -/
def execDbLagReread (q : Nat) (s : State) : Host.Outcome State Fault Refusal :=
  if s.running && s.qLive q && (s.queue q).lag then fin (s.modQueue q fun k => { k with lag := false }) else .next s

/-! ## Enable and disable (R67) -/

/-- Twice the prefetch depths of the enabled doorbell-mode SQs and DQs (R47). -/
def State.prefetchSum (s : State) : Nat :=
  s.liveQueues.foldl (fun a k => if s.qEn k && decide (s.qType k = 1 ∨ s.qType k = 3) && !s.polls k then a + 2 * s.pfDepth k else a) 0

/-- Whether an enable of a queue, its fields written, is refused (R30, R47, R67 and TQ_CFG). -/
def State.enableRefused (s : State) (q : Nat) : Bool :=
  let n := s.rf (tq q 0) 8 5
  let t := s.qType q
  let p := s.qPair q
  decide (t = 0) || decide (n < 4 ∨ 16 < n) ||
  (decide (t ≠ 2) &&
    (!s.qEn p || decide (s.qType p ≠ 2) || decide (s.qFn p ≠ s.qFn q) ||
      (!s.polls q && decide (49152 < s.prefetchSum + 2 * s.pfDepth q))))

/-- An enable (R37, R48, R67): head and tail 0, nothing counted; statuses held for a CQ stay held (R83), and replies still owed in it keep
their slots. -/
def State.enableQueue (s : State) (q : Nat) (v : Word) (who : Req) : State :=
  if s.qEn q then s
  else
    let s := (s.softWrite who (tq q 0) (v &&& ~~~1#32))
    if s.enableRefused q then s.setBit (tq q 0x1C) 0
    else
      let k := s.queue q
      let s := (s.setReg (tq q 0x14) 0).setReg (tq q 0x18) 0 |>.set64 (tq q 0x20) 0
      let s := s.wf (tq q 0x10) 8 4 (min (s.af (tq q 0x10) 0 4) 12)
      ((s.setQueue q { held := k.held, jseq := k.jseq }).wb (tq q 0) 0 true).queueHome q

/-- QUEUE_ENABLE (R67). -/
def execQueueEnable (who : Req) (q : Nat) (v : Word) (s : State) : Host.Outcome State Fault Refusal :=
  if 8192 ≤ q || s.standby then .next s else regGo s who (tq q 0) fun s => s.enableQueue q v who

/-- A queue is off: U is held at 0 (R490), and nothing issued for it changes it any more. -/
def State.cqOff (s : State) (q : Nat) : State :=
  ((((s.wf (cqi q + 4) 16 8 0).modQueue q fun k => { k with timer := false }).wb (tq q 0) 0 false).forgetQueue q).queueHome q

/-- A disable (R67). A stopped queue is disabled at once, its record discarded; statuses held for it will post in ascending
SC order (R607). -/
def State.disableQueue (s : State) (q : Nat) (v : Word) (who : Req) : State :=
  if !s.qEn q then s.softWrite who (tq q 0) (v &&& ~~~1#32)
  else if (s.queue q).stopped then
    ((s.dropPrefetch q).modQueue q fun k =>
      { held := k.held.foldr (List.orderedInsert (· ≤ ·)) [], jseq := k.jseq }).cqOff q
  else if s.qType q = 2 then
    if (s.liveQueues.any fun k => s.qEn k && decide (s.qType k = 1 ∨ s.qType k = 3) && decide (s.qPair k = q)) ||
      !(s.queue q).held.isEmpty then s.setBit (tq q 0x1C) 1
    else s.cqOff q
  else (s.dropPrefetch q).modQueue q fun k => { k with disabling := true }

/-- QUEUE_DISABLE (R67). -/
def execQueueDisable (who : Req) (q : Nat) (v : Word) (s : State) : Host.Outcome State Fault Refusal :=
  if 8192 ≤ q || s.standby then .next s else regGo s who (tq q 0) fun s => s.disableQueue q v who

/-- A write of TQ_CFG. -/
def State.tqCfgWrite (s : State) (q : Nat) (v : Word) (who : Req) : State :=
  if v.getLsbD 0 then s.enableQueue q v who else s.disableQueue q v who

/-- A head of a queue is issued and not yet published: a request taken has not been accepted. -/
def JEff.heads (q : Nat) : JEff → Bool
  | .start _ (some p) _ | .qpub p _ => p == q
  | _ => false

/-- QUEUE_DISABLE_DONE (R67, R658): every request taken has been accepted by its subchannel. -/
def execQueueDisableDone (q : Nat) (s : State) : Host.Outcome State Fault Refusal :=
  if (s.queue q).disabling && !(s.jpend.any fun r => r.eff.heads q) then
    fin ((((s.modQueue q fun k => { k with disabling := false }).wb (tq q 0) 0 false).setApp (tq q 0x10) (s.reg (tq q 0x10))).queueHome q)
  else .next s

/-! ## Held statuses -/

/-- HELD_STATUS_POST (R61). -/
def execHeldStatusPost (q : Nat) (s : State) : Host.Outcome State Fault Refusal :=
  match (s.queue q).held with
  | [] => .next s
  | sc :: _ => if s.running && decide (0 < s.cqFree q) then fin ((s.unhold sc q).postHeld sc q) else .next s

end Sys2Proof.Machine
end

