-- ==== Sys2Proof/Machine/RequestCmds.lean ====
section
/-! DEFINITION. The requests of SQ entries and what each does in each state of a subchannel (R57, R58, R76-R83), the context
cache's commands (R70-R73), binding (R141) and placement epochs (R85, R209). -/

namespace Sys2Proof.Machine

/-! ## Taking -/

/-- A request is taken; its reply will occupy the slot it reserves (R57). -/
def State.takeReply (s : State) (q : Nat) : State :=
  let r := s.takeHead q
  (r.1.publish q r.2).reserveReply q

/-- A request is taken that posts nothing (R57). -/
def State.takeSilent (s : State) (q : Nat) : State :=
  let r := s.takeHead q
  r.1.publish q r.2

/-- A request is taken and rejected (REJ, R58). -/
def State.reject (s : State) (q sc reason : Nat) (e : Bytes) : State :=
  (s.takeReply q).postReply q sc 512 reason (leAt e 4 4)

/-- A request is taken and answered. -/
def State.answer (s : State) (q sc reason : Nat) (e : Bytes) : State :=
  (s.takeReply q).postReply q sc 0 reason (leAt e 4 4)

/-- The subchannel an entry names. -/
def reqSc (e : Bytes) : Nat := leAt e 2 2 % 16384

/-- The opcode of an entry. -/
def reqOp (e : Bytes) : Nat := leAt e 0 1

/-! ## Halting -/

/-- A HALT or CLEAR is noted in the chain it stops: its reply is owed. -/
def State.oweHalt (s : State) (sc : Nat) (h : HaltReq) : State :=
  s.modChain sc fun c => { c with halt := c.halt ++ [h], halting := true }

/-- The status of a START that was stopped before its chain began (R76, R126). -/
def State.notStarted (s : State) (sc : Nat) : State :=
  s.fixStatus sc { ce := false, de := some false, residual := some 0, reason := 8 }

/-- A CLEAR of a subchannel that runs or waits (R76, R123); with `reset`, a clear under R514. -/
def State.clearSc (s : State) (sc : Nat) (h : HaltReq) : State :=
  let st := s.scState sc
  let drop := fun s : State => (s.setCxFlag sc 0 false).releaseSlots fun _ k => decide (k = Holder.sc sc)
  if st = 1 then ((drop s).setScState sc 6 |>.oweHalt sc h).notStarted sc
  else if st = 4 then
    let s := drop s
    if s.cxFlag sc 1 then
      ((s.unhold sc (s.chainCq sc)).setScState sc 6).clearNow sc { h with discarded := true }
    else (s.setScState sc 6).oweHalt sc h
  else (((s.setScState sc 6).oweHalt sc h).notice sc).haltChain sc true |> drop

/-! ## The requests (R76) -/

/-- The words of a START that is not accepted are not wanted any more (R47). -/
def State.dropAhead (s : State) (q : Nat) : State :=
  let pos := (s.queue q).head
  s.readDrop fun w => decide (w = .ahead q pos)

/-- START: the words read with its entry go to the chain (R47). -/
def State.reqStart (s : State) (q sc : Nat) (e : Bytes) : State :=
  match s.scState sc with
  | 0 =>
    let k := s.queue q
    let r := s.takeHead q
    r.1.acceptStart { sc, prio := leAt e 1 1 % 16, tag := leAt e 4 4, chain := leAt e 8 8, space := leAt e 16 1 % 4, sq := q, head := r.2,
                      pos := k.head } k.pf.head?
  | 7 => (s.dropAhead q).reject q sc 4 e
  | _ => (s.dropAhead q).reject q sc 1 e

/-- HALT. -/
def State.reqHalt (s : State) (q sc : Nat) (e : Bytes) : State :=
  let h : HaltReq := { sq := q, tag := leAt e 4 4 }
  match s.scState sc with
  | 0 | 4 => s.answer q sc 6 e
  | 1 => (((s.takeReply q).setScState sc 5).oweHalt sc h).notStarted sc
  | 2 | 3 => (((s.answer q sc 0 e).setScState sc 5).notice sc).haltChain sc false
  | 7 => s.reject q sc 4 e
  | _ => s.reject q sc 1 e

/-- Whether the cause of a FENCED state is gone (R611): a group is left, or the context itself was uncorrectable and is
rewritten (R78). -/
def State.causeGone (s : State) (sc : Nat) : Bool :=
  !(s.candGroups sc).isEmpty || s.errs.any fun e => decide (e.region = .context ∧ e.idx / 8 = sc)

/-- CLEAR. -/
def State.reqClear (s : State) (q sc : Nat) (e : Bytes) : State :=
  let h : HaltReq := { clear := true, sq := q, tag := leAt e 4 4 }
  match s.scState sc with
  | 0 => (s.setCxFlag sc 0 false).answer q sc 0 e
  | 6 => s.reject q sc 1 e
  | 7 => if s.causeGone sc then (s.takeReply q).clearNow sc h else s.reject q sc 5 e
  | _ => (s.takeReply q).clearSc sc h

/-- RESUME. -/
def State.reqResume (s : State) (q sc : Nat) (e : Bytes) : State :=
  match s.scState sc with
  | 0 | 4 => s.reject q sc 3 e
  | 1 | 2 => ((s.takeSilent q).setCxFlag sc 0 true).notice sc
  | 3 => ((s.takeSilent q).setScState sc 2).modChain sc fun c => { c with phase := .unbound, resumed := true }
  | 7 => s.reject q sc 4 e
  | _ => s.reject q sc 1 e

/-- MODIFY (R76, R544): its fields take effect when its record is durable. -/
def State.reqModify (s : State) (q sc : Nat) (e : Bytes) : State :=
  match s.scState sc with
  | 0 | 3 =>
    let s := s.takeReply q
    s.jIssue 0x06 (natLE 2 sc ++ natLE 2 0 ++ natLE 4 (s.cx sc 92 4 + 1) ++ (e.drop 24).take 16) (.modified sc e q)
  | 7 => s.reject q sc 4 e
  | _ => s.reject q sc 1 e

/-- RELEASE (R427): the slots of the mask that the subchannel holds at the node; 0 names every one. -/
def State.reqRelease (s : State) (q sc : Nat) (e : Bytes) : State :=
  match s.scState sc with
  | 0 =>
    let v := leAt e 20 2
    let m := if v / 4096 % 16 = 0 then 15 else v / 4096 % 16
    (s.releaseSlots fun k h => decide (h = Holder.sc sc) && decide (k / 4 = v % 4096) && bitOn m (k % 4)).answer q sc 0 e
  | 7 => s.reject q sc 4 e
  | _ => s.reject q sc 1 e

/-- Whether ownership refuses a request (R81). -/
def State.notOwned (s : State) (q : Nat) (e : Bytes) : Bool :=
  decide (s.scFn (reqSc e) ≠ s.qFn q) ||
  (decide (reqOp e = 6) && bitOn (leAt e 24 2) 0 && decide (s.qFn (leAt e 26 2 % 8192) ≠ s.qFn q))

/-- What a read of a whole cached context meets (R22, R23): 0 nothing, 1 corrected data, 2 uncorrectable data. A subchannel that is
FENCED is read no more. -/
def State.ctxErr (s : State) (sc : Nat) : Nat := if s.scState sc = 7 then 0 else s.cwWorst .context (8 * sc) (8 * sc + 7)

/-- A request whose context is at hand is carried out (R76, R81). One whose context is uncorrectable waits until the subchannel is
FENCED (R23). -/
def State.runReq (s : State) (q : Nat) (e : Bytes) : State :=
  let sc := reqSc e
  let w := s.ctxErr sc
  let s := (s.useCtx sc).metErr .context (8 * sc) w
  if w = 2 then s else
  match reqOp e with
  | 1 => s.reqStart q sc e
  | 2 => s.reqHalt q sc e
  | 3 => s.reqClear q sc e
  | 4 => s.reqResume q sc e
  | 5 => s.reqRelease q sc e
  | 6 => s.reqModify q sc e
  | _ => s.reject q sc 9 e

/-- A request of a subchannel has to wait: a MODIFY taken before it has not taken effect (R79), or its change would make a 513th dirty
context (R71). -/
def State.mustWait (s : State) (sc : Nat) : Bool :=
  !s.mayChange sc || s.jpend.any fun r => match r.eff with | .modified n _ _ => decide (n = sc) | _ => false

/-- The entry at the head of an SQ is taken, or waits for its context (R72, R73, R81) or its turn. -/
def State.doReq (s : State) (q : Nat) (e : Bytes) : State :=
  let sc := reqSc e
  if s.notOwned q e then (s.dropAhead q).reject q sc 2 e
  else if reqOp e = 0 ∨ 6 < reqOp e then s.reject q sc 9 e
  else if sc ∈ s.cached then (if s.mustWait sc then s else s.runReq q e)
  else
    let r := s.loadCtx sc
    let s := r.1.modQueue q fun k => { k with missWait := true }
    if r.2 then s else s.setBit (tq q 0x1C) 5

/-- The entry at the head of an SQ, if it can be taken and carries an opcode. -/
def State.reqAt (s : State) (q : Nat) (p : Nat → Bool) : Option Bytes :=
  if s.qType q = 1 then (s.headEntry q).bind fun e => if p (reqOp e) then some e else none else none

/-- A command that takes the head entry of an SQ; nothing happens while there is no such entry. -/
def takeReq (s : State) (q : Nat) (p : Nat → Bool) : Host.Outcome State Fault Refusal :=
  match s.reqAt q p with
  | some e => fin (s.doReq q e)
  | none => .next s

/-- SQ_START (R76). -/
def execSqStart (q : Nat) (s : State) : Host.Outcome State Fault Refusal := takeReq s q fun o => decide (o = 1)

/-- SQ_HALT (R76). -/
def execSqHalt (q : Nat) (s : State) : Host.Outcome State Fault Refusal := takeReq s q fun o => decide (o = 2)

/-- SQ_CLEAR (R76, R78). -/
def execSqClear (q : Nat) (s : State) : Host.Outcome State Fault Refusal := takeReq s q fun o => decide (o = 3)

/-- SQ_RESUME (R76). -/
def execSqResume (q : Nat) (s : State) : Host.Outcome State Fault Refusal := takeReq s q fun o => decide (o = 4)

/-- SQ_RELEASE (R76, R427). -/
def execSqRelease (q : Nat) (s : State) : Host.Outcome State Fault Refusal := takeReq s q fun o => decide (o = 5)

/-- SQ_MODIFY (R76). -/
def execSqModify (q : Nat) (s : State) : Host.Outcome State Fault Refusal := takeReq s q fun o => decide (o = 6)

/-- SQ_RESERVED_OPCODE (R57, R58). -/
def execSqReservedOpcode (q : Nat) (s : State) : Host.Outcome State Fault Refusal := takeReq s q fun o => decide (o = 0 ∨ 6 < o)

/-! ## The context cache -/

/-- CONTEXT_WRITE_BACK_DONE (R71): of the context that was due; the oldest waiting change takes the freed place. One that cannot be read
is not written (R23). -/
def execContextWriteBackDone (sc : Nat) (s : State) : Host.Outcome State Fault Refusal :=
  if s.life = .live && decide (s.writeBackNext = some sc) then
    let w := s.ctxErr sc
    let s := (if w = 2 then { s with dirty := s.dirty.erase sc } else s.writeHome sc).metErr .context (8 * sc) w
    fin (match s.dirtyWait with
      | k :: ks => { s with dirtyWait := ks }.touch k
      | [] => s)
  else .next s

/-- A context's image has a codeword that cannot be corrected (R20, R23). -/
def State.ctxBad (s : State) (sc : Nat) : Bool :=
  s.errs.any fun e => (decide (e.region = .context) || decide (e.region = .seedbank)) && decide (e.idx / 8 = sc) &&
    (e.poisoned || decide (32 < e.burst))

/-- A context comes from its Seedbank image (R72); byte 11 mirrors SC_OWNER (R69). An uncorrectable one fences its subchannel (R23, R74);
a corrected one is reported (R22). -/
def State.loadHome (s : State) (sc : Nat) : State :=
  let s := { s with errs := s.errs.filter fun e => decide (e.region ≠ MemRegion.context ∨ e.idx / 8 ≠ sc) }
  let s := { s with cached := s.cached ++ [sc],
                    ctx := (Mem.copyRange s.seed s.ctx (sc * 512) (sc * 2048) 512).wrN (sc * 2048 + 11) [BitVec.ofNat 8 (s.scFn sc)] }
  let s := match s.injBurst 0 with
    | some n => (s.addErr .context (8 * sc) n).injDone
    | none => s
  if s.ctxBad sc then (s.report 78).enterFenced sc 0
  else
    let s := s.metErr .context (8 * sc) (s.cwWorst .context (8 * sc) (8 * sc + 7))
    s.metErr .seedbank (8 * sc) (s.cwWorst .seedbank (8 * sc) (8 * sc + 7))

/-- CONTEXT_LOAD_DONE (R72): the request that waits for the context proceeds. A context that
has been used meanwhile stays as it is (R70). -/
def execContextLoadDone (sc : Nat) (s : State) : Host.Outcome State Fault Refusal :=
  if s.running && decide (sc ∈ s.loading) then
    let s : State := { s with loading := s.loading.erase sc }
    let s := if sc ∈ s.cached then s else s.loadHome sc
    fin (s.liveQueues.foldl (fun s q =>
      if (s.queue q).missWait then
        match s.reqAt q fun _ => true with
        | some e => if reqSc e = sc then s.doReq q e else s
        | none => s
      else s) s)
  else .next s

/-! ## Binding and placement -/

/-- THREAD_BIND (R141, R117, R209): a START_PENDING or resumed subchannel is bound to a thread of its group. -/
def execThreadBind (sc : Nat) (s : State) : Host.Outcome State Fault Refusal :=
  if s.running && decide ((s.chain sc).phase = .unbound) && s.mayChange sc then
    match s.pickThread (bits (s.cx sc 10 1) 0 3) with
    | some t =>
      let w := s.ctxErr sc
      let s := s.metErr .context (8 * sc) w
      if w = 2 then fin s else fin (s.bindThread sc t)
    | none => .next s
  else .next s

/-- Subchannels in START_PENDING placed in a group. -/
def State.startsIn (s : State) (g : Nat) : Nat :=
  s.chains.countP fun e => decide (e.2.phase = .unbound) && !e.2.resumed && decide (bits (s.cx e.1 10 1) 0 3 = g)

/-- MIGRATION_EPOCH_END (R85): `busy` gives each group's mean number of busy threads over the epoch. -/
def execMigrationEpochEnd (busy : List Nat) (s : State) : Host.Outcome State Fault Refusal :=
  if s.running then
    fin ((List.range 8).foldl (fun s g =>
      s.setReg (0x610010 + 4 * g) (BitVec.ofNat 32 (min (busy.getD g 0 + s.startsIn g) 255))) s)
  else .next s

/-- A write of TE_GRP_CTL (R209). -/
def State.drainWrite (s : State) (g : Nat) (v : Word) : State := (s.wb (0x600000 + 8 * g) 0 (v.getLsbD 0)).teStat g

/-- TE_DRAIN (R209). -/
def execTeDrain (who : Req) (g : Nat) (v : Word) (s : State) : Host.Outcome State Fault Refusal :=
  if 8 ≤ g then .next s else regGuarded s who fun s => s.drainWrite g v

end Sys2Proof.Machine
end

