-- ==== Sys2Proof/Machine/ChainCmds.lean ====
section
/-! DEFINITION. The command words of chains (R88-R112, R133-R135) and the events of a running chain: fetches, re-reads,
timeouts. Firmware's handling of each word is taken as done by its command. -/

namespace Sys2Proof.Machine

/-! ## Fetches -/

/-- The CHECK_CODE of a failed read (R127, R521). -/
def rdCode (e : RdErr) : Nat := if e = .ue then 4 else 3

/-- Command words that were read arrive (R47, R104): the first becomes current once a thread is bound. -/
def State.gotWords (s : State) (sc : Nat) (b : Bytes) : State :=
  let c := s.chain sc
  if c.phase = .unbound then s.setChain sc { c with buf := splitWords b }
  else
    let a := s.cx sc 32 8
    (s.setChain sc { c with buf := (splitWords b).drop 1, bufAddr := a + 32, bufSpace := c.space }).becomeCurrent sc c.space a (b.take 32)

/-- A read of command words failed (R127, R521). -/
def State.wordsFailed (s : State) (sc : Nat) (err : RdErr) : State :=
  let s := s.readError (s.chainFn sc) err
  if (s.chain sc).phase = .unbound then s.modChain sc fun c => { c with bufErr := some (rdCode err) }
  else s.endChain sc { bits := 4, code := rdCode err, info := 0xFFFFFFFF }

/-- A read of buffer memory for a chain: what it meets is reported, and uncorrectable data ends the chain (R22, R23, R127). -/
def State.chipRead (s : State) (sc a n : Nat) (err : RdErr) (k : State → State) : State :=
  let w := if err = .ok then s.cwWorst .buffer (a / 64) ((a + n - 1) / 64) else 2
  let s := s.metErr .buffer (a / 64) w
  if w = 2 then s.endChain sc { bits := 4, code := 4, info := 0xFFFFFFFF } else k s

/-- The words of a prefetched START of a subchannel arrive (R47). -/
def State.gotAhead (s : State) (q pos : Nat) (w : Bytes) (err : RdErr) : State :=
  let k := s.queue q
  let i := (pos + 2 * s.qSize q - k.head) % (2 * s.qSize q)
  let p := fun p : Pre => { p with await := false, words := if err = .ok then padTo 64 w else [], err := if err = .ok then none else some (rdCode err) }
  (((s.readOver (.ahead q pos)).readError (s.qFn q) err).setQueue q { k with pf := k.pf.modify i p })

/-- The outstanding read for the prefetched START of a subchannel. -/
def State.aheadOf (s : State) (sc : Nat) : Option (Nat × Nat) :=
  s.reads.findSome? fun r => match r.why with
    | .ahead q pos =>
      let i := (pos + 2 * s.qSize q - (s.queue q).head) % (2 * s.qSize q)
      match (s.queue q).pf[i]? with
      | some p => if leAt p.entry 2 2 % 16384 = sc then some (q, pos) else none
      | none => none
    | _ => none

/-- WORD_FETCH_DONE (R104, R47). A word in on-chip space comes from buffer memory, whatever the command carries. -/
def execWordFetchDone (sc : Nat) (w : Bytes) (err : RdErr) (s : State) : Host.Outcome State Fault Refusal :=
  let c := s.chain sc
  if !s.running then .next s
  else if c.phase = .fetching && decide (c.space % 2 = 1) then
    let a := s.cx sc 32 8
    fin (s.chipRead sc a 32 err fun s => s.gotWords sc (s.buf.rdN a 32))
  else
    match s.reads.find? fun r => decide (r.why = .word sc) with
    | none => (match s.aheadOf sc with
      | some (q, pos) => (let i := s.hostIn err; fin (i.1.gotAhead q pos w i.2))
      | none => .next s)
    | some r =>
      let i := (s.readOver (.word sc)).hostIn err
      let s := i.1
      let err := i.2
      if c.phase ≠ .fetching ∧ c.phase ≠ .unbound then fin s
      else if err = .ok then fin (s.gotWords sc (padTo r.len w)) else fin (s.wordsFailed sc err)

/-! ## Words -/

/-- The current word is to be executed, its code is among those of a command, and its context may change (R71). -/
def State.wordIs (s : State) (sc : Nat) (p : Nat → Bool) : Bool :=
  s.running && decide ((s.chain sc).phase = .current) && s.mayChange sc && p (s.cwCode sc)

/-- A data-moving word (R90, R93-R101). -/
def wordData (s : State) (sc : Nat) (p : Nat → Bool) : Host.Outcome State Fault Refusal :=
  if s.wordIs sc p then fin (s.dataWord sc) else .next s

/-- A word without a data-moving operation: no byte of it is left over (log 17). -/
def wordPlain (s : State) (sc code : Nat) (k : State → State) : Host.Outcome State Fault Refusal :=
  if s.wordIs sc fun c => decide (c = code) then fin (k (s.modChain sc fun c => if code = 8 then c else { c with residual := 0 })) else .next s

/-- CW_WRITE (R90). -/
def execCwWrite (sc : Nat) (s : State) : Host.Outcome State Fault Refusal := wordData s sc fun c => decide (c = 1)

/-- CW_READ (R90). -/
def execCwRead (sc : Nat) (s : State) : Host.Outcome State Fault Refusal := wordData s sc fun c => decide (c = 2)

/-- CW_CONTROL (R90, R386). -/
def execCwControl (sc : Nat) (s : State) : Host.Outcome State Fault Refusal := wordData s sc fun c => decide (c = 3)

/-- CW_SENSE (R90). -/
def execCwSense (sc : Nat) (s : State) : Host.Outcome State Fault Refusal := wordData s sc fun c => decide (c = 4)

/-- CW_NODE_SPECIFIC (R90). -/
def execCwNodeSpecific (sc : Nat) (s : State) : Host.Outcome State Fault Refusal :=
  wordData s sc fun c => decide (0x40 ≤ c ∧ c < 0x80)

/-- CW_NOP (R91). -/
def execCwNop (sc : Nat) (s : State) : Host.Outcome State Fault Refusal := wordPlain s sc 5 fun s => s.wordEnd sc

/-- CW_BRANCH (R103). -/
def execCwBranch (sc : Nat) (s : State) : Host.Outcome State Fault Refusal :=
  wordPlain s sc 8 fun s => s.fetchNext sc (s.cw sc 2 1 % 4) (s.cw sc 8 8)

/-- The checks of a word that exchanges no data with NODE (R130, R357, R558); none: they pass. `cls`: its access class. In a data chain
NODE and PARAM are its first word's (R97). -/
def State.nodeRefused (s : State) (sc cls : Nat) : Option State :=
  let node := (s.chain sc).node
  if !s.perm (s.chainFn sc) node cls then some (s.endRefused sc 16 node)
  else if s.kpWithdrawn (nodePort node) then some (s.endChain sc { bits := 128, de := some false })
  else match s.nodeCheck node with
    | some 17 => some (s.endRefused sc 17 node)
    | some _ => some (s.endAbsent sc node)
    | none => if s.gate node = .absent then some (s.endAbsent sc node) else none

/-- RESERVE (R423, R424). -/
def State.reserveWord (s : State) (sc : Nat) : State :=
  match s.nodeRefused sc 3 with
  | some s => s
  | none =>
    let node := (s.chain sc).node
    let s := (s.modChain sc fun c => { c with mask := c.param % 16, holder := s.openTx sc, phase := .slotWait }).firstRelease node
    State.reserveGo sc [0, 1, 2, 3] s

/-- CW_RESERVE (R424). -/
def execCwReserve (sc : Nat) (s : State) : Host.Outcome State Fault Refusal := wordPlain s sc 9 fun s => s.reserveWord sc

/-- RELEASE (R427, R92). With no slot of the mask held there is nothing to tell the node: the word ends. DEDUCED (log 16). -/
def State.releaseWord (s : State) (sc : Nat) : State :=
  match s.nodeRefused sc 3 with
  | some s => s
  | none =>
    let node := (s.chain sc).node
    let m := if (s.chain sc).param % 16 = 0 then 15 else (s.chain sc).param % 16
    let mine := fun k h => decide (h = Holder.sc sc) && decide (k / 4 = node) && bitOn m (k % 4)
    if s.slots.any fun e => mine e.1 e.2 then
      ((s.modChain sc fun c => { c with phase := .answer }).firstRelease node).releaseSlots mine (.release sc)
    else s.wordEnd sc

/-- CW_RELEASE (R427). -/
def execCwRelease (sc : Nat) (s : State) : Host.Outcome State Fault Refusal := wordPlain s sc 10 fun s => s.releaseWord sc

/-- PACE_BASE is set (R109, R128). -/
def State.setPace (s : State) (sc base : Nat) : State := (s.cxSet sc 264 8 base).modChain sc fun c => { c with paced := true }

/-- A timer wait ends as an overrun (R109, R520). -/
def State.overrun (s : State) (sc : Nat) : State := ((s.setPace sc s.now).cxSet sc 272 4 (s.cx sc 272 4 + 1)).wordEnd sc

/-- A timer wait begins, or ends at once as an overrun (R109). -/
def State.paceTimer (s : State) (sc : Nat) : State :=
  let b := if (s.chain sc).paced then s.cx sc 264 8 else s.cx sc 104 8
  let due := b + 1000 * s.cwCount sc
  if due < s.now then s.overrun sc
  else s.modChain sc fun c => { c with phase := .paceTimer, due }

/-- A wait for a PACE flit begins, or ends at once with one that came before (R110). -/
def State.paceNode (s : State) (sc : Nat) : State :=
  match s.nodeRefused sc 0 with
  | some s => s
  | none =>
    let node := (s.chain sc).node
    let p := s.cx sc 276 2
    if bitOn p 15 && decide (p % 4096 = node) then (s.cxSet sc 276 2 (p % 32768)).wordEnd sc
    else s.modChain sc fun c => { c with phase := .paceNode }

/-- CW_WAIT_PACE (R109, R110). -/
def execCwWaitPace (sc : Nat) (s : State) : Host.Outcome State Fault Refusal :=
  wordPlain s sc 11 fun s => if bitOn (s.chain sc).param 0 then s.paceNode sc else s.paceTimer sc

/-- MARK (R90, R19): the time, then the word's own address. -/
def State.markWord (s : State) (sc : Nat) : State :=
  let a := s.cw sc 8 8
  let b := natLE 8 s.now ++ natLE 8 (s.cx sc 32 8)
  let fn := s.chainFn sc
  if s.cw sc 2 1 % 4 = 0 then
    if !s.masters fn then s.endChain sc { bits := 4, code := 3, info := 0 } else (s.hostWrite fn a b).wordEnd sc
  else
    let k := s.shareRun fn a 16
    let s := s.bufPut a (b.take k)
    if k < 16 then s.endChain sc { bits := 4, code := 5, info := k } else s.wordEnd sc

/-- CW_MARK (R90). -/
def execCwMark (sc : Nat) (s : State) : Host.Outcome State Fault Refusal := wordPlain s sc 12 fun s => s.markWord sc

/-- CW_END_GROUP (R135, R403). -/
def execCwEndGroup (sc : Nat) (s : State) : Host.Outcome State Fault Refusal :=
  wordPlain s sc 13 fun s =>
    match s.openTx sc with
    | none => s.wordEnd sc
    | some x => (s.modChain sc fun c => { c with phase := .deciding }).decideTx x

/-! ## Suspend points -/

/-- The re-read of a suspended word arrives (R102, R114): CD, CC and SUS are taken from it. A CD that differs is an unchecked
construction error (R139). -/
def State.reflag (s : State) (sc fl : Nat) : State :=
  let old := s.cw sc 1 1
  if bitOn fl 0 != bitOn old 0 then s.endFree sc
  else (s.cxSet sc 41 1 (setBits (setBits old 0 2 (fl % 4)) 3 1 (bits fl 3 1))).wordEnd sc

/-- SUSPEND_REREAD_DONE (R115). -/
def execSuspendRereadDone (sc : Nat) (flags : Byte) (err : RdErr) (s : State) : Host.Outcome State Fault Refusal :=
  let c := s.chain sc
  if !s.running then .next s
  else if c.phase ≠ .rereading then (if s.readOut (.reread sc) then fin (s.readOver (.reread sc)) else .next s)
  else if c.space % 2 = 1 then
    let a := s.cx sc 32 8
    fin (s.chipRead sc a 32 err fun s => s.reflag sc (s.buf.le (a + 1) 1))
  else if !s.readOut (.reread sc) then .next s
  else
    let i := (s.readOver (.reread sc)).hostIn err
    let s := i.1
    let err := i.2
    if err = .ok then fin (s.reflag sc flags.toNat)
    else fin ((s.readError (s.chainFn sc) err).endChain sc { bits := 4, code := rdCode err, info := 0xFFFFFFFF })

/-! ## Timeouts -/

/-- HALT_TIMEOUT (R120). -/
def execHaltTimeout (sc : Nat) (s : State) : Host.Outcome State Fault Refusal :=
  let c := s.chain sc
  if s.running && decide (c.phase = .ending) && c.halting then fin (s.fixStatus sc { bits := 4, de := some false, code := 6 }) else .next s

/-- PACE_TIMEOUT (R110). -/
def execPaceTimeout (sc : Nat) (s : State) : Host.Outcome State Fault Refusal :=
  if s.running && decide ((s.chain sc).phase = .paceNode) && decide (s.cwCount sc ≠ 0) then
    fin (s.endChain sc { bits := 4, de := some true, code := 8 })
  else .next s

/-- TIME has reached a value at the least. -/
def State.reachTime (s : State) (ns : Nat) : State := { s with time := max s.time (ns * 2 ^ 32) }

/-- PACE_TIMER_EXPIRY (R109). -/
def execPaceTimerExpiry (sc : Nat) (s : State) : Host.Outcome State Fault Refusal :=
  let c := s.chain sc
  if s.running && decide (c.phase = .paceTimer) then fin (((s.reachTime c.due).setPace sc c.due).wordEnd sc) else .next s

end Sys2Proof.Machine
end

