-- ==== Sys2Proof/Machine/Float.lean ====
section
/-! DEFINITION. Floating point (R238-R254): exact values, one rounding, flags. A value is a bit pattern of binary32 or binary64
as a number; `d` is true for binary64. -/

namespace Sys2Proof.Machine

/-! ## Formats -/

/-- Fraction bits. -/
def fpF (d : Bool) : Nat := if d then 52 else 23
/-- The bit of the sign. -/
def fpS (d : Bool) : Nat := if d then 63 else 31
/-- The encoding of infinity. -/
def fpInf (d : Bool) : Nat := if d then 0x7FF0000000000000 else 0x7F800000
/-- The default NaN (R245). -/
def fpNan (d : Bool) : Nat := if d then 0x7FF8000000000000 else 0x7FC00000
/-- The exponent of the least subnormal. -/
def fpMin (d : Bool) : Int := if d then -1074 else -149

/-- Magnitude bits. -/
def fpMag (d : Bool) (x : Nat) : Nat := x % 2 ^ fpS d
/-- Sign. -/
def fpNeg (d : Bool) (x : Nat) : Bool := bitOn x (fpS d)
/-- Infinite. -/
def isInf (d : Bool) (x : Nat) : Bool := decide (fpMag d x = fpInf d)
/-- Not a number. -/
def isNan (d : Bool) (x : Nat) : Bool := decide (fpInf d < fpMag d x)
/-- Signalling. -/
def isSnan (d : Bool) (x : Nat) : Bool := isNan d x && !bitOn x (fpF d - 1)
/-- Zero of either sign. -/
def isZero (d : Bool) (x : Nat) : Bool := decide (fpMag d x = 0)
/-- A magnitude with a sign. -/
def withSign (d : Bool) (neg : Bool) (m : Nat) : Nat := m + b2n neg * 2 ^ fpS d
/-- The significand of a finite value. -/
def fpM (d : Bool) (x : Nat) : Nat :=
  let e := fpMag d x / 2 ^ fpF d
  let f := fpMag d x % 2 ^ fpF d
  if e = 0 then f else f + 2 ^ fpF d
/-- The exponent of the significand's last bit. -/
def fpE (d : Bool) (x : Nat) : Int :=
  let e := fpMag d x / 2 ^ fpF d
  fpMin d + (if e = 0 then 0 else (e : Int) - 1)

/-- A result: its pattern, the flags raised (1 invalid, 2 divide by zero, 4 overflow, 8 underflow, 16 inexact; R241), and
whether it is tiny. -/
structure FRes where
  bits : Nat
  flags : Nat := 0
  tiny : Bool := false
  deriving DecidableEq, Repr

/-! ## Rounding -/

/-- The number of bits of a number. -/
def bitLen (n : Nat) : Nat := if n = 0 then 0 else n.log2 + 1

/-- Whether a quotient is rounded away from zero: its last bit, twice its remainder and the divisor, the mode and the sign. -/
def roundsUp (rm : Nat) (neg odd : Bool) (rem2 dvd : Nat) : Bool :=
  match rm with
  | 0 => decide (dvd < rem2) || (decide (rem2 = dvd) && odd)
  | 1 => false
  | 2 => !neg && decide (0 < rem2)
  | _ => neg && decide (0 < rem2)

/-- A significand at an exponent rounded to a multiple of 2^q: the multiple, and whether it is exact. -/
def roundAt (rm : Nat) (neg : Bool) (m : Nat) (e q : Int) : Nat × Bool :=
  if q ≤ e then (m * 2 ^ (e - q).toNat, true)
  else
    let v := 2 ^ (q - e).toNat
    let r := m / v
    let t := m % v
    (r + b2n (roundsUp rm neg (r % 2 = 1) (2 * t) v), decide (t = 0))

/-- The overflowed result (R242). -/
def overflowed (d : Bool) (rm : Nat) (neg : Bool) : Nat :=
  let inf := match rm with | 0 => true | 1 => false | 2 => !neg | _ => neg
  withSign d neg (if inf then fpInf d else fpInf d - 1)

/-- The value (−1)^neg × m × 2^e, m not 0, rounded once (R238, R241, R242). -/
def roundFp (d : Bool) (rm : Nat) (neg : Bool) (m : Nat) (e : Int) : FRes :=
  let p := fpF d + 1
  let q0 := e + bitLen m - p
  let q := max q0 (fpMin d)
  let r := roundAt rm neg m e q
  let mag := (q - fpMin d).toNat * 2 ^ fpF d + r.1
  let u := roundAt rm neg m e q0
  let tiny := decide (q0 < fpMin d) && !(decide (q0 + 1 = fpMin d) && decide (u.1 = 2 ^ p))
  if fpInf d ≤ mag then { bits := overflowed d rm neg, flags := 4 + 16 }
  else { bits := withSign d neg mag, flags := (if r.2 then 0 else 16) + (if tiny && !r.2 then 8 else 0), tiny }

/-- A zero of a sum of opposite signs (R248). -/
def zeroSum (d : Bool) (rm : Nat) : Nat := withSign d (decide (rm = 3)) 0

/-- The result of an operation with NaN operands, in the order given, if any is one (R246); `inv`: invalid is raised besides. -/
def nanOf (d : Bool) (xs : List Nat) (inv : Bool := false) : Option FRes :=
  let f := if inv || xs.any (isSnan d) then 1 else 0
  match xs.find? (isSnan d) with
  | some x => some { bits := x ||| 2 ^ (fpF d - 1), flags := f }
  | none => (xs.find? (isNan d)).map fun x => { bits := x, flags := f }

/-- An invalid operation with no NaN operand (R245). -/
def invalid (d : Bool) : FRes := { bits := fpNan d, flags := 1 }

/-! ## Arithmetic -/

/-- The sum of two exact finite values with signs (R248): `s1`, `s2` give the signs of zeros too. -/
def sumFin (d : Bool) (rm : Nat) (s1 : Bool) (m1 : Nat) (e1 : Int) (s2 : Bool) (m2 : Nat) (e2 : Int) : FRes :=
  let e := min e1 e2
  let a : Int := (m1 * 2 ^ (e1 - e).toNat : Nat)
  let b : Int := (m2 * 2 ^ (e2 - e).toNat : Nat)
  let v := (if s1 then -a else a) + (if s2 then -b else b)
  if v = 0 then { bits := if m1 = 0 ∧ m2 = 0 ∧ s1 = s2 then withSign d s1 0 else zeroSum d rm }
  else roundFp d rm (decide (v < 0)) v.natAbs e

/-- FA + op (FADD), with op's sign given (FSUB inverts it, NaNs excepted: R246). -/
def fpAdd (d : Bool) (rm : Nat) (x y : Nat) (sub : Bool) : FRes :=
  match nanOf d [x, y] with
  | some r => r
  | none =>
    let sx := fpNeg d x
    let sy := fpNeg d y != sub
    if isInf d x then (if isInf d y && sx != sy then invalid d else { bits := x })
    else if isInf d y then { bits := withSign d sy (fpInf d) }
    else sumFin d rm sx (fpM d x) (fpE d x) sy (fpM d y) (fpE d y)

/-- FA × op. -/
def fpMul (d : Bool) (rm : Nat) (x y : Nat) : FRes :=
  match nanOf d [x, y] with
  | some r => r
  | none =>
    let s := fpNeg d x != fpNeg d y
    if isInf d x || isInf d y then
      (if isZero d x || isZero d y then invalid d else { bits := withSign d s (fpInf d) })
    else if isZero d x || isZero d y then { bits := withSign d s 0 }
    else roundFp d rm s (fpM d x * fpM d y) (fpE d x + fpE d y)

/-- FA ÷ op: the quotient to enough bits, its remainder kept as a sticky bit. -/
def fpDiv (d : Bool) (rm : Nat) (x y : Nat) : FRes :=
  match nanOf d [x, y] with
  | some r => r
  | none =>
    let s := fpNeg d x != fpNeg d y
    if isInf d x then (if isInf d y then invalid d else { bits := withSign d s (fpInf d) })
    else if isInf d y then { bits := withSign d s 0 }
    else if isZero d y then (if isZero d x then invalid d else { bits := withSign d s (fpInf d), flags := 2 })
    else if isZero d x then { bits := withSign d s 0 }
    else
      let k := fpF d + 4 + bitLen (fpM d y)
      let n := fpM d x * 2 ^ k
      roundFp d rm s (2 * (n / fpM d y) + b2n (decide (n % fpM d y ≠ 0))) (fpE d x - fpE d y - k - 1)

/-- p1 × p2 + FA with an exact product: `s`, `m`, `e` the product; `inf`: it is infinite. -/
def fmaSum (d : Bool) (rm : Nat) (s inf : Bool) (m : Nat) (e : Int) (c : Nat) : FRes :=
  if inf then (if isInf d c && fpNeg d c != s then invalid d else { bits := withSign d s (fpInf d) })
  else if isInf d c then { bits := c }
  else sumFin d rm s m e (fpNeg d c) (fpM d c) (fpE d c)

/-- op × op' + FA (R239, R246, R247). -/
def fpFma (d : Bool) (rm : Nat) (x y c : Nat) : FRes :=
  let bad := (isInf d x && isZero d y) || (isZero d x && isInf d y)
  match nanOf d [x, y, c] bad with
  | some r => r
  | none =>
    if bad then invalid d
    else fmaSum d rm (fpNeg d x != fpNeg d y) (isInf d x || isInf d y) (fpM d x * fpM d y) (fpE d x + fpE d y) c

/-- A × op + FA (R239, R246). 0 × ∞ is taken as in R247. DEDUCED (log 18). -/
def fpFmaa (d : Bool) (rm : Nat) (a : Int) (y c : Nat) : FRes :=
  let bad := decide (a = 0) && isInf d y
  match nanOf d [y, c] bad with
  | some r => r
  | none =>
    if bad then invalid d
    else fmaSum d rm (decide (a < 0) != fpNeg d y) (isInf d y) (a.natAbs * fpM d y) (fpE d y) c

/-- The integer square root, bit by bit from bit `k` − 1 down. -/
def sqrtBits (n : Nat) : Nat → Nat → Nat
  | 0, r => r
  | k + 1, r => sqrtBits n k (if (r + 2 ^ k) * (r + 2 ^ k) ≤ n then r + 2 ^ k else r)

/-- √FA (R254). -/
def fpSqrt (d : Bool) (rm : Nat) (x : Nat) : FRes :=
  match nanOf d [x] with
  | some r => r
  | none =>
    if isZero d x then { bits := x }
    else if fpNeg d x then invalid d
    else if isInf d x then { bits := x }
    else
      let odd := (fpE d x) % 2 ≠ 0
      let k := 2 * (fpF d + 4) + b2n odd
      let n := fpM d x * 2 ^ k
      let r := sqrtBits n (2 * fpF d + 8) 0
      roundFp d rm false (2 * r + b2n (decide (r * r ≠ n))) ((fpE d x - k) / 2 - 1)

/-! ## Comparison and conversion -/

/-- A finite value or infinity as an order-preserving integer. -/
def fpOrd (d : Bool) (x : Nat) : Int := if fpNeg d x then -(fpMag d x : Int) else (fpMag d x : Int)

/-- FCMP's N, Z, C, V as FL bits, and its flags (R250). -/
def fpCmp (d : Bool) (fl : Byte) (x y : Nat) : Byte × Nat :=
  let set := fun n z c v => setFl (setFl (setFl (setFl fl 2 n) 1 z) 0 c) 3 v
  let i := if isSnan d x || isSnan d y then 1 else 0
  if isNan d x || isNan d y then (set false false true true, i)
  else if fpOrd d x < fpOrd d y then (set true false false false, i)
  else if fpOrd d x = fpOrd d y then (set false true true false, i)
  else (set false false true false, i)

/-- FA as a signed 32-bit integer (R251). -/
def fpToInt (d : Bool) (rm : Nat) (x : Nat) : Word × Nat :=
  if isNan d x then (0, 1)
  else if isInf d x then (if fpNeg d x then 0x80000000 else 0x7FFFFFFF, 1)
  else
    let r := roundAt rm (fpNeg d x) (fpM d x) (fpE d x) 0
    let v : Int := if fpNeg d x then -(r.1 : Int) else (r.1 : Int)
    if 2147483647 < v then (0x7FFFFFFF, 1)
    else if v < -2147483648 then (0x80000000, 1)
    else (BitVec.ofInt 32 v, if r.2 then 0 else 16)

/-- Signed A as a floating-point value (R252). -/
def fpOfInt (d : Bool) (rm : Nat) (a : Int) : FRes :=
  if a = 0 then { bits := 0 } else roundFp d rm (decide (a < 0)) a.natAbs 0

/-- The reciprocal estimate (R237): within 1 ulp of the exact reciprocal; which value is a free choice of the device (log 6). -/
def fpRcp (d : Bool) (x : Nat) : Nat :=
  let s := fpNeg d x
  if isNan d x then fpNan d
  else if isInf d x then withSign d s 0
  else if fpMag d x < 2 ^ fpF d then withSign d s (fpInf d)
  else
    let k := fpF d + 4 + bitLen (fpM d x)
    let n := 2 ^ k
    let e := -(fpE d x) - k
    let exact := decide (n % fpM d x = 0)
    let lo := roundFp d 1 false (2 * (n / fpM d x) + b2n !exact) (e - 1)
    if lo.bits < 2 ^ fpF d then withSign d s 0
    else
      match (Config.rcpeChoice d (BitVec.ofNat 64 x)).toNat with
      | 1 => withSign d s (lo.bits + 1)
      | 2 => withSign d s (if exact then lo.bits - 1 else lo.bits)
      | _ => withSign d s lo.bits

end Sys2Proof.Machine
end

