-- ==== Sys2Proof/Machine/TillerCore.lean ====
section
/-! DEFINITION. One Tiller instruction (R142, R168-R176): when a thread can issue, its guard, its legality, its traps (R182-R186,
R216). Issue arbitration and cycle counts are outside the model (log 19): the command names the thread that issues. -/

namespace Sys2Proof.Machine

/-- What an instruction is besides its effect: the forms its table row allows; whether a transform routine (R213) or a
decode-table step (R203) may hold it; whether it waits for MRDY (R229); whether Cloche mode is needed (R199); whether it
acts on other units; its cycles (R174, R175) without those of a memory operand; whether that is written, not read (R167); whether M:V
of a long form names an operand. -/
structure TInfo where
  legal : TForm → Bool
  routine : Bool := true
  step : Bool := true
  mul : Bool := false
  cloche : Bool := false
  unit : Bool := false
  cyc : Nat := 1
  wr : Bool := false
  operand : Bool := true
  body : State → TArg → TRes

/-- A form that a row of R174 or R175 allows: short kinds, long modes. OPD of a form of kind '—' is not looked at. DESIGN CHOICE (log 83). -/
def okForm (ks : List SKind) (ms : List Nat) : TForm → Bool
  | .short _ k _ => decide (k ∈ ks)
  | .long _ _ m _ => decide (m.toNat ∈ ms)

/-- A form with the one V value a row allows (R175, R176). -/
def okV (v : Nat) : TForm → Bool
  | .short .. => false
  | .long _ _ m w => decide (m = 0 ∧ w.toNat = v)

/-- A short form with the one OPD value a row allows. -/
def okUna (v : Nat) : TForm → Bool
  | .short _ k o => decide (k = .i8 ∧ o.toNat = v)
  | .long .. => false

/-- A thread can issue an instruction (R141, R142, R188). -/
def State.canIssue (s : State) (t : Nat) : Bool :=
  let th := s.thread t
  s.running && decide (t < 1024) && decide (th.bind ≠ .free) && !th.stopped && th.waiting.isNone && th.load.isNone

/-- PC moves past an instruction. -/
def State.pcPast (s : State) (t n : Nat) : State := s.modThread t fun h => { h with pc := h.pc + BitVec.ofNat 16 n }

/-- The firmware's registers return from the shadow (R212, R215, R216). FPSR is not among them: flags stay raised (R241). -/
def Thread.unshadow (th : Thread) (c : Shadow) : Thread :=
  { th with a := c.a, x := c.x, y := c.y, bk := c.bk, sp := c.sp, pr := c.pr, fl := (c.fl &&& 0x7F) ||| (th.fl &&& 0x80), fa := c.fa, fpcr := c.fpcr,
            shadow := none, budget := 0 }

/-- A packet of a thread Furrow is removed as a bad packet (R447). -/
def State.removePkt (s : State) (t k : Nat) : State :=
  let f := (s.thread t).furrow
  let i := f.rd + k
  ((s.modThread t fun h => { h with furrow := { f with
    pkts := f.pkts.eraseIdx i, mark := f.mark.map fun m => if i < m then m - 1 else m } }).setBit (fuTg (groupOf t) 8) 1).report (32 + groupOf t)

/-- A WINDOW trap of a load from the Furrow window removes the packet (R447). -/
def State.badPkt (s : State) (t cause info : Nat) : State :=
  let bank := info / 65536 % 256
  if cause = 9 ∧ 0x10 ≤ bank ∧ bank < 0x20 then s.removePkt t (bank - 0x10) else s

/-- A trap (R182-R186, R216): `size`: the bytes of the instruction; `step`: the step of a decode-table instruction (R204). A
trap in routine mode restores the shadow and goes to XTRAP; firmware then ends the chain. A trap during a trap stops the thread and is reported. -/
def State.doTrap (s : State) (t cause info size step : Nat) : State :=
  let th := s.thread t
  if flBit th.fl 7 then (s.modThread t fun h => { h with stopped := true }).report (8 + groupOf t)
  else
    let ret := if cause = 10 then th.pc + BitVec.ofNat 16 size else th.pc
    let a := t * 4096 + 0xFF0
    match th.shadow with
    | some c =>
      let m := s.tpriv.wrN a (natLE 2 (c.pc - 4).toNat ++ natLE 1 cause ++ natLE 1 step ++ natLE 4 info ++ [th.fl, th.pr] ++
        natLE 2 th.pc.toNat ++ natLE 4 0)
      let th := th.unshadow c
      let s := { s with tpriv := m }.setThread t { th with fl := th.fl ||| 0x80, pc := 12 }
      th.sc?.elim s fun sc => s.owe (.xtrap sc)
    | none =>
      let m := s.tpriv.wrN a (natLE 2 ret.toNat ++ natLE 1 cause ++ natLE 1 step ++ natLE 4 info ++ [th.fl, th.pr] ++ natLE 2 0 ++ natLE 4 0)
      { s with tpriv := m }.setThread t { th with fl := th.fl ||| 0x80, pc := BitVec.ofNat 16 (4 * cause) }

/-- The address of the operand that M:V names; none: it names none. -/
def TInfo.ea? (i : TInfo) (f : TForm) (th : Thread) : Option Nat := if i.operand then opEa f th else none

/-- An instruction is allowed: none, or the INFO of its ILLEGAL trap (R176, R199, R203, R213). -/
def TInfo.refused (i : TInfo) (f : TForm) (th : Thread) (step : Bool) : Option Nat :=
  if step && !i.step then some 2
  else if i.cloche && th.mode ≠ 2 then some 1
  else if !i.legal f || (th.mode = 1 && !i.routine) then some 0
  else none

/-! ## The first issue of an attention thread -/

/-- The KIND 3 entry of an attention (R486). -/
def State.attnEntry (s : State) (t : Nat) : CqE :=
  let m := fun off n => s.tpriv.le (t * 4096 + off) n
  let src := m 0xFC0 2
  let b2 := m 0xFC2 1
  { ts := m 0xFC8 8, lastCw := if bitOn src 15 then 0 else m 0x3F0 8,
    residual := bits src 0 13 + 2 ^ 13 * bits b2 0 4 + 2 ^ 17 * bits b2 4 1 + 2 ^ 18 * bits b2 5 1 + 2 ^ 19 * bits src 15 1,
    sc := bits (m 0xFC4 4) 17 14, kind := 3, bits := 2 }

/-- Firmware's handler ends the service of a thread with EOS, which frees it (R483, R484). -/
def State.serveEnd (s : State) (t : Nat) (defer : Bool) : State :=
  match (s.thread t).bind with
  | .attn k => (s.endService k defer true).freeThreadOf t
  | _ => s

/-- The default handler, channel firmware's (R486): it posts the attention status, which has no journal record of its own (R487) and is
written in its turn in the ring (R32), or, where the CQ has no room, defers; then it ends the service. -/
def State.defaultHandler (s : State) (t : Nat) : State :=
  let b2 := s.tpriv.le (t * 4096 + 0xFC2) 1
  let sc := bits (s.tpriv.le (t * 4096 + 0xFC4) 4) 17 14
  let q := bits (s.cx sc 4 2) 0 13
  if bitOn b2 5 && !bitOn b2 4 then s.serveEnd t false
  else if s.cqRoom q then
    let x := s.cqTake q (s.attnEntry t).enc
    (x.1.owes (.posted q x.2.2.2 x.2.1 x.2.2.1 none none false)).serveEnd t false
  else s.serveEnd t true

/-- A node handler named by the attention handler table starts (R217, R218). -/
def State.nodeHandler (s : State) (t entry : Nat) : State :=
  let a := BitVec.ofNat 32 (s.tpriv.le (t * 4096 + 0xFC0) 4)
  s.modThread t fun h => { h with a, x := 0, y := 0, bk := 0, sp := 0x0FC0, pr := 1, fl := 0, fa := 0, fpsr := 0, fpcr := 0,
                                  pc := codeAddr entry }

/-- The first issue of a thread claimed for an attention: a spurious claim is counted (R482), and firmware's code at the ATTN
vector chooses the handler (R218). -/
def State.firstIssue (s : State) (t : Nat) : State :=
  if !(s.thread t).fresh then s
  else
    let s := s.modThread t fun h => { h with fresh := false }
    let b2 := s.tpriv.le (t * 4096 + 0xFC2) 1
    let s := if bitOn b2 5 && !bitOn b2 4 then (s.setBit 0x180004 1).bump (cnt 0x180040 2) else s
    let h := bits (s.tpriv.le (t * 4096 + 0xFC3) 1) 4 4
    let w := s.tmem.le (tillerOf t * 0x40000 + 0x440 + 4 * h) 4
    if h ≠ 0 ∧ bitOn w 31 then s.nodeHandler t (w % 65536) else s.defaultHandler t

/-- The codeword of the code store that an instruction lies in. -/
def State.codeWord (s : State) (t : Nat) : Nat := (tillerOf t * 0x40000 + (s.thread t).pc.toNat) / 64

/-- The window data of an instruction is used up (R165). -/
def State.winClear (s : State) (t : Nat) : State :=
  if (s.thread t).winGot.isEmpty then s else s.modThread t fun h => { h with winGot := [] }

/-- The end of an instruction that reaches no other unit. -/
def tEnd (unit : Bool) (s : State) : Host.Outcome State Fault Refusal := if unit || !s.due.isEmpty then fin s else .next s

/-- A thread carries out the instruction at its PC (R171, R182). -/
def tExec (ins : Instr) (i : TInfo) (t : Nat) (f : TForm) (s : State) : Host.Outcome State Fault Refusal :=
  let th := s.thread t
  if !opGuard f th then tEnd false (s.pcPast t (opSize f))
  else if i.mul && !th.mrdy then tEnd false s
  else match i.refused f th false with
    | some n => fin (s.doTrap t 4 n (opSize f) 0)
    | none =>
      match i.body (s.pcPast t (opSize f)) { t, f } with
      | .done s' => tEnd i.unit ((s.noted s' { t, f } (i.ea? f th)).winClear t)
      | .trap c n => fin (((s.badPkt t c n).winClear t).doTrap t c n (opSize f) 0)
      | .trapAt s' c n => fin (((s'.winClear t).modThread t fun h => { h with pc := th.pc }).doTrap t c n (opSize f) 0)
      | .hold s' => fin (s'.modThread t fun h => { h with pc := th.pc, load := some ins })
      | .stall => tEnd false s
      | .lost r k => fin (s.metErr r k 2)

/-- One instruction of a thread (R142): `ins`: the command itself, kept while a window load is in flight. An instruction whose code
cannot be read is not issued (R22, R23); a thread whose service its handler ended issues no more. -/
def tRun (ins : Instr) (i : TInfo) (t : Nat) (f : TForm) (s : State) : Host.Outcome State Fault Refusal :=
  if !s.canIssue t then .next s
  else
    let s := s.firstIssue t
    let w := s.cwWorst .tiller (s.codeWord t) (s.codeWord t)
    let s := s.metErr .tiller (s.codeWord t) w
    if w = 2 || !s.canIssue t then fin s else tExec ins i t f s

/-- A state with a thread's registers changed by an instruction. -/
def TArg.upd (x : TArg) (s : State) (f : Thread → Thread) : TRes := .done (s.modThread x.t f)

end Sys2Proof.Machine
end

