-- ==== Sys2Proof/Machine/TillerInt.lean ====
section
/-! DEFINITION. The Tiller's integer instructions (R147, R172-R175, R194, R219-R224). Each has its effect (`body…`), its row of the
opcode tables (`info…`) and its meaning (`exec…`). -/

namespace Sys2Proof.Machine

/-! ## Shared shapes -/

/-- An operation on A and a word operand that gives A and FL. -/
def aluOp (k : Byte → Word → Nat → Word × Byte) (s : State) (x : TArg) : TRes :=
  s.operand x 4 fun v => x.upd s fun h => let r := k h.fl h.a v; { h with a := r.1, fl := r.2 }

/-- An operation on A and a word operand that gives FL alone. -/
def flagOp (k : Byte → Word → Nat → Byte) (s : State) (x : TArg) : TRes :=
  s.operand x 4 fun v => x.upd s fun h => { h with fl := k h.fl h.a v }

/-- A load of A from `n` bytes, zero-extended: N and Z. -/
def loadA (n : Nat) (s : State) (x : TArg) : TRes :=
  s.operand x n fun v => x.upd s fun h => { h with a := BitVec.ofNat 32 v, fl := flNZ h.fl (BitVec.ofNat 32 v) }

/-- An operation on A alone (UNA). -/
def unaOp (k : Byte → Word → Word × Byte) (s : State) (x : TArg) : TRes :=
  x.upd s fun h => let r := k h.fl h.a; { h with a := r.1, fl := r.2 }

/-- A result with N and Z alone. -/
def withNZ (fl : Byte) (r : Word) : Word × Byte := (r, flNZ fl r)

/-- The sign-extended 8-bit immediate of ADX and ADY (R221). -/
def immS8 (f : TForm) : BitVec 16 := (BitVec.ofNat 8 (opImm f)).signExtend 16

/-! ## Registers (R145-R150) -/

/-- Register `n` as MOV reads it, zero-extended (R145, R147). TID reads the low 8 bits of Tiller number × 16 + thread number. DESIGN CHOICE
(log 83). -/
def Thread.readReg (th : Thread) (t n : Nat) : Nat :=
  match n with
  | 0 => th.a.toNat | 1 => th.x.toNat | 2 => th.y.toNat | 3 => th.bk.toNat | 4 => th.sp.toNat | 5 => th.fl.toNat
  | 6 => (th.pr ||| 1).toNat | 7 => th.mh.toNat | 8 => th.ml.toNat | 9 => b2n th.mrdy | 10 => th.fpsr.toNat
  | 11 => th.fpcr.toNat | 12 => th.fa.toNat % 2 ^ 32 | 13 => th.fa.toNat / 2 ^ 32 | 14 => t % 256 | _ => 0

/-- Register `n` as MOV writes it; none: SP with a value it does not take, which traps STACK (R147). A 32-bit value is judged
whole. DESIGN CHOICE (log 83). Bits that are reserved in FPSR and FPCR stay zero. -/
def Thread.writeReg (th : Thread) (n v : Nat) : Option Thread :=
  match n with
  | 0 => some { th with a := BitVec.ofNat 32 v }
  | 1 => some { th with x := BitVec.ofNat 16 v }
  | 2 => some { th with y := BitVec.ofNat 16 v }
  | 3 => some { th with bk := BitVec.ofNat 8 v }
  | 4 => if v % 4 = 0 ∧ 0x400 ≤ v ∧ v ≤ 0xFC0 then some { th with sp := BitVec.ofNat 16 v } else none
  | 5 => some { th with fl := (th.fl &&& 0xE0) ||| (BitVec.ofNat 8 v &&& 0x1F) }
  | 6 => some { th with pr := BitVec.ofNat 8 v ||| 1 }
  | 10 => some { th with fpsr := BitVec.ofNat 32 v &&& 0x1F }
  | 11 => some { th with fpcr := BitVec.ofNat 32 v &&& 0x1F7 }
  | 12 => some { th with fa := BitVec.ofNat 64 (th.fa.toNat / 2 ^ 32 * 2 ^ 32 + v % 2 ^ 32) }
  | 13 => some { th with fa := BitVec.ofNat 64 (th.fa.toNat % 2 ^ 32 + v % 2 ^ 32 * 2 ^ 32) }
  | _ => some th

/-- MOV (R147). -/
def bodyMov (s : State) (x : TArg) : TRes :=
  let th := s.thread x.t
  match th.writeReg (opImm x.f / 16) (th.readReg x.t (opImm x.f % 16)) with
  | some th => .done (s.setThread x.t th)
  | none => .trap 7 0

/-- XCHG (R194): A and a word change places. -/
def bodyXchg (s : State) (x : TArg) : TRes :=
  s.operand x 4 fun v =>
    match s.storeOp x (natLE 4 (s.thread x.t).a.toNat) 4 with
    | .done s => x.upd s fun h => { h with a := BitVec.ofNat 32 v }
    | r => r

/-- PSET (R173). -/
def bodyPset (s : State) (x : TArg) : TRes :=
  let o := opImm x.f
  x.upd s fun h =>
    let c := condTrue h.fl (o % 16)
    let k := o / 16 % 8
    { h with pr := setFl h.pr k (if 128 ≤ o then flBit (h.pr ||| 1) k && c else c) ||| 1 }

/-- PLOG (R175): Pd from Pa and Pb. -/
def plogOp (k : Bool → Bool → Bool) (s : State) (x : TArg) : TRes :=
  let v := opImm x.f
  x.upd s fun h => { h with pr := setFl h.pr (v % 8) (k (flBit (h.pr ||| 1) (v / 16 % 8)) (flBit (h.pr ||| 1) (v / 256 % 8))) ||| 1 }

/-- PLOG's row: mode 0 with its op in V[13:12] (R175). -/
def okPlog (op : Nat) : TForm → Bool
  | .short .. => false
  | .long _ _ m v => decide (m = 0 ∧ v.toNat / 4096 % 4 = op)

/-! ## Moves -/

/-- NOP's row (R174). -/
def infoNop : TInfo := { legal := okForm [.zero] [], body := fun s _ => .done s }

/-- NOP (R174). -/
def execNop (t : Nat) (f : TForm) (s : State) : Host.Outcome State Fault Refusal := tRun (.nop t f) infoNop t f s

/-- MOV's row (R147). -/
def infoMov : TInfo := { legal := okForm [.r] [], body := bodyMov }

/-- MOV (R147). -/
def execMov (t : Nat) (f : TForm) (s : State) : Host.Outcome State Fault Refusal := tRun (.mov t f) infoMov t f s

/-- LDA's row (R174, R175). -/
def infoLda : TInfo := { legal := okForm [.i8, .d8] [0, 1, 2, 3], body := loadA 4 }

/-- LDA (R174, R175). -/
def execLda (t : Nat) (f : TForm) (s : State) : Host.Outcome State Fault Refusal := tRun (.lda t f) infoLda t f s

/-- LDAH's row (R175). -/
def infoLdah : TInfo := { legal := okForm [] [0], body := fun s x => x.upd s fun h => let r := BitVec.ofNat 32 (h.a.toNat % 65536 + 65536 * opImm x.f); { h with a := r, fl := flNZ h.fl r } }

/-- LDAH (R175). -/
def execLdah (t : Nat) (f : TForm) (s : State) : Host.Outcome State Fault Refusal := tRun (.ldah t f) infoLdah t f s

/-- LDB's row (R175). -/
def infoLdb : TInfo := { legal := okForm [] [0, 1, 2, 3], body := loadA 1 }

/-- LDB (R175). -/
def execLdb (t : Nat) (f : TForm) (s : State) : Host.Outcome State Fault Refusal := tRun (.ldb t f) infoLdb t f s

/-- LDH's row (R175). -/
def infoLdh : TInfo := { legal := okForm [] [0, 1, 2, 3], body := loadA 2 }

/-- LDH (R175). -/
def execLdh (t : Nat) (f : TForm) (s : State) : Host.Outcome State Fault Refusal := tRun (.ldh t f) infoLdh t f s

/-- STA's row (R174, R175). -/
def infoSta : TInfo := { legal := okForm [.d8] [1, 2, 3], wr := true, body := fun s x => s.storeOp x (natLE 4 (s.thread x.t).a.toNat) 4 }

/-- STA (R174, R175). -/
def execSta (t : Nat) (f : TForm) (s : State) : Host.Outcome State Fault Refusal := tRun (.sta t f) infoSta t f s

/-- STB's row (R175). -/
def infoStb : TInfo := { legal := okForm [] [1, 2, 3], wr := true, body := fun s x => s.storeOp x (natLE 1 (s.thread x.t).a.toNat) 1 }

/-- STB (R175). -/
def execStb (t : Nat) (f : TForm) (s : State) : Host.Outcome State Fault Refusal := tRun (.stb t f) infoStb t f s

/-- STH's row (R175). -/
def infoSth : TInfo := { legal := okForm [] [1, 2, 3], wr := true, body := fun s x => s.storeOp x (natLE 2 (s.thread x.t).a.toNat) 2 }

/-- STH (R175). -/
def execSth (t : Nat) (f : TForm) (s : State) : Host.Outcome State Fault Refusal := tRun (.sth t f) infoSth t f s

/-- LDX's row (R174, R175). -/
def infoLdx : TInfo := { legal := okForm [.d8] [0, 1, 2, 3], body := fun s x => s.operandLow x 2 fun v => x.upd s fun h => { h with x := BitVec.ofNat 16 v } }

/-- LDX (R174, R175). -/
def execLdx (t : Nat) (f : TForm) (s : State) : Host.Outcome State Fault Refusal := tRun (.ldx t f) infoLdx t f s

/-- LDY's row (R174, R175). -/
def infoLdy : TInfo := { legal := okForm [.d8] [0, 1, 2, 3], body := fun s x => s.operandLow x 2 fun v => x.upd s fun h => { h with y := BitVec.ofNat 16 v } }

/-- LDY (R174, R175). -/
def execLdy (t : Nat) (f : TForm) (s : State) : Host.Outcome State Fault Refusal := tRun (.ldy t f) infoLdy t f s

/-- STX's row (R174, R175). -/
def infoStx : TInfo := { legal := okForm [.d8] [1, 2, 3], wr := true, body := fun s x => s.storeOp x (natLE 2 (s.thread x.t).x.toNat) 2 }

/-- STX (R174, R175). -/
def execStx (t : Nat) (f : TForm) (s : State) : Host.Outcome State Fault Refusal := tRun (.stx t f) infoStx t f s

/-- STY's row (R174, R175). -/
def infoSty : TInfo := { legal := okForm [.d8] [1, 2, 3], wr := true, body := fun s x => s.storeOp x (natLE 2 (s.thread x.t).y.toNat) 2 }

/-- STY (R174, R175). -/
def execSty (t : Nat) (f : TForm) (s : State) : Host.Outcome State Fault Refusal := tRun (.sty t f) infoSty t f s

/-- XCHG's row (R175, R194). -/
def infoXchg : TInfo := { legal := okForm [] [1], step := false, body := bodyXchg }

/-- XCHG (R175, R194). -/
def execXchg (t : Nat) (f : TForm) (s : State) : Host.Outcome State Fault Refusal := tRun (.xchg t f) infoXchg t f s

/-- LDBK's row (R174). -/
def infoLdbk : TInfo := { legal := okForm [.i8] [], body := fun s x => x.upd s fun h => { h with bk := BitVec.ofNat 8 (opImm x.f) } }

/-- LDBK (R174). -/
def execLdbk (t : Nat) (f : TForm) (s : State) : Host.Outcome State Fault Refusal := tRun (.ldbk t f) infoLdbk t f s

/-! ## Arithmetic and logic -/

/-- ADD's row (R219). -/
def infoAdd : TInfo := { legal := okForm [.i8, .d8] [0, 1, 2, 3], body := aluOp fun fl a v => addFlags fl a (BitVec.ofNat 32 v) false }

/-- ADD (R219). -/
def execAdd (t : Nat) (f : TForm) (s : State) : Host.Outcome State Fault Refusal := tRun (.add t f) infoAdd t f s

/-- ADC's row (R220). -/
def infoAdc : TInfo := { legal := okForm [] [0, 1, 2, 3], body := aluOp fun fl a v => addFlags fl a (BitVec.ofNat 32 v) (flBit fl 0) }

/-- ADC (R220). -/
def execAdc (t : Nat) (f : TForm) (s : State) : Host.Outcome State Fault Refusal := tRun (.adc t f) infoAdc t f s

/-- SUB's row (R219). -/
def infoSub : TInfo := { legal := okForm [.i8, .d8] [0, 1, 2, 3], body := aluOp fun fl a v => subFlags fl a (BitVec.ofNat 32 v) false }

/-- SUB (R219). -/
def execSub (t : Nat) (f : TForm) (s : State) : Host.Outcome State Fault Refusal := tRun (.sub t f) infoSub t f s

/-- SBC's row (R220). -/
def infoSbc : TInfo := { legal := okForm [] [0, 1, 2, 3], body := aluOp fun fl a v => subFlags fl a (BitVec.ofNat 32 v) (!flBit fl 0) }

/-- SBC (R220). -/
def execSbc (t : Nat) (f : TForm) (s : State) : Host.Outcome State Fault Refusal := tRun (.sbc t f) infoSbc t f s

/-- CMP's row (R219). -/
def infoCmp : TInfo := { legal := okForm [.i8, .d8] [0, 1, 2, 3], body := flagOp fun fl a v => (subFlags fl a (BitVec.ofNat 32 v) false).2 }

/-- CMP (R219). -/
def execCmp (t : Nat) (f : TForm) (s : State) : Host.Outcome State Fault Refusal := tRun (.cmp t f) infoCmp t f s

/-- AND's row (R175, R219). -/
def infoAnd : TInfo := { legal := okForm [.d8] [0, 1, 2, 3], body := aluOp fun fl a v => withNZ fl (a &&& BitVec.ofNat 32 v) }

/-- AND (R175, R219). -/
def execAnd (t : Nat) (f : TForm) (s : State) : Host.Outcome State Fault Refusal := tRun (.and t f) infoAnd t f s

/-- OR's row (R175, R219). -/
def infoOr : TInfo := { legal := okForm [.d8] [0, 1, 2, 3], body := aluOp fun fl a v => withNZ fl (a ||| BitVec.ofNat 32 v) }

/-- OR (R175, R219). -/
def execOr (t : Nat) (f : TForm) (s : State) : Host.Outcome State Fault Refusal := tRun (.or t f) infoOr t f s

/-- XOR's row (R175, R219). -/
def infoXor : TInfo := { legal := okForm [.d8] [0, 1, 2, 3], body := aluOp fun fl a v => withNZ fl (a ^^^ BitVec.ofNat 32 v) }

/-- XOR (R175, R219). -/
def execXor (t : Nat) (f : TForm) (s : State) : Host.Outcome State Fault Refusal := tRun (.xor t f) infoXor t f s

/-- BIT's row (R175, R219). -/
def infoBit : TInfo := { legal := okForm [] [0, 1, 2, 3], body := flagOp fun fl a v => flNZ fl (a &&& BitVec.ofNat 32 v) }

/-- BIT (R175, R219). -/
def execBit (t : Nat) (f : TForm) (s : State) : Host.Outcome State Fault Refusal := tRun (.bit t f) infoBit t f s

/-- CPX's row (R219). -/
def infoCpx : TInfo := { legal := okForm [.d8] [0, 1, 2, 3], body := fun s x => s.operandLow x 2 fun v => x.upd s fun h => { h with fl := cmp16Flags h.fl h.x (BitVec.ofNat 16 v) } }

/-- CPX (R219). -/
def execCpx (t : Nat) (f : TForm) (s : State) : Host.Outcome State Fault Refusal := tRun (.cpx t f) infoCpx t f s

/-- CPY's row (R219). -/
def infoCpy : TInfo := { legal := okForm [.d8] [0, 1, 2, 3], body := fun s x => s.operandLow x 2 fun v => x.upd s fun h => { h with fl := cmp16Flags h.fl h.y (BitVec.ofNat 16 v) } }

/-- CPY (R219). -/
def execCpy (t : Nat) (f : TForm) (s : State) : Host.Outcome State Fault Refusal := tRun (.cpy t f) infoCpy t f s

/-- SHL's row (R222, R223). -/
def infoShl : TInfo := { legal := okForm [.i8] [0, 1, 2, 3], body := aluOp shlFlags }

/-- SHL (R222, R223). -/
def execShl (t : Nat) (f : TForm) (s : State) : Host.Outcome State Fault Refusal := tRun (.shl t f) infoShl t f s

/-- SHR's row (R222, R223). -/
def infoShr : TInfo := { legal := okForm [.i8] [0, 1, 2, 3], body := aluOp shrFlags }

/-- SHR (R222, R223). -/
def execShr (t : Nat) (f : TForm) (s : State) : Host.Outcome State Fault Refusal := tRun (.shr t f) infoShr t f s

/-- SAR's row (R222, R223). -/
def infoSar : TInfo := { legal := okForm [.i8] [0, 1, 2, 3], body := aluOp sarFlags }

/-- SAR (R222, R223). -/
def execSar (t : Nat) (f : TForm) (s : State) : Host.Outcome State Fault Refusal := tRun (.sar t f) infoSar t f s

/-- ROL's row (R222, R223). -/
def infoRol : TInfo := { legal := okForm [.i8] [0, 1, 2, 3], body := aluOp rolFlags }

/-- ROL (R222, R223). -/
def execRol (t : Nat) (f : TForm) (s : State) : Host.Outcome State Fault Refusal := tRun (.rol t f) infoRol t f s

/-- ROR's row (R222, R223). -/
def infoRor : TInfo := { legal := okForm [] [0, 1, 2, 3], body := aluOp rorFlags }

/-- ROR (R222, R223). -/
def execRor (t : Nat) (f : TForm) (s : State) : Host.Outcome State Fault Refusal := tRun (.ror t f) infoRor t f s

/-- ADX's row (R174, R221). -/
def infoAdx : TInfo := { legal := okForm [.s8] [], body := fun s x => x.upd s fun h => { h with x := h.x + immS8 x.f } }

/-- ADX (R174, R221). -/
def execAdx (t : Nat) (f : TForm) (s : State) : Host.Outcome State Fault Refusal := tRun (.adx t f) infoAdx t f s

/-- ADY's row (R174, R221). -/
def infoAdy : TInfo := { legal := okForm [.s8] [], body := fun s x => x.upd s fun h => { h with y := h.y + immS8 x.f } }

/-- ADY (R174, R221). -/
def execAdy (t : Nat) (f : TForm) (s : State) : Host.Outcome State Fault Refusal := tRun (.ady t f) infoAdy t f s

/-! ## UNA -/

/-- UNA NEG's row (R174, R219, R224). -/
def infoUnaNeg : TInfo := { legal := okUna 0, body := unaOp fun fl a => subFlags fl 0 a false }

/-- UNA NEG (R174, R219, R224). -/
def execUnaNeg (t : Nat) (f : TForm) (s : State) : Host.Outcome State Fault Refusal := tRun (.unaNeg t f) infoUnaNeg t f s

/-- UNA NOT's row (R174, R219, R224). -/
def infoUnaNot : TInfo := { legal := okUna 1, body := unaOp fun fl a => withNZ fl (~~~a) }

/-- UNA NOT (R174, R219, R224). -/
def execUnaNot (t : Nat) (f : TForm) (s : State) : Host.Outcome State Fault Refusal := tRun (.unaNot t f) infoUnaNot t f s

/-- UNA INC's row (R174, R219, R224). -/
def infoUnaInc : TInfo := { legal := okUna 2, body := unaOp fun fl a => addFlags fl a 1 false }

/-- UNA INC (R174, R219, R224). -/
def execUnaInc (t : Nat) (f : TForm) (s : State) : Host.Outcome State Fault Refusal := tRun (.unaInc t f) infoUnaInc t f s

/-- UNA DEC's row (R174, R219, R224). -/
def infoUnaDec : TInfo := { legal := okUna 3, body := unaOp fun fl a => subFlags fl a 1 false }

/-- UNA DEC (R174, R219, R224). -/
def execUnaDec (t : Nat) (f : TForm) (s : State) : Host.Outcome State Fault Refusal := tRun (.unaDec t f) infoUnaDec t f s

/-- UNA SXB's row (R174, R219, R224). -/
def infoUnaSxb : TInfo := { legal := okUna 4, body := unaOp fun fl a => withNZ fl ((a.setWidth 8).signExtend 32) }

/-- UNA SXB (R174, R219, R224). -/
def execUnaSxb (t : Nat) (f : TForm) (s : State) : Host.Outcome State Fault Refusal := tRun (.unaSxb t f) infoUnaSxb t f s

/-- UNA SXH's row (R174, R219, R224). -/
def infoUnaSxh : TInfo := { legal := okUna 5, body := unaOp fun fl a => withNZ fl ((a.setWidth 16).signExtend 32) }

/-- UNA SXH (R174, R219, R224). -/
def execUnaSxh (t : Nat) (f : TForm) (s : State) : Host.Outcome State Fault Refusal := tRun (.unaSxh t f) infoUnaSxh t f s

/-- UNA ZXB's row (R174, R219, R224). -/
def infoUnaZxb : TInfo := { legal := okUna 6, body := unaOp fun fl a => withNZ fl (a &&& 0xFF) }

/-- UNA ZXB (R174, R219, R224). -/
def execUnaZxb (t : Nat) (f : TForm) (s : State) : Host.Outcome State Fault Refusal := tRun (.unaZxb t f) infoUnaZxb t f s

/-- UNA ZXH's row (R174, R219, R224). -/
def infoUnaZxh : TInfo := { legal := okUna 7, body := unaOp fun fl a => withNZ fl (a &&& 0xFFFF) }

/-- UNA ZXH (R174, R219, R224). -/
def execUnaZxh (t : Nat) (f : TForm) (s : State) : Host.Outcome State Fault Refusal := tRun (.unaZxh t f) infoUnaZxh t f s

/-! ## Predicates -/

/-- PSET's row (R173). -/
def infoPset : TInfo := { legal := okForm [.pc] [], body := bodyPset }

/-- PSET (R173). -/
def execPset (t : Nat) (f : TForm) (s : State) : Host.Outcome State Fault Refusal := tRun (.pset t f) infoPset t f s

/-- PLOG's row (R175). -/
def infoPlogAnd : TInfo := { legal := okPlog 0, body := plogOp fun a b => a && b }

/-- PLOG (R175). -/
def execPlogAnd (t : Nat) (f : TForm) (s : State) : Host.Outcome State Fault Refusal := tRun (.plogAnd t f) infoPlogAnd t f s

/-- PLOG's row (R175). -/
def infoPlogOr : TInfo := { legal := okPlog 1, body := plogOp fun a b => a || b }

/-- PLOG (R175). -/
def execPlogOr (t : Nat) (f : TForm) (s : State) : Host.Outcome State Fault Refusal := tRun (.plogOr t f) infoPlogOr t f s

/-- PLOG's row (R175). -/
def infoPlogXor : TInfo := { legal := okPlog 2, body := plogOp fun a b => a != b }

/-- PLOG (R175). -/
def execPlogXor (t : Nat) (f : TForm) (s : State) : Host.Outcome State Fault Refusal := tRun (.plogXor t f) infoPlogXor t f s

/-- PLOG's row (R175). -/
def infoPlogAndNot : TInfo := { legal := okPlog 3, body := plogOp fun a b => a && !b }

/-- PLOG (R175). -/
def execPlogAndNot (t : Nat) (f : TForm) (s : State) : Host.Outcome State Fault Refusal := tRun (.plogAndNot t f) infoPlogAndNot t f s

end Sys2Proof.Machine
end

