-- ==== Sys2Proof/Machine/TillerFlow.lean ====
section
/-! DEFINITION. Branches, calls, events, traps, transform routines and the thread Furrow (R177-R189, R210-R216, R449), and how the
packets of an XF word go on once their routine has returned (R96). -/

namespace Sys2Proof.Machine

/-! ## Branches (R174, R175, R178) -/

/-- PC of a short branch: a signed displacement in halfwords from the next instruction. -/
def branchTo (h : Thread) (f : TForm) : BitVec 16 := h.pc + (immS8 f <<< 1)

/-- DBNZ (R178). -/
def bodyDbnz (s : State) (x : TArg) : TRes :=
  x.upd s fun h => let c := h.x - 1; { h with x := c, pc := if c = 0 then h.pc else branchTo h x.f }

/-! ## The stack (R179-R181) -/

/-- A push. A slot of 8 bytes needs SP aligned to 4 only. DESIGN CHOICE (log 83). -/
def State.push (s : State) (x : TArg) (b : Bytes) : TRes :=
  let h := s.thread x.t
  if h.sp.toNat < 0x400 + b.length then .trapAt s 7 0
  else
    let a := h.sp.toNat - b.length
    match s.engWr x a b 4 with
    | .done s => x.upd s fun h => { h with sp := BitVec.ofNat 16 a }
    | .trap c i => .trapAt s c i
    | r => r

/-- Pushes in order. -/
def State.pushAll (x : TArg) : List Bytes → State → TRes
  | [], s => .done s
  | b :: bs, s => match s.push x b with
    | .done s => State.pushAll x bs s
    | r => r

/-- A pop of `n` bytes, and what follows from it. A slot of 8 bytes needs SP aligned to 4 only. DESIGN CHOICE (log 83). -/
def State.pop (s : State) (x : TArg) (n : Nat) (k : State → Nat → TRes) : TRes :=
  let a := (s.thread x.t).sp.toNat
  if 0xFC0 < a + n then .trapAt s 7 0
  else match s.engRd x a n 4 with
    | .val b => k (s.modThread x.t fun h => { h with sp := BitVec.ofNat 16 (a + n) }) (leNat b)
    | .trap c i => .trapAt s c i
    | .hold s => .hold s
    | .stall => .stall
    | .lost r i => .lost r i

/-- The bytes of mask bit `k`'s slot (R179). -/
def slotSize (k : Nat) : Nat := if k = 6 then 8 else 4

/-- What mask bit `k` saves (R179). -/
def Thread.slot (h : Thread) (k : Nat) : Nat :=
  match k with
  | 0 => h.a.toNat | 1 => h.x.toNat | 2 => h.y.toNat | 3 => h.bk.toNat | 4 => h.fl.toNat | 5 => (h.pr ||| 1).toNat
  | 6 => h.fa.toNat | _ => h.fpcr.toNat

/-- A slot restored into its register (R148, R180). -/
def Thread.unslot (h : Thread) (k v : Nat) : Thread :=
  match k with
  | 0 => { h with a := BitVec.ofNat 32 v }
  | 1 => { h with x := BitVec.ofNat 16 v }
  | 2 => { h with y := BitVec.ofNat 16 v }
  | 3 => { h with bk := BitVec.ofNat 8 v }
  | 4 => { h with fl := (h.fl &&& 0xE0) ||| (BitVec.ofNat 8 v &&& 0x1F) }
  | 5 => { h with pr := BitVec.ofNat 8 v ||| 1 }
  | 6 => { h with fa := BitVec.ofNat 64 v }
  | _ => { h with fpcr := BitVec.ofNat 32 v &&& 0x1F7 }

/-- A transform routine would leave its own code (R213): which addresses those are, the routine table does not say (log 52). -/
def Thread.leaves (h : Thread) (target : Nat) : Bool := h.shadow.elim false fun c => !Config.ownCode c.entry.toNat target

/-- CALL and CALLA (R179): the slots of the mask, the return word, the target. -/
def callTo (target mask : Nat) (s : State) (x : TArg) : TRes :=
  let h := s.thread x.t
  if h.leaves target then .trap 4 0 else
  let slots := ((List.range 8).filter fun k => bitOn mask k).map fun k => natLE (slotSize k) (h.slot k)
  match State.pushAll x (slots ++ [natLE 4 (h.pc.toNat + 65536 * (mask % 256))]) s with
  | .done s => x.upd s fun h => { h with pc := codeAddr target }
  | r => r

/-- Pops the slots of a call mask from bit 7 down; those of both masks are restored (R180). -/
def State.popSlots (x : TArg) (call own ret : Nat) : List Nat → State → TRes
  | [], s => x.upd s fun h => { h with pc := codeAddr ret }
  | k :: ks, s =>
    if bitOn call k then
      s.pop x (slotSize k) fun s v =>
        State.popSlots x call own ret ks (if bitOn own k then s.modThread x.t fun h => h.unslot k v else s)
    else State.popSlots x call own ret ks s

/-- RET (R180). -/
def bodyRet (s : State) (x : TArg) : TRes :=
  s.pop x 4 fun s' w =>
    if (s.thread x.t).leaves (w % 65536) then .trap 4 0
    else State.popSlots x (w / 65536 % 256) (opImm x.f) (w % 65536) [7, 6, 5, 4, 3, 2, 1, 0] s'

/-- CALL's target and mask lie in M:V (R175). -/
def bodyCall (s : State) (x : TArg) : TRes :=
  match x.f with
  | .short .. => .trap 4 0
  | .long _ _ m v => let w := m.toNat * 65536 + v.toNat; callTo (w / 256 % 1024 * 64) (w % 256) s x

/-- JMP (R175). -/
def bodyJmp (s : State) (x : TArg) : TRes := s.operand x 2 fun v => x.upd s fun h => { h with pc := codeAddr v }

/-! ## Events (R187, R188) -/

/-- The pending events of a thread (R187): the latched ones, and PKT. -/
def State.events (s : State) (t : Nat) : Byte := ((s.thread t).ev &&& 0x7E) ||| (if (s.pkt t 0).isSome then 1 else 0)

/-- A WAIT whose event is pending completes (R188). -/
def State.waitDone (s : State) (t : Nat) (m : Byte) : State :=
  let p := s.events t &&& m
  s.modThread t fun h => { h with a := p.setWidth 32, ev := h.ev &&& ~~~p, waiting := none }

/-- WAIT (R188). -/
def bodyWait (s : State) (x : TArg) : TRes :=
  let m := BitVec.ofNat 8 (opImm x.f)
  if s.events x.t &&& m = 0 then x.upd s fun h => { h with waiting := some m } else .done (s.waitDone x.t m)

/-- WAIT_WAKE (R188). -/
def execWaitWake (t : Nat) (s : State) : Host.Outcome State Fault Refusal :=
  match (s.thread t).waiting with
  | some m => if s.running && decide (t < 1024) && !(s.thread t).stopped && decide (s.events t &&& m ≠ 0) then .next (s.waitDone t m) else .next s
  | none => .next s

/-- THREAD_TIMER_EXPIRY (R187): the timer reaches zero and TIMER is latched. -/
def execThreadTimerExpiry (t : Nat) (s : State) : Host.Outcome State Fault Refusal :=
  if s.running && decide (t < 1024) && decide ((s.thread t).timer ≠ 0) then .next ((s.modThread t fun h => { h with timer := 0 }).latch t 2)
  else .next s

/-! ## Traps (R182-R185) -/

/-- RTE (R185). -/
def bodyRte (s : State) (x : TArg) : TRes :=
  let a := x.t * 4096 + 0xFF0
  x.upd s fun h => { h with
    fl := (h.fl &&& 0x60) ||| (s.tpriv.rd (a + 8) &&& 0x1F), pr := s.tpriv.rd (a + 9) ||| 1, pc := codeAddr (s.tpriv.le a 2) }

/-! ## The thread Furrow (R158, R449) -/

/-- RELEASE: the packets before the read position are freed; a mark before it is cleared. -/
def Furrow.release (f : Furrow) : Furrow :=
  { f with pkts := f.pkts.drop f.rd, rd := 0, mark := f.mark.bind fun m => if m < f.rd then none else some (m - f.rd), staleRaised := false }

/-- REWIND: the read position returns to the mark, if one is set. -/
def Furrow.rewind (f : Furrow) : Furrow := { f with rd := f.mark.getD f.rd, staleRaised := false }

/-- NEXT: the read position moves past a packet that lies there. -/
def Furrow.next (f : Furrow) : Furrow := { f with rd := f.rd + 1, staleRaised := false }

/-- An operation on the thread's Furrow. -/
def furrowOp (k : Furrow → Furrow) (s : State) (x : TArg) : TRes := x.upd s fun h => { h with furrow := k h.furrow }

/-- NEXT (R449): no effect where no packet lies at the read position. -/
def bodyNext (s : State) (x : TArg) : TRes := if (s.pkt x.t 0).isSome then furrowOp Furrow.next s x else .done s

/-! ## Transform routines (R210-R216) -/

/-- XCALL enters a routine (R212); it waits while the packet of the routine before is being forwarded. -/
def State.enterRoutine (s : State) (x : TArg) (i : Nat) : TRes :=
  let h := s.thread x.t
  if (h.sc?.elim false fun sc => (s.chain sc).fwd.isSome) then .stall
  else
    let e := s.xformEntry x.t i
    let p := s.pktAt x.t 0
    x.upd s fun h => { h with
      shadow := some { a := h.a, x := h.x, y := h.y, bk := h.bk, sp := h.sp, pr := h.pr, fl := h.fl &&& 0x7F, fa := h.fa, fpcr := h.fpcr,
                       fpsr := h.fpsr, pc := h.pc, entry := codeAddr (e % 65536) },
      a := BitVec.ofNat 32 p.data.length, y := 0x10, x := 0x8010, bk := 0x10, pr := BitVec.ofNat 8 (1 + 2 * b2n p.first + 4 * b2n p.last),
      fa := 0, fpcr := BitVec.ofNat 32 (bits e 20 2 + 4 * bits e 22 1), fl := (h.fl &&& 0x9F) ||| 0x20, div := none,
      budget := bits e 24 8 * 64, pc := codeAddr (e % 65536) }

/-- XCALL: the index is V[7:0], or op[7:0] (R175). -/
def bodyXcall (s : State) (x : TArg) : TRes := s.operand x 4 fun v => s.enterRoutine x (v % 256)

/-- The transformed packet of an XF word goes on to its destination (R96): a dispatch from the thread's outbound packet. -/
def State.forward (s : State) (sc t n : Nat) (last : Bool) : State :=
  let c := s.chain sc
  let read := readCode c.code
  let a := s.cw sc 8 8
  let sp := s.cw sc 2 1 % 4
  let idl := s.cwFlag sc 6
  let v : Xfer := { owner := .chain sc, prio := (s.thread t).prio, half := decide (4 ≤ groupOf t), fn := s.chainFn sc, len := n, srcSpace := 3,
                    final := last && !s.cwFlag sc 0 }
  let v : Xfer :=
    if !read then { v with dstSpace := 2, dstOp := c.op }
    else if idl then { v with op := 5, list := { space := sp, addr := a }, skip := c.out }
    else if sp = 2 then { v with dstSpace := 2, dstOp := c.op2 }
    else { v with dstSpace := sp, dst := a + c.out }
  let r := s.newXfer v
  r.1.modChain sc fun c => { c with fwd := some r.2 }

/-- An XF word whose packets have all gone on is done moving (R100). -/
def State.xfIdle (s : State) (sc : Nat) : State :=
  let c := s.chain sc
  let more := (s.threadOf sc).elim false fun t => !(s.thread t).furrow.pkts.isEmpty ||
    s.fab.any fun k => match k.body with | .pkt u _ _ => decide (u = t) | _ => false
  if c.xf && c.wait && c.xfer.isNone && c.fwd.isNone && !more then (s.modChain sc fun c => { c with wait := false }).advance sc else s

/-- A transformed packet has gone on: the read position moves on (R96), and the list position is kept (R95). -/
def State.forwarded (s : State) (sc x : Nat) : State :=
  match s.xfer x, s.threadOf sc with
  | some v, some t =>
    let s := ((s.saveList sc v).dropXfer x).modChain sc fun c => { c with fwd := none }
    if v.code.getD 0 = 0 ∨ v.code.getD 0 = 12 then
      let s := s.modThread t fun h => { h with furrow := { h.furrow.next.release with mark := none } }
      let s := s.modChain sc fun c => { c with out := c.out + v.done }
      let s := match v.dstOp with
        | some k => if v.final && (s.op k).elim false fun o => !o.lastSeen then s.opData k [] true else s
        | none => s
      s.xfIdle sc
    else s.moveFailed sc (v.code.getD 0) v.info v.nodeStatus
  | _, _ => s

/-- XRET (R215). A length above 4096 gives a free length. With no routine in progress it traps ILLEGAL with INFO 0. DESIGN CHOICE (log 83). -/
def bodyXret (s : State) (x : TArg) : TRes :=
  let h := s.thread x.t
  match h.shadow with
  | none => .trap 4 0
  | some c =>
    let bad := decide (4096 < h.a.toNat)
    let n := if bad then s.free.toNat % 4097 else h.a.toNat
    let s := if bad then s.tick else s
    let p := s.pktAt x.t 0
    let sc := h.sc?
    let off := sc.elim 0 fun sc =>
      let c := s.chain sc
      if readCode c.code then c.out else (c.op.bind s.op).elim 0 fun o => o.sentOff
    let hdr : Pkt := { p with tag := 0, offset := off, data := List.replicate n 0 }
    let s := s.modThread x.t fun h => { h.unshadow c with
      a := BitVec.ofNat 32 n, fpsr := c.fpsr ||| h.fpsr, pc := c.pc, div := none, out := h.out.wrN 0x8000 (hdr.bytes.take 16) }
    match sc with
    | some sc =>
      let k := s.chain sc
      if k.xf && k.wait && decide (k.phase = .moving) && (s.pkt x.t 0).isSome then .done (s.forward sc x.t n p.last) else .done s
    | none => .done s

/-- WATCHDOG (R216): the routine's budget is exhausted. -/
def execWatchdog (t : Nat) (s : State) : Host.Outcome State Fault Refusal :=
  let h := s.thread t
  if s.running && decide (t < 1024) && h.shadow.isSome && decide (h.budget ≠ 0) && !h.stopped then fin (s.doTrap t 11 0 4 0) else .next s

/-! ## The instructions -/

/-- BRA's row (R174, R177). -/
def infoBra : TInfo := { legal := okForm [.b8] [], step := false, body := fun s x => x.upd s fun h => { h with pc := branchTo h x.f } }

/-- BRA (R174, R177). -/
def execBra (t : Nat) (f : TForm) (s : State) : Host.Outcome State Fault Refusal := tRun (.bra t f) infoBra t f s

/-- DBNZ's row (R178). -/
def infoDbnz : TInfo := { legal := okForm [.b8] [], step := false, body := bodyDbnz }

/-- DBNZ (R178). -/
def execDbnz (t : Nat) (f : TForm) (s : State) : Host.Outcome State Fault Refusal := tRun (.dbnz t f) infoDbnz t f s

/-- JMP's row (R175, R177). -/
def infoJmp : TInfo := { legal := okForm [] [0, 1, 2, 3], step := false, body := bodyJmp }

/-- JMP (R175, R177). -/
def execJmp (t : Nat) (f : TForm) (s : State) : Host.Outcome State Fault Refusal := tRun (.jmp t f) infoJmp t f s

/-- CALL's row (R179, R181). -/
def infoCall : TInfo := { legal := okForm [] [0, 1, 2, 3], step := false, operand := false, body := bodyCall }

/-- CALL (R179, R181). -/
def execCall (t : Nat) (f : TForm) (s : State) : Host.Outcome State Fault Refusal := tRun (.call t f) infoCall t f s

/-- CALLA's row (R179, R181). -/
def infoCalla : TInfo := { legal := okForm [] [0], step := false, body := fun s x => callTo ((s.thread x.t).a.toNat % 65536) (opImm x.f % 256) s x }

/-- CALLA (R179, R181). -/
def execCalla (t : Nat) (f : TForm) (s : State) : Host.Outcome State Fault Refusal := tRun (.calla t f) infoCalla t f s

/-- RET's row (R180, R181). -/
def infoRet : TInfo := { legal := okForm [.m8] [], step := false, body := bodyRet }

/-- RET (R180, R181). -/
def execRet (t : Nat) (f : TForm) (s : State) : Host.Outcome State Fault Refusal := tRun (.ret t f) infoRet t f s

/-- WAIT's row (R188, R213). -/
def infoWait : TInfo := { legal := okForm [.e8] [], routine := false, step := false, body := bodyWait }

/-- WAIT (R188, R213). -/
def execWait (t : Nat) (f : TForm) (s : State) : Host.Outcome State Fault Refusal := tRun (.wait t f) infoWait t f s

/-- FENCE's row (R165, R174): it waits for the posted stores that a node has not answered; every other store and dirty-context write is
complete at once. -/
def infoFence : TInfo :=
  { legal := okForm [.zero] [], routine := false, step := false, body := fun s x => if s.winStores x.t ≠ 0 then .stall else .done s }

/-- FENCE (R165, R174). -/
def execFence (t : Nat) (f : TForm) (s : State) : Host.Outcome State Fault Refusal := tRun (.fence t f) infoFence t f s

/-- TRAP's row (R174, R183). -/
def infoTrap : TInfo := { legal := okForm [.i8] [], routine := false, step := false, body := fun _ x => .trap 10 (opImm x.f) }

/-- TRAP (R174, R183). -/
def execTrap (t : Nat) (f : TForm) (s : State) : Host.Outcome State Fault Refusal := tRun (.trap t f) infoTrap t f s

/-- RTE's row (R185). -/
def infoRte : TInfo := { legal := okForm [.zero] [], routine := false, step := false, body := bodyRte }

/-- RTE (R185). -/
def execRte (t : Nat) (f : TForm) (s : State) : Host.Outcome State Fault Refusal := tRun (.rte t f) infoRte t f s

/-- XCALL's row (R210, R212). -/
def infoXcall : TInfo := { legal := okForm [] [0, 1, 2, 3], routine := false, step := false, body := bodyXcall }

/-- XCALL (R210, R212). -/
def execXcall (t : Nat) (f : TForm) (s : State) : Host.Outcome State Fault Refusal := tRun (.xcall t f) infoXcall t f s

/-- XRET's row (R215). -/
def infoXret : TInfo := { legal := okForm [.zero] [], step := false, unit := true, body := bodyXret }

/-- XRET (R215). -/
def execXret (t : Nat) (f : TForm) (s : State) : Host.Outcome State Fault Refusal := tRun (.xret t f) infoXret t f s

/-- TMR's row (R175, R187). -/
def infoTmr : TInfo := { legal := okForm [] [0, 1, 2, 3], routine := false, step := false, body := fun s x => s.operand x 4 fun v => x.upd s fun h => { h with timer := BitVec.ofNat 32 v } }

/-- TMR (R175, R187). -/
def execTmr (t : Nat) (f : TForm) (s : State) : Host.Outcome State Fault Refusal := tRun (.tmr t f) infoTmr t f s

/-- NEXT's row (R449). -/
def infoNext : TInfo := { legal := okForm [.zero] [], routine := false, step := false, body := bodyNext }

/-- NEXT (R449). -/
def execNext (t : Nat) (f : TForm) (s : State) : Host.Outcome State Fault Refusal := tRun (.next t f) infoNext t f s

/-- FMARK's row (R449). -/
def infoFmark : TInfo := { legal := okForm [.zero] [], routine := false, step := false, body := furrowOp fun f => { f with mark := some f.rd } }

/-- FMARK (R449). -/
def execFmark (t : Nat) (f : TForm) (s : State) : Host.Outcome State Fault Refusal := tRun (.fmark t f) infoFmark t f s

/-- FREWIND's row (R449). -/
def infoFrewind : TInfo := { legal := okForm [.zero] [], routine := false, step := false, body := furrowOp Furrow.rewind }

/-- FREWIND (R449). -/
def execFrewind (t : Nat) (f : TForm) (s : State) : Host.Outcome State Fault Refusal := tRun (.frewind t f) infoFrewind t f s

/-- REL's row (R449). -/
def infoRel : TInfo := { legal := okForm [.zero] [], routine := false, step := false, unit := true, body := furrowOp Furrow.release }

/-- REL (R449). -/
def execRel (t : Nat) (f : TForm) (s : State) : Host.Outcome State Fault Refusal := tRun (.rel t f) infoRel t f s

end Sys2Proof.Machine
end

