-- ==== Sys2Proof/Machine/Barrow.lean ====
section
/-! DEFINITION. The events of Barrow transfers: binding, read data, and the completion of a dispatch (R257-R268, R302). -/

namespace Sys2Proof.Machine

/-! ## Codeword errors (R22-R24) -/

/-- A Barrow delivers corrected data, and counts it (R22). -/
def State.bwCorrected (s : State) (b : Nat) : State := (s.bumpSat (0x308004 + 16 * b)).report (44 + b / 8)

/-! ## Binding -/

/-- TRANSFER_BIND (R257, R258, R264, R265): the first waiting transfer of a half takes a free slot; where there is none, a
transfer of lower priority is evicted. -/
def execTransferBind (half : Bool) (s : State) : Host.Outcome State Fault Refusal :=
  if !s.running then .next s
  else match s.nextUnbound half, s.pickSlot half with
    | some x, some (b, k) => fin (s.bindXfer x b k)
    | some x, none =>
      match (s.xfer x).bind fun v => s.victim half v.prio with
      | some y =>
        if s.xfers.any fun e => e.2.elim false fun v => v.evicting && (v.slot.elim 0 fun q => q.1 / 8) == b2n half then .next s
        else fin ((s.modXfer y fun v => { v with evicting := true }).evictDone y)
      | none => .next s
    | none, _ => .next s

/-! ## Read data -/

/-- The outstanding read of a stream is over. -/
def Xfer.gotNothing (v : Xfer) (second : Bool) : Xfer := if second then { v with want2 := none } else { v with want := none }

/-- Where the outstanding read of a stream reads: space and address. -/
def Xfer.readAt (v : Xfer) (second : Bool) : Nat × Nat :=
  if second then (v.dstSpace, v.dst + (v.rd2 - match v.want2 with | some (.data n) => n | _ => 0))
  else match v.want with
    | some .list => (v.list.space, v.list.addr)
    | some (.data n) => if v.op = 4 then (v.list.space, (v.list.seg.elim 0 fun r => r.2.1)) else (v.srcSpace, v.src + (v.rd - n))
    | none => (v.srcSpace, v.src)

/-- The space of a stream's outstanding read; a list's segments name their own (R94). -/
def Xfer.readSpace (v : Xfer) (second : Bool) : Nat :=
  match second, v.want with
  | false, some (.data _) => if v.op = 4 then v.list.seg.elim 0 fun r => r.1 else v.srcSpace
  | _, _ => (v.readAt second).1

/-- A read of a transfer fails (R23, R127, R283, R521). -/
def State.readFailed (s : State) (x : Nat) (second : Bool) (v : Xfer) (code : Nat) : State :=
  let info := match (if second then v.want2 else v.want) with
    | some (.data n) => (if second then v.rd2 else v.rd) - n
    | _ => 0xFFFFFFFF
  (((s.setXfer x (some (v.gotNothing second))).endXfer x code info).evictDone x).orphaned x

/-- Good words arrive in the slot: an armed injection hits one of them (R680). -/
def State.arriveWords (s : State) (x : Nat) (second : Bool) (v : Xfer) (b : Bytes) : State :=
  match s.injBurst 4, v.slot with
  | some n, some (u, _) =>
    if n ≤ 32 then ((s.injDone.bwCorrected u).arrive x second b).evictDone x
    else s.injDone.report (42 + u / 8) |>.readFailed x second v 4
  | _, _ => ((s.arrive x second b).evictDone x).orphaned x

/-- READ_DATA_RETURN (R262): data of one stream arrives from the host or from buffer memory; a node's data arrives with its
flits (RX_DATA). -/
def execReadDataReturn (x : Nat) (second : Bool) (data : Bytes) (err : RdErr) (s : State) : Host.Outcome State Fault Refusal :=
  let why : ReadFor := if second then .xfer2 x else .xfer x
  match s.reads.find? fun r => decide (r.why = why) with
  | some r =>
    let i := (s.readOver why).hostIn err
    let err := i.2
    let s := i.1.readError r.fn err
    match s.xfer x with
    | none => fin s
    | some v =>
      if v.code.isSome then fin ((s.setXfer x (some (v.gotNothing second))).orphaned x)
      else if err ≠ .ok then fin (s.readFailed x second v (rdCode err))
      else fin (s.arriveWords x second v ((padTo r.len data).drop ((v.readAt second).2 % 64)))
  | none =>
    match s.xfer x with
    | none => .next s
    | some v =>
      if (if second then v.want2 else v.want).isNone || decide (v.readSpace second ≠ 1) then .next s
      else if v.code.isSome then fin ((s.setXfer x (some (v.gotNothing second))).orphaned x)
      else
        let a := (v.readAt second).2
        let n := match (if second then v.want2 else v.want) with | some (.data n) => n | _ => 16
        let e := if err = .ok then s.cwWorst .buffer (a / 64) ((a + n - 1) / 64) else 2
        let s := if e = 2 then s.report 90 else if e = 1 then (v.slot.elim s fun q => s.bwCorrected q.1) else s
        if e = 2 then fin (s.readFailed x second v 4) else fin (s.arriveWords x second v (s.buf.rdN a n))

/-! ## Completion of a dispatch -/

/-- The data of a POWER request is in: its CMD goes to the node (R386), once that can take it. -/
def State.powerGo (s : State) (sc x : Nat) : State :=
  match s.xfer x, s.threadOf sc with
  | some v, some t =>
    let drop := fun s : State => (s.dropXfer x).modChain sc fun c => { c with xfer := none }
    if v.code.getD 0 = 0 then
      let b := (s.pktAt t 0).data
      let node := (s.chain sc).node
      match s.findOph node with
      | none => s
      | some oph =>
        let s := (drop s).modThread t fun h => { h with furrow := { h.furrow.next.release with mark := none } }
        let s := (s.firstRelease node).openEx oph { node, owner := .power sc, kind := 6 }
        let s := s.sendCmd (ophKey oph) { oph, kind := 6, param := leNat (b.take 2) } true
        s.modChain sc fun c => { c with op := some (ophKey oph), residual := 0, phase := .answer, wait := false }
    else (drop s).moveFailed sc (v.code.getD 0) v.info v.nodeStatus (some false)
  | _, _ => s

/-- Something that a transfer wrote has not reached its fabric port's output yet. -/
def State.crossing (s : State) (x : Nat) : Bool := s.fab.any fun k => decide (k.xfer = some x)

/-- DISPATCH_COMPLETE (R302): all it wrote has left; DONE and CODE go into the record and DISP_DONE is raised; firmware's own dispatches take their
word on (R100, R304). -/
def execDispatchComplete (x : Nat) (s : State) : Host.Outcome State Fault Refusal :=
  match s.xfer x with
  | none => .next s
  | some v =>
    if !s.running || v.code.isNone || v.want.isSome || v.want2.isSome || s.crossing x then .next s
    else match v.owner with
      | .disp t a =>
        let s := s.dispPut t a v.done (v.code.getD 0)
        fin (((s.dropXfer x).modThread t fun h => { h with disp := h.disp.erase x }).latch t 1)
      | .chain sc =>
        if !s.mayChange sc then .next s
        else if (s.chain sc).xfer = some x then
          (if s.isPower sc && (s.chain sc).op.isNone then fin (s.powerGo sc x) else fin ((s.moved sc x).xfIdle sc))
        else if (s.chain sc).fwd = some x then fin (s.forwarded sc x)
        else fin (s.dropXfer x)
      | .chan _ | .ended => .next s

end Sys2Proof.Machine
end

