-- ==== Sys2Proof/Machine/DmaCmds.lean ====
section
/-! DEFINITION. The commands and events of the stand-alone DMA channels (R272-R296). -/

namespace Sys2Proof.Machine

/-! ## Descriptors (R274-R279) -/

/-- A channel takes the descriptor at its head. -/
def chTake (c op : Nat) (s : State) : Host.Outcome State Fault Refusal :=
  if c < 256 then (match s.dscReady c op with | some e => fin (s.dscTake c e) | none => .next s) else .next s

/-- DMA_COPY (R277). -/
def execDmaCopy (c : Nat) (s : State) : Host.Outcome State Fault Refusal := chTake c 1 s

/-- DMA_FILL (R277). -/
def execDmaFill (c : Nat) (s : State) : Host.Outcome State Fault Refusal := chTake c 2 s

/-- DMA_COMPARE (R278). -/
def execDmaCompare (c : Nat) (s : State) : Host.Outcome State Fault Refusal := chTake c 3 s

/-- DMA_GATHER (R277). -/
def execDmaGather (c : Nat) (s : State) : Host.Outcome State Fault Refusal := chTake c 4 s

/-- DMA_SCATTER (R277). -/
def execDmaScatter (c : Nat) (s : State) : Host.Outcome State Fault Refusal := chTake c 5 s

/-- DESCRIPTOR_COMPLETE (R280, R281). -/
def execDescriptorComplete (c : Nat) (s : State) : Host.Outcome State Fault Refusal :=
  if !s.running then .next s
  else match s.dscResult c with
    | some (code, done, ns) => fin (s.dscFinish c code done ns)
    | none => .next s

/-! ## Enable and disable (R272, R273) -/

/-- Channels that are enabled. -/
def State.liveChans (s : State) : List Nat := (List.range 256).filter fun c => s.rb (bwCh c 0) 0

/-- Whether an enable is refused, its fields written (R273). -/
def State.chRefused (s : State) (c : Nat) : Bool :=
  let dq := s.chDq c
  !s.qEn dq || decide (s.qType dq ≠ 3) || decide (s.qFn dq ≠ s.chFn c) ||
  (s.liveChans.any fun k => decide (k ≠ c) && (decide (s.chDq k = dq) ||
    (decide (s.rf (bwCh c 0) 2 2 = 1) && decide (s.rf (bwCh k 0) 2 2 = 1) && decide (s.rf (bwCh k 0) 4 3 = s.rf (bwCh c 0) 4 3)))) ||
  decide (s.rf (bwCh c 0) 2 2 = 3) || decide (s.rf (bwCh c 0) 8 3 = 7)

/-- A write of BW_CH_CFG with EN = 1. -/
def State.chEnable (s : State) (c : Nat) (v : Word) (who : Req) : State :=
  if s.rb (bwCh c 0) 0 then s
  else
    let s := s.softWrite who (bwCh c 0) (v &&& ~~~1#32)
    if s.chRefused c then s.setBit (bwCh c 0x18) 0
    else ((((s.wb (bwCh c 0) 0 true).set64 (bwCh c 0x20) 0).wf (bwCh c 0x10) 0 3 1).modChan c fun q => { q with halt := false, abort := false }).chShow c

/-- A write of BW_CH_CFG with EN = 0. -/
def State.chDisable (s : State) (c : Nat) (v : Word) (who : Req) : State :=
  if !s.rb (bwCh c 0) 0 then s.softWrite who (bwCh c 0) (v &&& ~~~1#32)
  else if s.rf (bwCh c 0x10) 0 3 = 1 ∨ s.rf (bwCh c 0x10) 0 3 = 5 then ((s.wb (bwCh c 0) 0 false).wf (bwCh c 0x10) 0 3 0)
  else s.setBit (bwCh c 0x18) 1

/-- CH_ENABLE (R273). -/
def execChEnable (who : Req) (c : Nat) (v : Word) (s : State) : Host.Outcome State Fault Refusal :=
  if 256 ≤ c then .next s else regGo s who (bwCh c 0) fun s => s.chEnable c v who

/-- CH_DISABLE (R272). -/
def execChDisable (who : Req) (c : Nat) (v : Word) (s : State) : Host.Outcome State Fault Refusal :=
  if 256 ≤ c then .next s else regGo s who (bwCh c 0) fun s => s.chDisable c v who

/-- A write of BW_CH_CFG. -/
def State.chCfgWrite (s : State) (c : Nat) (v : Word) (who : Req) : State :=
  if v.getLsbD 0 then s.chEnable c v who else s.chDisable c v who

/-! ## Control (R286-R288) -/

/-- Marks the transfer of a channel paused, or not. -/
def State.pauseXfer (s : State) (c : Nat) (b : Bool) : State :=
  match (s.chan c).xfer.bind fun x => (s.xfer x).map fun v => (x, v) with
  | some (x, v) =>
    let v := { v with paused := b }
    let s := s.setXfer x (some v)
    match v.slot with
    | some (u, k) => s.slotMark v u k true
    | none => s
  | none => s

/-- PAUSE = 1. -/
def State.chPauseOn (s : State) (c : Nat) : State :=
  (((s.wb (bwCh c 0xC) 0 true).modChan c fun q => { q with paused := true }).pauseXfer c true).chShow c

/-- PAUSE = 0: the transfer continues at the exact byte. -/
def State.chPauseOff (s : State) (c : Nat) : State :=
  let s := ((s.wb (bwCh c 0xC) 0 false).modChan c fun q => { q with paused := false }).pauseXfer c false
  let s := match (s.chan c).xfer with
    | some x => s.pump x
    | none => s
  if (s.chan c).halt && (s.chan c).desc.isEmpty then s.chStop c else s.chShow c

/-- HALT acts on an enabled channel that is not STOPPED. -/
def State.chHaltOn (s : State) (c : Nat) : State :=
  if s.rf (bwCh c 0x10) 0 3 = 0 ∨ s.rf (bwCh c 0x10) 0 3 = 5 then s else s.chHalt c

/-- ABORT acts on an enabled channel that is not STOPPED. -/
def State.chAbortOn (s : State) (c : Nat) : State :=
  if s.rf (bwCh c 0x10) 0 3 = 0 ∨ s.rf (bwCh c 0x10) 0 3 = 5 then s else s.chAbort c

/-- START: only from STOPPED. -/
def State.chStartOn (s : State) (c : Nat) : State :=
  if s.rf (bwCh c 0x10) 0 3 = 5 then (s.wf (bwCh c 0x10) 0 3 1).chShow c else s

/-- A write of BW_CH_CTL: the bits whose mask bit is 1 (R652). -/
def State.chCtlWrite (s : State) (c : Nat) (v : Word) : State :=
  let on := fun k => v.getLsbD (16 + k) && v.getLsbD k
  let s := if v.getLsbD 16 then (if v.getLsbD 0 then s.chPauseOn c else s.chPauseOff c) else s
  let s := if on 1 then s.chHaltOn c else s
  let s := if on 2 then s.chAbortOn c else s
  if on 3 then s.chStartOn c else s

/-- A BW_CH_CTL command. -/
def chGo (who : Req) (c : Nat) (s : State) (k : State → State) : Host.Outcome State Fault Refusal :=
  if 256 ≤ c then .next s else regGo s who (bwCh c 0xC) k

/-- CH_PAUSE (R287). -/
def execChPause (who : Req) (c : Nat) (s : State) : Host.Outcome State Fault Refusal := chGo who c s fun s => s.chPauseOn c

/-- CH_UNPAUSE (R287). -/
def execChUnpause (who : Req) (c : Nat) (s : State) : Host.Outcome State Fault Refusal := chGo who c s fun s => s.chPauseOff c

/-- CH_HALT (R287). -/
def execChHalt (who : Req) (c : Nat) (s : State) : Host.Outcome State Fault Refusal := chGo who c s fun s => s.chHaltOn c

/-- CH_ABORT (R287). -/
def execChAbort (who : Req) (c : Nat) (s : State) : Host.Outcome State Fault Refusal := chGo who c s fun s => s.chAbortOn c

/-- CH_START (R287). -/
def execChStart (who : Req) (c : Nat) (s : State) : Host.Outcome State Fault Refusal := chGo who c s fun s => s.chStartOn c

/-! ## Pacing (R290-R293) -/

/-- The enabled channel paced by request line `n`. -/
def State.lineChan (s : State) (n : Nat) : Option Nat := s.liveChans.find? fun c => s.chLine c = some n

/-- DREQ_RISE (R290, R291): in edge mode PEND counts it; in level mode a burst may begin, unless the line is not sampled yet. -/
def execDreqRise (n : Nat) (s : State) : Host.Outcome State Fault Refusal :=
  if !s.running || decide (8 ≤ n) then .next s
  else
    let s := { s with dreq := pinSet s.dreq n true }
    match s.lineChan n with
    | some c => fin (if s.rb (bwCh c 0) 7 then s.pend c 1 else s)
    | none => .next s

/-- DREQ_SAMPLE (R290): the level of DREQ is sampled 16 ns after DACK fell. -/
def execDreqSample (n : Nat) (level : Bool) (s : State) : Host.Outcome State Fault Refusal :=
  if !s.running || decide (8 ≤ n) then .next s
  else
    fin { s with dreq := pinSet s.dreq n level, dackWait := pinSet s.dackWait n false }

/-- DMA_PACE_TIMEOUT (R293): the descriptor has waited for a request, and none has come. -/
def execDmaPaceTimeout (c : Nat) (s : State) : Host.Outcome State Fault Refusal :=
  if !s.running || decide (256 ≤ c) || decide (s.rf (bwCh c 8) 16 16 = 0) then .next s
  else match (s.chan c).xfer.bind fun x => (s.xfer x).map fun v => (x, v) with
    | some (x, v) => if v.paced && decide (v.burst = 0) && v.code.isNone && !s.paceReq c then fin (s.endXfer x 11 v.done) else .next s
    | none => .next s

end Sys2Proof.Machine
end

