-- ==== Sys2Proof/Machine/Enum.lean ====
section
/-! DEFINITION. Enumeration of a port and of a sub-ring (R345-R364). -/

namespace Sys2Proof.Machine

/-! ## Entries and replies -/

/-- The configured entries of a port, in index order. -/
def State.portNodes (s : State) (p : Nat) : List Nat := ((List.range 1024).map fun i => p * 1024 + i).filter fun n => s.ntFlag n 0

/-- The configured entry a path names (R362). -/
def State.nodeAt (s : State) (p path : Nat) : Option Nat := (s.portNodes p).find? fun n => s.nodePath n = path

/-- The depth of a path (R346). -/
def pathDepth (path : Nat) : Nat := if bits path 12 6 ≠ 0 then 3 else if bits path 6 6 ≠ 0 then 2 else 1

/-- The path of the master of the ring a path lies on: 0 for the direct ring. -/
def pathMaster (path : Nat) : Nat := if pathDepth path = 3 then path % 4096 else if pathDepth path = 2 then path % 64 else 0

/-- Whether a path lies below a group node's path (R348). -/
def pathBelow (g path : Nat) : Bool := decide (pathDepth g < pathDepth path) && decide (path % 64 ^ pathDepth g = g)

/-- The stations of a path in order of their levels, as one number. -/
def pathOrd (path : Nat) : Nat := bits path 0 6 * 4096 + bits path 6 6 * 64 + bits path 12 6

/-- The enumeration's group nodes at a depth, in ascending station order, with their SUBHOPS. -/
def EnumSt.groups (e : EnumSt) (depth : Nat) : List (Nat × Nat) :=
  let l := e.found.foldl (fun (l : List Nat) f => if f.2.1 = depth && f.2.2 && !(l.contains f.1) then l ++ [f.1] else l) []
  (l.foldr (List.orderedInsert fun a b => pathOrd a ≤ pathOrd b) []).map fun q =>
    (q, (e.subhops.find? fun h => h.1 = q).elim 0 fun h => h.2)

/-- The enumeration of a port. -/
def State.en (s : State) (p : Nat) : EnumSt := (s.port p).en

/-- A state with it replaced. -/
def State.setEn (s : State) (p : Nat) (e : EnumSt) : State := s.modPort p fun t => { t with en := e }

/-- KP_ENUM_CTL.ENUM reads 1 while an enumeration runs or is queued. -/
def State.enumShow (s : State) (p : Nat) : State :=
  s.wb (0x410010 + 4 * p) 0 (decide ((s.en p).phase ≠ 0) || (s.port p).enumQueued)

/-! ## The end of an enumeration -/

/-- An entry that ends without PRESENT (R362, R364). -/
def State.enumAbsent (s : State) (p n : Nat) : State :=
  let e := s.en p
  if n ∈ e.kept then s
  else
    let s := if s.ntFlag n 1 then s.setNtFlag n 1 false else s
    if n ∈ e.seen then s
    else
      let s := s.setBit (0x410020 + 4 * p) 1
      if s.ntFlag n 5 then s.setBit (0x410020 + 4 * p) 2 else s

/-- Members of transactions on a port that await something from it: transaction and member. -/
def State.membersOn (s : State) (p : Nat) : List (Nat × Member) :=
  s.txns.foldl (fun l e => if e.2.used && (e.2.decided || e.2.cause.isSome) then
    l ++ (e.2.members.filter fun m => decide (nodePort m.node = p) && !m.answered).map fun m => (e.1, m) else l) []

/-- A member becomes unconfirmed (R405, R406). -/
def State.unconfirm (s : State) (x node : Nat) : State :=
  let s := (s.modMember x node fun m => { m with unconf := true }).setBit 0x680004 2
  let s := if (s.txn x).recovery then { s with recov := SMap.set (fun _ => 0) s.recov node (SMap.get (fun _ => 0) s.recov node - 1) } else s
  s.endCommit x

/-- After an enumeration: decisions not yet sent go out, and once more those to unconfirmed members; a recovery member whose
entry is not it becomes unconfirmed (R405, R416, R587). -/
def State.enumDecisions (s : State) (p : Nat) : State :=
  (s.membersOn p).foldl (fun s e =>
    let ok := s.ntFlag e.2.node 0 && !s.ntFlag e.2.node 3
    if e.2.unconf then (if ok && s.ntFlag e.2.node 1 then s.sendDecision e.1 e.2.node else s)
    else if !ok && (s.txn e.1).recovery then s.unconfirm e.1 e.2.node
    else if e.2.sent then s else s.sendDecision e.1 e.2.node) s

/-- An enumeration completes (R362, R586, R604). -/
def State.enumEnd (s : State) (p : Nat) : State :=
  let e := s.en p
  let scope := (s.portNodes p).filter fun n => e.sub.elim true fun g => pathBelow g (s.nodePath n)
  let s := scope.foldl (fun s n => s.enumAbsent p n) s
  let s := (s.setBit (0x410020 + 4 * p) 0).setReg (0x410030 + 4 * p) (BitVec.ofNat 32 (min e.found.length 2047 + 2048 * min e.matched 2047))
  let hops := s.rf (kp p 0xC) 14 7
  let s := s.modPort p fun t => { t with en := {}, firstEnum := true, lastHops := if e.sub.isNone then some hops else t.lastHops }
  let s := s.setCond (66 + p) ((s.portNodes p).any fun n => s.ntFlag n 5 && !s.ntFlag n 1)
  s.enumDecisions p

/-! ## The exchanges (R360) -/

/-- An ENUM of the device. -/
def State.enumSend (s : State) (p path op pos pre level share index : Nat) : State :=
  s.queueFlit p { path, body := .enumReq op pos pre level share index }

/-- The next ENUM is sent, or the enumeration completes; a queued one then begins from step 1. -/
def State.enumGo (p : Nat) : Nat → State → State
  | 0, s => s
  | n + 1, s =>
    let e := s.en p
    match e.phase with
    | 0 => s
    | 1 =>
      if e.pos < s.rf (kp p 0xC) 14 7 then s.enumSend p 0x3FFFF 0 e.pos 0 1 0 0
      else State.enumGo p n (s.setEn p { e with phase := 2, pos := 0, parents := e.groups 1 })
    | 4 =>
      match e.sets with
      | m :: _ =>
        let path := s.nodePath m
        s.enumSend p path 2 0 (pathMaster path) (pathDepth path) (if s.nt m 10 1 = 0 then 16 else s.nt m 10 1) m
      | [] =>
        let s := s.enumEnd p
        if (s.port p).enumQueued then
          State.enumGo p n (s.modPort p fun t => { t with en := { phase := 1 }, enumQueued := false })
        else s
    | k =>
      match e.parents with
      | (path, sh) :: r =>
        if e.pos < sh then s.enumSend p path 1 e.pos path k 0 0
        else State.enumGo p n (s.setEn p { e with parents := r, pos := 0 })
      | [] =>
        State.enumGo p n (s.setEn p (if k = 2 then { e with phase := 3, pos := 0, parents := e.groups 2 } else { e with phase := 4 }))

/-- The next exchange of an enumeration. -/
def State.enumNext (s : State) (p : Nat) : State :=
  let e := s.en p
  (State.enumGo p (2 * e.found.length + e.parents.length + 16) s).enumShow p

/-- A request of an enumeration. -/
def FlitBody.isEnum : FlitBody → Bool | .enumReq .. => true | _ => false

/-- An enumeration of a port begins; on a port that is not ACTIVE it is queued until the port is (R359, R360). A request of an earlier one
that has not left does not leave: at most one is outstanding. -/
def State.enumStart (s : State) (p : Nat) : State :=
  if s.kpSt p ≠ 2 then (s.modPort p fun t => { t with enumQueued := true, en := {} }).enumShow p
  else ((s.dropTx p fun f => f.body.isEnum).modPort p fun t => { t with en := { phase := 1 }, enumQueued := false }).enumNext p

/-- An enumeration is asked for: it begins, or is queued behind the running one (R359). -/
def State.enumAsk (s : State) (p : Nat) : State :=
  if (s.en p).phase ≠ 0 then (s.modPort p fun t => { t with enumQueued := true }).enumShow p else s.enumStart p

/-- A group node reports TOPOLOGY: its sub-ring alone is enumerated (R353, R359), over the SUBHOPS of its record; while another
enumeration runs, one of the whole port is queued. -/
def State.enumSub (s : State) (p node : Nat) : State :=
  let path := s.nodePath node
  let d := pathDepth path
  if !s.ntFlag node 2 || decide (3 ≤ d) then s
  else if (s.en p).phase ≠ 0 ∨ s.kpSt p ≠ 2 then (s.modPort p fun t => { t with enumQueued := true }).enumShow p
  else (s.setEn p { phase := d + 1, parents := [(path, bits (s.cap node 34 1) 0 6)], sub := some path }).enumNext p

/-! ## Replies -/

/-- A port takes flits on ring-in: ACTIVE or QUIESCE, and not at TRANSPORT, where the ring is bypassed (R672). -/
def State.ringIn (s : State) (p : Nat) : Bool :=
  s.running && decide (p < 5) && decide (s.kpSt p = 2 ∨ s.kpSt p = 3) && decide (s.lbDepth (p + 1) ≠ 5)

/-- A good flit, or `n` of them, is decoded on ring-in: it and its corrected bytes per lane are counted (R316, R333), and it ends a run
of uncorrectable ones (R339). -/
def State.flitIn (s : State) (p : Nat) (corr : List Nat) (n : Nat := 1) : State :=
  let s := s.bump (kp p 0x40) n
  let s := ((List.range 4).zip corr).foldl (fun s e => if e.2 = 0 then s else s.bump (kp p (0x48 + 8 * e.1)) e.2) s
  s.modPort p fun t => { t with
    uncorrRun := 0, winFlits := t.winFlits + n, winCorr := (List.range 4).map fun l => t.winCorr.getD l 0 + corr.getD l 0 }

/-- The identity of a capability record matches an entry (R362). -/
def State.identity (s : State) (n : Nat) (cap : Bytes) : Bool :=
  decide (leAt cap 0 2 = s.nt n 16 2) && decide (leAt cap 2 2 = s.nt n 18 2) && decide (s.nt n 20 2 ≤ leAt cap 4 2) &&
  decide (leAt cap 7 1 = 1)

/-- What every reply writes into its entry. -/
def State.enumMark (s : State) (n pos : Nat) (group : Bool) : State :=
  ((s.setNtFlag n 2 group).ntSet n 7 1 pos).ntSet n 128 8 s.now

/-- A node replied to a QUERY or SUBQUERY (R354, R362). -/
def State.enumFound (s : State) (p path level pos : Nat) (cap : Bytes) : State :=
  let e := s.en p
  let cap := padTo 64 cap
  let grp := bitOn (leAt cap 6 1) 6
  let dup := e.found.any fun f => f.1 = path
  let s := if grp && decide (3 ≤ level) then s.setBit (0x410020 + 4 * p) 7 else s
  let e := { e with found := e.found ++ [(path, level, grp)], subhops := e.subhops ++ [(path, bits (leAt cap 34 1) 0 6)] }
  let stat := 0x410020 + 4 * p
  match s.nodeAt p path with
  | none => (if dup then s.setBit stat 5 else s.setBit stat 4).setEn p e
  | some n =>
    let e := { e with seen := n :: e.seen }
    let s := s.enumMark n pos grp
    if dup then
      ((((s.setBit stat 5).setNtFlag n 6 true).setNtFlag n 3 true).setNtFlag n 1 true).setEn p
        { e with sets := e.sets.erase n, kept := n :: e.kept }
    else if s.identity n cap then
      (((s.setNtFlag n 6 false).setNtFlag n 3 false).ntPut n 64 cap).setEn p { e with sets := e.sets ++ [n] }
    else
      ((((s.setBit stat 3).setNtFlag n 6 false).setNtFlag n 3 true).setNtFlag n 1 true).setEn p { e with kept := n :: e.kept }

/-- An ENUM reply arrives (R361, R362, R364). -/
def State.enumReply (s : State) (p : Nat) (r : EnumF) : State :=
  let e := s.en p
  let path := r.prefixPath.toNat
  if e.phase = 4 then
    match e.sets with
    | n :: ns =>
      if r.op = 2 ∧ s.nodePath n = path then
        ((s.setNtFlag n 1 true).ntSet n 128 8 s.now).setEn p
          { e with sets := ns, tries := 0, matched := e.matched + 1, kept := n :: e.kept } |>.enumNext p
      else s
    | [] => s
  else if e.phase = 0 ∨ r.op.toNat ≠ min (e.phase - 1) 1 ∨ r.pos.toNat ≠ e.pos ∨ r.level.toNat ≠ e.phase then s
  else
    let s := s.enumFound p path e.phase e.pos r.cap
    (s.setEn p { s.en p with pos := e.pos + 1, tries := 0 }).enumNext p

/-- RX_ENUM_REPLY (R362): an enumeration that a retrain interrupted starts again (R360), and takes no reply before. -/
def execRxEnumReply (p : Nat) (_path : BitVec 18) (corr : List Nat) (d : EnumF) (s : State) : Host.Outcome State Fault Refusal :=
  if decide (4 ≤ p) || !s.ringIn p then .next s
  else if s.kpSt p ≠ 2 then fin (s.flitIn p corr)
  else fin ((s.flitIn p corr).enumReply p d)

/-- A write of KP_ENUM_CTL. -/
def State.enumCtlWrite (s : State) (p : Nat) (v : Word) : State :=
  if v.getLsbD 0 && v.getLsbD 16 && decide (p < 4) && s.running then s.enumAsk p else s

/-- ENUM (R359). -/
def execEnum (who : Req) (p : Nat) (s : State) : Host.Outcome State Fault Refusal :=
  regGuarded s who fun s => s.enumCtlWrite p 0x10001

/-- ENUM_TIMEOUT (R364): sent twice more, then the next position, or the next SET. -/
def execEnumTimeout (p : Nat) (s : State) : Host.Outcome State Fault Refusal :=
  let e := s.en p
  if !s.running || decide (4 ≤ p) || decide (e.phase = 0) || decide (s.kpSt p ≠ 2) then .next s
  else if e.tries < 2 then fin ((s.setEn p { e with tries := e.tries + 1 }).enumNext p)
  else if e.phase = 4 then fin ((s.setEn p { e with tries := 0, sets := e.sets.drop 1 }).enumNext p)
  else fin (((s.setBit (0x410020 + 4 * p) 6).setEn p { e with tries := 0, pos := e.pos + 1 }).enumNext p)

end Sys2Proof.Machine
end

