-- ==== Sys2Proof/Machine/RingRx.lean ====
section
/-! DEFINITION. Flits that arrive on ring-in (R314-R316, R324-R329, R366-R386, R473, R296): data, status, attentions, pacing,
credit and discarded flits. -/

namespace Sys2Proof.Machine

/-! ## Any flit -/

/-- The station whose credits and buffers a path uses (R352). -/
def stationOf (path : Nat) : Nat := path % 64

/-- The key of a station's credits on a VC: 0 CMD, 1 DATA, 2 DECIDE, 3 ATTN. -/
def vcKey (path vc : Nat) : Nat := stationOf path * 4 + vc

/-- Buffers that a station may still fill on a VC (R329): 16-bit totals, as R324 counts them. -/
def Port.room (t : Port) (key : Nat) : Nat :=
  (t.rxInit.getD (key % 4) 0 + SMap.get (fun _ => 0) t.rxFreed key + 65536 - SMap.get (fun _ => 0) t.rxCount key) % 65536

/-- The source that reports a credit violation of a port (R329); the twin link's is TW_FAULT. -/
def credSource (p : Nat) : Nat := if p = 4 then 71 else 62 + p

/-- A credited flit arrives: `k` is what it does, unless its sender had no buffer left for it (R329), or it is removed from the input
Furrow (R447). Its buffer is freed as the device consumes it (R326): at once, where `k` does not keep its data. -/
def creditedKeep (p : Nat) (path : BitVec 18) (vc : Nat) (corr : List Nat) (s : State) (k : State → State × Bool) :
    Host.Outcome State Fault Refusal :=
  if !s.ringIn p then .next s
  else
    let s := s.flitIn p corr
    let key := vcKey path.toNat vc
    let n := (s.port p).room key
    if n = 0 ∨ 32768 ≤ n then fin (((s.setBit (kp p 0x14) 5).bump (kp p 0x80)).report (credSource p))
    else
      let x := (s.modPort p fun t => t.rxArrive key).furrowPass (2 * (p + 1))
      let r := if x.2 then k x.1 else (x.1, false)
      fin (if r.2 then r.1 else r.1.modPort p fun t => t.rxFree key)

/-- A credited flit that is consumed at once. -/
def credited (p : Nat) (path : BitVec 18) (vc : Nat) (corr : List Nat) (s : State) (k : State → State) :
    Host.Outcome State Fault Refusal := creditedKeep p path vc corr s fun s => (k s, false)

/-! ## Data (R373, R374) -/

/-- Data of a window load has come in (R162): once what it asked for is all in, the operation ends; short of it, it is asked for. -/
def State.winData (s : State) (key t : Nat) (b : Bytes) (fend last : Bool) : State :=
  let s := s.modThread t fun h => { h with win := h.win.map fun w => if w.op = some key then { w with got := w.got ++ b } else w }
  let left := (s.thread t).win.elim 0 fun w => w.len - w.got.length
  if !fend || last then s else if left = 0 then (s.sendEnd key).1 else s.sendFetch key left

/-- A window load's operation has ended: with an error, or short of what it asked for, it fails (R164). -/
def State.winEnded (s : State) (key t : Nat) (d : StatusF) : State :=
  let f := fun w : WinLoad =>
    if w.op = some key then { w with op := none, bad := w.bad || decide (d.result ≠ 0) || decide (w.got.length < w.len) } else w
  s.modThread t fun h => { h with win := h.win.map f }

/-- A DATA flit of an open read exchange: only data that continues what is in, within the fetch, counts (R373, R379). It lies in the
input Furrow until a transfer takes it (R462). Answers whether it does. -/
def State.dataFlit (s : State) (p vk key : Nat) (o : NOp) (d : DataF) : State × Bool :=
  let off := d.offset.toNat
  if o.rcvd < off ∨ off + d.data.length < o.rcvd ∨ o.lastSeen then (s, false)
  else
    let b := (d.data.drop (o.rcvd - off)).take (o.fetchEnd - o.rcvd)
    let got := o.rcvd + b.length
    let ends := d.fend || d.last
    if b.isEmpty && !ends then (s, false) else
    let s := s.modOp key fun o => { o with
      rcvd := got, fetchEnd := if ends then got else o.fetchEnd, lastSeen := d.last, tries := 0,
      await := if d.fend && !o.endSent then none else o.await }
    let s := if d.last && !o.endSent then s.awaitEnd key else s
    match o.owner with
    | .winLoad t => (s.winData key t b d.fend d.last, false)
    | _ =>
      if b.isEmpty then (s, false)
      else (s.setInbox key (s.inboxOf key ++ [{ key := vk, epoch := s.rf (kp p 0xC) 10 4, data := b }]), true)

/-- An open exchange that a flit from a path names by its handle. -/
def State.exchange (s : State) (p : Nat) (path : BitVec 18) (oph : Nat) : Option NOp :=
  match s.op (ophKey oph) with
  | some o => if o.gen = oph / 16384 ∧ nodePort o.node = p ∧ s.nodePath o.node = path.toNat then some o else none
  | none => none

/-- The sequence number of a test flit that has come in: its low 16 bits stand where a DATA flit has OPH (log 83). -/
def State.testSeq (s : State) (p : Nat) (d : DataF) : Nat :=
  (s.port p).testRx + (d.oph.toNat + 65536 - (s.port p).testRx % 65536) % 65536

/-- A test flit of FAR loopback returns (R670): it is checked against the sequence, and its PRBS31, here the data of the flit, against the
expected one. -/
def State.testFlit (s : State) (p : Nat) (corr : List Nat) (d : DataF) : State :=
  let a := 0x700100 + 0x100 * p
  let n := s.testSeq p d
  let lost := n - (s.port p).testRx
  let s := (s.flitIn p corr).bump (a + 8)
  let s := if lost = 0 then s else s.bumpSat (a + 0x40) lost
  let s := if padTo 236 d.data = prbs Config.testStart (n * 236) 236 then s else s.bumpSat (a + 0x44) 1
  s.modPort p fun t => { t with testRx := n + 1 }

/-- A test flit arrives on the twin link at FAR (R671): the device whose PAIR_ID is high sends it back, the other checks it. -/
def State.twinTest (s : State) (corr : List Nat) (d : DataF) : State :=
  if s.rb 0x24 8 then
    let n := s.testSeq 4 d
    ((s.flitIn 4 corr).modPort 4 fun t => { t with testRx := n + 1 }).queueFlit 4 { path := 0x3FFFF, body := .test (BitVec.ofNat 32 n) }
  else s.testFlit 4 corr d

/-- RX_DATA (R373); with the broadcast path at FAR, a test flit. -/
def execRxData (p : Nat) (path : BitVec 18) (corr : List Nat) (d : DataF) (s : State) : Host.Outcome State Fault Refusal :=
  if s.running && decide (p < 4) && decide (path = 0x3FFFF) && decide (s.rf (0x700100 + 0x100 * p) 0 3 = 4) && decide (s.kpSt p = 2) then
    fin (s.testFlit p corr d)
  else if s.ringIn p && decide (p = 4) && decide (s.lbDepth 5 = 4) then fin (s.twinTest corr d)
  else if 4 ≤ p then .next s
  else creditedKeep p path 1 corr s fun s =>
    match s.exchange p path d.oph.toNat with
    | some o => if o.read && decide (o.kind = 0) then s.dataFlit p (vcKey path.toNat 1) (ophKey d.oph.toNat) o d else (s, false)
    | none => (s, false)

/-! ## Status -/

/-- A DACK: a member has answered the decision (R403, R408, R409). -/
def State.dackFlit (s : State) (p : Nat) (path : BitVec 18) (d : StatusF) : State :=
  let x := d.txid.toNat
  let t := s.txn x
  match t.members.find? fun m => decide (nodePort m.node = p) && decide (s.nodePath m.node = path.toNat) with
  | some m =>
    if !t.used || decide (t.tserial ≠ d.tserial.toNat) || !(t.decided || t.cause.isSome) || m.answered then s
    else
      let s := s.modMember x m.node fun m => { m with answered := true, result := d.result }
      let s := if t.decided && decide (d.result ≠ 0) then (s.setBit 0x680004 3).report 81 else s
      let s := if t.recovery && !m.unconf then
          { s with recov := SMap.set (fun _ => 0) s.recov m.node (SMap.get (fun _ => 0) s.recov m.node - 1) }
        else s
      -- R403: END_GROUP ends once DONE is durable; R406: where a member stays unconfirmed, once the others have answered
      if (s.txn x).allIn then s.tryDone x else s.endCommit x
  | none => s

/-- A RESERVE, RELEASE or POWER of a chain is answered (R385, R386, R424, R427). -/
def State.answered (s : State) (sc : Nat) (o : NOp) (d : StatusF) : State :=
  let r := d.result.toNat
  if (s.chain sc).phase ≠ .answer then s
  else if r = 0 then
    let s := s.modChain sc fun c => { c with op := none, endStatus := none }
    s.wordEnd sc
  else if r = 0x85 ∨ r = 0x86 then s.endAbsent sc o.node
  else s.endChain sc { bits := 4, de := some true, code := 1, info := r }

/-- Dispatches that write to an operation which has ended send it no more (R372): they end with what the status says (R302). -/
def State.writersEnd (s : State) (key : Nat) (d : StatusF) : State :=
  s.xfers.foldl (fun s e => match e.2 with
    | some v => match v.owner with
      | .disp .. => if v.dstOp = some key && decide (v.op ≠ 3) && v.code.isNone then s.endXfer e.1 (statusCode d) v.done d.result else s
      | _ => s
    | none => s) s

/-- What the current word of a chain still writes to an operation that has ended is stopped (R372). -/
def State.wordStop (s : State) (sc key : Nat) : State :=
  let c := s.chain sc
  let writes := fun x : Option Nat => (x.bind s.xfer).elim false fun (v : Xfer) => v.code.isNone && (decide (v.dstOp = some key) || c.xf)
  if writes c.xfer || writes c.fwd then (s.stopXfer sc).modChain sc fun c => { c with wait := false } else s

/-- A chain's operation has ended: what it does depends on where the chain stands (R100, R119, R375). What a node sent before it
is still written. -/
def State.opEnded (s : State) (sc key : Nat) (second : Bool) (o : NOp) (d : StatusF) : State :=
  let s := s.modChain sc fun c =>
    if second then { c with endStatus2 := some d, op2 := none } else { c with endStatus := some d, op := none, sent := o.sentOff }
  let c := s.chain sc
  match c.phase with
  | .ending => if c.op.isNone && c.op2.isNone then s.fixStatus sc { ce := c.ran, de := some true } else s
  | .moving => (if o.read then s else s.wordStop sc key).advance sc
  | _ => s

/-- A channel's operation has ended (R280, R283, R710): what a node sent before it is still written, and nothing more is written to it. -/
def State.chanEnded (s : State) (c : Nat) (second : Bool) (o : NOp) (d : StatusF) : State :=
  let s := s.modChan c fun q => if second then { q with endStatus2 := some d } else { q with endStatus := some d }
  match (s.chan c).xfer.bind fun x => (s.xfer x).map fun v => (x, v) with
  | none => s
  | some (x, v) =>
    if d.result ≠ 0 then s.endXfer x (statusCode d) v.done d.result
    else if !o.read && decide (v.done < v.len) then s.endXfer x 0 v.done
    else s

/-- A STATUS that ends, or answers, an exchange (R369, R372, R375, R385, R386). -/
def State.statusFlit (s : State) (key : Nat) (o : NOp) (d : StatusF) : State :=
  if o.kind ≠ 0 then
    if !d.ans && !d.endd then s
    else
      let s := s.closeEx key
      let s := if o.kind = 6 && d.ans && decide (d.result ≠ 0x85) then s.ntPut o.node 88 [d.pdomOn] else s
      match o.owner with
      | .reserve sc | .release sc | .power sc => s.answered sc o d
      | _ => s
  else if !d.endd && decide (d.result ≠ 0x85) then s
  else
    let s := ((s.dropTx (nodePort o.node) fun f => f.dataOf (o.gen * 16384 + key)).closeEx key).opOver key
    let s := s.writersEnd key d
    match o.owner with
    | .chain sc => s.opEnded sc key false o d
    | .chain2 sc => s.opEnded sc key true o d
    | .chanSrc c => s.chanEnded c false o d
    | .chanDst c => s.chanEnded c true o d
    | .winLoad t => s.winEnded key t d
    | _ => s

/-- The exchange that a STATUS answers (R372): its node sent it; or, with RESULT UNREACHABLE, a group node above it that could not relay the
flit, and whose path it carries then (R312, R353). DEDUCED (log 83). -/
def State.answerFor (s : State) (p : Nat) (path : BitVec 18) (d : StatusF) : Option NOp :=
  match s.exchange p path d.oph.toNat with
  | some o => some o
  | none =>
    match s.op (ophKey d.oph.toNat) with
    | some o =>
      if d.result = 0x85 ∧ o.gen = d.oph.toNat / 16384 ∧ nodePort o.node = p ∧ pathBelow path.toNat (s.nodePath o.node) = true then some o else none
    | none => none

/-- RX_STATUS (R372). -/
def execRxStatus (p : Nat) (path : BitVec 18) (corr : List Nat) (d : StatusF) (s : State) : Host.Outcome State Fault Refusal :=
  if 4 ≤ p then .next s else credited p path 0 corr s fun s =>
    if d.dack then s.dackFlit p path d
    else match s.answerFor p path d with
      | some o => s.statusFlit (ophKey d.oph.toNat) o d
      | none => s

/-! ## Attentions and pacing -/

/-- The node a path of a port names, for an ATTN or PACE flit (R473): PRESENT and not MISMATCH. -/
def State.sender (s : State) (p : Nat) (path : BitVec 18) : Option Nat :=
  ((List.range 1024).map fun i => p * 1024 + i).find? fun n =>
    s.ntFlag n 1 && !s.ntFlag n 3 && decide (s.nodePath n = path.toNat)

/-- The event of an ATTN flit at its source (R474-R476): TOPOLOGY starts the sub-ring enumeration first, DOMAIN writes PDOM_ON
first. -/
def State.attnFlit (s : State) (node : Nat) (a : AttnF) : State :=
  let k := node * 16 + a.source.toNat
  let s := if a.source = 14 then s.enumSub (nodePort node) node else s
  let s := if a.source = 15 then s.ntPut node 88 (a.info.take 1) else s
  let lvl := a.lvl && decide (a.source.toNat < 14)
  let s := s.modSrc k fun c => { c with level := lvl, info := a.info }
  if lvl then s.srcLevel k a.level else s.srcEvent k

/-- RX_ATTN (R473). -/
def execRxAttn (p : Nat) (path : BitVec 18) (corr : List Nat) (d : AttnF) (s : State) : Host.Outcome State Fault Refusal :=
  if 4 ≤ p then .next s else credited p path 3 corr s fun s =>
    match s.sender p path with
    | some n => s.attnFlit n d
    | none => (s.setBit 0x180004 2).bump (cnt 0x180040 4)

/-- A PACE flit for a DMA channel (R296), or for a subchannel's WAIT_PACE (R110). In such a wait, one of a node other than the one waited
for is discarded. DESIGN CHOICE (log 83). -/
def State.paceFlit (s : State) (n : Nat) (d : PaceF) : State :=
  if d.tgt then
    let c := d.number.toNat
    if c < 256 ∧ s.rf (bwCh c 0) 2 2 = 2 ∧ s.rf (bwCh c 8) 0 12 = n then
      s.pend c d.grant.toNat
    else s
  else
    let sc := d.number.toNat
    if (s.threadOf sc).isNone then s
    else if (s.chain sc).phase = .paceNode then
      if (s.chain sc).node = n then s.wordEnd sc else s
    else s.cxSet sc 276 2 (n + 32768)

/-- RX_PACE (R296). -/
def execRxPace (p : Nat) (path : BitVec 18) (corr : List Nat) (d : PaceF) (s : State) : Host.Outcome State Fault Refusal :=
  if 4 ≤ p then .next s else credited p path 3 corr s fun s =>
    match s.sender p path with
    | some n => s.paceFlit n d
    | none => s

/-! ## Credit (R324-R327, R338) -/

/-- The GRANTs of a CREDIT. -/
def creditGrants (c : CreditF) : List Nat := [c.cmd.toNat, c.data.toNat, c.decide.toNat, c.attn.toNat]

/-- A CREDIT of a station is adopted: a re-base restarts SENT. -/
def Port.adopt (t : Port) (st : Nat) (c : CreditF) : Port :=
  let z : Nat → Nat := fun _ => 0
  let l := (List.range 4).zip (creditGrants c)
  let t := { t with grant := l.foldl (fun g e => SMap.set z g (st * 4 + e.1) e.2) t.grant }
  if c.rebase then
    { t with sent := l.foldl (fun g e => SMap.set z g (st * 4 + e.1) 0) t.sent,
             rebased := if t.rebased.contains st then t.rebased else t.rebased ++ [st] }
  else t

/-- RX_CREDIT (R324). -/
def execRxCredit (p : Nat) (path : BitVec 18) (corr : List Nat) (d : CreditF) (s : State) : Host.Outcome State Fault Refusal :=
  if !s.ringIn p then .next s
  else
    let s := s.flitIn p corr
    if d.epoch.toNat ≠ s.linkEpoch p ∨ d.quiesce then fin s
    else fin (s.modPort p fun t => t.adopt (stationOf path.toNat) d)

/-! ## Flits not delivered -/

/-- RX_BAD_FLIT (R316, R339); or a good IDLE. -/
def execRxBadFlit (p : Nat) (corr : List Nat) (k : BadFlit) (s : State) : Host.Outcome State Fault Refusal :=
  if !s.ringIn p then .next s
  else match k with
    | .uncorrectable =>
      let n := (s.port p).uncorrRun + 1
      let s := (((s.bump (kp p 0x40)).setBit (kp p 0x14) 2).bump (kp p 0x68)).modPort p fun t =>
        { t with uncorrRun := n, winFlits := t.winFlits + 1, winUncorr := t.winUncorr + 1 }
      fin (if 8 ≤ n then s.unplannedRetrain p else s)
    | .header => fin (((s.flitIn p corr).setBit (kp p 0x14) 3).bump (kp p 0x70))
    | .unclaimed => fin (((s.flitIn p corr).setBit (kp p 0x14) 4).bump (kp p 0x78))
    | .idle => fin (s.flitIn p corr)

end Sys2Proof.Machine
end

