-- ==== Sys2Proof/Machine/LinkCmds.lean ====
section
/-! DEFINITION. The events of a port's link and of the twin link's (R318-R342, R462): training, degradation, quiescing,
bypass, credit and token timers. -/

namespace Sys2Proof.Machine

/-- A port whose link events act: the block runs. -/
def State.linkLive (s : State) (p : Nat) : Bool := s.running && decide (p < 5) && decide (s.lbDepth (p + 1) ≠ 5)

/-! ## KP_CTL -/

/-- DOWN at a port (R340). -/
def State.downPort (s : State) (p : Nat) : State := if s.kpSt p = 0 then s else s.portDown p

/-- TRAIN at a port; at the fenced twin link it takes the fence away first, once TW_PAR is clear (R645). -/
def State.trainGo (s : State) (p : Nat) : State :=
  let s := if p = 4 && s.rb 0x40008 14 && !s.sticky 70 then s.wb 0x40008 14 false else s
  s.trainPort p

/-- A write of KP_CTL (R335): DOWN wins over TRAIN. -/
def State.kpCtlWrite (s : State) (p : Nat) (v : Word) : State :=
  if !s.linkLive p then s
  else if v.getLsbD 1 && v.getLsbD 17 then s.downPort p
  else if v.getLsbD 0 && v.getLsbD 16 then s.trainGo p
  else s

/-- KP_TRAIN (R335). -/
def execKpTrain (who : Req) (p : Nat) (s : State) : Host.Outcome State Fault Refusal :=
  if 5 ≤ p then .next s else regGo s who (kp p 8) fun s => s.kpCtlWrite p 0x10001

/-- KP_DOWN (R340). -/
def execKpDown (who : Req) (p : Nat) (s : State) : Host.Outcome State Fault Refusal :=
  if 5 ≤ p then .next s else regGo s who (kp p 8) fun s => s.kpCtlWrite p 0x20002

/-! ## Training (R330-R332) -/

/-- Training fails at the floor (R332). -/
def State.trainFail (s : State) (p : Nat) : State :=
  ((s.setBit (kp p 0x14) 6).portDown p).report (if p = 4 then 71 else 54 + p)

/-- The configuration after a third failed attempt: `locked`: the lanes of ring-in locked at the end of EQ. -/
def lowerCfg (lanes : BitVec 4) (nrz : Bool) (locked : BitVec 4) : Option (BitVec 4 × Bool) :=
  let h := laneHalves lanes
  let w := laneCount lanes
  let l := locked &&& lanes
  if 1 < w ∧ l = h.1 then some (h.1, nrz)
  else if 1 < w ∧ l = h.2 then some (h.2, nrz)
  else if !nrz then some (lanes, true)
  else if 1 < w then some (h.1, nrz)
  else none

/-- An attempt at training fails (R332). -/
def State.attemptFailed (s : State) (p : Nat) (locked : BitVec 4) : State :=
  let t := s.port p
  if t.attempt < 2 then (s.beginTraining p t.tgtLanes t.tgtNrz).modPort p fun t => { t with attempt := t.attempt + 1 }
  else match lowerCfg t.tgtLanes t.tgtNrz locked with
    | some (m, n) => (s.beginTraining p m n).modPort p fun t => { t with attempt := 0 }
    | none => s.trainFail p

/-- The allotments of a re-base by VC: CMD, DATA, DECIDE, ATTN, and whether they were cut (R328, R462). -/
def State.grants (s : State) (p : Nat) : List Nat × Bool :=
  let a := kp p 0x18
  let c := max 1 (s.af a 0 4)
  let e := max 1 (s.af a 4 4)
  let t := max 1 (s.af a 8 4)
  let d := s.af a 12 8
  let h := if p = 4 then 1 else s.rf (kp p 0xC) 14 7
  if h * (c + e + t + d) ≤ 1024 then ([c, d, e, t], false)
  else
    let d := max 1 (1024 / h - c - e - t)
    if h * (c + e + t + d) ≤ 1024 then ([c, d, e, t], true) else ([1, 1, 1, 1], true)

/-- The re-base that ends a training (R338). -/
def State.rebase (s : State) (p : Nat) : State :=
  let g := s.grants p
  let s := if g.2 then s.setBit 0x280004 p else s
  let s := s.modPort p fun t =>
    { t with credits := [], grant := [], sent := [], rebased := [], rxFreed := [], rxCount := [], rxSaid := [], rxInit := g.1,
             tx := t.tx.filter fun f => match f.body with | .credit _ => false | _ => true }
  let n := fun k => BitVec.ofNat 16 (g.1.getD k 0)
  s.broadcastCredit p { cmd := n 0, data := n 1, decide := n 2, attn := n 3, epoch := BitVec.ofNat 4 (s.linkEpoch p), rebase := true,
                        quiesce := false }

/-! ## Degradation (R333) -/

/-- A step-down is due. -/
def State.stepDown (s : State) (p : Nat) (corr : List Nat) : State :=
  let lanes : BitVec 4 := BitVec.ofNat 4 (s.rf (kp p 0xC) 6 4)
  let nrz := s.rb (kp p 0xC) 5
  let h := laneHalves lanes
  let sum := fun (m : BitVec 4) => (List.range 4).foldl (fun a l => if m.getLsbD l then a + corr.getD l 0 else a) 0
  let worse := if sum h.1 < sum h.2 then h.2 else h.1
  let other := if worse = h.1 then h.2 else h.1
  let w := laneCount lanes
  let go := fun (s : State) (m : BitVec 4) (n : Bool) => ((s.setBit (kp p 0x14) 0).bump (kp p 0x90)).plannedRetrain p m n
  if 1 < w ∧ s.af (kp p 4) 24 4 * sum lanes ≤ 16 * sum worse then go s other nrz
  else if !nrz then go s lanes true
  else if 1 < w then go s other true
  else (s.setBit (kp p 0x14) 7).report (if p = 4 then 71 else 58 + p)

/-- A window is evaluated: `n`: the unplanned retrains in it. -/
def State.evalWindow (s : State) (p bytes : Nat) (corr : List Nat) (uncorr n : Nat) : State :=
  let lanes : BitVec 4 := BitVec.ofNat 4 (s.rf (kp p 0xC) 6 4)
  let csum := (List.range 4).foldl (fun a l => if lanes.getLsbD l then a + corr.getD l 0 else a) 0
  let ratio := s.af (kp p 4) 8 4
  let uthr := s.af (kp p 4) 16 8
  let bad := (decide (ratio ≠ 0) && decide (bytes / 2 ^ ratio < csum)) || (decide (uthr ≠ 0) && decide (uthr ≤ uncorr)) || decide (3 ≤ n)
  let run := if bad then (s.port p).run + 1 else 0
  if max 1 (s.af (kp p 4) 12 4) ≤ run ∧ s.ab (kp p 0) 3 ∧ s.rb (kp p 4) 31 = false then
    (s.modPort p fun t => { t with run := 0 }).stepDown p corr
  else s.modPort p fun t => { t with run }

/-- The IDLEs that came on ring-in since the last command that told of one: `n` good ones with the bytes corrected in them per lane, and
`bad` uncorrectable flits among them, of which no eight came together (R316, R333, R339; log 83). -/
def State.idlesIn (s : State) (p n : Nat) (corr : List Nat) (bad : Nat) : State :=
  if !s.ringIn p || decide (n = 0) || decide (7 * n < bad) then s
  else
    let s := s.flitIn p corr n
    if bad = 0 then s
    else (((s.bump (kp p 0x40) bad).setBit (kp p 0x14) 2).bump (kp p 0x68) bad).modPort p fun t =>
      { t with winFlits := t.winFlits + bad, winUncorr := t.winUncorr + bad }

/-- DEG_WINDOW_END (R333, R334): a window that ends in QUIESCE or during an unplanned retrain waits (R340). `idles`, `corr`, `bad`: as in
`State.idlesIn`. -/
def execDegWindowEnd (p idles : Nat) (corr : List Nat) (bad : Nat) (s : State) : Host.Outcome State Fault Refusal :=
  if !s.linkLive p then .next s
  else
    let s := s.idlesIn p idles corr bad
    let t := s.port p
    let z := s.modPort p fun t => { t with unpl := 0, winFlits := 0, winCorr := [], winUncorr := 0 }
    if s.kpSt p = 2 then fin (z.evalWindow p (256 * t.winFlits) t.winCorr t.winUncorr t.unpl)
    else if s.kpSt p = 3 || (s.kpSt p = 1 && t.unplan) then
      fin (z.modPort p fun t' => { t' with winStash := t.winStash ++ [(256 * t.winFlits, t.winCorr, t.winUncorr, t.unpl)] })
    else .next s

/-! ## ACTIVE -/

/-- What starts once a port is ACTIVE: the enumerations of R359 and R360, else the decisions still to be sent (R405). -/
def State.ringActive (s : State) (p : Nat) : State :=
  let t := s.port p
  if decide (t.en.phase ≠ 0) || t.enumQueued || !t.firstEnum || decide (t.lastHops ≠ some (s.rf (kp p 0xC) 14 7)) then s.enumStart p
  else (s.membersOn p).foldl (fun s e => if e.2.sent || e.2.unconf then s else s.sendDecision e.1 e.2.node) s

/-- The link becomes ACTIVE (R330 step 4, R334, R338, R340), with BYP_HOLD high (R341). Its last slots were IDLEs of FRAME (R318). A window that ended during an
unplanned retrain is evaluated now, on the lanes that are active now. DEDUCED (log 46). -/
def State.linkActive (s : State) (p : Nat) : State :=
  let t := s.port p
  let cfg : BitVec 5 := BitVec.ofNat 5 (t.tgtLanes.toNat + 16 * b2n t.tgtNrz)
  let a := kp p 0xC
  let s := ((((s.wf a 0 3 2).wf a 3 2 (widthCode t.tgtLanes)).wf a 5 1 (b2n t.tgtNrz)).wf a 6 4 t.tgtLanes.toNat).wf a 10 4 (s.linkEpoch p + 1)
  let s := (if p < 4 then s.wf a 21 1 1 else s).bump (kp p 0x88)
  let keep := t.unplan && decide (cfg = t.prevCfg)
  let s := s.modPort p fun t =>
    let t := { t with tp := .off, attempt := 0, planned := false, unplan := false, queuedTrain := false, queuedLane := false, out := .flits,
                      hist := List.replicate 16 .idle, uncorrRun := 0, winStash := [] }
    if keep then t else { t with run := 0, unpl := 0, winFlits := 0, winCorr := [], winUncorr := 0 }
  let s := s.rebase p
  let s := t.winStash.foldl (fun s w => if t.unplan && decide (s.kpSt p = 2) then s.evalWindow p w.1 w.2.1 w.2.2.1 w.2.2.2 else s) s
  let s := if p < 4 then s.ringActive p else s
  let retrain := fun (s : State) (n : Bool) => match s.bestLanes p with
    | some m => s.plannedRetrain p m n
    | none => s
  if s.kpSt p ≠ 2 then s.modPort p fun q => { q with queuedTrain := t.queuedTrain, queuedLane := t.queuedLane }
  else if t.queuedTrain then retrain s (s.bestNrz p)
  else if t.queuedLane then retrain s (s.rb a 5)
  else s

/-- TRAINING_PHASE_END (R330). `locked`: the lanes of ring-in locked; `back`: whether TSE has returned, and the HOPS of TS2; `rtt`: measured. In BASE the
lock comes first, from which on TSE is sent, and its return ends the phase. DEDUCED (log 46). -/
def execTrainingPhaseEnd (p : Nat) (locked : BitVec 4) (back : RingBack) (rtt : BitVec 16) (s : State) :
    Host.Outcome State Fault Refusal :=
  if !s.linkLive p || decide (s.kpSt p ≠ 1) then .next s
  else
    let t := s.port p
    match t.tp with
    | .off => .next s
    | .base =>
      if locked = 0 then .next s
      else if t.tse && back.tse then fin (s.modPort p fun t => { t with tp := .eq, tse := false })
      else fin (s.modPort p fun t => { t with tse := true })
    | .eq => if locked &&& t.tgtLanes = t.tgtLanes then fin (s.modPort p fun t => { t with tp := .confirm }) else .next s
    | .confirm =>
      let s := (s.wf (kp p 0xC) 14 7 (if p = 4 then 1 else back.hops.toNat)).wf (kp p 0x10) 0 16 rtt.toNat
      if 50000 < rtt.toNat then fin (s.attemptFailed p t.tgtLanes) else fin (s.modPort p fun t => { t with tp := .frame })
    | .frame => fin (s.linkActive p)

/-- The lanes of ring-in that count as locked at the end of EQ when a phase exceeds its timeout (R332): none in BASE; all the target's once
EQ has ended with them; where EQ itself ends by its timeout, those locked then. DEDUCED (log 46). -/
def Port.lockedAt (t : Port) (locked : BitVec 4) : BitVec 4 :=
  match t.tp with
  | .off | .base => 0
  | .eq => locked
  | .confirm | .frame => t.tgtLanes

/-- TRAINING_TIMEOUT (R332). `lo`, `hi`: which of lanes 0 and 1, and of lanes 2 and 3, are locked, the halves that a lower configuration takes. -/
def execTrainingTimeout (p : Nat) (lo hi : BitVec 2) (s : State) : Host.Outcome State Fault Refusal :=
  if !s.linkLive p || decide (s.kpSt p ≠ 1) || decide ((s.port p).tp = .off) then .next s
  else fin (s.attemptFailed p ((s.port p).lockedAt (hi ++ lo)))

/-! ## Quiescing and unplanned retrains (R336-R340) -/

/-- QUIESCE_MARKER_RETURN (R336): a flit like any other (R316), on the port `m.body`. -/
def execQuiesceMarkerReturn (m : Heard Nat) (s : State) : Host.Outcome State Fault Refusal :=
  let p := m.body
  if !s.linkLive p || decide (s.kpSt p ≠ 3) then .next s
  else fin ((s.flitIn p m.corr).beginTraining p (s.port p).tgtLanes (s.port p).tgtNrz)

/-- QUIESCE_TIMEOUT (R337). -/
def execQuiesceTimeout (p : Nat) (s : State) : Host.Outcome State Fault Refusal :=
  if !s.linkLive p || decide (s.kpSt p ≠ 3) then .next s
  else fin ((s.setBit (kp p 0x14) 8).unplannedRetrain p)

/-- A port whose ring-in loses lock, or shows TS0, while flits run on it. -/
def State.linkLost (s : State) (p : Nat) : State := if s.kpSt p = 2 ∨ s.kpSt p = 3 then s.unplannedRetrain p else s

/-- LANE_LOCK_LOSS (R339, R340); a forwarding station drops its bypass hold (R626). -/
def execLaneLockLoss (p lane : Nat) (s : State) : Host.Outcome State Fault Refusal :=
  if !s.linkLive p || decide (4 ≤ lane) then .next s
  else if s.kpSt p = 0 then fin (s.wf (kp p 0xC) 21 1 0)
  else if s.rb (kp p 0xC) (6 + lane) then fin (s.linkLost p)
  else .next s

/-- TS0_RECEIVED (R339, R340). -/
def execTs0Received (p : Nat) (s : State) : Host.Outcome State Fault Refusal :=
  if !s.linkLive p then .next s else fin (s.linkLost p)

/-! ## Bypass (R341, R342) -/

/-- RING_OUT_IDLE_TIMER (R342): it runs on after a safe state, a flush or a start. -/
def execRingOutIdleTimer (p : Nat) (s : State) : Host.Outcome State Fault Refusal :=
  if p < 5 ∧ s.rf (kp p 0xC) 21 1 = 0 ∧ s.kpSt p = 0 then .next (s.modPort p fun t => { t with out := .elecIdle }) else .next s

/-- A port of PORTS of a device in pair mode that is not master: a forwarding station (R626). -/
def State.forwards (s : State) (p : Nat) : Bool :=
  decide (p < 4) && s.ab 0x481000 0 && decide (s.rf 0x481008 0 3 ≠ 1) && s.ab 0x481000 (1 + p) && decide (s.pdom p = 0) && !s.rb 0x40008 (10 + p)

/-- BYP_HOLD_RISE (R341); of a forwarding station: it is locked and forwards (R626). -/
def execBypHoldRise (p : Nat) (s : State) : Host.Outcome State Fault Refusal :=
  if !s.linkLive p || decide (4 ≤ p) then .next s
  else if s.kpSt p = 1 ∨ s.forwards p = true then fin (s.wf (kp p 0xC) 21 1 1)
  else .next s

/-! ## Timers -/

/-- CREDIT_TIMER (R326): a GRANT of a station has advanced and no CREDIT has said so. -/
def execCreditTimer (p st : Nat) (s : State) : Host.Outcome State Fault Refusal :=
  if !s.linkLive p || decide (s.kpSt p ≠ 2 ∧ s.kpSt p ≠ 3) then .next s
  else
    let z : Nat → Nat := fun _ => 0
    let t := s.port p
    if (List.range 4).any (fun vc => SMap.get z t.rxFreed (st * 4 + vc) ≠ SMap.get z t.rxSaid (st * 4 + vc)) && !t.credits.contains st then
      fin (s.modPort p fun t => { t with credits := t.credits ++ [st] })
    else .next s

/-- TOKEN_TIMER (R389). -/
def execTokenTimer (s : State) : Host.Outcome State Fault Refusal :=
  if !s.running then .next s
  else fin ([0, 1, 2, 3].foldl (fun s p => if s.kpSt p = 2 then s.modPort p fun t => { t with tokenDue := true } else s) s)

/-! ## Answers (R378, R379, R405) -/

/-- A third T_ANS has passed: END is sent once, and the work ends (R379). -/
def State.opGone (s : State) (key : Nat) (o : NOp) : State :=
  let oph := o.gen * 16384 + key
  let s := s.dropTx (nodePort o.node) fun f => f.dataOf oph
  (s.sendNode o.node (.cmd { oph, kind := 2 })).opLost key

/-- T_ANS passes for an exchange. -/
def State.opTimeout (s : State) (key : Nat) (o : NOp) (f : Flit) : State :=
  let s := s.ntSet o.node 136 4 (s.nt o.node 136 4 + 1)
  if o.tries < 2 then (s.queueFlit (nodePort o.node) f).modOp key fun o => { o with tries := o.tries + 1 } else s.opGone key o

/-- ANSWER_TIMEOUT (R379, R405): T_ANS runs only while the port is ACTIVE. -/
def execAnswerTimeout (a : Awaited) (s : State) : Host.Outcome State Fault Refusal :=
  if !s.running then .next s
  else match a with
    | .op oph =>
      match s.op (ophKey oph) with
      | some o =>
        match o.await with
        | some f =>
          if o.gen = oph / 16384 ∧ s.kpSt (nodePort o.node) = 2 then fin (s.opTimeout (ophKey oph) o f) else .next s
        | none => .next s
      | none => .next s
    | .member x node =>
      match (s.txn x).members.find? fun m => decide (m.node = node) with
      | some m =>
        -- R405: nothing is sent to an entry that is not the member; T_ANS runs for it all the same (log 83)
        let held := !m.sent && s.ntFlag node 0 && !s.ntFlag node 3
        if held || m.answered || m.unconf || decide (s.kpSt (nodePort node) ≠ 2) then .next s
        else if m.tries < 2 then fin ((s.modMember x node fun m => { m with tries := m.tries + 1 }).sendDecision x node)
        else fin (s.unconfirm x node)
      | none => .next s

/-- CRETRY_TIMER (R405). -/
def execCretryTimer (x node : Nat) (s : State) : Host.Outcome State Fault Refusal :=
  match (s.txn x).members.find? fun m => decide (m.node = node) with
  | some m => if s.running && (s.txn x).used && m.unconf && !m.answered && s.ntFlag node 1 then fin (s.sendDecision x node) else .next s
  | none => .next s

/-- TXID_WAIT_TIMEOUT (R395). -/
def execTxidWaitTimeout (sc : Nat) (s : State) : Host.Outcome State Fault Refusal :=
  if s.running && decide ((s.chain sc).phase = .txidWait) then
    fin (((s.setBit 0x680004 1).txidOutcome sc).endAborted sc)
  else .next s

/-! ## The Weeder (R428-R434) -/

/-- The subchannel a waiting chain's edge runs to (R428). -/
def State.waitsFor (s : State) (sc : Nat) : Option Nat :=
  (s.wait sc).bind fun w => match s.holder (w.node * 4 + w.slot) with
    | .tx x => some (s.txn x).sc
    | .sc n => some n
    | .none => none

/-- A walk (R429): the chains of the cycle found; none: no cycle; `some []`: abandoned. -/
def State.walk (s : State) (start : Nat) : Nat → List Nat → Option Nat → Option (List Nat)
  | _, _, none => none
  | 0, _, some _ => some []
  | n + 1, seen, some c =>
    if c = start then some seen
    else if (s.wait c).isNone then none
    else State.walk s start n (seen ++ [c]) (s.waitsFor c)

/-- The youngest of a list of chains: the largest AGE, then the higher SC (R431). -/
def State.youngest (s : State) : List Nat → Option Nat
  | [] => none
  | c :: cs => match s.youngest cs with
    | none => some c
    | some d => if s.cx d 96 8 < s.cx c 96 8 ∨ (s.cx d 96 8 = s.cx c 96 8 ∧ d < c) then some c else some d

/-- A victim's chain ends (R433). -/
def State.endVictim (s : State) (sc : Nat) : State :=
  let s := s.unwait sc
  let s := match s.openTx sc with
    | some x => (s.abortTx x 7).modChain sc fun c => { c with sa := true }
    | none => s
  (s.releaseSlots fun _ h => decide (h = Holder.sc sc)).endChain sc { bits := 64, de := some true }

/-- A cycle is broken (R431, R433). -/
def State.breakCycle (s : State) (cycle : List Nat) : State :=
  let tx := cycle.filter fun c => (s.chain c).holder.isSome
  match (s.youngest tx).or (s.youngest cycle) with
  | none => s
  | some v =>
    let s := (s.setBit 0x6A0000 0).bump 0x6A0010
    (s.setReg 0x6A0008 (BitVec.ofNat 32 (v + 16384 * b2n (s.openTx v).isSome + 32768 * cycle.length))).endVictim v

/-- WEEDER_WALK (R429). -/
def execWeederWalk (sc : Nat) (s : State) : Host.Outcome State Fault Refusal :=
  if !s.running || (s.wait sc).isNone then .next s
  else match s.walk sc 1024 [sc] (s.waitsFor sc) with
    | none => .next s
    | some [] => fin ((s.setBit 0x6A0000 2).bump 0x6A0018)
    | some c => fin (s.breakCycle c)

end Sys2Proof.Machine
end

