-- ==== Sys2Proof/Machine/FlitCodec.lean ====
section
/-! DEFINITION. The 256 bytes of a flit (R311-R313, R315, R317, R325, R367, R628, R670): header with its check, payload,
Reed-Solomon parity. The scrambler is in Codes.lean. -/

namespace Sys2Proof.Machine

/-! ## Header (R312) -/

/-- HCHK of header bits [25:0]: bit by bit, the highest first, by x^6 + x + 1; then six zero bits. -/
def hchkGo : Nat → Nat → Nat → Nat
  | 0, _, r => r
  | n + 1, v, r =>
    let r := 2 * r + (v / 2 ^ n) % 2
    hchkGo n v (if 64 ≤ r then (r ^^^ 67) % 64 else r)

/-- HCHK of a header. -/
def hchk (h : Nat) : Nat := hchkGo 32 (h % 2 ^ 26 * 64) 0

/-- A header: TYPE, VC, UP, PATH. -/
def header (type vc : Nat) (up : Bool) (path : Nat) : Nat :=
  let h := type + 16 * vc + 64 * b2n up + 256 * (path % 2 ^ 18)
  h + 2 ^ 26 * hchk h

/-! ## Parity (R313) -/

/-- Product in GF(2^8) by x^8 + x^4 + x^3 + x^2 + 1. -/
def gfMul : Nat → Byte → Byte → Byte
  | 0, _, _ => 0
  | n + 1, a, b =>
    let d : Byte := if a.getLsbD 7 then (a <<< 1) ^^^ 0x1D else a <<< 1
    (if b.getLsbD 0 then a else 0) ^^^ gfMul n d (b >>> 1)

/-- A polynomial, highest degree first, times (x − c). -/
def polyMulRoot (g : Bytes) (c : Byte) : Bytes :=
  List.zipWith (· ^^^ ·) (g ++ [0]) (0 :: g.map fun k => gfMul 8 k c)

/-- g(x) = (x − α)(x − α²)…(x − α¹¹), highest degree first, from α^i on. -/
def rsGen : Nat → Byte → Bytes → Bytes
  | 0, _, g => g
  | n + 1, c, g => rsGen n (gfMul 8 c 2) (polyMulRoot g c)

/-- The remainder after one more message byte. -/
def rsStep (g r : Bytes) (b : Byte) : Bytes :=
  let f := b ^^^ r.headD 0
  List.zipWith (fun a c => a ^^^ gfMul 8 f c) (r.drop 1 ++ [0]) g

/-- P0 to P10 of a message. -/
def rsParity (m : Bytes) : Bytes :=
  let g := (rsGen 11 2 [1]).drop 1
  m.foldl (rsStep g) (List.replicate 11 0)

/-- A flit: header and payload, parity, and the overall parity PX. -/
def flitBytes (hdr : Nat) (payload : Bytes) : Bytes :=
  let m := natLE 4 hdr ++ padTo 240 payload
  let c := m ++ rsParity m
  c ++ [c.foldl (· ^^^ ·) 0]

/-! ## Payloads -/

/-- A payload in which each field stands at its byte offset within the flit. -/
def payloadOf (fields : List (Nat × Bytes)) : Bytes := fields.foldl (fun b f => putAt b (f.1 - 4) f.2) (List.replicate 240 0)

/-- The payload of a DATA flit, or of a STAGE flit with its TXID. -/
def dataPayload (tepoch : Nat) (d : DataF) (txid : Nat) : Bytes :=
  payloadOf [(4, natLE 2 d.oph.toNat), (6, natLE 1 (b2n d.first + 2 * b2n d.last + 4 * b2n d.fend)), (8, natLE 4 d.offset.toNat),
    (12, natLE 1 d.data.length), (14, natLE 2 txid), (16, natLE 4 tepoch), (20, d.data)]

/-- The payload of a CMD flit. -/
def cmdPayload (tepoch : Nat) (c : CmdF) : Bytes :=
  payloadOf [(4, natLE 2 c.oph), (6, natLE 1 (c.kind + 8 * b2n c.dir + 16 * b2n c.chained + 32 * b2n c.staged)), (7, natLE 1 c.code),
    (8, natLE 6 c.subaddr), (14, natLE 2 c.txid), (16, natLE 4 tepoch), (20, natLE 4 c.count), (24, natLE 4 c.param),
    (28, natLE 2 (c.holder % 16384 + 32768 * b2n c.htx)), (32, natLE 4 c.tserial), (36, natLE 4 c.foff)]

/-- The payload of a CREDIT flit (R325). -/
def creditPayload (c : CreditF) : Bytes :=
  payloadOf [(4, natLE 2 c.cmd.toNat), (6, natLE 2 c.data.toNat), (8, natLE 2 c.decide.toNat), (10, natLE 2 c.attn.toNat),
    (12, natLE 1 (c.epoch.toNat + 16 * b2n c.rebase + 32 * b2n c.quiesce))]

/-- The payload of a MIRROR flit (R628). -/
def mirrorPayload (m : MirrorF) : Bytes :=
  payloadOf [(4, natLE 4 m.mseq.toNat), (8, natLE 1 (m.blocks.length % 4 + 4 * b2n m.copy)),
    (12, padTo 12 (m.blocks.flatMap fun b => natLE 4 b.1)), (24, padTo 192 (m.blocks.flatMap fun b => padTo 64 b.2))]

/-- The payload of a BEAT flit (R628). -/
def beatPayload (b : BeatF) : Bytes :=
  payloadOf [(4, natLE 1 (b2n b.pairId + 2 * b.role.toNat + 16 * b2n b.insync)), (8, natLE 4 b.tepoch.toNat), (12, natLE 4 b.bseq.toNat),
    (16, natLE 8 b.jseq.toNat), (24, padTo 32 b.imageSha)]

/-- TYPE, VC and payload of what a flit carries. `tepoch`: the epoch put into it. -/
def FlitBody.enc (tepoch : Nat) : FlitBody → Nat × Nat × Bytes
  | .idle => (0, 0, [])
  | .data d => (1, 1, dataPayload tepoch d 0)
  | .cmd c => (2, 0, cmdPayload tepoch c)
  | .stage d x => (4, 1, dataPayload tepoch d x)
  | .commit x t => (5, 2, payloadOf [(4, natLE 2 x), (8, natLE 4 tepoch), (12, natLE 4 t)])
  | .abort x t => (6, 2, payloadOf [(4, natLE 2 x), (8, natLE 4 tepoch), (12, natLE 4 t)])
  | .credit c => (9, 0, creditPayload c)
  | .enumReq op pos pre level share index =>
    (10, 0, payloadOf [(4, natLE 1 op), (5, natLE 1 pos), (6, natLE 3 pre), (9, natLE 1 level), (10, natLE 1 share), (12, natLE 2 index)])
  | .token k => (11, 0, payloadOf [(4, natLE 1 (b2n k.master)), (8, natLE 4 k.tepoch.toNat), (12, natLE 4 k.tseq.toNat), (16, natLE 8 k.time.toNat)])
  | .mirror m => (12, 1, mirrorPayload m)
  | .mack n => (13, 0, payloadOf [(4, natLE 4 n.toNat)])
  | .beat b => (14, 0, beatPayload b)
  | .test n => (1, 1, payloadOf [(4, natLE 4 n.toNat), (8, prbs Config.testStart (n.toNat * 236) 236)])

/-- The 256 bytes of a flit of the device. -/
def Flit.enc (tepoch : Nat) (f : Flit) : Bytes :=
  let e := f.body.enc tepoch
  let test := match f.body with | .test _ => true | _ => false
  flitBytes (header e.1 e.2.1 test f.path) e.2.2

end Sys2Proof.Machine
end

