-- ==== Sys2Proof/Machine/VNode.lean ====
section
/-! DEFINITION. The virtual node of a port at TRANSPORT (R672): it answers each flit the port sends, at once (log 23). It implements
R372 to R381, R385 to R387, R420 and R421 over 64 KiB of memory. -/

namespace Sys2Proof.Machine

/-- The virtual node of a port. -/
def State.vn (s : State) (p : Nat) : VNode := SMap.get (fun _ => {}) s.vnodes p

/-- A state with the virtual node of a port replaced. -/
def State.setVn (s : State) (p : Nat) (v : VNode) : State := { s with vnodes := SMap.set (fun _ => {}) s.vnodes p v }

/-- Its capability record (R672, R358); the serial number is not stated (log 4). -/
def vnodeCap (serial : BitVec 64) : Bytes :=
  padTo 64 (natLE 2 0x1F2C ++ natLE 2 0xFFFE ++ natLE 2 0x00B0 ++ [0, 1] ++ natLE 8 serial.toNat ++ [0x12, 1, 8, 4] ++ natLE 2 64 ++ [16, 0, 0, 0] ++
    natLE 2 1000 ++ natLE 2 0 ++ natLE 2 64 ++ natLE 2 16)

/-- A STATUS of the virtual node. -/
def vnStatus (oph : Nat) (result : Byte) (accepted : Nat := 0) : StatusF :=
  { oph := BitVec.ofNat 16 oph, endd := true, more := false, trunc := false, dack := false, ans := false, result, accepted := BitVec.ofNat 32 accepted,
    slots := 0, pdomOn := 0, txid := 0, tserial := 0 }

/-- A credited flit of the virtual node reaches the device: `k` is what it does, and whether its data is kept (R326). -/
def State.vnIn (s : State) (p vc : Nat) (k : State → State × Bool) : State :=
  let r := k ((s.flitIn p []).modPort p fun t => t.rxArrive (vcKey 0 vc))
  if r.2 then r.1 else r.1.modPort p fun t => t.rxFree (vcKey 0 vc)

/-- A STATUS reaches the device. -/
def State.vnReply (s : State) (p : Nat) (d : StatusF) : State :=
  s.vnIn p 0 fun s =>
    if d.dack then (s.dackFlit p 0 d, false)
    else match s.exchange p 0 d.oph.toNat with
      | some o => (s.statusFlit (ophKey d.oph.toNat) o d, false)
      | none => (s, false)

/-- A DATA flit reaches the device. -/
def State.vnSend (s : State) (p : Nat) (d : DataF) : State :=
  s.vnIn p 1 fun s =>
    match s.exchange p 0 d.oph.toNat with
    | some o => if o.read && decide (o.kind = 0) then s.dataFlit p (vcKey 0 1) (ophKey d.oph.toNat) o d else (s, false)
    | none => (s, false)

/-- An operation ends with a STATUS. -/
def State.vnEnd (s : State) (p oph : Nat) (result : Byte) (accepted : Nat := 0) : State :=
  let v := s.vn p
  (s.setVn p { v with ops := v.ops.filter fun o => decide (o.oph ≠ oph) }).vnReply p (vnStatus oph result accepted)

/-- The answer to a fetch (R373, R374): `n` bytes from operation offset `off` of the window from `sub`. -/
def State.vnData (p oph sub off : Nat) : Nat → Nat → State → State
  | 0, _, s => s
  | k + 1, n, s =>
    let m := min n (65536 - sub - off)
    let c := min m 224
    let last := decide (65536 ≤ sub + off + c)
    let d : DataF := { oph := BitVec.ofNat 16 oph, first := decide (off = 0), last, fend := decide (n ≤ c), offset := BitVec.ofNat 32 off,
                       data := s.vnode.rdN (p * 65536 + sub + off) c }
    let s := s.vnSend p d
    if last then s.vnEnd p oph 0
    else if n ≤ c then s
    else State.vnData p oph sub (off + c) k (n - c) s

/-- A FETCH, or the fetch of a read OPEN. -/
def State.vnFetch (s : State) (p : Nat) (o : VOp) (off n : Nat) : State :=
  if o.code = 4 then
    -- the virtual node's sense record is empty (log 23)
    let d : DataF := { oph := BitVec.ofNat 16 o.oph, first := true, last := true, fend := true, offset := 0, data := [] }
    (s.vnSend p d).vnEnd p o.oph 0
  else if n = 0 then s
  else State.vnData p o.oph o.sub off 20 (min n 4096) s

/-- An OPEN (R371, R386): a code other than WRITE, READ and SENSE is not supported. -/
def State.vnOpen (s : State) (p : Nat) (c : CmdF) : State :=
  let v := s.vn p
  match v.ops.find? fun o => decide (o.oph = c.oph) with
  | some o => if o.read then s.vnFetch p o 0 c.count else s
  | none =>
    let o : VOp := { oph := c.oph, read := c.dir, code := c.code, sub := c.subaddr, txid := c.txid, tserial := c.tserial, staged := c.staged }
    if c.code ≠ 1 ∧ c.code ≠ 2 ∧ c.code ≠ 4 then s.vnEnd p c.oph 0x87
    else if 0x3FFFFFFFFF00 ≤ c.subaddr then s.vnEnd p c.oph 0x87
    else if c.code ≠ 4 ∧ 65536 ≤ c.subaddr then s.vnEnd p c.oph 0x80
    else
      -- R420: staged data of an older TSERIAL under the same TXID is discarded
      let st := if c.staged then v.stages.filter fun e => decide (e.txid ≠ c.txid ∨ e.tserial = c.tserial) else v.stages
      let s := s.setVn p { v with ops := v.ops ++ [o], stages := st }
      if c.dir then s.vnFetch p o 0 c.count else s

/-- Bytes of staged data held, and the transactions. -/
def VNode.held (v : VNode) : Nat := v.stages.foldl (fun n e => n + e.data.length) 0
def VNode.txs (v : VNode) : List (Nat × Nat) := (v.stages.map fun e => (e.txid, e.tserial)).dedup

/-- DATA or STAGE of a write (R372, R381, R420). -/
def State.vnWrite (s : State) (p : Nat) (d : DataF) (stage : Option (Nat × Nat)) : State :=
  let v := s.vn p
  match v.ops.find? fun o => decide (o.oph = d.oph.toNat) with
  | none => s
  | some o =>
    let n := d.data.length
    let at_ := d.offset.toNat
    if o.read then s
    else if at_ ≠ o.off then s.vnEnd p o.oph 0x82 o.off
    else if 65536 < o.sub + o.off + n then
      let k := 65536 - o.sub - o.off
      let s := if o.staged then s else { s with vnode := s.vnode.wrN (p * 65536 + o.sub + o.off) (d.data.take k) }
      s.vnEnd p o.oph 0x80 (o.off + if o.staged then 0 else k)
    else
      match stage with
      | some (x, t) =>
        if (v.outcomes.find? fun e => decide (e.1 = x)) = some (x, t, false) then s
        else if 65536 < v.held + n ∨ ((x, t) ∉ v.txs ∧ 16 ≤ v.txs.length) then s.vnEnd p o.oph 0x84 o.off
        else
          let e : VOp := { oph := o.oph, sub := o.sub + o.off, txid := x, tserial := t, staged := true, data := d.data }
          let s := s.setVn p { v with stages := v.stages ++ [e], ops := v.ops.map fun q => if q.oph = o.oph then { q with off := q.off + n } else q }
          if d.last then s.vnEnd p o.oph 0 (o.off + n) else s
      | none =>
        let s := { s with vnode := s.vnode.wrN (p * 65536 + o.sub + o.off) d.data }
        let s := s.setVn p { v with ops := v.ops.map fun q => if q.oph = o.oph then { q with off := q.off + n } else q }
        if d.last then s.vnEnd p o.oph 0 (o.off + n) else s

/-- COMMIT or ABORT (R420, R421). -/
def State.vnDecide (s : State) (p x t : Nat) (commit : Bool) : State :=
  let v := s.vn p
  let known := v.outcomes.find? fun e => decide (e.1 = x) && decide (e.2.1 = t)
  let mine := v.stages.filter fun e => decide (e.txid = x ∧ e.tserial = t)
  let rest := v.stages.filter fun e => !decide (e.txid = x ∧ e.tserial = t)
  let dack := fun (s : State) (r : Byte) =>
    s.vnReply p { vnStatus 0 r with endd := false, dack := true, txid := BitVec.ofNat 10 x, tserial := BitVec.ofNat 32 t }
  let record := fun (c : Bool) => { v with stages := rest, outcomes := (x, t, c) :: v.outcomes.filter fun e => decide (e.1 ≠ x) }
  if commit then
    match known with
    | some (_, _, true) => dack s 0
    | some (_, _, false) => dack s 0x82
    | none =>
      if mine.isEmpty then dack s 0x82
      else
        let s := mine.foldl (fun s e => { s with vnode := s.vnode.wrN (p * 65536 + e.sub) e.data }) s
        dack (s.setVn p (record true)) 0
  else dack (s.setVn p (record false)) 0

/-- The record of slot holders after a RESERVE or RELEASE (R385); the RELEASE of R419 clears it (R420). -/
def VNode.hold (v : VNode) (c : CmdF) : List (Nat × Nat × Bool) :=
  let others := v.holders.filter fun e => !bitOn c.param e.1
  if c.kind = 4 then others ++ ((List.range 4).filter fun k => bitOn c.param k).map fun k => (k, c.holder, c.htx)
  else if c.kind ≠ 5 then v.holders
  else if c.holder = 0x3FFF ∧ c.htx = true then []
  else others

/-- RESERVE, RELEASE and POWER (R385, R387): four slots, no power domain. SLOTS: those now held for HOLDER. -/
def State.vnAnswer (s : State) (p : Nat) (c : CmdF) : State :=
  let h := (s.vn p).hold c
  let held := h.foldl (fun a e => if e.2 = (c.holder, c.htx) then a ||| 2 ^ e.1 else a) 0
  (s.setVn p { s.vn p with holders := h }).vnReply p
    { vnStatus c.oph 0 with endd := false, ans := true, slots := if c.kind = 6 then 0 else BitVec.ofNat 4 held }

/-- The buffer that a credited flit took at the virtual node is free again, and granted. -/
def Port.regrant (t : Port) (vc : Nat) : Port :=
  { t with grant := SMap.set (fun _ => 0) t.grant vc ((SMap.get (fun _ => 0) t.grant vc + 1) % 65536) }

/-- The virtual node takes a flit that the port sends. -/
def State.vnodeTake (s : State) (p : Nat) (b : FlitBody) : State :=
  match b with
  | .cmd c =>
    let s := s.modPort p fun t => t.regrant 0
    match c.kind with
    | 0 => s.vnOpen p c
    | 1 => match (s.vn p).ops.find? fun o => decide (o.oph = c.oph) with
      | some o => s.vnFetch p o c.foff c.count
      | none => s
    | 2 => match (s.vn p).ops.find? fun o => decide (o.oph = c.oph) with
      | some o =>
        let v := s.vn p
        let s := s.setVn p { v with ops := v.ops.filter fun q => decide (q.oph ≠ c.oph) }
        s.vnReply p { vnStatus c.oph 0 (if o.read then 0 else o.off) with trunc := o.read }
      | none => s
    | 3 => match (s.vn p).ops.find? fun o => decide (o.oph = c.oph) with
      | some _ => s
      | none => s.vnReply p (vnStatus c.oph 0x86)
    | _ => s.vnAnswer p c
  | .data d => (s.modPort p fun t => t.regrant 1).vnWrite p d none
  | .stage d x =>
    let o := (s.vn p).ops.find? fun o => decide (o.oph = d.oph.toNat)
    (s.modPort p fun t => t.regrant 1).vnWrite p d (some (x, o.elim 0 fun o => o.tserial))
  | .commit x t => (s.modPort p fun t => t.regrant 2).vnDecide p x t true
  | .abort x t => (s.modPort p fun t => t.regrant 2).vnDecide p x t false
  | .enumReq op pos pre level _ _ =>
    if op = 2 then (s.flitIn p []).enumReply p { op := 2, pos := BitVec.ofNat 6 pos, prefixPath := 0, level := BitVec.ofNat 2 level, cap := vnodeCap s.free }
    else if op = 0 ∧ pos = 0 ∧ pre = 0 then
      (s.tick.flitIn p []).enumReply p { op := 0, pos := 0, prefixPath := 0, level := BitVec.ofNat 2 level, cap := vnodeCap s.free }
    else s
  | _ => s

/-- A port enters TRANSPORT: the ring is bypassed, the virtual node's memory is clear, and the port is ACTIVE and enumerated. -/
def State.vnodeEnter (s : State) (p : Nat) : State :=
  let s := { s with vnode := s.vnode.drop (p * 65536) 65536 }.setVn p {}
  let a := kp p 0xC
  let s := (((((s.wf a 0 3 2).wf a 3 2 0).wf a 5 1 0).wf a 6 4 15).wf a 10 4 (s.linkEpoch p + 1)).wf a 14 7 1
  let s := ((s.wf a 21 1 0).setReg (kp p 0x10) 0).modPort p fun t => { t with hist := [], out := .elecIdle }
  let s := (s.rebase p).modPort p fun t =>
    t.adopt 0 { cmd := 2, data := 8, decide := 1, attn := 1, epoch := BitVec.ofNat 4 (s.linkEpoch p), rebase := true, quiesce := false }
  s.ringActive p

end Sys2Proof.Machine
end

