-- ==== Sys2Proof/Machine/FlitTx.lean ====
section
/-! DEFINITION. What a port sends in a flit slot (R318, R323-R326, R336, R338, R389, R447, R628, R644, R670). -/

namespace Sys2Proof.Machine

/-! ## Credit -/

/-- VC of a credited flit of the device. -/
def FlitBody.vc : FlitBody → Option Nat
  | .cmd _ => some 0
  | .data _ | .stage .. | .mirror _ => some 1
  | .commit .. | .abort .. => some 2
  | _ => none

/-- The handle a flit of an exchange belongs to. -/
def FlitBody.oph? : FlitBody → Option Nat
  | .cmd c => some c.oph
  | .data d | .stage d _ => some d.oph.toNat
  | _ => none

/-- The credit key of a flit. -/
def Flit.creditKey (f : Flit) (vc : Nat) : Nat := stationOf f.path * 4 + vc

/-- A flit holds its credit, in this epoch (R324, R338). -/
def Port.holds (t : Port) (f : Flit) : Bool :=
  match f.body.vc with
  | none => true
  | some vc =>
    let z : Nat → Nat := fun _ => 0
    let k := f.creditKey vc
    let n := (SMap.get z t.grant k + 65536 - SMap.get z t.sent k) % 65536
    t.rebased.contains (stationOf f.path) && decide (1 ≤ n ∧ n ≤ 32767)

/-- A flit uses its credit. -/
def Port.spend (t : Port) (f : Flit) : Port :=
  match f.body.vc with
  | none => t
  | some vc =>
    let z : Nat → Nat := fun _ => 0
    let k := f.creditKey vc
    { t with sent := SMap.set z t.sent k ((SMap.get z t.sent k + 1) % 65536) }

/-! ## Choice -/

/-- The first waiting flit of a kind that may go: it holds its credit, no flit of its exchange waits before it (R371), and a
credited flit starts only while the port is not in QUIESCE (R336). -/
def pickFlit (t : Port) (quiesce : Bool) (kind : FlitBody → Bool) : List Nat → List Flit → Option Flit
  | _, [] => none
  | before, f :: fs =>
    let blocked := f.body.oph?.elim false fun k => before.contains k
    if kind f.body && !blocked && t.holds f && !(quiesce && f.body.vc.isSome) then some f
    else pickFlit t quiesce kind (f.body.oph?.elim before fun k => k :: before) fs

/-- The kinds of R318's list (CREDIT: Machine/Switch.lean). BEAT and MACK of the twin link, which the list does not name, take TOKEN's place. DESIGN CHOICE (log 20). -/
def FlitBody.isToken : FlitBody → Bool | .token _ | .beat _ | .mack _ => true | _ => false
/-- DECIDE flits. -/
def FlitBody.isDecide : FlitBody → Bool | .commit .. | .abort .. => true | _ => false
/-- CMD and ENUM flits. -/
def FlitBody.isCmd : FlitBody → Bool | .cmd _ | .enumReq .. => true | _ => false
/-- Flits of VC DATA. -/
def FlitBody.isData : FlitBody → Bool | .data _ | .stage .. | .mirror _ => true | _ => false

/-- What a slot carries (R318): a waiting flit, or none for an IDLE; and whether the IDLE is the quota's. -/
def State.choose (s : State) (p : Nat) : Option Flit × Bool :=
  let t := s.port p
  let q := decide (s.kpSt p = 3)
  let pick := fun k => pickFlit t q k [] t.tx
  match pick FlitBody.isCredit with
  | some f => (some f, false)
  | none => match pick FlitBody.isToken with
    | some f => (some f, false)
    | none => match pick FlitBody.isDecide with
      | some f => (some f, false)
      | none =>
        if ((t.hist.take 16).countP fun k => k = .idle) < s.af (kp p 0) 4 4 then (none, true)
        else
          let c := pick FlitBody.isCmd
          let d := pick FlitBody.isData
          if c.isSome && (d.isNone || (t.hist.take 3).all fun k => k ≠ .cmd) then (c, false)
          else if d.isSome then (d, false)
          else (c, false)

/-! ## Flits made in their slot -/

/-- A CREDIT for a station: every GRANT as it stands (R324, R325). -/
def State.creditFor (s : State) (p st : Nat) : Flit :=
  let t := s.port p
  let g := fun vc => BitVec.ofNat 16 (t.rxInit.getD vc 0 + SMap.get (fun _ => 0) t.rxFreed (st * 4 + vc))
  { path := st, body := .credit { cmd := g 0, data := g 1, decide := g 2, attn := g 3, epoch := BitVec.ofNat 4 (s.linkEpoch p),
                                  rebase := false, quiesce := false } }

/-- The GRANTs of a station have been said (R326). -/
def Port.said (t : Port) (st : Nat) : Port :=
  { t with credits := t.credits.erase st,
           rxSaid := [0, 1, 2, 3].foldl (fun m vc =>
             SMap.set (fun _ => 0) m (st * 4 + vc) (SMap.get (fun _ => 0) t.rxFreed (st * 4 + vc))) t.rxSaid }

/-- A TOKEN (R389). -/
def State.tokenFlit (s : State) : Flit :=
  { path := 0x3FFFF, body := .token { master := s.rb 0x24 8, tepoch := BitVec.ofNat 32 s.tepoch, tseq := BitVec.ofNat 32 s.pair.tseq,
                                      time := BitVec.ofNat 64 s.now } }

/-- The next block a resynchronisation copies at or after an offset, passing over the flush shadow, the pair record, which is
written only locally, and the spare region (R28, R548, R636, R644). -/
def copyFrom (a : Nat) : Option Nat :=
  let a := if 0x3629000 ≤ a ∧ a < 0x366A000 then 0x366A000 else if a = 0x37AC000 then 0x37AC040 else a
  if a < 0x3800000 then some a else none

/-- The blocks of one COPY flit, and where the next begins. -/
def copyTake : Nat → Nat → List Nat × Nat
  | 0, a => ([], a)
  | n + 1, a => match copyFrom a with
    | none => ([], a)
    | some b => let r := copyTake n (b + 64); (b :: r.1, r.2)

/-- The next COPY flit of a resynchronisation joins the stream (R644). -/
def State.copyNext (s : State) (a : Nat) : State :=
  let r := copyTake 3 a
  let s := State.mirrorGo true 1 (r.1.map fun b => (b, s.seed.rdN b 64)) s
  let n := copyFrom r.2
  { s with pair := { s.pair with copyPos := n, copyLast := if n.isNone then some (s.pair.mseq - 1) else s.pair.copyLast } }
    |>.wf 0x481014 16 7 (r.2 / 2 ^ 20)

/-! ## The slot -/

/-- A flit leaves on ring-out. -/
def State.sendFlit (s : State) (p : Nat) (f : Flit) : State :=
  let b := f.enc s.tepoch
  let k : SlotKind := if f.body = .idle then .idle else if f.body.isCmd then .cmd else .other
  let s := s.modPort p fun t => { t.spend f with lastFlit := b, flits := t.flits + 1, hist := (k :: t.hist).take 16 }
  if p < 4 ∧ s.lbDepth (p + 1) = 5 then s.vnodeTake p f.body else s

/-- An IDLE (R315): PATH 0. -/
def idleFlit : Flit := { path := 0 }

/-- The Furrow that holds a port's waiting flits. -/
def portFurrow (p : Nat) : Nat := 2 * p + 3

/-- A waiting flit is read from the Furrow (R443, R447): corrected, it is counted and sent; uncorrectable, it is removed. -/
def State.readFlit (s : State) (p : Nat) (f : Flit) : State :=
  let u := portFurrow p
  let s := (s.modPort p fun t => { t with tx := t.tx.erase f }).modFurrow u fun k => { k with staleRaised := false }
  if f.err then (((s.setBit (fu u 8) 1).bump (fu u 0x10)).report 85).sendFlit p idleFlit
  else
    let s := if f.ce then (s.bumpSat (fu u 0xC)).report 86 else s
    s.sendFlit p f

/-- An IDLE; at FAR, in a slot the quota does not ask for, a test flit (R670). -/
def State.sendIdle (s : State) (p : Nat) (quota : Bool) : State :=
  let test := decide (s.lbDepth (p + 1) = 4) && decide (s.kpSt p = 2)
  match (s.port p).tx.find? fun f => match f.body with | .test _ => true | _ => false with
  | some f => (s.modPort p fun t => { t with tx := t.tx.erase f }).sendFlit p f
  | none =>
  if test && (if p = 4 then !s.rb 0x24 8 else !quota) then
    (s.modPort p fun t => { t with testTx := t.testTx + 1 }).sendFlit p { path := 0x3FFFF, body := .test (BitVec.ofNat 32 (s.port p).testTx) }
  else s.sendFlit p idleFlit

/-- One flit slot of a port (R318). -/
def State.slot (s : State) (p : Nat) : State :=
  let t := s.port p
  if decide (s.kpSt p = 1) then s.sendIdle p true
  else if !(t.tx.any fun f => f.body.isCredit) && !t.credits.isEmpty && decide (s.kpSt p = 2) then
    let st := t.credits.headD 0
    (s.modPort p fun t => t.said st).sendFlit p (s.creditFor p st)
  else if !(t.tx.any fun f => f.body.isCredit) && t.tokenDue && decide (s.kpSt p = 2) then
    { s.modPort p fun t => { t with tokenDue := false } with pair := { s.pair with tseq := s.pair.tseq + 1 } }.sendFlit p s.tokenFlit
  else
    let s := match s.pair.copyPos with
      | some a => if p = 4 && t.tx.isEmpty && decide (s.kpSt p = 2) then s.copyNext a else s
      | none => s
    match s.choose p with
    | (some f, _) => s.readFlit p f
    | (none, q) => s.sendIdle p q

/-- FLIT_TRANSMIT (R318): one slot of ring-out. A port that sends flits is ACTIVE, in QUIESCE, or in FRAME, or has gone DOWN and
still sends IDLE (R330, R342). -/
def execFlitTransmit (p : Nat) (s : State) : Host.Outcome State Fault Refusal :=
  if 5 ≤ p ∨ s.life ≠ .live then .next s
  else if s.lbDepth (p + 1) = 3 ∨ (p = 4 ∧ s.lbDepth 5 = 5) then .next (s.bump (lbReg (p + 1) + 8))
  else if s.running && decide (s.kpSt p = 2 ∨ s.kpSt p = 3 ∨ (s.kpSt p = 1 ∧ (s.port p).tp = .frame)) then fin (s.slot p)
  else if (s.port p).out = .flits then .next (s.sendFlit p idleFlit)
  else .next s

end Sys2Proof.Machine
end

