-- ==== Sys2Proof/Machine/Fabric.lean ====
section
/-! DEFINITION. Commands of the port Furrows and of the fabric's priorities (R437-R470), and the replay buffer of the host port (R446).
No packet stays open from one command to the next (log 21). What waits in the Furrows and crosses: Machine/Switch.lean. -/

namespace Sys2Proof.Machine

/-! ## FLUSH (R450-R453) -/

/-- The keys of the operations whose data lies in the input Furrow of fabric port `r` (R462). -/
def State.inboxKeys (s : State) (r : Nat) : List Nat :=
  if 1 ≤ r ∧ r ≤ 4 then s.inbox.filterMap fun e => if e.1 / 4096 = r - 1 then some e.1 else none else []

/-- Data of an operation is lost with its Furrow: what follows it is asked for again from there. DESIGN CHOICE (log 83). -/
def State.inboxLost (s : State) (key : Nat) : State :=
  let n := s.inboxLen key
  (s.inboxDrop key).modOp key fun o =>
    { o with rcvd := o.rcvd - n, fetchEnd := o.rcvd - n, lastSeen := false, await := if o.endSent then o.await else none }

/-- The packets in an input Furrow are discarded. A host read among them has not left and is never answered. -/
def State.dropInput (s : State) (r : Nat) : State :=
  let l := s.inPkts r
  let s := (s.inboxKeys r).foldl (fun s k => s.inboxLost k) s
  { s with fab := s.fab.filter fun k => decide (k ∉ l),
           reads := s.reads ++ l.filterMap fun k => match k.body with | .read _ q => some q | _ => none }

/-- What lies in a port Furrow is discarded; the link's own CREDITs are not in it. -/
def State.dropOutput (s : State) (f : Nat) : State :=
  if f % 2 = 0 then s.dropInput (f / 2)
  else if f = 1 then { s with hostOut := [] }
  else if f % 2 = 1 ∧ 3 ≤ f ∧ f ≤ 11 then
    s.modPort ((f - 3) / 2) fun t => { t with tx := t.tx.filter fun x => x.body.isCredit }
  else s

/-- A FLUSH takes effect (R450): packets opened after its request stay open. -/
def State.flushNow (s : State) (f : Nat) : State :=
  ((s.dropOutput f).modFurrow f fun k => { opens := (k.opens.filter fun o => !o.old).map fun o => { o with old := false } }).wb (fu f 0) 0 false

/-- A FLUSH is requested: it takes effect at once when no packet is open. -/
def State.flushAsk (s : State) (f : Nat) : State :=
  let s := (s.modFurrow f fun k => { k with flush := true, opens := k.opens.map fun o => { o with old := true } }).wb (fu f 0) 0 true
  if (s.furrow f).opens.isEmpty then s.flushNow f else s

/-- A write of FU_CTL. -/
def State.fuCtlWrite (s : State) (f : Nat) (v : Word) : State :=
  if v.getLsbD 0 && v.getLsbD 16 && decide (f < 24) && !(s.furrow f).flush then s.flushAsk f else s

/-- FLUSH (R450). -/
def execFlush (who : Req) (f : Nat) (s : State) : Host.Outcome State Fault Refusal :=
  if 24 ≤ f then .next s else regGo s who (fu f 0) fun s => s.fuCtlWrite f 0x10001

/-- FLUSH_EFFECT (R450): every packet open at the request has committed or been rewound. -/
def execFlushEffect (f : Nat) (s : State) : Host.Outcome State Fault Refusal :=
  let k := s.furrow f
  if s.running && decide (f < 24) && k.flush && !(k.opens.any fun o => o.old) then fin (s.flushNow f) else .next s

/-- FLUSH_TIMEOUT (R451): the packets open at the request are rewound. -/
def execFlushTimeout (f : Nat) (s : State) : Host.Outcome State Fault Refusal :=
  let k := s.furrow f
  if s.running && decide (f < 24) && k.flush then
    let n := k.opens.countP fun o => o.old
    let s := if n = 0 then s else (s.setBit (fu f 8) 0).bump (fu f 0x10) n
    fin ((s.setBit (fu f 8) 3).flushNow f)
  else .next s

/-! ## Stale packets (R455) -/

/-- A visible packet lies at the read position of a port Furrow. -/
def State.fuVisible (s : State) (f : Nat) : Bool :=
  decide ((s.furrow f).rd < (s.furrow f).pkts.length) || (decide (f % 2 = 0) && (!(s.inPkts (f / 2)).isEmpty || !(s.inboxKeys (f / 2)).isEmpty)) ||
  (decide (f = 1) && !s.hostOut.isEmpty) ||
  (decide (f % 2 = 1 ∧ 3 ≤ f ∧ f ≤ 11) && (s.port ((f - 3) / 2)).tx.any fun x => !x.body.isCredit)

/-- STALE_TIMER (R455): `f` from 0 to 23 is a port Furrow, 24 + t the Furrow of thread t. -/
def execStaleTimer (f : Nat) (s : State) : Host.Outcome State Fault Refusal :=
  if !s.running || decide (s.af 0x280000 16 16 = 0) then .next s
  else if f < 24 then
    if s.fuVisible f && !(s.furrow f).staleRaised then
      fin (((s.modFurrow f fun k => { k with staleRaised := true }).setBit (fu f 8) 2).srcEvent (intSrc f))
    else .next s
  else
    let t := f - 24
    if decide (t < 1024) && decide ((s.thread t).bind ≠ .free) && (s.pkt t 0).isSome && !(s.thread t).furrow.staleRaised then
      fin (((s.modThread t fun h => { h with furrow := { h.furrow with staleRaised := true } }).setBit (fuTg (groupOf t) 8) 2).srcEvent
        (intSrc (24 + groupOf t)))
    else .next s

/-! ## Priorities (R467-R470) -/

/-- One requester's adjustment at the end of an epoch (R469, R470). -/
def State.tune1 (s : State) (o r b : Nat) : State :=
  let a := fbPrio o r
  let p := s.rf a 0 4
  let floor := s.af a 8 4
  let ceil := s.af a 12 4
  if ceil < floor then s
  else if s.af 0x200504 16 13 ≤ b then s.wf a 0 4 (min (p + 1) ceil)
  else if b ≤ s.af 0x200504 0 13 then s.wf a 0 4 (max (p - 1) floor)
  else s

/-- The words in a requester's sequence for an output. -/
def State.backlog (s : State) (o r : Nat) : Nat := (s.inPkts r).foldl (fun a k => if k.dst = o then a + (k.words - k.moved) else a) 0

/-- TUNING_EPOCH_END (R469). `more`: the words of each requester that are in its sequence for the output at that moment although the model
has passed them on, as it passes the fabric's words at once (log 21). -/
def execTuningEpochEnd (o : Nat) (more : List Nat) (s : State) : Host.Outcome State Fault Refusal :=
  if s.running && decide (o < 12) && s.ab (0x200400 + 16 * o) 1 && !s.rb 0x200500 31 then
    fin ((List.range 12).foldl (fun s r => s.tune1 o r (s.backlog o r + more.getD r 0)) s)
  else .next s

/-- FB_PRIO_WRITE (R467). -/
def execFbPrioWrite (who : Req) (o r : Nat) (v : Word) (s : State) : Host.Outcome State Fault Refusal :=
  if 12 ≤ o ∨ 12 ≤ r then .next s else regGo s who (fbPrio o r) fun s => s.softWrite who (fbPrio o r) v

/-! ## The replay buffer (R446) -/

/-- ACK_NAK_DLLP: `n` TLPs are acknowledged and released; after a Nak the others are sent again, and counted (HP_CNT). -/
def execAckNakDllp (nak : Bool) (n : Nat) (s : State) : Host.Outcome State Fault Refusal :=
  if s.life = .live then
    let s := { s with hostOut := s.hostOut.drop n }.modFurrow 1 fun k => { k with staleRaised := false }
    fin (if nak && !s.hostOut.isEmpty then s.bump (cnt 0x100040 6) else s)
  else .next s

end Sys2Proof.Machine
end

