-- ==== Sys2Proof/Machine/TillerUnit.lean ====
section
/-! DEFINITION. Tiller instructions that act on other units: DISP (R297-R304), SEND, EOS (R483, R484) and PARK (R189). -/

namespace Sys2Proof.Machine

/-! ## Dispatch -/

/-- The transfer of a dispatch record (R256, R297-R300). Its packets for a thread count within the operation open at NODE (R159, R299). -/
def State.dispXfer (s : State) (t a : Nat) (b : Bytes) : Xfer :=
  let h := s.thread t
  let op := leAt b 0 1 % 16
  let ss := leAt b 2 1 % 4
  let ds := leAt b 2 1 / 4 % 4
  let src := leAt b 8 8
  let dst := leAt b 16 8
  let k := some (ophKey (leAt b 24 2))
  { owner := .disp t a, op, prio := leAt b 1 1 % 16, half := decide (4 ≤ groupOf t), fn := h.sc?.elim 0 s.chainFn, srcSpace := ss,
    dstSpace := ds, src, dst, len := leAt b 4 4, srcOp := if ss = 2 then k else none, dstOp := if ds = 2 then k else none,
    base := if ss = 2 then none else h.sc?.bind fun sc => ((s.chain sc).op.bind s.op).map fun o => o.sentOff,
    pattern := BitVec.ofNat 64 src, list := if op = 4 then { space := ss, addr := src } else { space := ds, addr := dst },
    skip := if op = 4 ∨ op = 5 then leAt b 28 4 else 0, final := h.sc?.elim true fun sc => !s.cwFlag sc 0 }

/-- A dispatch record that no firmware of the manual writes: a space or a handle that its operation cannot use, or more
than 4096 bytes from thread space (R299, R305). -/
def State.badDisp (s : State) (v : Xfer) (oph : Nat) : Bool :=
  let src := decide (v.op = 1 ∨ v.op = 5 ∨ v.op = 6)
  let dst := decide (v.op = 1 ∨ v.op = 2 ∨ v.op = 4)
  let ring := (src && decide (v.srcSpace = 2)) || (dst && decide (v.dstSpace = 2))
  (ring && !(s.op (ophKey oph)).elim false fun o => decide (o.gen = oph / 16384)) ||
  (decide (v.op = 4) && decide (2 ≤ v.srcSpace)) || (decide (v.op = 5) && decide (2 ≤ v.dstSpace)) ||
  (src && decide (v.srcSpace = 3) && decide (4096 < v.len))

/-- Dispatches in progress for a thread, firmware's own included (R301). -/
def State.dispCount (s : State) (t : Nat) : Nat :=
  let h := s.thread t
  h.disp.length + h.sc?.elim 0 fun sc => (s.chain sc).xfer.toList.length + (s.chain sc).fwd.toList.length

/-- DISP of one OP (R195, R297, R301): a record of another OP is another command's. -/
def dispOp (op : Nat) (s : State) (x : TArg) : TRes :=
  match opEa x.f (s.thread x.t) with
  | none => .trap 4 0
  | some ea =>
    if 0x20000 ≤ ea then .trap 5 ea
    else if ea % 8 ≠ 0 then .trap 6 ea
    else (s.engRdMany x ea 8 5).go fun b =>
      let o := leAt b 0 1 % 16
      if o ∉ [1, 2, 4, 5, 6] then .trap 4 0
      else if o ≠ op ∨ 4 ≤ s.dispCount x.t ∨ s.winStores x.t ≠ 0 then .stall
      else
        let v := s.dispXfer x.t ea b
        let bad := s.badDisp v (leAt b 24 2)
        let v := if bad then { v with code := some (s.free.toNat % 13) } else v
        let r := (if bad then s.tick else s).newXfer v
        x.upd r.1 fun h => { h with disp := h.disp ++ [r.2] }

/-! ## SEND -/

/-- The outbound packet as DATA flits of at most 224 bytes. -/
def State.sendFlits (node oph src : Nat) (first last : Bool) : Nat → Nat → Bytes → State → State
  | 0, _, _, s => s
  | n + 1, off, b, s =>
    let r := b.drop 224
    let s := s.sendNode node (.data { oph := BitVec.ofNat 16 oph, first, last := last && r.isEmpty, fend := false,
                                      offset := BitVec.ofNat 32 off, data := b.take 224 }) src
    if r.isEmpty then s else State.sendFlits node oph src false last n (off + 224) r s

/-- SEND: the outbound packet leaves for its node as its header says (R159). The send record is read; its layout is not given, so the
handle the flits carry is free (log 37). It follows every earlier store (R195). -/
def bodySend (s : State) (x : TArg) : TRes :=
  s.operand x 4 fun _ =>
  if s.winStores x.t ≠ 0 then .stall else
  let m := (s.thread x.t).out
  let node := m.le 0x8004 2 % 4096
  let b0 := m.le 0x8000 1
  let n := min (m.le 0x8002 2 % 8192) 4096
  if s.kpSt (nodePort node) = 0 then .done s.tick
  else .done (State.sendFlits node (s.free.toNat % 65536) (tgPort x.t) (bitOn b0 4) (bitOn b0 5) 20 (m.le 0x8008 8) (m.rdN 0x8010 n) s.tick)

/-! ## EOS -/

/-- EOS (R483, R484). -/
def bodyEos (s : State) (x : TArg) : TRes :=
  s.operand x 4 fun v =>
    match (s.thread x.t).bind with
    | .attn k =>
      if v % 65536 = (s.thread x.t).claim then .done ((s.endService k (bitOn v 16) true).freeThreadOf x.t) else .done (s.setBit 0x180004 3)
    | _ => .done (s.setBit 0x180004 3)

/-! ## PARK -/

/-- PARK 0 (R189): the chain's status is fixed and the thread is freed. A service that its handler leaves without EOS stays in
service. -/
def bodyParkEnd (s : State) (x : TArg) : TRes :=
  if s.winStores x.t ≠ 0 then .stall else
  let s := s.modThread x.t fun h => { h with div := none }
  match (s.thread x.t).bind with
  | .sc n => .done (s.endChain n {})
  | .attn k => .done (((s.modSrc k fun c => { c with thread := none }).abortDisps x.t).freeThreadOf x.t)
  | _ => .done ((s.abortDisps x.t).freeThreadOf x.t)

/-- PARK 1 (R116, R189): the subchannel suspends; with PRES set, PRES is consumed and the word is read again. -/
def bodyParkSuspend (s : State) (x : TArg) : TRes :=
  if s.winStores x.t ≠ 0 then .stall else
  let s := s.modThread x.t fun h => { h with div := none }
  match (s.thread x.t).bind with
  | .sc n =>
    let s := s.stopXfer n
    if s.cxFlag n 0 then .done ((s.setCxFlag n 0 false).reread n) else .done (s.suspend n)
  | .attn k => .done (((s.modSrc k fun c => { c with thread := none }).abortDisps x.t).freeThreadOf x.t)
  | _ => .done ((s.abortDisps x.t).freeThreadOf x.t)

/-! ## The instructions -/

/-- DISP COPY's row (R195, R297-R301). -/
def infoDispCopy : TInfo := { legal := okForm [] [1, 2, 3], routine := false, step := false, unit := true, body := dispOp 1 }

/-- DISP COPY (R195, R297-R301). -/
def execDispCopy (t : Nat) (f : TForm) (s : State) : Host.Outcome State Fault Refusal := tRun (.dispCopy t f) infoDispCopy t f s

/-- DISP FILL's row (R195, R297-R301). -/
def infoDispFill : TInfo := { legal := okForm [] [1, 2, 3], routine := false, step := false, unit := true, body := dispOp 2 }

/-- DISP FILL (R195, R297-R301). -/
def execDispFill (t : Nat) (f : TForm) (s : State) : Host.Outcome State Fault Refusal := tRun (.dispFill t f) infoDispFill t f s

/-- DISP GATHER's row (R195, R297-R301). -/
def infoDispGather : TInfo := { legal := okForm [] [1, 2, 3], routine := false, step := false, unit := true, body := dispOp 4 }

/-- DISP GATHER (R195, R297-R301). -/
def execDispGather (t : Nat) (f : TForm) (s : State) : Host.Outcome State Fault Refusal := tRun (.dispGather t f) infoDispGather t f s

/-- DISP SCATTER's row (R195, R297-R301). -/
def infoDispScatter : TInfo := { legal := okForm [] [1, 2, 3], routine := false, step := false, unit := true, body := dispOp 5 }

/-- DISP SCATTER (R195, R297-R301). -/
def execDispScatter (t : Nat) (f : TForm) (s : State) : Host.Outcome State Fault Refusal := tRun (.dispScatter t f) infoDispScatter t f s

/-- DISP DISCARD's row (R195, R297-R301). -/
def infoDispDiscard : TInfo := { legal := okForm [] [1, 2, 3], routine := false, step := false, unit := true, body := dispOp 6 }

/-- DISP DISCARD (R195, R297-R301). -/
def execDispDiscard (t : Nat) (f : TForm) (s : State) : Host.Outcome State Fault Refusal := tRun (.dispDiscard t f) infoDispDiscard t f s

/-- SEND's row (R175, R195). -/
def infoSend : TInfo := { legal := okForm [] [1, 2, 3], routine := false, step := false, unit := true, body := bodySend }

/-- SEND (R175, R195). -/
def execSend (t : Nat) (f : TForm) (s : State) : Host.Outcome State Fault Refusal := tRun (.send t f) infoSend t f s

/-- EOS's row (R483, R484). -/
def infoEos : TInfo := { legal := okForm [] [0, 1, 2, 3], routine := false, step := false, unit := true, body := bodyEos }

/-- EOS (R483, R484). -/
def execEos (t : Nat) (f : TForm) (s : State) : Host.Outcome State Fault Refusal := tRun (.eos t f) infoEos t f s

/-- PARK 0's row (R189, R230). -/
def infoParkEnd : TInfo := { legal := okV 0, routine := false, step := false, unit := true, mul := true, body := bodyParkEnd }

/-- PARK 0 (R189, R230). -/
def execParkEnd (t : Nat) (f : TForm) (s : State) : Host.Outcome State Fault Refusal := tRun (.parkEnd t f) infoParkEnd t f s

/-- PARK 1's row (R189, R230). -/
def infoParkSuspend : TInfo := { legal := okV 1, routine := false, step := false, unit := true, mul := true, body := bodyParkSuspend }

/-- PARK 1 (R189, R230). -/
def execParkSuspend (t : Nat) (f : TForm) (s : State) : Host.Outcome State Fault Refusal := tRun (.parkSuspend t f) infoParkSuspend t f s

end Sys2Proof.Machine
end

