-- ==== Sys2Proof/Machine/Rake.lean ====
section
/-! DEFINITION. Rake (R471-R493): claims, deferral, software sources, masks, CQ coalescing, the MSI-X table. -/

namespace Sys2Proof.Machine

/-! ## A source's settings -/

/-- RK_ISRC_A of an internal source. -/
def isrcA (k : Nat) : Nat := 0x180100 + 8 * (k - 65536)
/-- RK_NSRC_A of a node source's node. -/
def nsrcA (k : Nat) : Nat := 0x188000 + 8 * (k / 16)

/-- PRIO of a source. -/
def State.srcPrio (s : State) (k : Nat) : Nat := if 65536 ≤ k then s.rf (isrcA k) 0 4 else s.rf (nsrcA k) 0 4

/-- AFFINITY of a source: the groups allowed, 0 meaning all. -/
def State.srcAff (s : State) (k : Nat) : Nat := if 65536 ≤ k then s.rf (isrcA k) 4 8 else s.rf (nsrcA k) 4 8

/-- A source is masked (R478). -/
def State.srcMasked (s : State) (k : Nat) : Bool := if 65536 ≤ k then s.rb (isrcA k) 12 else s.rb (nsrcA k + 4) (k % 16)

/-- HSEL of a source. -/
def State.srcHsel (s : State) (k : Nat) : Nat := if 65536 ≤ k then s.rf (isrcA k + 4) 16 4 else s.rf (nsrcA k) 12 4

/-- SC of a source. -/
def State.srcSc (s : State) (k : Nat) : Nat := if 65536 ≤ k then s.rf (isrcA k + 4) 0 14 else s.rf (nsrcA k) 16 14

/-! ## Claims (R480-R482) -/

/-- A Tiller is eligible for a source (R480), in a group that has had no claim in this cycle. -/
def State.eligible (s : State) (k T : Nat) (used : BitVec 8) : Bool :=
  let g := T / 8
  (decide (s.srcAff k = 0) || bitOn (s.srcAff k) g) && !used.getLsbD g && s.tgIn g && !s.rb (0x600000 + 8 * g) 0 && !s.inCloche T &&
  decide (s.boundOn T < 16)

/-- The running priority of a Tiller plus one: 0 when no thread is bound (R480). -/
def State.runPrio (s : State) (T : Nat) : Nat :=
  s.threads.foldl (fun m e => if e.1 / 16 = T ∧ e.2.bind ≠ .free then max m (e.2.prio + 1) else m) 0

/-- The eligible Tiller of least running priority, first in round-robin order (R481). -/
def State.pickTiller (s : State) (k : Nat) (used : BitVec 8) : Option Nat :=
  (List.range 64).foldl (fun best i =>
    let T := (s.rakeRR + i) % 64
    if !s.eligible k T used then best
    else match best with
      | some b => if s.runPrio T < s.runPrio b then some T else some b
      | none => some T) none

/-- A source can be claimed: pending, unmasked, not held off, delivered to Tillers. -/
def State.claimable (s : State) (k : Nat) : Bool :=
  decide (s.srcSt k = 1) && !s.srcMasked k && !(s.src k).hold && !s.srcTgt k

/-- The source claimed next, with its Tiller: highest PRIO, then earliest PENDING, then lowest number. -/
def State.nextClaim (s : State) (used : BitVec 8) : Option (Nat × Nat) :=
  s.sources.foldl (fun best e =>
    if !s.claimable e.1 then best
    else match s.pickTiller e.1 used with
      | none => best
      | some T => match best with
        | none => some (e.1, T)
        | some (b, _) =>
          if s.srcPrio b < s.srcPrio e.1 ∨ (s.srcPrio b = s.srcPrio e.1 ∧ e.2.ord < (s.src b).ord) then some (e.1, T) else best) none

/-- The attention record (R482). -/
def State.attnRecord (s : State) (k : Nat) : Bytes :=
  let c := s.src k
  let int := decide (65536 ≤ k)
  let lvl := s.srcIsLevel k
  natLE 2 (if int then k - 65536 + 32768 else k / 16) ++
    natLE 1 ((if int then 0 else k % 16) + 16 * b2n (lvl && c.lvl) + 32 * b2n lvl + 64 * b2n c.refire) ++
    natLE 1 (s.srcPrio k + 16 * s.srcHsel k) ++ natLE 4 (s.claimTag + 2 ^ 17 * s.srcSc k) ++ natLE 8 c.since

/-- A claim: a thread is bound and starts at the ATTN vector (R481, R482). -/
def State.claim (s : State) (k T : Nat) : State :=
  match s.freeThread T with
  | none => s
  | some t =>
    let info := if 65536 ≤ k then List.replicate 16 0 else padTo 16 (s.src k).info
    let tag := s.claimTag
    let s := { s with tpriv := (s.tpriv.wrN (t * 4096 + 0xFC0) (s.attnRecord k)).wrN (t * 4096 + 0x3F0) info }
    let s := s.modThread t fun h => { startThread h 2 0 (.attn k) (s.srcPrio k) with claim := tag, fresh := true }
    let s := ((s.setSrcSt k 2).modSrc k fun c => { c with thread := some t }).latch t 5
    ({ s with claimTag := (tag + 1) % 65536, rakeRR := (T + 1) % 64 }.bump (cnt 0x180040 0)).teStat (groupOf t)

/-- ATTN_CLAIM (R481): one claim; `used`: the groups given a claim earlier in the same ENG_CLK. -/
def execAttnClaim (used : BitVec 8) (s : State) : Host.Outcome State Fault Refusal :=
  if !s.running then .next s
  else match s.nextClaim used with
    | some (k, T) => fin (s.claim k T)
    | none => .next s

/-- HOLDOFF_EXPIRY (R484). -/
def execHoldoffExpiry (src : Nat) (s : State) : Host.Outcome State Fault Refusal :=
  if s.running && (s.src src).hold then fin (s.modSrc src fun c => { c with hold := false }) else .next s

/-! ## Software sources and masks -/

/-- A write of RK_SWTRIG (R471): a source in edge mode has an event at each rise of its bit. -/
def State.swtrigWrite (s : State) (v : Word) : State :=
  (List.range 16).foldl (fun s i =>
    if !v.getLsbD (16 + i) then s
    else
      let b := v.getLsbD i
      let old := s.rb 0x180008 i
      let s := s.wb 0x180008 i b
      let k := intSrc (48 + i)
      if s.rb (isrcA k) 13 then (if b && !old then s.srcEvent k else s) else s.srcLevel k b) s

/-- A write of RK_ISRC_A. A software source that becomes a level source takes its bit as L, as a rise where it is 1; one that becomes an edge
source has none. DESIGN CHOICE (log 83). -/
def State.isrcWrite (s : State) (i : Nat) (v : Word) : State :=
  let k := intSrc i
  let t := s.softWrite .cloche (isrcA k) v
  if i < 48 ∨ s.rb (isrcA k) 13 = t.rb (isrcA k) 13 then t
  else if t.rb (isrcA k) 13 then t.modSrc k fun c => { c with lvl := false }
  else t.srcLevel k (t.rb 0x180008 (i - 48))

/-- SWTRIG (R471). -/
def execSwtrig (who : Req) (v : Word) (s : State) : Host.Outcome State Fault Refusal := regGuarded s who fun s => s.swtrigWrite v

/-- SOURCE_MASK_WRITE (R478): `src` below 4096 names a node (RK_NSRC_B), 4096 + i the internal source i (RK_ISRC_A). -/
def execSourceMaskWrite (who : Req) (src : Nat) (v : Word) (s : State) : Host.Outcome State Fault Refusal :=
  if 4160 ≤ src then .next s
  else
    let a := if src < 4096 then 0x188004 + 8 * src else 0x180100 + 8 * (src - 4096)
    regGo s who a fun s => if src < 4096 || !reqAdm who then s.softWrite who a v else s.isrcWrite (src - 4096) v

/-! ## CQ interrupts (R489-R491) -/

/-- CQ_COALESCE_TIMER (R489). -/
def execCqCoalesceTimer (q : Nat) (s : State) : Host.Outcome State Fault Refusal :=
  if s.running && decide (q < 8192) && (s.queue q).timer && s.rb (cqi q) 11 && decide (s.rf (cqi q + 4) 0 16 ≠ 0) &&
      decide (s.rf (cqi q + 4) 16 8 ≠ 0) then fin (s.cqSignal q)
  else .next s

/-- A write of RK_CQI_CFG (R490). -/
def State.cqiWrite (s : State) (who : Req) (q : Nat) (v : Word) : State :=
  ((s.softWrite who (cqi q) v).wf (cqi q + 4) 16 8 0).modQueue q fun k => { k with timer := false }

/-- CQI_CFG_WRITE (R490). -/
def execCqiCfgWrite (who : Req) (q : Nat) (v : Word) (s : State) : Host.Outcome State Fault Refusal :=
  if 8192 ≤ q then .next s else regGo s who (cqi q) fun s => s.cqiWrite who q v

/-! ## The MSI-X table (R492, R493) -/

/-- A write of one word of an entry: address low, address high, data, vector control. -/
def MsixEntry.put (e : MsixEntry) (word : Nat) (v : Word) : MsixEntry :=
  match word with
  | 0 => { e with addr := (e.addr &&& 0xFFFFFFFF00000000) ||| (v &&& 0xFFFFFFFC).setWidth 64 }
  | 1 => { e with addr := (e.addr &&& 0xFFFFFFFF) ||| (v.setWidth 64 <<< 32) }
  | 2 => { e with data := v }
  | _ => { e with mask := v.getLsbD 0 }

/-- A write to an entry; an unmasked vector whose pending bit is set sends its message. -/
def State.msixWrite (s : State) (fn vec word : Nat) (v : Word) : State :=
  if msixSize fn ≤ vec ∨ 4 ≤ word then s
  else (s.modVec (fn * 2048 + vec) fun e => e.put word v).sendPending fn vec

/-- MSIX_TABLE_WRITE (R493). -/
def execMsixTableWrite (fn vec word : Nat) (v : Word) (s : State) : Host.Outcome State Fault Refusal :=
  if !s.serves_ (.fn fn) then .next (s.unserved (.fn fn)) else fin (s.msixWrite fn vec word v)

end Sys2Proof.Machine
end

