-- ==== Sys2Proof/Machine/Units.lean ====
section
/-! DEFINITION. Faults that units report (R594, R604-R608), forced reports (R605, R606), the temperature sensors (R604), the
patrol scrubber (R25, R26), clears by sequence (R655), GLB_UPDATE (R659, R660, R438). -/

namespace Sys2Proof.Machine

/-! ## Reports -/

/-- FAULT_REPORT (R594): a report of KP_LANE names a lane (R714); of a condition source, the condition has begun (R597). -/
def execFaultReport (src unit : Nat) (s : State) : Host.Outcome State Fault Refusal :=
  if s.life ≠ .live ∨ 106 ≤ src then .next s
  else if srcIsCond src then fin (s.setCond src true)
  else
    let lane := match srcUnit src with
      | .lane _ => if unit < 4 then some unit else none
      | _ => none
    fin (if s.safe then s.report src lane else (s.faultEffect src unit).report src lane)

/-- A write of a PR_FORCE register (R605, R606): one report of each source named. -/
def State.forceWrite (s : State) (k : Nat) (v : Word) : State :=
  (List.range 24).foldl (fun s j => if v.getLsbD j then s.report (24 * k + j) else s) s

/-- FORCE_FAULT (R605). -/
def execForceFault (who : Req) (src : Nat) (s : State) : Host.Outcome State Fault Refusal :=
  if 120 ≤ src then .next s else regGuarded s who fun s => s.report src

/-! ## Temperature -/

/-- TEMP_SAMPLE (R604): the hottest sensor, in units of 0.125 °C. -/
def execTempSample (temp : BitVec 12) (s : State) : Host.Outcome State Fault Refusal :=
  if s.life ≠ .live then .next s
  else fin (((s.wf 0x20 0 12 temp.toNat).setCond 102 (decide (880 < temp.toInt))).setCond 103 (decide (1000 < temp.toInt)))

/-! ## The patrol scrubber -/

/-- PATROL_SCRUB (R25, R26): a corrected codeword is written back unless a functional write intervened. -/
def execPatrolScrub (r : MemRegion) (idx : Nat) (intervened : Bool) (s : State) : Host.Outcome State Fault Refusal :=
  if s.life ≠ .live || s.rb 0x700A00 31 then .next s
  else match s.errs.find? fun e => decide (e.region = r ∧ e.idx = idx) with
    | none => .next s
    | some e =>
      if e.lost then
        let u := scrubUe r idx
        fin ((if s.safe then s else s.faultEffect u.1 u.2).report u.1)
      else fin ((if intervened then s else { s with errs := s.errs.erase e }).report (scrubCe r idx))

/-! ## Clear by sequence -/

/-- The status bits of an RCS register. -/
def rcsMask (off : Nat) : Nat :=
  match regAt off with
  | some r => (r.mask fun f => decide (f.acc = .rcs)).toNat % 2 ^ 24
  | none => 0

/-- Hardware sets status bits of an RCS register; those of PR_STICKY are reports. -/
def State.hwSet (s : State) (off : Nat) (hw : Nat) : State :=
  if 0x40010 ≤ off ∧ off < 0x40024 then
    (List.range 24).foldl (fun s j => if bitOn hw j then s.report ((off - 0x40010) / 4 * 24 + j) else s) s
  else s.setStatus off hw

/-- A write to an RCS register (R655); `hw`: the bits hardware sets in the same cycle. -/
def State.rcsWrite (s : State) (off : Nat) (v : Word) (hw : Nat := 0) : State :=
  let m := rcsMask off
  let hw := (List.range 24).foldl (fun a j => if bitOn hw j && bitOn m j then a + 2 ^ j else a) 0
  let stale := decide (v.toNat / 2 ^ 24 ≠ s.rf off 24 8)
  let s := if stale then (s.setBit 0x18 0).bump (cnt 0x40 1) else s
  if hw ≠ 0 then ((s.setBit 0x18 1).bump (cnt 0x40 0)).hwSet off hw
  else if stale then s
  else s.setReg off (s.reg off &&& ~~~(v &&& BitVec.ofNat 32 m))

/-- Whether an offset holds an RCS register. -/
def isRcs (off : Nat) : Bool := decide (rcsMask off ≠ 0)

/-- RCS_CLEAR (R655). -/
def execRcsClear (who : Req) (off : Nat) (v : Word) (hw : BitVec 24) (s : State) : Host.Outcome State Fault Refusal :=
  if !isRcs off then .next s else regGo s who off fun s => s.rcsWrite off v hw.toNat

/-! ## GLB_UPDATE -/

/-- A change of BUFSZ waits for drained groups and disabled channels, and is refused otherwise (R438, R660). Applied, it leaves
buffer memory below the smaller size, and empties every thread Furrow. -/
def State.poolUpdate (s : State) : State :=
  let new := s.rf 0x280000 0 4
  let old := s.af 0x280000 0 4
  if new = old then s
  else if (List.range 8).all (fun g => s.rb (0x600004 + 8 * g) 16) && s.liveChans.isEmpty then
    let keep := min (min new 8) (min old 8) * 2 ^ 20
    { s with buf := s.buf.filter fun e => decide (e.1 < keep),
             threads := s.threads.foldl (fun m e => SMap.set (fun _ => ({} : Thread)) m e.1 { e.2 with furrow := {} }) [] }
  else (s.wf 0x280000 0 4 old).setBit 0x280004 5

/-- A write of GLB_UPDATE (R659). -/
def State.updateWrite (s : State) (v : Word) : State :=
  let s := s.bump (cnt 0x40 2)
  let s := if v.getLsbD 8 then s.poolUpdate else s
  s.applyGroups (v.toNat % 65536)

/-- GLB_UPDATE (R659). -/
def execGlbUpdate (who : Req) (v : Word) (s : State) : Host.Outcome State Fault Refusal := regGuarded s who fun s => s.updateWrite v

end Sys2Proof.Machine
end

