-- ==== Sys2Proof/Machine/Vault.lean ====
section
/-! DEFINITION. The Vault (R551-R556): reads and writes through BAR2, updates staged in the Seedbank, COMMIT, ABORT and the copy
home. -/

namespace Sys2Proof.Machine

/-- The Vault's first Seedbank offset (R28). -/
def vaultBase : Nat := 0x1600000

/-- The staging directory (R548). Its entries are laid out as a shadow directory's (R549): home offset and block count. DEDUCED (log 22). -/
def vaultDir : Nat := 0x36AB000

/-- The staging slot `k`. -/
def vaultSlot (k : Nat) : Nat := 0x36AC000 + 4096 * k

/-- SB_VSTAT.ST: 0 IDLE, 1 OPEN, 2 COMMITTING, 3 COPYING. -/
def State.vst (s : State) : Nat := s.rf 0xC0044 0 2

/-- The staging slot of a block. -/
def State.staged (s : State) (b : Nat) : Option Nat := (s.vstage.find? fun e => e.1 = b).map fun e => e.2

/-- Where the contents of Vault byte `o` stand that a read returns (R552, R555): staged while the update is open and from the
moment it is committed. -/
def State.vaultAt (s : State) (o : Nat) : Nat :=
  match s.staged (o / 4096) with
  | some k => if s.vst = 1 ∨ s.vst = 3 then vaultSlot k + o % 4096 else vaultBase + o
  | none => vaultBase + o

/-! ## Codeword errors of the Seedbank -/

/-- The worst error among the blocks of a Seedbank range: 0 none, 1 correctable, 2 uncorrectable. -/
def State.seedErr (s : State) (a n : Nat) : Nat :=
  s.errs.foldl (fun m e =>
    if e.region = .seedbank ∧ a / 64 ≤ e.idx ∧ e.idx ≤ (a + n - 1) / 64 then
      max m (if e.poisoned || decide (32 < e.burst) then 2 else 1)
    else m) 0

/-- Copies a Vault block within the Seedbank; a block that cannot be read leaves poison at its destination. -/
def State.seedCopy (s : State) (src dst n : Nat) : State :=
  let bad := s.errs.filter fun e => decide (e.region = .seedbank) && decide (src / 64 ≤ e.idx ∧ e.idx < (src + n) / 64) &&
    (e.poisoned || decide (32 < e.burst))
  let s := s.seedPut dst (s.seed.rdN src n)
  { s with errs := s.errs ++ bad.map fun e => { e with idx := e.idx - src / 64 + dst / 64, poisoned := true } }

/-! ## Reads and writes -/

/-- A request of a form that is not served is completed, and BADACC set (R499). -/
def State.badAcc (s : State) : State := (s.setBit 0x100008 0).bump (cnt 0x100040 0)

/-- A read through BAR2 (R551, R521). -/
def State.vaultGet (s : State) (off len : Nat) : State :=
  if len = 0 ∨ 4096 < off % 4096 + len then { s.badAcc with reply := .data (List.replicate len 0) 0 }
  else
    let a := s.vaultAt off
    let b := s.seed.rdN a len
    match s.seedErr a len with
    | 2 => { (s.aer 0 4).report 93 with reply := .poisoned b }
    | 1 => { s.report 92 with reply := .data b 0 }
    | _ => { s with reply := .data b 0 }

/-- VAULT_READ (R551): BAR2 is the PF's. -/
def execVaultRead (fn off len : Nat) (s : State) : Host.Outcome State Fault Refusal :=
  if fn ≠ 0 ∨ 0x2000000 ≤ off then .next s
  else match s.memServe 0 with
    | .gone => .next { s with reply := .silent }
    | .ur => .next (s.unserved (.fn 0)).replyUr
    | .limited => .next { s with reply := .data (List.replicate len 0) 0 }
    | .full => fin (s.vaultGet off len)

/-- A block is staged: its committed contents are copied to a slot (R552). -/
def State.stageBlock (s : State) (b : Nat) : State :=
  let k := s.vstage.length
  let s := s.seedCopy (vaultBase + 4096 * b) (vaultSlot k) 4096
  { s with vstage := s.vstage ++ [(b, k)] }.wf 0xC0044 2 9 (k + 1)

/-- A write through BAR2 (R552, R553, R616). -/
def State.vaultPut (s : State) (off : Nat) (d : Bytes) : State :=
  if 4096 < off % 4096 + d.length then s.badAcc
  else if s.safe || s.standby || decide (s.vst ≠ 1) then s.setBit 0xC0000 3
  else if (s.staged (off / 4096)).isNone && decide (256 ≤ s.vstage.length) then { s with vover := true }.setBit 0xC0000 4
  else
    let s := if (s.staged (off / 4096)).isNone then s.stageBlock (off / 4096) else s
    s.seedPut (vaultSlot ((s.staged (off / 4096)).getD 0) + off % 4096) d

/-- VAULT_WRITE (R552). -/
def execVaultWrite (fn off : Nat) (data : Bytes) (s : State) : Host.Outcome State Fault Refusal :=
  if fn ≠ 0 ∨ 0x2000000 ≤ off then .next s
  else match s.memServe 0 with
    | .full => fin (s.vaultPut off data)
    | .ur => .next (s.unserved (.fn 0))
    | _ => .next s

/-! ## Updates (R554, R555) -/

/-- OPEN. -/
def State.vaultOpen (s : State) : State :=
  if s.vst = 0 then { s.setReg 0xC0044 1 with vstage := [], vover := false } else s

/-- An open update is discarded. -/
def State.vaultDrop (s : State) : State :=
  if s.vst = 1 then ({ s with vstage := [], vover := false }.setReg 0xC0044 0).bump (cnt 0xC0080 3) else s

/-- An open update is discarded by a reset of the PF or a cut (R556). -/
def State.vaultLost (s : State) : State := if s.vst = 1 then s.vaultDrop.setBit 0xC0000 6 else s

/-- The staged blocks in ascending block number. -/
def State.vaultSorted (s : State) : List (Nat × Nat) := s.vstage.foldr (List.orderedInsert fun a b => a.1 ≤ b.1) []

/-- The CRC-32C over the staged blocks, whole and in ascending block number (R554). -/
def State.vaultCrc (s : State) : Word := crc32c (s.vaultSorted.flatMap fun e => s.seed.rdN (vaultSlot e.2) 4096)

/-- The staging directory. -/
def State.vaultDirectory (s : State) : Bytes :=
  padTo 4096 (List.replicate 64 0 ++ s.vstage.flatMap fun e => natLE 4 (vaultBase + 4096 * e.1) ++ natLE 2 64)

/-- COMMIT (R554, R555): refused, or the VCOMMIT record is issued. -/
def State.vaultCommit (s : State) : State :=
  if s.vst ≠ 1 then s
  else if s.vover || s.rb 0xC0000 4 || s.vstage.isEmpty then s
  else if s.rb 0xC0040 3 && decide (s.vaultCrc ≠ s.reg 0xC0048) then s.setBit 0xC0000 5
  else
    let d := s.vaultDirectory
    let s := (s.wf 0xC0044 0 2 2).seedPut vaultDir d
    s.jIssue 0x10 (natLE 4 (s.rn 0xC004C + 1) ++ natLE 2 s.vstage.length ++ natLE 2 0 ++ natLE 4 (crc32c d).toNat ++ natLE 8 s.now) .vcommit

/-- A write of SB_VCTL (R554, R652): OPEN, then COMMIT, then ABORT, where one write asks for several. In safe state OPEN and
COMMIT are ignored (R616). -/
def State.vctlWrite (s : State) (v : Word) : State :=
  let on := fun k => v.getLsbD (16 + k) && v.getLsbD k
  if s.standby then s
  else
    let s := if v.getLsbD 19 then s.wb 0xC0040 3 (v.getLsbD 3) else s
    let s := if on 0 && !s.safe then s.vaultOpen else s
    let s := if on 1 && !s.safe then s.vaultCommit else s
    if on 2 then s.vaultDrop else s

/-- VAULT_OPEN (R554). -/
def execVaultOpen (who : Req) (s : State) : Host.Outcome State Fault Refusal := regGuarded s who fun s => s.vctlWrite 0x10001

/-- VAULT_COMMIT (R554, R555); `check`: the value the write gives CHECK, if its mask names it. -/
def execVaultCommit (who : Req) (check : Option Bool) (s : State) : Host.Outcome State Fault Refusal :=
  regGuarded s who fun s => s.vctlWrite (0x20002 ||| check.elim 0 fun b => if b then 0x80008 else 0x80000)

/-- VAULT_ABORT (R554). -/
def execVaultAbort (who : Req) (s : State) : Host.Outcome State Fault Refusal := regGuarded s who fun s => s.vctlWrite 0x40004

/-- The VDONE record of the copy (R555 step 3). -/
def State.vaultDone (s : State) : State := s.jIssue 0x11 (natLE 4 (s.rn 0xC004C) ++ natLE 8 0 ++ natLE 8 s.now) .vdone

/-- The staged blocks are copied home. -/
def State.vaultHome (s : State) : State := s.vstage.foldl (fun s e => s.seedCopy (vaultSlot e.2) (vaultBase + 4096 * e.1) 4096) s

/-- VAULT_COPY_DONE (R555). -/
def execVaultCopyDone (s : State) : Host.Outcome State Fault Refusal :=
  if s.life = .live && decide (s.vst = 3) && !s.jpend.any fun r => decide (r.eff = .vdone) then fin s.vaultHome.vaultDone else .next s

end Sys2Proof.Machine
end

