-- ==== Sys2Proof/Machine/Power.lean ====
section
/-! DEFINITION. Internal power domains (R557-R563) and the return of fenced units (R614). Domains in REQ order: 0-3 KP0-KP3,
4-11 TG0-TG7, 12 BWA, 13 BWB. -/

namespace Sys2Proof.Machine

/-- A domain enters a state (CL_PDOM_STAT). -/
def State.setPdom (s : State) (d st : Nat) : State := s.wf 0x80024 (2 * d) 2 st

/-- Whether the unit of a domain is fenced (PR_FENCED). -/
def State.domFenced (s : State) (d : Nat) : Bool :=
  if d < 4 then s.rb 0x40008 (10 + d) else if d < 12 then s.rb 0x40008 (d - 4) else s.rb 0x40008 (d - 4)

/-! ## Draining (R558, R560) -/

/-- Chains that work, or wait, at a node of a port. -/
def State.chainsAt (s : State) (p : Nat) : List Nat :=
  s.chainsWhere fun sc c =>
    let at_ := fun o : Option Nat => (o.bind s.op).elim false fun q => decide (nodePort q.node = p)
    at_ c.op || at_ c.op2 || (decide (c.phase = .slotWait ∨ c.phase = .answer ∨ c.phase = .paceNode) && decide (nodePort c.node = p)) ||
    (match s.wait sc with | some w => decide (nodePort w.node = p) | none => false)

/-- The DMA channels whose descriptor works at a node of a port. -/
def State.chansAt (s : State) (p : Nat) : List Nat :=
  s.chans.filterMap fun e => if !e.2.desc.isEmpty && (dscNodes e.2.desc).any fun n => decide (nodePort n.1 = p) then some e.1 else none

/-- A descriptor ends with DOMAIN_WITHDRAWN; its node operations get END, and their ends are awaited. -/
def State.withdrawChan (s : State) (c : Nat) : State :=
  match (s.chan c).xfer with
  | some x => s.endXfer x 10
  | none => if (s.chan c).code.isSome then s else s.chCode c 10

/-- What draining port `p` ends (R558, R560). -/
def State.drainKp (s : State) (p : Nat) : State :=
  let s := s.lbStop (p + 1)
  let s := (s.undecidedAt p).foldl (fun s x => s.withdrawChain (s.txn x).sc) s
  let s := (s.chainsAt p).foldl (fun s sc => s.withdrawChain sc) s
  (s.chansAt p).foldl (fun s c => s.withdrawChan c) s

/-- What draining group `g` ends (R558). -/
def State.drainTg (s : State) (g : Nat) : State :=
  let s := (s.boundThreads g).foldl (fun s t => match (s.thread t).bind with
    | .sc _ => s.abortDisps t
    | _ => s.stopThread t) s
  (s.chainsOf g).foldl (fun s sc => if s.scState sc = 6 then s else s.withdrawChain sc) s

/-- REQ = 1 (R557, R558, R614): a fenced unit goes OFF at once. -/
def State.drain (s : State) (d : Nat) : State :=
  if d < 4 then s.drainKp d else if d < 12 then s.drainTg (d - 4) else s.withdrawHalf (d - 12)

/-! ## OFF (R561) -/

/-- Whether work is still in flight in a draining domain. -/
def State.inFlight (s : State) (d : Nat) : Bool :=
  if d < 4 then !(s.portOps d).isEmpty || (s.membersOn d).any (fun e => !e.2.unconf) || !(s.chansAt d).isEmpty
  else if d < 12 then !(s.boundThreads (d - 4)).isEmpty || (s.chainsOf (d - 4)).any fun sc => decide ((s.chain sc).phase ≠ .fixed)
  else s.xfers.any fun e => e.2.elim false fun v => v.slot.elim false fun q => decide (q.1 / 8 = d - 12)

/-- The domain's unit loses its memories; a port goes DOWN. -/
def State.unitOff (s : State) (d : Nat) : State :=
  if d < 4 then s.portDown d
  else if d < 12 then
    { s with tmem := s.tmem.drop ((d - 4) * 0x200000) 0x200000, tpriv := s.tpriv.drop ((d - 4) * 0x80000) 0x80000 }
  else s

/-- A domain goes OFF; one whose REQ has been written 0 in the meantime powers up at once. -/
def State.domOff (s : State) (d : Nat) : State := (s.unitOff d).setPdom d (if s.rb 0x80020 d then 2 else 3)

/-- DOMAIN_OFF (R561). -/
def execDomainOff (d : Nat) (s : State) : Host.Outcome State Fault Refusal :=
  if s.life = .live && decide (d < 14) && decide (s.pdom d = 1) && !s.inFlight d then fin (s.domOff d) else .next s

/-- What is left at DRTMO is forced to its end (R561). -/
def State.forceOut (s : State) (d : Nat) : State :=
  if d < 4 then
    let s := (s.chainsAt d).foldl (fun s sc => s.fixStatus sc { de := some false }) s
    let s := (s.membersOn d).foldl (fun s e => if e.2.unconf then s else s.unconfirm e.1 e.2.node) s
    let s := (s.portOps d).foldl (fun s k => match s.op k with
      | some o =>
        let st := some (lostStatus (o.gen * 16384 + k))
        let s := s.closeEx k
        match o.owner with
        | .chanSrc c => s.modChan c fun q => { q with endStatus := st }
        | .chanDst c => s.modChan c fun q => { q with endStatus2 := st }
        | _ => s
      | none => s) s
    (s.chansAt d).foldl (fun s c => match s.dscResult c with
      | some (code, done, ns) => s.dscFinish c code done ns
      | none => s) s
  else if d < 12 then
    let s := (s.chainsOf (d - 4)).foldl (fun s sc => s.fixStatus sc { de := some false }) s
    (s.boundThreads (d - 4)).foldl (fun s t => s.freeThreadOf t) s
  else s.xfers.foldl (fun s e => match e.2 with
    | some v => match v.slot with
      | some q => if q.1 / 8 = d - 12 then (s.endXfer e.1 2).unbind e.1 else s
      | none => s
    | none => s) s

/-- DRAIN_TIMEOUT (R561). -/
def execDrainTimeout (d : Nat) (s : State) : Host.Outcome State Fault Refusal :=
  if s.life = .live && decide (d < 14) && decide (s.pdom d = 1) then
    fin (((s.forceOut d).domOff d).setBit 0xC0000 0 |>.bump (cnt 0xC0080 4))
  else .next s

/-! ## Requests (R557, R562) -/

/-- REQ goes to 1. -/
def State.domDown (s : State) (d : Nat) : State :=
  if 12 ≤ d ∧ s.rb 0x80020 (25 - d) then s.setBit 0xC0000 1
  else
    let s := s.wb 0x80020 d true
    if s.pdom d = 2 ∨ s.pdom d = 1 then s
    else if s.domFenced d then (s.setPdom d 1).domOff d
    else (s.setPdom d 1).drain d

/-- A BIST of the domain ends with ABORTED (R679). -/
def State.bistAbort (s : State) (d : Nat) : State :=
  if s.rf 0x700904 0 3 = 1 ∧ s.bistDom = d then s.wf 0x700904 0 3 4 else s

/-- REQ goes to 0. -/
def State.domUp (s : State) (d : Nat) : State :=
  let s := s.wb 0x80020 d false
  if s.pdom d = 2 then (s.bistAbort d).setPdom d 3 else s

/-- A write of CL_PDOM_CTL. -/
def State.pdomWrite (s : State) (v : Word) : State :=
  (List.range 14).foldl (fun s d =>
    if v.getLsbD d && !s.rb 0x80020 d then s.domDown d
    else if !v.getLsbD d && s.rb 0x80020 d then s.domUp d
    else s) s

/-- DOMAIN_POWER_DOWN (R558). -/
def execDomainPowerDown (who : Req) (d : Nat) (s : State) : Host.Outcome State Fault Refusal :=
  if 14 ≤ d then .next s else regGuarded s who fun s => s.pdomWrite (s.reg 0x80020 ||| 1#32 <<< d)

/-- DOMAIN_POWER_UP (R562). -/
def execDomainPowerUp (who : Req) (d : Nat) (s : State) : Host.Outcome State Fault Refusal :=
  if 14 ≤ d then .next s else regGuarded s who fun s => s.pdomWrite (s.reg 0x80020 &&& ~~~(1#32 <<< d))

/-! ## Power-up (R562, R614) -/

/-- Whether a source names the unit of a domain. -/
def namesDom (n d : Nat) : Bool :=
  match srcUnit n with
  | .tg g => decide (d = 4 + g)
  | .tgs lo => decide (4 + lo ≤ d ∧ d < 8 + lo)
  | .bw h => decide (d = 12 + h)
  | .kp p => decide (d = p)
  | _ => false

/-- Whether every sticky bit that names the unit of a domain is clear. -/
def State.domClear (s : State) (d : Nat) : Bool := (List.range 106).all fun n => !(namesDom n d && s.sticky n)

/-- A fenced unit returns once no sticky bit names it; a port's fenced lanes return with it (R612, R614). -/
def State.unfence (s : State) (d : Nat) : State :=
  if d < 4 then
    let lanes := !s.sticky (50 + d)
    let s := if lanes then s.wf 0x40008 (16 + 4 * d) 4 0 else s
    if s.domClear d && (s.bestLanes d).isSome then s.wb 0x40008 (10 + d) false else s
  else if s.domClear d then s.wb 0x40008 (d - 4) false else s

/-- The memories of a group's Tillers are loaded from a Tiller of a powered group, else from the Seed image copy (R205, R562,
R571): `src`: the Tiller copied. -/
def State.copyTiller (s : State) (src dst : Nat) : State :=
  { s with tmem := Mem.copyRange s.tmem s.tmem (src * 0x40000) (dst * 0x40000) 0x40000 }

/-- A section of the Seed image copy: its offset and length (R568, R570, R571). -/
def State.imageSection (s : State) (type : Nat) : Option (Nat × Nat) :=
  let a := 0xE00000
  ((List.range (min (s.seed.le (a + 16) 1 % 64) 32)).find? fun i => decide (s.seed.le (a + 256 + 32 * i) 1 = type)).map fun i =>
    (s.seed.le (a + 260 + 32 * i) 4, s.seed.le (a + 264 + 32 * i) 4)

/-- A Tiller is loaded from the Seed image copy: CODE, DECODE and SHARED, absent sections as zeros. -/
def State.imageTiller (s : State) (T : Nat) : State :=
  [(3, 0, 0x10000), (4, 0x10000, 0x4000), (5, 0x20000, 0xC000)].foldl (fun s r =>
    let s := { s with tmem := s.tmem.drop (T * 0x40000 + r.2.1) r.2.2 }
    match s.imageSection r.1 with
    | some (off, len) => { s with tmem := Mem.copyRange s.seed s.tmem (0xE00000 + off) (T * 0x40000 + r.2.1) (min len r.2.2) }
    | none => s) s

/-- A group's memories are loaded; an armed injection hits the first word written (R680). -/
def State.loadGroup (s : State) (g : Nat) : State :=
  let from_ := (List.range 8).find? fun k => decide (k ≠ g) && decide (s.pdom (4 + k) = 0)
  let s := (List.range 8).foldl (fun s i => match from_ with
    | some k => s.copyTiller (8 * k) (8 * g + i)
    | none => s.imageTiller (8 * g + i)) s
  let s := { s with errs := s.errs.filter fun e => decide (e.region ≠ MemRegion.tiller ∨ e.idx / 4096 / 8 ≠ g) }
  match s.injBurst 3 with
  | some n => if s.rf 0x700A10 3 3 = g then (s.addErr .tiller (g * 8 * 4096) n).injDone else s
  | none => s

/-- The domain is ON: its unit is reloaded, and a port trains. -/
def State.domOn (s : State) (d : Nat) : State :=
  let s := (s.setPdom d 0).unfence d
  if d < 4 then
    let s := s.wf (kp d 0xC) 22 4 0
    if s.running then s.trainPort d else s
  else if d < 12 then
    let g := d - 4
    let s := { s with threads := s.threads.filter fun e => decide (groupOf e.1 ≠ g) }
    ((s.loadGroup g).wf (0x600004 + 8 * g) 8 8 0).teStat g
  else s

/-- DOMAIN_POWERED (R562). -/
def execDomainPowered (d : Nat) (s : State) : Host.Outcome State Fault Refusal :=
  if s.life = .live && decide (d < 14) && decide (s.pdom d = 3) then fin (s.domOn d) else .next s

end Sys2Proof.Machine
end

