-- ==== Sys2Proof/Machine/Image.lean ====
section
/-! DEFINITION. The Seed image (R568-R574): SHA-256 (FIPS 180-4; log 11), the header's fields, and the validity of a copy. A copy
is given as the function that reads its bytes. -/

namespace Sys2Proof.Machine

/-! ## SHA-256 -/

/-- The round constants. -/
def shaK : List Word :=
  [0x428a2f98, 0x71374491, 0xb5c0fbcf, 0xe9b5dba5, 0x3956c25b, 0x59f111f1, 0x923f82a4, 0xab1c5ed5,
   0xd807aa98, 0x12835b01, 0x243185be, 0x550c7dc3, 0x72be5d74, 0x80deb1fe, 0x9bdc06a7, 0xc19bf174] ++
  [0xe49b69c1, 0xefbe4786, 0x0fc19dc6, 0x240ca1cc, 0x2de92c6f, 0x4a7484aa, 0x5cb0a9dc, 0x76f988da,
   0x983e5152, 0xa831c66d, 0xb00327c8, 0xbf597fc7, 0xc6e00bf3, 0xd5a79147, 0x06ca6351, 0x14292967] ++
  [0x27b70a85, 0x2e1b2138, 0x4d2c6dfc, 0x53380d13, 0x650a7354, 0x766a0abb, 0x81c2c92e, 0x92722c85,
   0xa2bfe8a1, 0xa81a664b, 0xc24b8b70, 0xc76c51a3, 0xd192e819, 0xd6990624, 0xf40e3585, 0x106aa070] ++
  [0x19a4c116, 0x1e376c08, 0x2748774c, 0x34b0bcb5, 0x391c0cb3, 0x4ed8aa4a, 0x5b9cca4f, 0x682e6ff3,
   0x748f82ee, 0x78a5636f, 0x84c87814, 0x8cc70208, 0x90befffa, 0xa4506ceb, 0xbef9a3f7, 0xc67178f2]

/-- The initial hash value. -/
def shaInit : List Word :=
  [0x6a09e667, 0xbb67ae85, 0x3c6ef372, 0xa54ff53a, 0x510e527f, 0x9b05688c, 0x1f83d9ab, 0x5be0cd19]

/-- A big-endian word of four bytes. -/
def beWord (b : Bytes) : Word := b.foldl (fun a x => (a <<< 8) ||| x.setWidth 32) 0

/-- The message schedule, newest first, from the 16 words of a block, newest first. -/
def shaSched : Nat → List Word → List Word
  | 0, w => w
  | n + 1, w =>
    let a := w.getD 14 0
    let b := w.getD 1 0
    let s0 := a.rotateRight 7 ^^^ a.rotateRight 18 ^^^ (a >>> 3)
    let s1 := b.rotateRight 17 ^^^ b.rotateRight 19 ^^^ (b >>> 10)
    shaSched n ((w.getD 15 0 + s0 + w.getD 6 0 + s1) :: w)

/-- One round on the eight working words. -/
def shaRound (h : List Word) (kw : Word × Word) : List Word :=
  match h with
  | [a, b, c, d, e, f, g, i] =>
    let s1 := e.rotateRight 6 ^^^ e.rotateRight 11 ^^^ e.rotateRight 25
    let t1 := i + s1 + ((e &&& f) ^^^ (~~~e &&& g)) + kw.1 + kw.2
    let s0 := a.rotateRight 2 ^^^ a.rotateRight 13 ^^^ a.rotateRight 22
    [t1 + (s0 + ((a &&& b) ^^^ (a &&& c) ^^^ (b &&& c))), a, b, c, d + t1, e, f, g]
  | h => h

/-- The four-byte words of a block. -/
def shaWords : Nat → Bytes → List Word
  | 0, _ => []
  | n + 1, b => beWord (b.take 4) :: shaWords n (b.drop 4)

/-- The blocks of a padded message. -/
def shaBlocks : Nat → Bytes → List Word → List Word
  | 0, _, h => h
  | n + 1, b, h =>
    let w := (shaSched 48 (shaWords 16 b).reverse).reverse
    shaBlocks n (b.drop 64) (List.zipWith (· + ·) h ((shaK.zip w).foldl shaRound h))

/-- Big-endian bytes of a number. -/
def natBE (n v : Nat) : Bytes := (natLE n v).reverse

/-- The SHA-256 digest. -/
def sha256 (b : Bytes) : Bytes :=
  let z := (119 - b.length % 64) % 64
  let m := b ++ [0x80] ++ List.replicate z 0 ++ natBE 8 (8 * b.length)
  (shaBlocks (m.length / 64) m shaInit).flatMap fun w => natBE 4 w.toNat

/-! ## Reading a copy -/

/-- `n` bytes of a copy. -/
def imgN (g : Nat → Byte) (a n : Nat) : Bytes := (List.range n).map fun i => g (a + i)

/-- A little-endian number of a copy. -/
def imgLe (g : Nat → Byte) (a n : Nat) : Nat := leNat (imgN g a n)

/-- A flash copy: 0 A, 1 B (R565). -/
def State.flashAt (s : State) (copy : Nat) (i : Nat) : Byte := SMap.get memErased s.flash (copy * 0x800000 + i)

/-- The Seedbank copy (R28). -/
def State.bankAt (s : State) (i : Nat) : Byte := s.seed.rd (0xE00000 + i)

/-- IMAGE_LEN. -/
def imgLen (g : Nat → Byte) : Nat := imgLe g 8 8 / 2 ^ 32

/-! ## The checks of R574 -/

/-- Whether `n` bytes are zero. -/
def imgZero (g : Nat → Byte) (a n : Nat) : Bool := (List.range n).all fun i => decide (g (a + i) = 0)

/-- NSECT. -/
def imgNsect (g : Nat → Byte) : Nat := imgLe g 16 1 % 64

/-- The header of a copy is correct (R574, R712). -/
def headerOk (g : Nat → Byte) : Bool :=
  decide (imgLe g 0 4 = 0x4C4B5349) && decide (g 4 = 1) && decide (imgLe g 7 1 % 4 ≠ 3) && decide (imgLe g 5 1 / 4 = 0) && decide (imgLe g 7 1 / 128 = 0) &&
  decide (imgLen g % 4096 = 0) && decide (8192 ≤ imgLen g ∧ imgLen g ≤ 0x800000) && decide (1 ≤ imgNsect g ∧ imgNsect g ≤ 32) &&
  imgZero g 17 7 && imgZero g 64 192 && imgZero g 1280 2812 &&
  ((List.range (imgNsect g)).all fun i => imgZero g (257 + 32 * i) 3 && imgZero g (276 + 32 * i) 12) &&
  decide (crc32c (imgN g 0 4092) = BitVec.ofNat 32 (imgLe g 4092 4))

/-- A section entry (R570): type, offset, length, load address, CRC. -/
structure Section_ where
  type : Nat
  off : Nat
  len : Nat
  load : Nat
  crc : Nat
  deriving DecidableEq, Repr

/-- The sections of a copy. -/
def imgSections (g : Nat → Byte) : List Section_ :=
  (List.range (imgNsect g)).map fun i =>
    let a := 256 + 32 * i
    { type := imgLe g a 1, off := imgLe g (a + 4) 4, len := imgLe g (a + 8) 4, load := imgLe g (a + 12) 4, crc := imgLe g (a + 16) 4 }

/-- The section of a type. -/
def imgSection (g : Nat → Byte) (type : Nat) : Option Section_ := (imgSections g).find? fun x => x.type = type

/-- The lengths of R571. -/
def sectLenOk (x : Section_) : Bool :=
  match x.type with
  | 1 => decide (x.len % 16 = 0)
  | 2 => decide (x.len % 16 = 0 ∧ x.len ≤ 65536)
  | 3 => decide (x.len = 65536)
  | 4 => decide (x.len = 16384)
  | 5 => decide (x.len ≤ 49152)
  | 6 => true
  | _ => false

/-- Every section lies in place and overlaps no other; each type appears at most once, CODE once (R570, R571). -/
def sectionsOk (g : Nat → Byte) : Bool :=
  let l := imgSections g
  (l.all fun x => decide (x.off % 4096 = 0 ∧ 4096 ≤ x.off ∧ x.off + x.len ≤ imgLen g) && sectLenOk x) &&
  ((List.range l.length).all fun i => (List.range i).all fun j =>
    match l[i]?, l[j]? with
    | some x, some y => decide (x.type ≠ y.type) && decide (x.off + x.len ≤ y.off ∨ y.off + y.len ≤ x.off)
    | _, _ => true) &&
  l.any fun x => decide (x.type = 3)

/-- Every section's CRC matches. -/
def crcsOk (g : Nat → Byte) : Bool := (imgSections g).all fun x => decide (crc32c (imgN g x.off x.len) = BitVec.ofNat 32 x.crc)

/-- The digest of R569. -/
def imgDigest (g : Nat → Byte) : Bytes :=
  sha256 (imgN (fun i => if (8 ≤ i ∧ i < 12) ∨ (32 ≤ i ∧ i < 64) ∨ (4092 ≤ i ∧ i < 4096) then 0 else g i) 0 (imgLen g))

/-- IMAGE_SHA. -/
def imgSha (g : Nat → Byte) : Bytes := imgN g 32 32

/-- The offsets of the configuration records. -/
def imgRecords (g : Nat → Byte) : List Nat :=
  match imgSection g 1 with
  | some x => (List.range (x.len / 16)).map fun i => x.off + 16 * i
  | none => []

/-- Every configuration record is defined; a REG offset is in range, a CHAIN inside the AUTOSTART section (R572, R574). -/
def recordsOk (g : Nat → Byte) : Bool :=
  (imgRecords g).all fun a =>
    if g a = 1 then decide (imgLe g (a + 4) 4 % 4 = 0 ∧ imgLe g (a + 4) 4 ≤ 0x7FFFFF)
    else if g a = 2 then
      match imgSection g 6 with
      | some x => decide (x.load ≤ imgLe g (a + 4) 4 ∧ imgLe g (a + 4) 4 < x.load + x.len)
      | none => false
    else false

/-- A topology entry (R573). -/
structure Topo where
  index : Nat
  depth : Nat
  required : Bool
  path : Nat
  share : Nat
  parent : Nat
  pv : Bool
  vendor : Nat
  model : Nat
  minrev : Nat
  deriving DecidableEq, Repr

/-- The topology entries of a copy. -/
def imgTopo (g : Nat → Byte) : List Topo :=
  match imgSection g 2 with
  | some x => (List.range (x.len / 16)).map fun i =>
      let a := x.off + 16 * i
      let w := imgLe g a 2
      let q := imgLe g (a + 6) 2
      { index := w % 4096, depth := bits w 12 2, required := bitOn w 14, path := imgLe g (a + 2) 3 % 2 ^ 18, share := imgLe g (a + 5) 1,
        parent := q % 4096, pv := bitOn q 15, vendor := imgLe g (a + 8) 2, model := imgLe g (a + 10) 2, minrev := imgLe g (a + 12) 2 }
  | none => []

/-- A path that R346 allows, at a depth. -/
def pathOk (path depth : Nat) : Bool :=
  let l2 := bits path 6 6
  let l3 := bits path 12 6
  decide (l2 ≠ 63 ∧ l3 ≠ 63) && decide (depth = if l2 = 0 then 1 else if l3 = 0 then 2 else 3) && (decide (l2 ≠ 0) || decide (l3 = 0))

/-- The checks of TOPOLOGY (R574). -/
def topoOk (l : List Topo) : Bool :=
  ((List.range l.length).all fun i => (List.range i).all fun j =>
    match l[i]?, l[j]? with
    | some x, some y => decide (x.index ≠ y.index) && decide (x.index / 1024 ≠ y.index / 1024 ∨ x.path ≠ y.path)
    | _, _ => true) &&
  l.all fun x => pathOk x.path x.depth && (x.pv == decide (1 < x.depth)) &&
    (!x.pv || l.any fun y => decide (y.index = x.parent) && decide (y.depth + 1 = x.depth) && decide (y.index / 1024 = x.index / 1024) &&
      decide (y.path = x.path % 64 ^ (x.depth - 1)))

/-- A copy is valid (R574). -/
def copyOk (g : Nat → Byte) : Bool :=
  headerOk g && sectionsOk g && crcsOk g && decide (imgDigest g = imgSha g) && recordsOk g && topoOk (imgTopo g)

end Sys2Proof.Machine
end

