-- ==== Sys2Proof/Machine/ImageUpdate.lean ====
section
/-! DEFINITION. Image updates (R590-R593) and the background check of a FAST start (R712). -/

namespace Sys2Proof.Machine

/-! ## The flash -/

/-- The bytes of a memory in a range, as its listed entries. -/
def Mem.within (m : Mem) (a n : Nat) : Mem := m.filter fun e => decide (a ≤ e.1 ∧ e.1 < a + n)

/-- Listed entries for bytes from an address on, without those that read as erased. -/
def flashCells (a : Nat) : Bytes → Mem
  | [] => []
  | b :: r => if b = 0xFF then flashCells (a + 1) r else (a, b) :: flashCells (a + 1) r

/-- The Seed flash with bytes programmed at an address. -/
def State.flashPut (s : State) (a : Nat) (b : Bytes) : State :=
  { s with flash := s.flash.filter (fun e => decide (e.1 < a)) ++ flashCells a b ++ s.flash.filter fun e => decide (a + b.length ≤ e.1) }

/-- A block or page whose command timed out holds an unknown content (log 4), with which the copy's header does not check:
a failed update leaves the target invalid (R593). -/
def State.flashLost (s : State) (copy a n : Nat) : State :=
  let bs := (List.range n).map fun i => (Config.freeValue (s.freeCtr + i)).setWidth 8
  let s := { s with freeCtr := s.freeCtr + n }
  let t := s.flashPut a bs
  if headerOk (t.flashAt copy) then s.flashPut a (List.replicate n 0xFF) else t

/-! ## The update -/

/-- CL_SU_STAT.ST: 0 IDLE, 1 VERIFY, 2 ERASE, 3 PROGRAM, 4 READBACK, 5 HEADER, 6 DONE, 7 FAILED. -/
def State.suSt (s : State) : Nat := s.rf 0x80064 0 3

/-- The target copy: 0 A, 1 B. -/
def State.suTarget (s : State) : Nat := s.rf 0x80064 6 1

/-- The update runs (VERIFY to HEADER). -/
def State.updating (s : State) : Bool := decide (1 ≤ s.suSt ∧ s.suSt ≤ 5)

/-- A step begins. -/
def State.suStep (s : State) (st : Nat) : State :=
  { (s.wf 0x80064 0 3 st).wf 0x80064 8 12 0 with upd := { s.upd with pos := 0 } }

/-- The current step has come to byte `pos`; PROGRAM begins at byte 0x1000. -/
def State.suDone (s : State) (pos : Nat) : State :=
  { s with upd := { s.upd with pos } }.wf 0x80064 8 12 (pos / 4096 - b2n (decide (s.suSt = 3)))

/-- The update fails: 1 HOST_READ, 2 HEADER, 3 INVALID, 4 FLASH_TIMEOUT, 5 READBACK, 6 ABORTED. -/
def State.suFail (s : State) (code : Nat) : State :=
  { ((s.readOver .image).wf 0x80064 0 3 7).wf 0x80064 3 3 code with upd := {} }

/-- The kept header followed by what the target holds. -/
def State.suImage (s : State) (i : Nat) : Byte := if i < 4096 then s.upd.hdr.getD i 0 else s.flashAt s.suTarget i

/-- IMAGE_LEN of the kept header. -/
def State.suLen (s : State) : Nat := leAt s.upd.hdr 12 4

/-- The next 4 KiB of the image are read from the host as the PF (R591), at an offset of the image. -/
def State.suRead (s : State) (off : Nat) : State :=
  if s.masters 0 then s.hostRead 0 ((s.count64 0x80058 / 4096 * 4096 + off) % 2 ^ 64) 4096 .image else s.suFail 1

/-- GEN of the copy the device started from; none: 0, so that the next is 1. -/
def State.startGen (s : State) : Nat :=
  match s.rf 0x80040 0 2 with
  | 1 => s.rn 0x80044
  | 2 => s.rn 0x80048
  | 3 => imgLe s.bankAt 8 4
  | _ => 0

/-- The header of step 6: the kept header with its new GEN, and HCRC recomputed. -/
def State.suHeader (s : State) : Bytes :=
  let h := putAt s.upd.hdr 8 (natLE 4 (s.startGen + 1))
  putAt h 4092 (natLE 4 (crc32c (h.take 4092)).toNat)

/-- A read-back of the flash that runs is aborted (R676). -/
def State.spiAbort (s : State) : State := if s.rf 0x70080C 0 2 = 1 then s.wf 0x70080C 0 2 3 else s

/-- GO (R591): it writes the copy that the start did not use, copy A if none (R590). It ends a background check (R712). -/
def State.suGo (s : State) : State :=
  if s.updating then s
  else
    let s := { s.spiAbort with bgCheck := false, upd := {} }
    let s := (s.setReg 0x80064 0).wf 0x80064 6 1 (b2n (decide (s.rf 0x80040 0 2 = 1)))
    (s.suStep 1).suRead 0

/-- ABORT, or a reset of the PF (R593): at the next flash command boundary, at once where no flash command runs. -/
def State.suAbort (s : State) : State :=
  if !s.updating then s
  else if s.suSt = 1 || (decide (s.suSt = 3) && s.readOut .image) then s.suFail 6
  else { s with upd := { s.upd with abort := true } }

/-- A write of CL_SU_CTL. -/
def State.suWrite (s : State) (v : Word) : State :=
  let s := if v.getLsbD 0 then s.suGo else s
  if v.getLsbD 1 then s.suAbort else s

def execImageUpdate (who : Req) (s : State) : Host.Outcome State Fault Refusal := regGuarded s who fun s => s.suWrite 1

def execImageUpdateAbort (who : Req) (s : State) : Host.Outcome State Fault Refusal := regGuarded s who fun s => s.suWrite 2

/-- A host read of the update fails. -/
def State.suReadFailed (s : State) : State := if s.updating then s.suFail 1 else s

/-- 4 KiB of the image have arrived: the header of step 1, the image of step 2, the data of step 4. -/
def State.suGot (s : State) (d : Bytes) : State :=
  if s.suSt = 1 then
    if s.upd.hdr.isEmpty then
      let s := { s with upd := { s.upd with hdr := d } }
      if headerOk (fun i => d.getD i 0) then s.suRead 0 else s.suFail 2
    else
      let img := s.upd.img ++ d
      let s := { s with upd := { s.upd with img } }.suDone img.length
      if img.length < s.suLen then s.suRead img.length
      else if copyOk (fun i => img.getD i 0) then { s with upd := { s.upd with img := [] } }.suStep 2
      else s.suFail 3
  else { s with upd := { s.upd with img := d } }

/-- UPDATE_IMAGE_READ_DONE. -/
def execUpdateImageReadDone (data : Bytes) (err : RdErr) (s : State) : Host.Outcome State Fault Refusal :=
  if s.life ≠ .live ∨ s.readOut .image = false then .next s
  else
    let i := (s.readOver .image).hostIn err
    let s := i.1
    let err := i.2
    if err = .ok then fin (s.suGot (padTo 4096 data)) else fin (s.readError 0 err).suReadFailed

/-- An erase of 64 KiB has completed. -/
def State.suErased (s : State) : State :=
  let s := { s with flash := s.flash.drop (0x800000 * s.suTarget + s.upd.pos) 65536 }.suDone (s.upd.pos + 65536)
  if s.upd.pos < s.suLen then s else ((s.suStep 3).suDone 4096).suRead 4096

/-- A page program of step 4 has completed. -/
def State.suProgrammed (s : State) : State :=
  let p := s.upd.pos
  let s := (s.flashPut (0x800000 * s.suTarget + p) (s.upd.img.take 256)).suDone (p + 256)
  let s := { s with upd := { s.upd with img := s.upd.img.drop 256 } }
  if !s.upd.img.isEmpty then s
  else if p + 256 < s.suLen then s.suRead (p + 256)
  else s.suStep 4

/-- A read-back of 4 KiB in step 5 has completed. -/
def State.suChecked (s : State) : State :=
  let s := s.suDone (s.upd.pos + 4096)
  if s.upd.pos < s.suLen then s
  else if decide (imgDigest s.suImage = imgSha s.suImage) && crcsOk s.suImage then s.suStep 5
  else s.suFail 5

/-- A page program of step 6, or its read-back, has completed. -/
def State.suHeaderDone (s : State) : State :=
  let p := s.upd.pos
  let a := 0x800000 * s.suTarget
  if s.upd.back then
    if imgN (s.flashAt s.suTarget) 0 4096 = s.suHeader then { s.suStep 6 with upd := {} } else s.suFail 5
  else
    let s := (s.flashPut (a + p) ((s.suHeader.drop p).take 256)).suDone (p + 256)
    if p + 256 < 4096 then s else { s with upd := { s.upd with back := true } }

/-- The flash has a command of the update running. -/
def State.suFlash (s : State) : Bool := decide (2 ≤ s.suSt ∧ s.suSt ≤ 5) && !s.readOut .image

/-- FLASH_OP_DONE: an erase, a page program or a read of the update completes. -/
def execFlashOpDone (s : State) : Host.Outcome State Fault Refusal :=
  if s.life ≠ .live ∨ s.suFlash = false then .next s
  else
    let abort := s.upd.abort
    let t := match s.suSt with
      | 2 => s.suErased
      | 3 => s.suProgrammed
      | 4 => s.suChecked
      | _ => s.suHeaderDone
    fin (if abort && t.updating then t.suFail 6 else t)

/-- FLASH_TIMEOUT (R592): an erase over 4 s or a page program over 10 ms. -/
def execFlashTimeout (s : State) : Host.Outcome State Fault Refusal :=
  if s.life ≠ .live ∨ s.suFlash = false ∨ s.suSt = 4 ∨ s.upd.back = true then .next s
  else
    let a := 0x800000 * s.suTarget + s.upd.pos
    fin ((s.flashLost s.suTarget a (if s.suSt = 2 then 65536 else 256)).suFail 4)

/-- BACKGROUND_CHECK_DONE (R712): A_VALID and B_VALID show the full checks, and CHECKED is set. -/
def execBackgroundCheckDone (s : State) : Host.Outcome State Fault Refusal :=
  if s.life ≠ .live ∨ s.bgCheck = false then .next s
  else
    let s := (s.wb 0x80040 6 (copyOk (s.flashAt 0))).wb 0x80040 7 (copyOk (s.flashAt 1))
    fin ({ s with bgCheck := false }.wb 0x80040 12 true)

end Sys2Proof.Machine
end

