-- ==== Sys2Proof/Machine/HostPort.lean ====
section
/-! DEFINITION. The host port (chapter 12): failed reads (R521, R706), configuration requests (R511, R512), resets of functions
(R513-R515), PTM (R518-R520), node permissions (R508), BAR4 writes (R206), and the management port's address (R523, R692). -/

namespace Sys2Proof.Machine

/-! ## Failed reads -/

/-- An outstanding read of the device fails (R514, R521, R706): what it was for ends as that unit's rules say. -/
def State.failRead (s : State) (r : ReadReq) (err : RdErr) : State :=
  let s := s.readOver r.why
  match r.why with
  | .entry q => if (s.queue q).reading then s.entryFailed q err else s.readError r.fn err
  | .word sc =>
    if (s.chain sc).phase = .fetching ∨ (s.chain sc).phase = .unbound then s.wordsFailed sc err else s.readError r.fn err
  | .reread sc =>
    let s := s.readError r.fn err
    if (s.chain sc).phase = .rereading then s.endChain sc { bits := 4, code := rdCode err, info := 0xFFFFFFFF } else s
  | .xfer x =>
    let s := s.readError r.fn err
    match s.xfer x with
    | none => s
    | some v => if v.code.isSome then (s.setXfer x (some (v.gotNothing false))).orphaned x else s.readFailed x false v (rdCode err)
  | .xfer2 x =>
    let s := s.readError r.fn err
    match s.xfer x with
    | none => s
    | some v => if v.code.isSome then (s.setXfer x (some (v.gotNothing true))).orphaned x else s.readFailed x true v (rdCode err)
  | .window t =>
    let s := s.readError r.fn err
    match (s.thread t).win with
    | some w => (s.modThread t fun h => { h with load := none, win := none, winGot := [] }).doTrap t 9 w.ea 4 0
    | none => s
  | .ahead q pos => s.gotAhead q pos [] err
  | .image => (s.readError r.fn err).suReadFailed

/-- A read whose completion never comes (R706), unless its function has Completion Timeout Disable set. -/
def execCompletionTimeout (r : Nat) (s : State) : Host.Outcome State Fault Refusal :=
  match s.reads[r]? with
  | none => .next s
  | some q => if s.life ≠ .live ∨ (s.fnc q.fn).cplDis = true then .next s else fin (s.failRead q .timeout)

/-! ## Credits (R497) -/

/-- The credits that the device advertises (R497): posted headers and data, non-posted headers and data, completion headers and data; none
is infinite. What they count is taken as it comes, so none is ever outstanding between commands. -/
def hostCredits : List (Option Nat) := [some 64, some 1024, some 32, some 32, none, none]

/-! ## Function resets (R513-R515) -/

/-- Replies owed for a subchannel's HALTs and CLEARs are not posted: their CQ slots are released (R514 step 4). -/
def State.dropReplies (s : State) (sc : Nat) : State :=
  let hs := (s.chain sc).halt.filter fun h => !h.reset
  let s := hs.foldl (fun s h => s.setRsv (s.qPair h.sq) (s.rsv (s.qPair h.sq) - 1)) s
  let s := s.modChain sc fun c => { c with halt := c.halt.map fun h => { h with reset := true } }
  let js := s.jpend.filterMap fun r => match r.eff with | .cleared k h => if k = sc ∧ h.reset = false then some h else none | _ => none
  let s := js.foldl (fun s h => s.setRsv (s.qPair h.sq) (s.rsv (s.qPair h.sq) - 1)) s
  { s with jpend := s.jpend.map fun r =>
      match r.eff with
      | .cleared k h => if k = sc then { r with eff := .cleared k { h with reset := true } } else r
      | _ => r }

/-- A subchannel is cleared with no status and no reply. -/
def State.resetSc (s : State) (sc : Nat) : State :=
  let s := s.dropReplies sc
  if s.scState sc = 6 then s else s.clearSc sc { clear := true, reset := true }

/-- A DMA channel is aborted with no record and no CQ entry, and its EN becomes 0. -/
def State.resetChan (s : State) (c : Nat) : State :=
  let s := s.modChan c fun q => { q with discard := !q.desc.isEmpty }
  let s := if s.rf (bwCh c 0x10) 0 3 = 0 ∨ s.rf (bwCh c 0x10) 0 3 = 5 then s else s.chAbort c
  let s := s.wb (bwCh c 0) 0 false
  if (s.chan c).desc.isEmpty then s.wf (bwCh c 0x10) 0 3 0 else s

/-- A queue's EN is forced to 0 and its prefetch discarded (R67 notwithstanding). -/
def State.resetQueue (s : State) (q : Nat) : State :=
  ((s.dropPrefetch q).modQueue q fun k => { k with disabling := false, stopped := false }).cqOff q

/-- The subchannels that a reset of function `fn` clears. -/
def State.resetScs (s : State) (fn : Nat) : List Nat :=
  (List.range 16384).filter fun sc => decide (s.scFn sc = fn) && !s.cxFlag sc 2 && decide (s.scState sc ≠ 0 ∧ s.scState sc ≠ 7)

/-- One function is reset, in the order of R514. -/
def State.resetFn (s : State) (fn : Nat) (flr : Bool) : State :=
  let s := s.modFnc fn fun c => { c with resetting := true }
  let l := s.readsAll.filter fun r => decide (r.fn = fn)
  let s := l.foldl (fun s r => s.failRead r .ur) (s.readDrop fun w => l.any fun r => decide (r.why = w))
  let s := ((List.range 256).filter fun c => decide (s.chOwner c = fn)).foldl (fun s c => s.resetChan c) s
  let s := (s.resetScs fn).foldl (fun s sc => s.resetSc sc) s
  let s := (s.liveQueues.filter fun q => s.qEn q && decide (s.qFn q = fn)).foldl (fun s q => s.resetQueue q) s
  let s := s.setFnc fn { resetting := true, flr }
  let s := { s with msix := s.msix.filter fun e => decide (e.1 / 2048 ≠ fn), pba := s.pba.filter fun e => decide (e.1 / 2048 ≠ fn) }
  if fn = 0 then s.vaultLost.suAbort else s

/-- Every VF is reset (R513). -/
def State.resetVfs (s : State) : State :=
  let s := ((List.range 31).map (· + 1)).foldl (fun s f => s.resetFn f false) s
  s.modFnc 0 fun c => { c with vfEn := false }

/-- Every function is reset (R513), and the link comes up again. -/
def State.resetPort (s : State) : State := (s.resetVfs.resetFn 0 false).linkUp.setBit 0x100008 6

def execPortReset (s : State) : Host.Outcome State Fault Refusal :=
  if !s.portThere then .next s else fin s.resetPort

def execFunctionLevelReset (fn : Nat) (s : State) : Host.Outcome State Fault Refusal :=
  if !s.portThere || !s.hostReady || !s.fnExists fn then .next s
  else fin ((if fn = 0 && (s.fnc 0).vfEn then s.resetVfs else s).resetFn fn true)

def execVfEnableClear (s : State) : Host.Outcome State Fault Refusal :=
  if !s.portThere || !s.hostReady || !(s.fnc 0).vfEn then .next s else fin s.resetVfs

/-- FUNCTION_RESET_DONE (R515): memory requests are served again. -/
def execFunctionResetDone (fn : Nat) (s : State) : Host.Outcome State Fault Refusal :=
  if !s.portThere || !(s.fnc fn).resetting then .next s
  else
    let flr := (s.fnc fn).flr
    let s := s.modFnc fn fun c => { c with resetting := false, flr := false }
    fin (if flr then s.setBit 0x100008 5 else s)

/-- READY_TIMEOUT (R512): the port becomes ready, in limited service until step 6. -/
def execReadyTimeout (s : State) : Host.Outcome State Fault Refusal :=
  if s.portThere && !s.hostReady && decide (s.startStep < 6) then fin { s.linkUp with hostReady := true } else .next s

/-! ## Configuration requests -/

/-- What a configuration field of function `fn` holds. -/
def FnCfg.get (c : FnCfg) (fn : Nat) : CfgField → Nat
  | .busMaster => b2n c.bme
  | .memSpace => b2n c.memEn
  | .d3hot => b2n c.d3
  | .msixEnable => b2n c.msixEn
  | .functionMask => b2n c.fmask
  | .relaxedOrdering => b2n c.relaxed
  | .cplTimeout => c.cplTmo.toNat
  | .cplTimeoutDisable => b2n c.cplDis
  | .ecrcGen => b2n c.ecrc
  | .ptmEnable => b2n c.ptm
  | .vfEnable => b2n c.vfEn
  | .ecrcCheck => b2n c.ecrcChk
  | .aerStatus => c.aer.toNat
  | .vendorId => if fn = 0 then 0x1F2C else 0xFFFF
  | .deviceId => if fn = 0 then 0x7064 else 0xFFFF
  | .vfDeviceId => if fn = 0 then 0x7065 else 0
  | .revisionId => 0xB0
  | .classCode => 0x088000
  | .serialNumber => Config.serial.toNat
  | .msixTableSize => if fn = 0 then 2047 else 63
  | .msixTableOffset => 0x108000
  | .msixPbaOffset => 0x110000

/-- The bytes of a configuration field. -/
def cfgSize : CfgField → Nat
  | .vendorId | .deviceId | .vfDeviceId | .msixTableSize => 2
  | .classCode => 3
  | .serialNumber => 8
  | .msixTableOffset | .msixPbaOffset => 4
  | _ => 1

/-- Nothing writes the field. -/
def cfgFixed (k : CfgField) : Bool := decide (cfgSize k ≠ 1) || decide (k = .revisionId)

/-- A configuration field written: the error status clears where 1 is written. -/
def FnCfg.put (c : FnCfg) (k : CfgField) (v : Byte) : FnCfg :=
  let b := decide (v ≠ 0)
  match k with
  | .busMaster => { c with bme := b }
  | .memSpace => { c with memEn := b }
  | .d3hot => { c with d3 := b }
  | .msixEnable => { c with msixEn := b }
  | .functionMask => { c with fmask := b }
  | .relaxedOrdering => { c with relaxed := b }
  | .cplTimeout => { c with cplTmo := v.setWidth 4 }
  | .cplTimeoutDisable => { c with cplDis := b }
  | .ecrcGen => { c with ecrc := b }
  | .ptmEnable => { c with ptm := b }
  | .vfEnable => { c with vfEn := b }
  | .ecrcCheck => { c with ecrcChk := b }
  | .aerStatus => { c with aer := c.aer &&& ~~~v }
  | _ => c

/-- A configuration write: messages and entries that waited for mastering or for a mask are sent (R493, R511); clearing VF
Enable resets every VF (R513). The PTM and VF fields are the PF's. -/
def State.cfgWrite (s : State) (fn : Nat) (k : CfgField) (v : Byte) : State :=
  if cfgFixed k = true ∨ (k = .ptmEnable ∨ k = .vfEnable) ∧ fn ≠ 0 then s
  else if k = .vfEnable ∧ v = 0 ∧ (s.fnc 0).vfEn = true then s.resetVfs
  else
    let s := s.modFnc fn fun c => c.put k v
    if s.masters fn then s.payOwed.sendPendings fn else s

def execConfigRequest (fn : Nat) (k : CfgField) (write : Bool) (v : Byte) (s : State) : Host.Outcome State Fault Refusal :=
  if !s.portThere then .next { s with reply := .silent }
  else if !s.hostReady then .next { s with reply := .retry }
  else if !s.fnExists fn then .next s.replyUr
  else if write then fin { s.cfgWrite fn k v with reply := .data [] 0 }
  else .next { s with reply := .data (natLE (cfgSize k) ((s.fnc fn).get fn k)) 0 }

/-! ## PTM -/

/-- A dialogue begins (R518). -/
def execPtmDialogue (s : State) : Host.Outcome State Fault Refusal :=
  if s.life ≠ .live ∨ s.hostReady = false ∨ (s.fnc 0).ptm = false ∨ s.rb 0x10000C 0 = false then .next s
  else .next { s with ptmOpen := true }

/-- Timer waits whose due time TIME has passed end at once, as overruns (R520, R109). -/
def State.passWaits (s : State) : State :=
  (s.chainsWhere fun _ c => decide (c.phase = .paceTimer) && decide (c.due < s.now)).foldl
    (fun s sc => s.overrun sc) s

/-- The correction of R518 by E nanoseconds. -/
def State.correct (s : State) (e : Int) : State :=
  let show_ := fun (s : State) (rate : Int) => ({ s with rate }.wb 0x100010 1 (decide (rate ≠ 0))).wb 0x100010 2 (decide (rate < 0))
  if -1000 ≤ e ∧ e ≤ 1000 then show_ s (if e = 0 then 0 else if 0 < e then 100 else -100)
  else if 0 < e then
    if s.rb 0x10000C 1 then show_ s 1000
    else show_ { s with time := s.time + e.toNat * 2 ^ 32 } 0 |>.passWaits
  else (show_ s (-1000)).setBit 0x100008 7

/-- PTM_RESPONSE: the PTM master time at the device's receipt of it. -/
def execPtmResponse (master : BitVec 64) (s : State) : Host.Outcome State Fault Refusal :=
  if s.life ≠ .live ∨ s.ptmOpen = false then .next s
  else
    let e := (master - BitVec.ofNat 64 s.now).toInt
    let s := ({ s with ptmOpen := false, ptmFails := 0 }.set64 0x100020 (master - BitVec.ofNat 64 s.now).toNat).wb 0x100010 0 true
    fin (s.correct e)

/-- PTM_TIMEOUT (R519). -/
def execPtmTimeout (s : State) : Host.Outcome State Fault Refusal :=
  if s.life ≠ .live ∨ s.ptmOpen = false then .next s
  else
    let s := { s with ptmOpen := false, rate := 0, ptmFails := s.ptmFails + 1 }.wf 0x100010 1 2 0 |>.setBit 0x100008 8
    fin (if 3 ≤ s.ptmFails then s.wb 0x100010 0 false else s)

/-- PTM_SLEW_END: all of E has been applied. -/
def execPtmSlewEnd (s : State) : Host.Outcome State Fault Refusal :=
  if s.life ≠ .live ∨ s.rb 0x100010 1 = false then .next s else .next ({ s with rate := 0 }.wf 0x100010 1 2 0)

/-! ## Permissions, BAR4, the management port's address -/

/-- A word of the permission table is written: the register and both copies in the Seedbank (R508, R548). -/
def State.permWrite (s : State) (n k : Nat) (v : Word) : State :=
  if 4096 ≤ n ∨ 4 ≤ k then s
  else
    let a := 0x3601000 + 16 * n + 4 * k
    ((s.setReg (0x140000 + 16 * n + 4 * k) v).seedPut a (natLE 4 v.toNat)).seedPut (a + 0x10000) (natLE 4 v.toNat)

def execHpPermWrite (who : Req) (n k : Nat) (v : Word) (s : State) : Host.Outcome State Fault Refusal :=
  if s.standby then .next s else regGuarded s who fun s => s.permWrite n k v

/-- A reserved part of a Tiller's region (R205). -/
def teReserved (o : Nat) : Bool := decide (0x14000 ≤ o ∧ o < 0x20000) || decide (0x2C000 ≤ o)

/-- What a write to BAR4 that is taken does (R206, R499). -/
def State.regionWrite (s : State) (off : Nat) (full : Bool) (v : Word) : Host.Outcome State Fault Refusal :=
  if !full || decide (off % 4 ≠ 0) then fin s.badAcc
  else if !s.rb (0x600004 + 8 * (off / 0x200000)) 16 then fin (s.setBit 0x600040 0)
  else if teReserved (off % 0x40000) then .next s
  else fin (s.tmemPut off (natLE 4 v.toNat))

/-- What a read of `n` bytes of BAR4 returns (R206, R499): the contents, at any time; zeros for a reserved part, another form, another
function, and until step 6 (R512). The table has no row for it (log 83). -/
def State.regionRead (s : State) (who : Req) (off n : Nat) : Bytes :=
  if who ≠ .fn 0 ∨ 0x1000000 < off + n ∨ 64 < off % 64 + n ∨ s.serves_ who = false then List.replicate n 0
  else (s.tmem.rdN off n).zipIdx.map fun b => if teReserved ((off + b.2) % 0x40000) then 0 else b.1

/-- TILLER_REGION_WRITE (R206, R499, R521): BAR4 belongs to the PF. -/
def execTillerRegionWrite (who : Req) (off : Nat) (form : ReqForm) (v : Word) (s : State) : Host.Outcome State Fault Refusal :=
  if who ≠ .fn 0 ∨ 0x1000000 ≤ off then .next s
  else if !s.serves_ who then .next (s.unserved who)
  else match s.discards who form with
    | some t => fin t
    | none => s.regionWrite off (reqFull form) v

/-- The management port answers (R524): whatever the state of PERST#. -/
def State.smbThere (s : State) : Bool := s.serves_ .mgmt

def execSmbSetAddr (a : Word) (pecOk : Bool) (s : State) : Host.Outcome State Fault Refusal :=
  if s.smbThere && pecOk then .next { s with smbAddr := a } else .next s

/-- SMB_TIMEOUT (R692): the bus is released and the target logic reset; what its offset then holds is not stated (log 4). -/
def execSmbTimeout (s : State) : Host.Outcome State Fault Refusal :=
  if s.smbThere then .next { s.tick with smbAddr := s.free.setWidth 32, reply := .none } else .next s

end Sys2Proof.Machine
end

