-- ==== Sys2Proof/Machine/Resolve.lean ====
section
/-! DEFINITION. The Seedbank resolved at a start or a takeover (R582-R584, R416, R641): shadows, checkpoint, journal replay, Vault,
TIME, serials, transactions, subchannels; and checkpoints (R546). -/

namespace Sys2Proof.Machine

/-! ## Shadows (R547, R549) -/

/-- The flush shadow and the checkpoint shadow. -/
def shadowFlush : Nat := 0x3629000
def shadowCk : Nat := 0x366A000

/-- The directory of a shadow: home offset and length of each image; 6 bytes an entry (log 22). -/
def State.shadowDir (s : State) (a : Nat) : List (Nat × Nat) :=
  (List.range (s.seed.le (a + 36) 2 % 2048)).map fun i => (s.seed.le (a + 64 + 6 * i) 4, 64 * s.seed.le (a + 68 + 6 * i) 2)

/-- The bytes of a shadow's images. -/
def dirLen (d : List (Nat × Nat)) : Nat := d.foldl (fun n e => n + e.2) 0

/-- The CRC of a shadow: header, directory and images. -/
def State.shadowCrc (s : State) (a : Nat) : Word :=
  let d := s.shadowDir a
  crc32c (s.seed.rdN a 60 ++ s.seed.rdN (a + 64) (6 * d.length) ++ s.seed.rdN (a + 4096) (dirLen d))

/-- A shadow header is valid. -/
def State.shadowValid (s : State) (a : Nat) : Bool :=
  decide (s.seed.le a 4 = 0x4C4B5344) && decide (s.seed.le (a + 4) 1 = 1) && decide (s.seed.le (a + 36) 2 % 2048 ≤ 672) &&
  decide (dirLen (s.shadowDir a) ≤ 0x40000) && decide (s.shadowCrc a = BitVec.ofNat 32 (s.seed.le (a + 60) 4))

/-- Images are copied home, from an address on. -/
def State.imagesHome : List (Nat × Nat) → Nat → State → State
  | [], _, s => s
  | (o, n) :: r, a, s => State.imagesHome r (a + n) (s.seedCopy a o n)

/-- A valid shadow is applied, and its header cleared. -/
def State.applyShadow (s : State) (a : Nat) : State :=
  if s.shadowValid a then (State.imagesHome (s.shadowDir a) (a + 4096) s).seedPut a (List.replicate 64 0) else s

/-! ## The journal (R543) -/

/-- A record found: its slot and its 64 bytes. -/
structure Found where
  slot : Nat
  raw : Bytes
  deriving DecidableEq, Repr

/-- RTYPE, JSEQ and other fields of a record. -/
def Found.rtype (f : Found) : Nat := leAt f.raw 0 1
def Found.jseq (f : Found) : Nat := leAt f.raw 8 8
def Found.get (f : Found) (off n : Nat) : Nat := leAt f.raw off n
def Found.txid (f : Found) : Nat := f.get 16 2 % 1024
def Found.tserial (f : Found) : Nat := f.get 20 4

/-- The defined record types (R538). -/
def rtypeOk (r : Nat) : Bool := decide (r ∈ [1, 2, 3, 4, 5, 6, 8, 0x10, 0x11, 0x20, 0x21, 0x22])

/-- A slot is valid. -/
def State.slotValid (s : State) (f : Found) : Bool :=
  decide (f.get 1 1 = 1) && rtypeOk f.rtype && decide (crc32c (f.raw.take 60) = BitVec.ofNat 32 (f.get 60 4)) &&
  decide (s.seedErr (0xA00000 + 64 * f.slot) 64 < 2)

/-- Every valid record, in JSEQ order. -/
def State.records (s : State) : List Found :=
  let slots := s.seed.filterMap fun e =>
    if 0xA00000 ≤ e.1 ∧ e.1 < 0xE00000 ∧ e.1 % 64 = 0 then some ((e.1 - 0xA00000) / 64) else none
  ((slots.map fun k => ({ slot := k, raw := s.seed.rdN (0xA00000 + 64 * k) 64 } : Found)).filter fun f => s.slotValid f).foldr
    (List.orderedInsert fun a b => a.jseq ≤ b.jseq) []

/-- The transactions a checkpoint lists. -/
def State.ckListed (s : State) (k : Nat) : List (Nat × Nat) :=
  (List.range (s.seed.le (ckAt k + 36) 2 % 2048)).map fun i => (s.seed.le (ckList k + 16 * i) 2 % 1024, s.seed.le (ckList k + 16 * i + 4) 4)

/-- The journal after a cut: records from JSEQ_START on, and the JOINs and DECIDEs of listed transactions. -/
def State.journal (s : State) (k : Nat) : List Found :=
  let start := s.seed.le (ckAt k + 16) 8
  let l := s.ckListed k
  s.records.filter fun f =>
    decide (start ≤ f.jseq) || ((f.rtype = 0x20 || f.rtype = 0x21) && decide ((f.txid, f.tserial) ∈ l))

/-- Whether a JSEQ above JSEQ_START is missing while a higher one is valid. -/
def gapIn (start : Nat) (l : List Found) : Bool :=
  let n := l.countP fun f => start ≤ f.jseq
  match l.getLast? with
  | some f => decide (start ≤ f.jseq) && decide (n < f.jseq + 1 - start)
  | none => false

/-! ## Replay (R542) -/

/-- The subchannel part of a record, on the image at `a`. -/
def State.replayCtx (s : State) (f : Found) (a : Nat) : State :=
  let b3 := s.seed.le (a + 3) 1
  let s := match f.rtype with
    | 1 =>
      let fl := f.get 36 1
      let auto := bitOn fl 6
      let s := ((s.put (a + 2) [1, BitVec.ofNat 8 (setBits (setBits (setBits (setBits b3 0 2 0) 2 1 (b2n auto)) 3 1 (fl / 128)) 4 1 0)]).put (a + 4)
        (natLE 2 (f.get 42 2))).put (a + 12) (natLE 4 (f.get 24 4))
      let s := if auto then s.put (a + 8) (natLE 1 (fl / 4 % 16)) else s.put (a + 6) (natLE 2 (f.get 18 2))
      let s := (s.put (a + 9) (natLE 1 (f.get 37 1))).put (a + 16) (natLE 8 (f.get 28 8) ++ natLE 1 (fl % 4))
      (s.put (a + 84) (natLE 4 0)).put (a + 96) (natLE 8 (f.get 44 8) ++ natLE 8 (f.get 52 8))
    | 2 =>
      let e := (f.raw.drop 24).take 32
      ((s.put (a + 2) [4, BitVec.ofNat 8 (setBits (setBits b3 0 1 0) 4 1 0)]).put (a + 84)
        (natLE 4 (leAt e 22 2 + 65536 * (leAt e 28 1 % 64)))).put (a + 128) e
    | 3 => s.put (a + 2) [0, BitVec.ofNat 8 (setBits b3 1 1 0)]
    | 4 =>
      if s.seed.le (a + 2) 1 % 16 = 7 then
        s.put a (natLE 2 ((a / 512)) ++ natLE 2 0 ++ natLE 2 (f.get 24 2) ++ List.replicate 5 0 ++ natLE 1 (f.get 26 1 % 32) ++ List.replicate 500 0)
      else (s.put (a + 2) [0, BitVec.ofNat 8 (setBits b3 0 2 0)]).put (a + 4) (natLE 2 (f.get 24 2))
    | 5 => s.put (a + 2) [7]
    | _ =>
      let m := f.get 24 2
      let s := if bitOn m 0 then s.put (a + 4) (natLE 2 (f.get 26 2 % 8192)) else s
      let s := if bitOn m 1 then s.put (a + 8) (natLE 1 (f.get 28 1 % 16)) else s
      let s := if bitOn m 2 then s.put (a + 9) (natLE 1 (f.get 29 1)) else s
      let s := if bitOn m 3 then s.put (a + 3) (natLE 1 (setBits b3 3 1 (f.get 30 1))) else s
      if bitOn m 4 then s.put (a + 112) (natLE 8 (f.get 32 8)) else s
  s.put (a + 92) (natLE 4 (f.get 20 4))

/-- Whether a record has a subchannel part. -/
def Found.hasSc (f : Found) : Bool := decide (f.rtype = 3 ∧ f.get 28 1 % 4 = 0) || decide (f.rtype ∈ [1, 2, 4, 5, 6])

/-- The queue that a record has a part for. -/
def Found.queue? (f : Found) : Option Nat :=
  if f.rtype = 3 ∨ f.rtype = 8 ∨ (f.rtype = 1 ∧ bitOn (f.get 36 1) 6 = false) then some (f.get 18 2 % 8192) else none

/-- The queue part of a record, on the queue-state record at `a` (`State.queueImage`). -/
def State.replayQueue (s : State) (f : Found) (a : Nat) : State :=
  let s := match f.rtype with
    | 1 => (s.put (a + 20) (natLE 4 (f.get 38 4))).put (a + 28) (natLE 8 (s.seed.le (a + 28) 8 + 1))
    | 8 => (s.put (a + 20) (natLE 4 (f.get 24 4))).put (a + 28) (natLE 8 (f.get 28 8))
    | _ => (s.put (a + 24) (natLE 4 (f.get 24 4))).put (a + 28) (natLE 8 (f.get 32 8))
  s.put (a + 36) (natLE 8 f.jseq)

/-- One record is replayed. -/
def State.replay (s : State) (f : Found) : State :=
  let s := if f.hasSc then
      let a := 512 * (f.get 16 2 % 16384)
      if s.seed.le (a + 92) 4 < f.get 20 4 then s.replayCtx f a else s
    else s
  match f.queue? with
  | some q =>
    let a := 0x800000 + 128 * q
    if s.seed.le (a + 36) 8 < f.jseq then s.replayQueue f a else s
  | none => s

/-! ## What is found -/

/-- The queues whose records are not blank. -/
def State.savedQueues (s : State) : List Nat :=
  ((s.seed.filterMap fun e => if 0x800000 ≤ e.1 ∧ e.1 < 0x900000 then some ((e.1 - 0x800000) / 128) else none)).dedup

/-- A queue comes back as its record says (R585); one whose record cannot be read does not (R23, R607). -/
def State.loadQueue (s : State) (q : Nat) : State :=
  let a := 0x800000 + 128 * q
  if s.seedErr a 128 = 2 then s else
  let r := fun i => BitVec.ofNat 32 (s.seed.le (a + 4 * i) 4)
  let s := (((((s.setReg (tq q 0) (r 0)).setReg (tq q 4) (r 1)).setReg (tq q 8) (r 2)).setReg (tq q 0xC) (r 3)).setReg (tq q 0x10) (r 4)).setApp (tq q 0x10) (r 4)
  let s := ((s.setReg (tq q 0x14) (r 5)).setReg (tq q 0x18) (r 6)).set64 (tq q 0x20) (s.seed.le (a + 28) 8)
  let k := if s.qType q = 2 then s.valPos q (s.rn (tq q 0x18)) else s.valPos q (s.rn (tq q 0x14))
  s.setQueue q { head := k, cnt := s.count64 (tq q 0x20), jseq := s.seed.le (a + 36) 8 }

/-- The subchannels with a context byte of offset 2 or 3 that is not zero. -/
def State.busyScs (s : State) : List Nat :=
  (s.ctx.filterMap fun e => if e.1 % 2048 = 2 ∨ e.1 % 2048 = 3 then some (e.1 / 2048) else none).dedup

/-- TSERIAL candidates in modular order (R394). -/
def laterSerial (a b : Nat) : Nat := if 1 ≤ (b + 2 ^ 32 - a) % 2 ^ 32 ∧ (b + 2 ^ 32 - a) % 2 ^ 32 ≤ 2 ^ 31 - 1 then b else a

/-- The times a record holds (R517). -/
def Found.time (f : Found) : Nat :=
  match f.rtype with
  | 1 => max (f.get 44 8) (f.get 52 8)
  | 2 => f.get 24 8
  | 0x10 | 0x11 | 0x21 | 0x22 => f.get 28 8
  | _ => 0

/-- Every subchannel's context comes from its home image; it belongs to the PF, as SC_OWNER has it after reset (R69, R80, R666; log 29). Of
one that cannot be read nothing is used (R23). -/
def State.loadCtxs (s : State) : State :=
  let c : Mem := (s.seed.filter fun e =>
    decide (e.1 < 0x800000) && decide (e.1 % 512 ≠ 11) && (s.errs.isEmpty || decide (s.seedErr (e.1 / 512 * 512) 512 < 2))).map fun e =>
      (e.1 / 512 * 2048 + e.1 % 512, e.2)
  { s with
    ctx := c, cached := [], dirty := [], dirtyWait := [], loading := []
    regs := s.regs.filter fun e => decide (e.1 < 0x3000000) }.wf 0xC0020 0 10 0

/-- The part of the Seedbank that resolution reads: all but the Vault and the spare region. -/
def resolveReads (a : Nat) : Bool := decide (a < 0x1600000) || (decide (0x3600000 ≤ a) && decide (a < 0x3800000))

/-- What resolution read with an error is reported (R22); a context or queue-state record that cannot be read costs its subchannel or its queue
(R23, R607). -/
def State.resolveErrs (s : State) : State :=
  s.errs.foldl (fun s e =>
    if decide (e.region = MemRegion.seedbank) && resolveReads (64 * e.idx) then s.metErr .seedbank e.idx (if e.lost then 2 else 1) else s) s

/-! ## Transactions (R416) -/

/-- The members that a transaction's JOIN records name. -/
def joinNodes (l : List Found) (x t : Nat) : List Nat :=
  ((l.filter fun f => decide (f.rtype = 0x20 ∧ f.txid = x ∧ f.tserial = t)).flatMap fun f =>
    (List.range (min (f.get 24 1 % 32) 16)).map fun i => f.get (28 + 2 * i) 2 % 4096).dedup

/-- The unresolved transactions: TXID, TSERIAL, subchannel, decided. -/
def openTxns (l : List Found) : List (Nat × Nat × Nat × Bool) :=
  (List.range 1024).filterMap fun x =>
    match (l.filter fun f => decide (f.rtype = 0x20 ∧ f.txid = x)).getLast? with
    | none => none
    | some f =>
      if l.any fun g => decide (g.rtype = 0x22 ∧ g.txid = x ∧ g.tserial = f.tserial) then none
      else some (x, f.tserial, f.get 18 2 % 16384, l.any fun g => decide (g.rtype = 0x21 ∧ g.txid = x ∧ g.tserial = f.tserial))

/-- A transaction found: COMMIT or ABORT goes to every member once its port's first enumeration is complete (R417). -/
def State.recoverTxn (s : State) (l : List Found) (cause : Nat) (e : Nat × Nat × Nat × Bool) : State :=
  let (x, t, sc, dec) := e
  let ns := joinNodes l x t
  let s := s.setTxn x { used := true, tserial := t, sc, members := ns.map fun node => { node, joined := true }, decideIssued := dec, decided := dec,
                        cause := if dec then none else some cause, recovery := true, posted := !dec }
  let s := if dec then s else s.bump (cnt 0x680040 cause)
  ns.foldl (fun s n => { s with recov := SMap.set (fun _ => 0) s.recov n (SMap.get (fun _ => 0) s.recov n + 1) }) s

/-! ## Settling (R584) -/

/-- The status of a chain that a cut or a takeover ended: CE, DW, and RESIDUAL and LASTCW as the context has them. -/
def State.settleChain (s : State) (sc : Nat) (sa : Bool) (waits : Bool) : State :=
  let s := s.setChain sc { phase := .deciding, withdrawn := true, sa, ran := true, lastCw := s.cx sc 32 8, lastSpace := s.cx sc 24 1 % 4,
                           residual := s.cx sc 80 4 }
  if waits then s else (s.setCxFlag sc 4 false).fixStatus sc { de := some false }

/-- One subchannel is settled, as the journal `l` and the transactions left it. -/
def State.settleSc (s : State) (l : List Found) (sc : Nat) : State :=
  let auto := s.cxFlag sc 2
  let st := s.scState sc
  let s := if s.cxFlag sc 0 then s.setCxFlag sc 0 false else s
  let noAuto := fun s : State => if s.cxFlag sc 2 then s.setCxFlag sc 2 false else s
  if st = 0 ∨ st = 7 then noAuto s
  else if st = 4 then s
  else if st = 6 then s.jIssue 0x04 (s.clearedBody sc (s.cx sc 4 2) false) (.cleared sc { clear := true, reset := true })
  else if auto then (noAuto (s.setCxFlag sc 4 false)).setScState sc 0
  else match s.txns.find? fun e => e.2.used && decide (e.2.sc = sc) with
    | some (x, t) =>
      if t.decided then ((s.setCxFlag sc 4 true).cxSet sc 88 2 x).settleChain sc false true
      else s.settleChain sc true false
    | none =>
      let x := s.cx sc 88 2 % 1024
      let done := (l.filter fun f => decide (f.rtype = 0x22 ∧ f.txid = x ∧ f.get 18 2 % 16384 = sc)).getLast?
      s.settleChain sc (s.cxFlag sc 4 && done.elim true fun f => bitOn (f.get 24 1) 0) false

/-- The held lists are made again: first the statuses fixed before the checkpoint, in ascending SC order, then those whose FIXED
record was replayed, in its order (log 22). -/
def State.holdAgain (s : State) (l : List Found) : State :=
  let scs := s.busyScs.filter fun sc => decide (s.scState sc = 4)
  let fixed := (l.filterMap fun f => if f.rtype = 2 then some (f.get 16 2 % 16384) else none).reverse.dedup.reverse
  let order := (scs.filter fun sc => decide (sc ∉ fixed)) ++ fixed.filter fun sc => decide (sc ∈ scs)
  let s := order.foldl (fun s sc => (s.cxSet sc 90 2 0).setChain sc { phase := .fixed }) s
  let s := order.foldl (fun s sc => s.holdStatus sc (s.chainCq sc)) s
  order.foldl (fun s sc => if s.cxFlag sc 2 then s.setCxFlag sc 2 false else s) s

/-! ## The whole -/

/-- A node permission table that has never been written is written with the default: the PF, every class (R509, log 22). -/
def State.permInit (s : State) : State :=
  if s.seed.any fun e => decide (0x3601000 ≤ e.1 ∧ e.1 < 0x3611000) then s
  else
    let t := (List.range 4096).flatMap fun _ => (0x0F : Byte) :: List.replicate 15 0
    (s.put 0x3601000 t).put 0x3611000 t

/-- The permission table is read into HP_PERM (R507), from copy B where copy A is uncorrectable. -/
def State.permLoad (s : State) : State :=
  (List.range 16384).foldl (fun s i =>
    let a := 0x3601000 + 4 * i
    s.setReg (0x140000 + 4 * i) (BitVec.ofNat 32 (s.seed.le (if s.seedErr a 4 = 2 then a + 0x10000 else a) 4))) s

/-- A blank Seedbank is formatted (R583). -/
def State.format (s : State) : State :=
  let ctxs := (List.range 16384).flatMap fun sc =>
    (natLE 2 sc).zipIdx.filterMap fun b => if b.1 = 0 then none else some (512 * sc + b.2, b.1)
  let rest := s.seed.filter fun e => decide (0x900000 ≤ e.1) && !decide (0x1600000 ≤ e.1 ∧ e.1 < 0x3600000)
  { s with
    seed := ctxs ++ rest
    errs := s.errs.filter fun e => !(decide (e.region = MemRegion.seedbank) &&
      (decide (e.idx < 0x24000) || (decide (0x58000 ≤ e.idx) && decide (e.idx < 0xD8000)))) }.setReg 0xC004C 0

/-- The latest VCOMMIT that has no VDONE. -/
def vaultOwed (l : List Found) : Option Found :=
  match (l.filter fun f => decide (f.rtype = 0x10)).getLast? with
  | some f => if l.any fun g => decide (g.rtype = 0x11 ∧ g.get 16 4 = f.get 16 4) then none else some f
  | none => none

/-- The staging directory's blocks (R556). -/
def State.vaultStaged (s : State) (n : Nat) : List (Nat × Nat) :=
  (List.range n).map fun i => ((s.seed.le (vaultDir + 64 + 6 * i) 4 - vaultBase) / 4096, i)

/-- The Seedbank is resolved (R582, R583), and transactions found open are taken up with an abort cause (R416, R641). `open_`: a
Vault update was open. -/
def State.resolve (s : State) (cause : Nat) (open_ : Bool) : State × List Found :=
  let restored := s.shadowValid shadowFlush
  let ftime := if restored then s.seed.le (shadowFlush + 24) 8 else 0
  let s := (s.applyShadow shadowFlush).applyShadow shadowCk
  let recs := s.records
  let top := recs.foldl (fun m f => max m f.jseq) 0
  match s.ckBest with
  | none =>
    let s := if recs.isEmpty then s else s.report 96
    let sers := (recs.filter fun f => decide (0x20 ≤ f.rtype)).map fun f => (f.tserial + 1) % 2 ^ 32
    let s := s.setReg 0x68000C (BitVec.ofNat 32 (sers.foldl laterSerial (sers.headD 0)))
    let s := (s.format.permInit.permLoad.loadCtxs.wb 0x80040 4 true).set64 0xC0010 (top + 1)
    ({ s with time := (max ftime (recs.foldl (fun m (f : Found) => max m f.time) 0) + 1) * 2 ^ 32, queues := [], jslots := [], jpos := 0, txns := [], recov := [], vstage := [] }.jCounts.checkpoint (top + 1) |>.resolveErrs, [])
  | some k =>
    let start := s.seed.le (ckAt k + 16) 8
    let l := s.journal k
    let s := if gapIn start l then s.report 95 else s
    let s := if restored then s.setBit 0xC0000 7 else s
    let s := (l.filter fun f => decide (start ≤ f.jseq)).foldl (fun s f => s.replay f) s
    let t := max ftime (l.foldl (fun m f => max m f.time) (s.seed.le (ckAt k + 24) 8))
    let s := { s with time := (t + 1) * 2 ^ 32 }
    let s := (s.set64 0xC0010 (max start (top + 1))).setReg 0xC001C (BitVec.ofNat 32 (s.ckSeq k % 2 ^ 31))
    let ser := (l.filter fun f => decide (0x20 ≤ f.rtype)).foldl (fun m f => laterSerial m ((f.tserial + 1) % 2 ^ 32)) (s.seed.le (ckAt k + 32) 4)
    let s := s.setReg 0x68000C (BitVec.ofNat 32 ser)
    let vs := (l.filter fun f => decide (f.rtype = 0x10)).foldl (fun m f => max m (f.get 16 4)) (s.seed.le (ckAt k + 40) 4)
    let s := s.setReg 0xC004C (BitVec.ofNat 32 vs)
    let ot := openTxns l
    let live := l.filter fun f => decide (start ≤ f.jseq) || decide ((f.txid, f.tserial) ∈ ot.map fun e => (e.1, e.2.1))
    let jslots : List JSlot := live.map fun f =>
      { slot := f.slot, jseq := f.jseq, rtype := f.rtype, txid := if 0x20 ≤ f.rtype then f.txid else 0,
        tserial := if 0x20 ≤ f.rtype then f.tserial else 0 }
    let jpos : Nat := l.getLast?.elim 0 fun f => f.slot
    let s : State := { s with
      queues := [], chains := [], txns := [], recov := [], vstage := [], vover := false, ckStart := start, jslots, jpos }
    let s := s.jCounts
    let s := s.permInit.permLoad.loadCtxs
    let s := s.savedQueues.foldl (fun s q => s.loadQueue q) s
    let s := match vaultOwed l with
      | some f =>
        let s := { s with vstage := s.vaultStaged (f.get 20 2 % 512) }
        (s.vaultHome.wf 0xC0044 0 2 3).vaultDone
      | none => if open_ then s.setBit 0xC0000 6 else s
    let s := ot.foldl (fun s e => s.recoverTxn l cause e) s
    let s := s.setReg 0x680010 (BitVec.ofNat 32 ((ot.countP fun e => e.2.2.2) + 2048 * ot.countP fun e => !e.2.2.2))
    ((if ot.isEmpty then s else s.setBit 0x680004 4).grOpen.resolveErrs, l)

/-- Subchannels are settled after resolution (R584), and every node is owed the RELEASE of R419. -/
def State.settleAll (s : State) (l : List Found) : State :=
  let scs := s.busyScs
  let s := s.holdAgain l
  let s := scs.foldl (fun s sc => s.settleSc l sc) s
  { s with relNeeded := (List.range 4096).filter fun n => s.ntFlag n 0 }

/-! ## Commands -/

/-- CHECKPOINT (R546): it takes JSEQ_START, and completes once every record is durable. -/
def execCheckpoint (s : State) : Host.Outcome State Fault Refusal :=
  if !s.running || s.standby || s.ckFrom.isSome || decide (s.startStep < 6) then .next s
  else fin ({ s with ckFrom := some (s.count64 0xC0010) }.wb 0xC001C 31 true)

/-- SB_CONFIRM_TIMEOUT (R604, source 94). -/
def execSbConfirmTimeout (s : State) : Host.Outcome State Fault Refusal :=
  if s.life = .live then fin (s.report 94) else .next s

end Sys2Proof.Machine
end

