-- ==== Sys2Proof/Machine/Pair.lean ====
section
/-! DEFINITION. The redundant pair (chapter 16): epochs and the pair record, heartbeat, mirroring, claims, takeover, going solo,
resynchronisation. TW_STATE and TW_EPOCH hold what they show; the rest is `Pair`. -/

namespace Sys2Proof.Machine

/-! ## Autostart (R589, R73) -/

/-- An AUTOSTART record at offset `a` of the Seedbank copy; `seen`: the subchannels that earlier records named. -/
def State.autostart1 (s : State) (seen : List Nat) (a : Nat) : State :=
  let g := s.bankAt
  let sc := imgLe g (a + 2) 2 % 16384
  if s.scFn sc = 0 ∧ s.scState sc = 0 ∧ sc ∉ seen then
    let r : AutoReq := { sc, home := imgLe g (a + 8) 2 % 8192, prio := imgLe g (a + 10) 1 % 16, aff := imgLe g (a + 11) 1,
                         pin := (g (a + 12)).toNat.bodd, chain := imgLe g (a + 4) 4 }
    -- R73: it takes an entry of the context cache, or waits for one
    if s.autoWait.isEmpty && s.cacheRoom sc then (s.autoTake r).trimCache else { s with autoWait := s.autoWait ++ [r] }
  else s.wb 0x80040 5 true

/-- Every AUTOSTART record, in record order. -/
def State.autostart : List Nat → List Nat → State → State
  | [], _, s => s
  | a :: r, seen, s =>
    if s.bankAt a = 2 then State.autostart r (imgLe s.bankAt (a + 2) 2 % 16384 :: seen) (s.autostart1 seen a) else State.autostart r seen s

/-! ## Roles, records, status -/

/-- The PAIR_ID strap. -/
def State.pairId (s : State) : Bool := s.rb 0x24 8

/-- The pair record (R636) and whether it is valid. -/
def State.pairValid (s : State) : Bool :=
  let r := s.seed.rdN pairAt 64
  decide (leAt r 0 4 = 0x4C4B5052) && decide (crc32c (r.take 60) = BitVec.ofNat 32 (leAt r 60 4))

/-- TW_EPOCH, the highest epoch known. -/
def State.seeEpoch (s : State) (e : Nat) : State := s.setReg 0x481010 (BitVec.ofNat 32 (max (s.rn 0x481010) e))

/-- IMAGE_SHA of the running image. -/
def State.ownSha (s : State) : Bytes := imgSha s.bankAt

/-- A standby, with INSYNC = 0 (R644). -/
def State.beStandby (s : State) : State := ((s.setRole 2).wb 0x481008 3 false).pairPut 2

/-- A master stops as in safe state (R640). -/
def State.demote (s : State) : State := (((s.setRole 4).wb 0x481008 7 false).twStat 6).enterSafe 71

/-! ## Claims (R638, R639) -/

/-- A claim is lost. -/
def State.claimLost (s : State) : State :=
  ({ s with pair := { s.pair with claim := .none } }.wb 0x481008 7 false).beStandby.bump (cnt 0x481040 3)

/-- A claim begins. -/
def State.claimGo (s : State) (takeover : Bool) : State :=
  if s.role = 1 ∨ s.pair.claim ≠ .none ∨ s.safe = true then s
  else if s.rb 0x481008 6 then s.claimLost
  else { (s.setRole 3).wb 0x481008 7 true with pair := { s.pair with claim := .wait2, takeover } }

/-- HOPS of the last enumeration, as the node table has it: one above the highest position on the direct ring (log 24). -/
def State.tableHops (s : State) (p : Nat) : Option Nat :=
  (s.portNodes p).foldl (fun m n =>
    if s.ntFlag n 1 && decide (pathDepth (s.nodePath n) = 1) then some (max (m.getD 0) (s.nt n 7 1 % 64 + 1)) else m) none

/-- The new master resolves its Seedbank, settles its subchannels, takes the autostart STARTs and trains the ports in PORTS (R641). -/
def State.takeUp (s : State) (cause : Nat) : State :=
  let (s, l) := s.resolve cause false
  let s := { s with chains := [], jpend := [], owed := [], xfers := [], chans := [], ops := [], slots := [], waits := [], resq := [], autoWait := [],
                     inbox := [], cached := [] }
  let s := s.settleAll l
  let s := if s.rf 0x80040 0 2 = 0 then s else State.autostart (imgRecords s.bankAt) [] s
  let s := if cause = 11 then
      s.pairPorts.foldl (fun s p => s.modPort p fun t => { t with firstEnum := true, lastHops := s.tableHops p }) s
    else s
  s.pairPorts.foldl (fun s p => s.trainPort p) s

/-- A claim is won (R637, R641): TEPOCH rises above every epoch known, and the pair record is written before any flit to a node. -/
def State.claimWon (s : State) : State :=
  let rec_ := if s.pairValid then s.seed.le (pairAt + 8) 4 else 0
  let e := max (max (s.rn 0x481010) rec_) (max s.pair.maxTok (s.pair.beat.elim 0 fun b => b.tepoch.toNat)) + 1
  let t := s.pair.takeover
  let s := { s with pair := { s.pair with claim := .none, takeover := false, unacked := [], copyPos := none, copyLast := none, goSolo := false } }
  let s := (((s.setReg 0x481010 (BitVec.ofNat 32 e)).setRole 1).wb 0x481008 3 false).wb 0x481008 5 true
  let s := s.pairPut 1
  if t then ((s.twStat 0).bump (cnt 0x481040 0)).takeUp 11 else s.takeUp 12

/-- CLAIM_WAIT_EXPIRY. -/
def execClaimWaitExpiry (s : State) : Host.Outcome State Fault Refusal :=
  if s.life ≠ .live then .next s
  else match s.pair.claim with
    | .none => .next s
    | .wait2 =>
      if !s.rb 0x481008 6 then fin s.claimWon
      else if s.pairId then fin s.claimLost
      else fin { s with pair := { s.pair with claim := .wait10 } }
    | .wait10 => if !s.rb 0x481008 6 then fin s.claimWon else fin (s.claimLost.twStat 3)

/-- PAIR_ARB_B falls. -/
def execPairArbFall (s : State) : Host.Outcome State Fault Refusal :=
  let s := s.wb 0x481008 6 false
  if s.life = .live ∧ s.pair.claim = .wait10 then fin s.claimWon else .next s

/-- PAIR_ARB_B rises (R640). -/
def execPairArbRise (s : State) : Host.Outcome State Fault Refusal :=
  let s := s.wb 0x481008 6 true
  if s.life = .live ∧ s.role = 1 then fin s.demote else .next s

/-- NOBEAT_CLAIM (R639): 100 ms after step 6 with no BEAT. -/
def execNobeatClaim (s : State) : Host.Outcome State Fault Refusal :=
  let mine := if s.pairValid then decide (s.seed.le (pairAt + 4) 1 % 4 = 1) else !s.pairId
  if !s.running || !s.paired || decide (s.startStep < 6) || decide (s.role ≠ 0) || s.pair.beat.isSome || !mine ||
      decide (s.pair.syncEp < s.pair.maxTok) then .next s
  else fin ((s.twStat 7).claimGo false)

/-- TOKEN_SILENCE (R639): the takeover condition of a standby; one whose partner shows the same PAIR_ID does not claim (R630). -/
def execTokenSilence (s : State) : Host.Outcome State Fault Refusal :=
  if !s.running || !s.paired || decide (s.role ≠ 2) || !s.rb 0x481008 3 || s.rb 0x481008 4 || decide (s.pair.syncEp < s.pair.maxTok) ||
      s.pair.beat.elim false (fun b => b.pairId == s.pairId) then .next s
  else fin (s.claimGo true)

/-- A write of TW_CTL: FORCE claims at once; REJOIN asks for a resynchronisation, which the partner learns from the BEAT. -/
def State.twCtlWrite (s : State) (v : Word) : State :=
  let s := if v.getLsbD 0 && v.getLsbD 16 && s.paired then s.claimGo (decide (s.role = 2)) else s
  if v.getLsbD 1 && v.getLsbD 17 && decide (s.role = 2) then (s.wb 0x481008 3 false).pairPut 2 else s

def execTwForce (who : Req) (s : State) : Host.Outcome State Fault Refusal := regGuarded s who fun s => s.twCtlWrite 0x10001

def execTwRejoin (who : Req) (s : State) : Host.Outcome State Fault Refusal := regGuarded s who fun s => s.twCtlWrite 0x20002

/-! ## Going solo (R643) -/

/-- SOLO: records become durable on local confirmation alone. -/
def State.soloNow (s : State) : State :=
  let s := ((s.wb 0x481008 5 true).wf 0x481014 0 16 0).twStat 2
  let s := { s with pair := { s.pair with goSolo := false, unacked := [] }, jpend := s.jpend.map fun r => { r with acked := true } }
  State.drainDurable s.jpend.length s

def execMirrorTimeout (s : State) : Host.Outcome State Fault Refusal :=
  if s.life = .live && s.jpend.any fun r => !r.acked then fin s.soloGo else .next s

/-- HEARTBEAT_LOST (R629): no BEAT has come for HBTMO µs. -/
def execHeartbeatLost (s : State) : Host.Outcome State Fault Refusal :=
  if s.life ≠ .live ∨ s.paired = false ∨ s.rb 0x481008 4 = false then .next s else fin s.heartbeatLost

/-- RX_TOKEN: a TOKEN that the standby forwards, or that returns to the master. -/
def execRxToken (p : Nat) (k : Heard TokenF) (s : State) : Host.Outcome State Fault Refusal :=
  let e := k.body.tepoch.toNat
  if !s.running || decide (4 ≤ p) then .next s
  else if s.forwards p then
    let s := ({ s with pair := { s.pair with maxTok := max s.pair.maxTok e } }).seeEpoch e
    fin (if s.role = 2 && s.rb 0x481008 3 && decide (s.pair.syncEp < e) then (s.wb 0x481008 3 false).pairPut 2 else s)
  else if !s.ringIn p then .next s
  else
    -- R316: a flit with UP = 0 is discarded and counted
    let s := ((s.flitIn p k.corr).setBit (kp p 0x14) 4).bump (kp p 0x78)
    if !s.paired || decide (s.role ≠ 1) then fin s
    else if s.rn 0x481010 < e then fin (s.seeEpoch e).demote
    else if s.pair.goSolo && decide (e = s.rn 0x481010) then fin s.soloNow
    else fin s

/-! ## The twin link (R628-R633, R644) -/

/-- The highest durable JSEQ. -/
def State.durableJseq (s : State) : Nat := (s.jpend.head?.elim (s.count64 0xC0010) fun r => if r.slot.isSome then r.jseq else s.count64 0xC0010) - 1

/-- BEAT_TIMER. -/
def execBeatTimer (s : State) : Host.Outcome State Fault Refusal :=
  if !s.ringIn 4 || decide (s.kpSt 4 ≠ 2) then .next s
  else
    let b : BeatF := { pairId := s.pairId, role := BitVec.ofNat 3 s.role, insync := s.rb 0x481008 3, tepoch := s.reg 0x481010,
                       bseq := BitVec.ofNat 32 s.pair.bseq, jseq := BitVec.ofNat 64 s.durableJseq, imageSha := s.ownSha }
    fin ({ s with pair := { s.pair with bseq := s.pair.bseq + 1 } }.queueFlit 4 { path := 0, body := .beat b })

/-- What a BEAT makes a device with no role yet do (R639, R644). -/
def State.beatDecide (s : State) (b : BeatF) (own : Nat) : State :=
  if s.rb 0x481008 6 ∨ b.role = 1 then s.beStandby
  else if b.pairId = s.pairId then s
  else if b.tepoch.toNat < own ∨ (b.tepoch.toNat = own ∧ s.pairId = false) then s.claimGo false
  else s

/-- What a BEAT makes a master do (R640, R644): it stops, or begins to resynchronise a standby that is not in sync. -/
def State.beatMaster (s : State) (b : BeatF) (own : Nat) : State :=
  if own < b.tepoch.toNat then s.demote
  else if b.role = 2 && !b.insync && s.pair.copyPos.isNone && s.pair.copyLast.isNone && decide (b.imageSha = s.ownSha) then
    ({ s with pair := { s.pair with copyPos := some 0 } }.wb 0x481008 5 true).wf 0x481014 16 7 0
  else s

/-- RX_BEAT (R630). The heartbeat is there while the twin link is ACTIVE (R629). -/
def execRxBeat (h : Heard BeatF) (s : State) : Host.Outcome State Fault Refusal :=
  let b := h.body
  if !s.ringIn 4 then .next s
  else if !s.paired then fin (s.flitIn 4 h.corr)
  else
    let own := s.rn 0x481010
    let s := ({ s.flitIn 4 h.corr with pair := { s.pair with beat := some b } }.wb 0x481008 4 (decide (s.kpSt 4 = 2))).seeEpoch b.tepoch.toNat
    let s := if b.pairId = s.pairId then s.twStat 4 else s
    let s := if b.imageSha = s.ownSha then s
      else (let s := s.twStat 5; if s.role = 2 then (s.wb 0x481008 3 false).pairPut 2 else s)
    fin (match s.role with
      | 0 => if 6 ≤ s.startStep then s.beatDecide b own else s
      | 1 => s.beatMaster b own
      | _ => s)

/-- A mirrored block is written at its offset; HP_PERM follows its table. -/
def State.mirrorIn (s : State) (e : Nat × Bytes) : State :=
  if 0x3800000 ≤ e.1 ∨ e.1 = pairAt then s
  else
    let s := s.put e.1 (padTo 64 e.2)
    if 0x3601000 ≤ e.1 ∧ e.1 < 0x3611000 then
      (List.range 16).foldl (fun s i => s.setReg (0x140000 + (e.1 - 0x3601000) + 4 * i) (BitVec.ofNat 32 (leAt e.2 (4 * i) 4))) s
    else s

/-- RX_MIRROR (R632, R644): a credited flit (R329). -/
def execRxMirror (h : Heard MirrorF) (s : State) : Host.Outcome State Fault Refusal :=
  credited 4 0 1 h.corr s fun s =>
    let m := h.body
    if s.role ≠ 2 then s else
    let s := m.blocks.foldl (fun s e => s.mirrorIn e) s
    let s := { s with pair := { s.pair with rxMseq := m.mseq.toNat } }
    let last := m.copy && m.blocks.getLast?.elim false fun e => (copyFrom (e.1 + 64)).isNone
    let s := if last && !s.rb 0x48100C 5 then
        let s := { s with pair := { s.pair with syncEp := s.pair.beat.elim (s.rn 0x481010) fun b => b.tepoch.toNat } }
        ((s.wb 0x481008 3 true).pairPut 2).twStat 8
      else s
    s.queueFlit 4 { path := 0, body := .mack m.mseq }

/-- A MACK covers a MIRROR flit: MSEQ is a 32-bit serial. -/
def covers (mack m : Nat) : Bool := decide ((mack + 2 ^ 32 - m % 2 ^ 32) % 2 ^ 32 < 2 ^ 31)

/-- RX_MACK (R633, R644). -/
def execRxMack (m : Heard (BitVec 32)) (s : State) : Host.Outcome State Fault Refusal :=
  if !s.ringIn 4 then .next s
  else if s.role ≠ 1 then fin (s.flitIn 4 m.corr)
  else
    let k := m.body.toNat
    let s := s.flitIn 4 m.corr
    let un := s.pair.unacked.filter fun m => !covers k m
    let s := { s with
      pair := { s.pair with unacked := un }
      jpend := s.jpend.map fun r : JRec => if r.mseq.elim false (covers k) then { r with acked := true } else r }
    let s := s.wf 0x481014 0 16 (min un.length 0xFFFF)
    let s := match s.pair.copyLast with
      | some m =>
        if covers k m then
          ({ s with pair := { s.pair with copyLast := none, beat := s.pair.beat.map fun b : BeatF => { b with insync := true } } }.wb 0x481008 5 false).twStat 8
        else s
      | none => s
    fin (State.drainDurable s.jpend.length s)

end Sys2Proof.Machine
end

