-- ==== Sys2Proof/Machine/Test.lean ====
section
/-! DEFINITION. Loopbacks (R669-R674), SPI read-back (R675, R676), domain BIST (R678, R679), error injection (R680) and JTAG (R681).
The interfaces are 0 the host port, 1 to 4 KP0 to KP3, 5 the twin link. -/

namespace Sys2Proof.Machine

/-! ## Loopbacks -/

/-- A depth that exists for an interface (R669). -/
def lbExists (i depth : Nat) : Bool := decide (depth ∈ (if i = 0 then [1, 2, 4] else [1, 2, 3, 4, 5]))

/-- The unit of an interface is fenced, or its power domain is not ON (R674). -/
def State.lbUnitOut (s : State) (i : Nat) : Bool :=
  if i = 0 then false
  else if i = 5 then s.rb 0x40008 14
  else decide (s.pdom (i - 1) ≠ 0) || s.rb 0x40008 (10 + (i - 1))

/-- A write of TS_LB_CTL that R669, R673 or R674 refuses. -/
def State.lbRefused (s : State) (i depth pat : Nat) : Bool :=
  decide (s.lbDepth i ≠ 0) || !lbExists i depth || decide (2 ≤ pat) ||
  (decide (pat = 1) && (decide (i = 0) || (decide (depth ≤ 2) && s.ab (kp (i - 1) 0) 2))) ||
  (s.ab 0x481000 0 && (decide (i = 5) || (decide (1 ≤ i) && s.ab 0x481000 i))) || s.lbUnitOut i

/-- A depth whose checker works on the lanes' pattern: SERIAL, PCS, and FAR of the host port. -/
def lbPattern (i depth : Nat) : Bool := decide (depth = 1 ∨ depth = 2 ∨ (i = 0 ∧ depth = 4))

/-- The counts of a pattern checker: what has been checked and found is not a matter of commands, so they are free values (log 4). -/
def State.lbCounts (s : State) (i : Nat) : State :=
  let s := (s.set64 (lbReg i + 8) s.free.toNat).tick
  let s := (List.range (if i = 0 then 16 else 4)).foldl (fun s l => (s.setReg (lbReg i + 0x40 + 4 * l) (s.free.setWidth 32)).tick) s
  (s.wb (lbReg i + 4) 1 (s.free.getLsbD 0)).tick

/-- An interface enters a depth (R673): the counts are cleared; every depth but FAR takes a port or the twin link DOWN; the host
port's link goes down with it. -/
def State.lbEnter (s : State) (i : Nat) (v : Word) : State :=
  let depth := bits v.toNat 0 3
  let s := if i = 0 then s.resetPort else if depth = 4 then s else s.downPort (i - 1)
  let s := (s.setReg (lbReg i) (v &&& 0x00FFFF37#32)).setReg (lbReg i + 4) 1
  let s := if i = 0 then s.linkUp else s
  let s := (List.range 16).foldl (fun s l => s.setReg (lbReg i + 0x40 + 4 * l) 0) (s.set64 (lbReg i + 8) 0)
  let s := if i = 0 then s else s.modPort (i - 1) fun t => { t with testTx := 0, testRx := 0 }
  let s := if lbPattern i depth then s.lbCounts i else s
  if depth = 5 ∧ 1 ≤ i ∧ i ≤ 4 then s.vnodeEnter (i - 1) else s

/-- A depth ends (R673): the host port goes through a DL_Down; a port or the twin link trains as if TRAIN were written. -/
def State.lbLeave (s : State) (i : Nat) : State :=
  let depth := s.lbDepth i
  if depth = 0 then s
  else
    let s := (s.wf (lbReg i) 0 3 0).wf (lbReg i + 4) 0 2 0
    if i = 0 then s.resetPort
    else
      let s := if depth = 5 ∧ i ≤ 4 then
          { s.downPort (i - 1) with vnode := s.vnode.drop ((i - 1) * 65536) 65536, vnodes := SMap.set (fun _ => {}) s.vnodes (i - 1) {} }
        else s
      s.trainGo (i - 1)

/-- A write of TS_LB_CTL. -/
def State.lbWrite (s : State) (i : Nat) (v : Word) : State :=
  let depth := bits v.toNat 0 3
  if 6 ≤ i then s
  else if depth = 0 then (s.lbLeave i).setReg (lbReg i) (v &&& 0x00FFFF30#32)
  else if s.lbRefused i depth (bits v.toNat 4 2) then s.setBit 0x700F00 0
  else s.lbEnter i v

def execLoopbackEnter (who : Req) (i : Nat) (v : Word) (s : State) : Host.Outcome State Fault Refusal :=
  if 6 ≤ i ∨ bits v.toNat 0 3 = 0 then .next s else regGuarded s who fun s => s.lbWrite i v

def execLoopbackEnd (who : Req) (i : Nat) (s : State) : Host.Outcome State Fault Refusal :=
  if 6 ≤ i then .next s else regGuarded s who fun s => s.lbWrite i (s.reg (lbReg i) &&& 0xFFFFF8#32)

/-- DUR expires: the depth ends and LB_ENDED is set. -/
def execLoopbackDurExpiry (i : Nat) (s : State) : Host.Outcome State Fault Refusal :=
  if s.life ≠ .live ∨ 6 ≤ i ∨ s.lbDepth i = 0 ∨ s.rf (lbReg i) 8 16 = 0 then .next s
  else fin ((s.lbLeave i).setBit 0x700F00 1)

/-! ## SPI read-back -/

/-- The flash range that TS_SPI_ADDR and TS_SPI_LEN give; it ends at 0xFF_FFFF. -/
def State.spiRange (s : State) : Nat × Nat :=
  let a := s.rf 0x700800 12 12 * 4096
  (a, min (4096 * s.rf 0x700804 0 13) (0x1000000 - a))

/-- A write of TS_SPI_CTL. -/
def State.spiWrite (s : State) (v : Word) : State :=
  if !v.getLsbD 0 then s
  else if s.updating then s.setBit 0x700F00 3
  else if s.rf 0x70080C 0 2 = 1 then s
  else { s with bgCheck := false }.setReg 0x70080C 1

def execSpiReadback (who : Req) (s : State) : Host.Outcome State Fault Refusal := regGuarded s who fun s => s.spiWrite 1

/-- The two reads are complete. The CRC is that of the first read; where the reads differ, what the first one brought is not known
(log 4). -/
def execSpiReadbackDone (diff : Option Nat) (s : State) : Host.Outcome State Fault Refusal :=
  if s.life ≠ .live ∨ s.rf 0x70080C 0 2 ≠ 1 then .next s
  else
    let r := s.spiRange
    match diff with
    | none => fin ((s.setReg 0x700810 (crc32c (imgN (s.flashAt 0) r.1 r.2))).setReg 0x70080C 2)
    | some a => fin ((((s.setReg 0x700810 (s.free.setWidth 32)).tick).setReg 0x70080C (BitVec.ofNat 32 (2 + 256 * (a % 2 ^ 24)))).setBit 0x700F00 2)

/-! ## BIST -/

/-- A write of TS_BIST_CTL (R679). -/
def State.bistWrite (s : State) (v : Word) : State :=
  let d := bits v.toNat 0 4
  let s := s.setReg 0x700900 (v &&& 0xF#32)
  if !v.getLsbD 4 then s
  else if 13 < d ∨ s.pdom d ≠ 2 ∨ s.rf 0x700904 0 3 = 1 then s.setBit 0x700F00 5
  else { s with bistDom := d }.setReg 0x700904 1

def execDomainBist (who : Req) (v : Word) (s : State) : Host.Outcome State Fault Refusal :=
  regGuarded s who fun s => s.bistWrite (v ||| 0x10#32)

/-- The sources that a failure in a domain reports (R678). -/
def bistSources (d : Nat) : List Nat :=
  if d < 4 then [46 + d] else if d < 8 then [16 + (d - 4), 88] else if d < 12 then [16 + (d - 4), 89] else [40 + (d - 12)]

/-- BIST_DONE: the sources that failed, and the rows repaired. -/
def execBistDone (fails : List Nat) (repaired : BitVec 8) (s : State) : Host.Outcome State Fault Refusal :=
  if s.life ≠ .live ∨ s.rf 0x700904 0 3 ≠ 1 then .next s
  else
    let bad := (bistSources s.bistDom).filter fun n => decide (n ∈ fails)
    let s := s.setReg 0x700904 (BitVec.ofNat 32 ((if bad.isEmpty then 2 else 3) + 256 * repaired.toNat))
    fin (if bad.isEmpty then s else bad.foldl (fun s n => s.report n) (s.setBit 0x700F00 4))

/-! ## Injection -/

/-- A write of TS_INJ (R680). -/
def execInjectArm (who : Req) (v : Word) (s : State) : Host.Outcome State Fault Refusal :=
  regGuarded s who fun s => s.softWrite who 0x700A10 v

/-! ## JTAG -/

/-- A TAP instruction (R681); `pins`: one that acts only while PORST_N is low, and otherwise as BYPASS. -/
def tapIr (code : Byte) (pins : Bool) (s : State) : Host.Outcome State Fault Refusal :=
  .next { s with jtagIr := code, bscan := if pins && s.porstLow then code + 1 else 0 }

def execExtest (s : State) : Host.Outcome State Fault Refusal := tapIr 0x00 true s
def execSamplePreload (s : State) : Host.Outcome State Fault Refusal := tapIr 0x01 false s
def execIdcode (s : State) : Host.Outcome State Fault Refusal := tapIr 0x02 false s
def execClamp (s : State) : Host.Outcome State Fault Refusal := tapIr 0x03 true s
def execHighz (s : State) : Host.Outcome State Fault Refusal := tapIr 0x04 true s
def execExtestPulse (s : State) : Host.Outcome State Fault Refusal := tapIr 0x08 true s
def execExtestTrain (s : State) : Host.Outcome State Fault Refusal := tapIr 0x09 true s
def execBypass (s : State) : Host.Outcome State Fault Refusal := tapIr 0xFF false s

end Sys2Proof.Machine
end

