-- ==== Sys2Proof/Machine/RegBus.lean ====
section
/-! DEFINITION. The register bus: what a write to any offset of BAR0 does (R648-R652, R40, R69, R272, R646), and the commands
of the management port (R523, R524). -/

namespace Sys2Proof.Machine

/-- A write to a TQ_ register (R40, R653). -/
def State.tqWrite (s : State) (who : Req) (off : Nat) (v : Word) : State :=
  let q := (off - 0x800000) / 0x400
  let k := off % 0x400
  if k = 0 then s.tqCfgWrite q v who
  else if (k = 4 ∨ k = 8 ∨ k = 0xC) ∧ s.qEn q = true then s
  else s.softWrite who off v

/-- A write to a BW_CH_ register (R272). -/
def State.bwWrite (s : State) (who : Req) (off : Nat) (v : Word) : State :=
  let c := (off - 0x300000) / 0x40
  let k := off % 0x40
  if k = 0 then s.chCfgWrite c v who
  else if k = 0xC then s.chCtlWrite c v
  else if (k = 4 ∨ k = 8) ∧ s.rb (bwCh c 0) 0 = true then s
  else s.softWrite who off v

/-- A write to SC_OWNER (R69): it acts in IDLE and FENCED, and the context mirrors it. -/
def State.ownerWrite (s : State) (sc : Nat) (v : Word) : State :=
  if s.scState sc = 0 ∨ s.scState sc = 7 then
    (s.setReg (scOwner sc) (v &&& 0x1F#32)).cxSet sc 11 1 (v.toNat % 32)
  else s

/-- A write to a register that acts by more than its access types, from a requester admitted to guarded fields; none: the
offset is no such register. -/
def State.guardedWrite (s : State) (off : Nat) (v : Word) : Option State :=
  if off = 0x10 then some (s.updateWrite v)
  else if 0x40030 ≤ off ∧ off < 0x40044 then some (s.forceWrite ((off - 0x40030) / 4) v)
  else if off = 0x80020 then some (s.pdomWrite v)
  else if off = 0x80060 then some (s.suWrite v)
  else if off = 0xC0040 then some (s.vctlWrite v)
  else if 0x140000 ≤ off ∧ off < 0x150000 then some (s.permWrite ((off - 0x140000) / 16) (off / 4 % 4) v)
  else if off = 0x180008 then some (s.swtrigWrite v)
  else if 0x180100 ≤ off ∧ off < 0x180300 ∧ off % 8 = 0 then some (s.isrcWrite ((off - 0x180100) / 8) v)
  else if 0x410010 ≤ off ∧ off < 0x410020 then some (s.enumCtlWrite ((off - 0x410010) / 4) v)
  else if off = 0x481004 then some (s.twCtlWrite v)
  else if 0x600000 ≤ off ∧ off < 0x600040 ∧ off % 8 = 0 then some (s.drainWrite ((off - 0x600000) / 8) v)
  else if 0x700000 ≤ off ∧ off < 0x700600 ∧ off % 0x100 = 0 then some (s.lbWrite ((off - 0x700000) / 0x100) v)
  else if off = 0x700808 then some (s.spiWrite v)
  else if off = 0x700900 then some (s.bistWrite v)
  else if 0x3000200 ≤ off ∧ off % 0x400 = 0x200 then some (s.ownerWrite ((off - 0x3000000) / 0x400) v)
  else none

/-- The same for registers that any requester who reaches them writes. -/
def State.openWrite (s : State) (who : Req) (off : Nat) (v : Word) : Option State :=
  if isRcs off then some (s.rcsWrite off v)
  else if 0x800000 ≤ off ∧ off < 0x1000000 then some (s.tqWrite who off v)
  else if 0x300000 ≤ off ∧ off < 0x304000 then some (s.bwWrite who off v)
  else if 0x400000 ≤ off ∧ off < 0x404000 ∧ off % 0x1000 = 8 then some (s.kpCtlWrite ((off - 0x400000) / 0x1000) v)
  else if off = 0x480008 then some (s.kpCtlWrite 4 v)
  else if 0x280100 ≤ off ∧ off < 0x280400 ∧ off % 0x20 = 0 then some (s.fuCtlWrite ((off - 0x280100) / 0x20) v)
  else if 0x1A0000 ≤ off ∧ off < 0x1B0000 ∧ off % 8 = 0 then some (s.cqiWrite who ((off - 0x1A0000) / 8) v)
  else none

/-- What a standby's register bus ignores from outside (R646). -/
def State.deaf (s : State) (who : Req) (off : Nat) : Bool :=
  s.standby && decide (who ≠ .cloche) &&
  (decide (0x800000 ≤ off ∧ off < 0x1000000) || decide (0x140000 ≤ off ∧ off < 0x150000) || decide (0x3000000 ≤ off))

/-- A write of `v` that reaches the register at `off`. PR_SELF keeps its reaction (R604). -/
def State.busWrite (s : State) (who : Req) (off : Nat) (v : Word) : State :=
  if 0x108000 ≤ off ∧ off < 0x110000 then s.msixWrite (reqFn who) ((off - 0x108000) / 16) (off / 4 % 4) v
  else if (regAt off).isNone || s.deaf who off then s
  else
    match s.openWrite who off v with
    | some t => t
    | none =>
      match (if reqAdm who then s.guardedWrite off v else none) with
      | some t => t
      | none =>
        let t := s.softWrite who off v
        if off = 0x40068 then t.wf 0x40068 18 2 2 else t

/-- What a write request that is taken does (R499, R501, R649, R650, R652). -/
def State.regWrite (s : State) (who : Req) (off : Nat) (full : Bool) (v : Word) : Host.Outcome State Fault Refusal :=
  if 0x1000000 ≤ off ∧ off < 0x3000000 then
    match who with
    | .fn f => fin (s.doorbell f ((off - 0x1000000) / 0x1000) (off % 0x1000) (if full then 4 else 0) v.toNat)
    | _ => .next s
  else if !full || decide (off % 4 ≠ 0) then (if off < 0x1000000 then fin s.badAcc else .next s)
  else if 0x108000 ≤ off ∧ off < 0x110100 ∨ s.reaches who off = true then fin (s.busWrite who off v)
  else .next s

/-- REGISTER_WRITE (R499, R521): what the port discards, and what a request that it takes does. -/
def execRegisterWrite (who : Req) (off : Nat) (form : ReqForm) (v : Word) (s : State) : Host.Outcome State Fault Refusal :=
  if !s.serves_ who then .next (s.unserved who)
  else match s.discards who form with
    | some t => fin t
    | none => s.regWrite who off (reqFull form) v

/-! ## The management port -/

/-- What the management port reaches (R524). -/
def smbReach (off : Nat) : Bool := decide (off < 0x1000000) || decide (0x3000000 ≤ off ∧ off < 0x4000000)

/-- SMB_WRITE (R523): the write, then the offset advances. -/
def execSmbWrite (v : Word) (pecOk : Bool) (s : State) : Host.Outcome State Fault Refusal :=
  if s.smbThere && pecOk then
    let a := s.smbAddr.toNat
    let t := { s with smbAddr := s.smbAddr + 4 }
    if smbReach a then fin (t.busWrite .mgmt a v) else .next t
  else .next s

/-- SMB_READ (R523): value and status, then the offset advances. The value beside "not reachable" is free. -/
def execSmbRead (s : State) : Host.Outcome State Fault Refusal :=
  if s.smbThere then
    let a := s.smbAddr.toNat
    let t := { s with smbAddr := s.smbAddr + 4 }
    if smbReach a then .next { t with reply := .data (natLE 4 (s.readReg .mgmt a).toNat) 0 }
    else .next { t.tick with reply := .data (natLE 4 (s.free.toNat % 2 ^ 32)) 1 }
  else .next s

end Sys2Proof.Machine
end

