-- ==== Sys2Proof/Machine/Start.lean ====
section
/-! DEFINITION. Supplies and the power-loss flush (R526-R537, R693-R698), loss of REFCLK (R14, R15), and a device start (R575-R589,
R695): the choice of image, the state it leaves, what it applies. A start is one step of the block (log 25). -/

namespace Sys2Proof.Machine

/-! ## Going down -/

/-- Step 2 of a flush, and the hold of R579: the pins fall (R564, R627), the host port is gone, filters stop. -/
def State.stop (s : State) (l : Life) : State :=
  let s := [0, 1, 2, 3].foldl (fun s p => s.wf (kp p 0xC) 21 1 0) s
  let s := if l = .flushed then s else s.setReg 0x100004 0   -- R713: the link is down
  let s := [0, 1, 2, 3, 4, 5].foldl (fun s i => (s.wf (lbReg i) 0 3 0).wf (lbReg i + 4) 0 2 0) s   -- R674
  { s.wb 0x481008 7 false with life := l, dack := 0, hostReady := false, warnTiming := false, bscan := 0 }

/-- The journal records issued are written, in order (step 3 of R534). -/
def State.confirmAll (s : State) : State :=
  s.jpend.foldl (fun s r => match r.slot with | some k => s.put (0xA00000 + 64 * k) r.raw | none => s) { s with jpend := [] }

/-- Work stops with no flush of the journal: of the records issued, the next one's write may have begun, and is then completed
(R530); which is free. With VBAK low that block may be left uncorrectable (R531). -/
def State.cutRecords (s : State) : State :=
  match s.jpend.find? fun r => !r.local_ && r.slot.isSome with
  | none => { s with jpend := [] }
  | some r =>
    let k := r.slot.getD 0
    let v := s.free.toNat
    let s := s.tick
    if v % 2 = 0 then { s with jpend := [] }
    else if !s.rb 0x80004 6 && decide (v / 2 % 2 = 1) then
      { s with jpend := [], errs := s.errs ++ [{ region := .seedbank, idx := (0xA00000 + 64 * k) / 64, burst := 0, poisoned := true }] }
    else { s with jpend := [] }.put (0xA00000 + 64 * k) r.raw

/-- CL_LASTDOWN. -/
def State.lastDown (s : State) (cause flush nctx : Nat) : State :=
  s.setReg 0x80010 (BitVec.ofNat 32 (cause + 8 * flush + 32 * nctx + 32768 * b2n (!s.rb 0x80004 6)))

/-- A flush has been triggered and is neither complete nor abandoned. -/
def State.flushing (s : State) : Bool := decide (s.life = .flushed) && decide (s.rf 0x80010 3 2 = 0)

/-- A flush is triggered (R532): step 2, CL_DOWNCNT. -/
def State.flushGo (s : State) (cause : Nat) : State :=
  (({ s.stop .flushed with flushSt := {} }).lastDown cause 0 0).setReg 0x80014 (s.reg 0x80014 + 1)

/-- Steps 4 to 6 of R534: the dirty contexts go to the flush shadow with their directory, the header follows, and CL_LASTDOWN is
written. -/
def State.flushEnd (s : State) : State :=
  if !s.flushing then s
  else
    let d := s.dirty.take 512
    let n := d.length
    let dir := d.flatMap fun sc => natLE 4 (512 * sc) ++ natLE 2 8
    let img := d.flatMap fun sc => s.ctx.rdN (2048 * sc) 512
    let h := natLE 4 0x4C4B5344 ++ natLE 4 1 ++ natLE 8 0 ++ natLE 8 s.durableJseq ++ natLE 8 s.now ++ natLE 4 0 ++ natLE 4 n ++
      List.replicate 20 0
    let c := crc32c (h ++ dir ++ img)
    let s := ((s.put (shadowFlush + 64) dir).put (shadowFlush + 4096) img).put shadowFlush (h ++ natLE 4 c.toNat)
    ({ s with flushSt := { headerDurable := true, nctx := n } }).lastDown (s.rf 0x80010 0 3) 1 n

/-- A flush is abandoned before its header is durable (R535). How many contexts it wrote is free. -/
def State.flushAbandon (s : State) : State :=
  let n := s.free.toNat % (min s.dirty.length 512 + 1)
  ({ s.tick with flushSt := { headerDurable := false, nctx := n } }).lastDown (s.rf 0x80010 0 3) 2 n

/-- The Cloche island loses its registers when neither VDD_SB nor VBAK feeds it (R666). -/
def State.islandOff (s : State) : State :=
  if s.rb 0x80004 2 || s.rb 0x80004 6 then s
  else { s with regs := s.regs.filter fun e => !decide (0x80000 ≤ e.1 ∧ e.1 < 0xC0000 ∨ 0x40080 ≤ e.1 ∧ e.1 < 0x40090) }

/-- PWRWARN_FALL (R532): the filter interval starts. -/
def execPwrwarnFall (s : State) : Host.Outcome State Fault Refusal :=
  if s.warnLow then .next s else fin { s.wb 0x80004 8 true with warnLow := true, warnTiming := true }

/-- PWRWARN_FILTER_EXPIRY (R532, R534, R696-R698). -/
def execPwrwarnFilterExpiry (s : State) : Host.Outcome State Fault Refusal :=
  if !s.warnTiming then .next s
  else
    let s := { s with warnTiming := false }
    if s.rb 0x80000 8 && s.warnLow && (decide (s.life = .live) || (decide (s.life = .waiting) && decide (1 ≤ s.startStep))) then
      fin (s.confirmAll.flushGo 1)
    else fin s

/-- A main rail falls below its Fail level (R532, R535): the flush it triggers, or the one in progress, is abandoned. -/
def State.railFail (s : State) (rail : Nat) : State :=
  let s := { s.wb 0x80004 rail false with mainGood := false }
  match s.life with
  | .live | .waiting => ((s.cutRecords.flushGo 2).lastDown 2 2 0).islandOff
  | _ => if s.flushing then s.flushAbandon.islandOff else s.islandOff

/-- VDD_SB falls (R528): the island switches to the backup regulator. -/
def State.sbFail (s : State) : State := ({ s.wb 0x80004 7 true with backupOn := true }).railFail 2

/-- MAIN_RAIL_FAIL (R535); rails in the order of CL_SUPPLY.GOOD. -/
def execMainRailFail (rail : Nat) (s : State) : Host.Outcome State Fault Refusal :=
  if 6 ≤ rail || !s.rb 0x80004 rail then .next s else if rail = 2 then fin s.sbFail else fin (s.railFail rail)

/-- VDD_SB_FAIL (R528). -/
def execVddSbFail (s : State) : Host.Outcome State Fault Refusal :=
  if s.rb 0x80004 2 then fin s.sbFail else .next s

/-- BACKUP_REGULATOR_OFF (R529). -/
def execBackupRegulatorOff (s : State) : Host.Outcome State Fault Refusal :=
  if s.backupOn then fin { s with backupOn := false } else .next s

/-- PORST_ASSERT (R579, R694, R698). -/
def execPorstAssert (ns : Nat) (s : State) : Host.Outcome State Fault Refusal :=
  let open_ := decide (500 ≤ ns ∧ ns < 2000)
  let acts := if open_ then decide (s.free.toNat % 2 = 1) else decide (2000 ≤ ns)
  let s := if open_ then s.tick else s
  if !acts then .next s
  else
    let s := { s with porstLow := true }
    match s.life with
    | .live | .waiting => fin ((s.cutRecords.stop .held).lastDown 4 0 0)
    | _ => fin s

/-- REFCLK_LOSS (R14, R15): no flush starts; one in progress cannot go on. -/
def execRefclkLoss (s : State) : Host.Outcome State Fault Refusal :=
  let s := if s.flushing then s.flushAbandon else s
  let s := { s with refclk := false, slowInternal := true }
  match s.life with
  | .live | .waiting => fin ((s.cutRecords.stop .lost).lastDown 3 0 0)
  | _ => fin (s.stop .lost)

/-! ## The image -/

/-- The Seedbank copy can be used: it passes R574, and every block of it is correctable. -/
def State.bankOk (s : State) : Bool := copyOk s.bankAt && decide (s.seedErr 0xE00000 (imgLen s.bankAt) < 2)

/-- GEN of a copy. -/
def imgGen (g : Nat → Byte) : Nat := imgLe g 8 4

/-- The copy that the headers choose (R575). -/
def State.headerChoice (s : State) : Option Nat :=
  let d := (imgGen (s.flashAt 0) + 2 ^ 32 - imgGen (s.flashAt 1)) % 2 ^ 32
  match headerOk (s.flashAt 0), headerOk (s.flashAt 1) with
  | true, true => some (if 1 ≤ d ∧ d ≤ 2 ^ 31 - 1 then 0 else 1)
  | true, false => some 0
  | false, true => some 1
  | false, false => none

/-- R576, R712: the Seedbank copy is the chosen image. -/
def State.fastWith (s : State) (c : Nat) : Bool :=
  decide (imgGen s.bankAt = imgGen (s.flashAt c)) && decide (imgSha s.bankAt = imgSha (s.flashAt c)) && s.bankOk

/-- SRC, FALLBACK and FAST of a start (R575-R578, R712). -/
def State.pickImage (s : State) : Nat × Bool × Bool :=
  let last := (if s.bankOk then 3 else 0, false, false)
  match s.headerChoice with
  | none => last
  | some c =>
    if s.fastWith c then (1 + c, false, true)
    else if copyOk (s.flashAt c) then (1 + c, false, false)
    else if copyOk (s.flashAt (1 - c)) then (2 - c, true, false)
    else last

/-- The image is chosen: CL_START, CL_GEN_A and CL_GEN_B, CL_IMAGE_ID, CL_START_T, and the reports of R577 and R578. An image read
from flash goes to the Seedbank copy, header last (R576). -/
def State.chooseImage (s : State) : State :=
  let (src, fallback, fast) := s.pickImage
  let ok := fun c => if fast then headerOk (s.flashAt c) else copyOk (s.flashAt c)
  let w := src + 4 * b2n fallback + 8 * b2n fast + 64 * b2n (ok 0) + 128 * b2n (ok 1) + 256 * 5 + 4096 * b2n (!fast)
  let s := ((s.setReg 0x80040 (BitVec.ofNat 32 w)).setReg 0x80044 (BitVec.ofNat 32 (imgGen (s.flashAt 0)))).setReg 0x80048
    (BitVec.ofNat 32 (imgGen (s.flashAt 1)))
  let s := if fast || decide (src = 0 ∨ src = 3) then s
    else
      let g := s.flashAt (src - 1)
      let n := imgLen g
      (s.seedPut 0xE01000 (imgN g 4096 (n - 4096))).seedPut 0xE00000 (imgN g 0 4096)
  let s := (s.setReg 0x8004C (BitVec.ofNat 32 (if src = 0 then 0 else imgLe s.bankAt 28 4))).setReg 0x80050
    (BitVec.ofNat 32 (s.startArgs.ms.toNat + 0xFFFF * 65536))
  let s := { s with bgCheck := fast }
  if src = 3 then s.report 99 else if src = 0 then s.setCond 100 true else s

/-! ## What a start applies (R583) -/

/-- The REG records, in record order. -/
def State.applyRegs (s : State) : State :=
  let g := s.bankAt
  (imgRecords g).foldl (fun s a =>
    if g a = 1 then s.busWrite .cloche (imgLe g (a + 4) 4) (BitVec.ofNat 32 (imgLe g (a + 8) 4)) else s) s

/-- Every node table entry becomes VALID = 0. -/
def State.nodesOff (s : State) : State :=
  (List.range 4096).foldl (fun s n => if s.ntFlag n 0 then s.setNtFlag n 0 false else s) s

/-- A TOPOLOGY entry becomes a node table entry with VALID = 1, SEEDED = 1 and PRESENT = 0 (R355, R356, R573). -/
def State.seedNode (s : State) (e : Topo) : State :=
  let n := e.index
  let fl := setBits (setBits (setBits (setBits (s.nt n 2 1) 0 1 1) 1 1 0) 4 1 1) 5 1 (b2n e.required)
  s.ntPut n 0 (natLE 2 n ++ natLE 1 fl ++ natLE 1 e.depth ++ natLE 3 e.path ++ natLE 1 (s.nt n 7 1) ++ natLE 2 (e.parent + 32768 * b2n e.pv) ++
    natLE 1 e.share ++ natLE 1 0 ++ natLE 4 (s.nt n 12 4) ++ natLE 2 e.vendor ++ natLE 2 e.model ++ natLE 2 e.minrev)

/-- The AUTOSTART bytes go to buffer memory at LOAD. -/
def State.loadAutostart (s : State) : State :=
  match imgSection s.bankAt 6 with
  | some x => s.bufPut x.load ((imgN s.bankAt x.off x.len).take (s.bufSize - x.load))
  | none => s

/-- Step 6 with an image: it is applied, and every Tiller leaves Cloche mode (R198). -/
def State.applyImage (s : State) : State :=
  let s := (s.applyRegs.applyGroups 0xFFFF).nodesOff
  let s := (imgTopo s.bankAt).foldl (fun s e => s.seedNode e) s
  let s := (List.range 64).foldl (fun s T => if s.pdom (4 + T / 8) = 0 then s.imageTiller T else s) s
  let s := s.loadAutostart
  (List.range 8).foldl (fun s g => (s.wf (0x600004 + 8 * g) 8 8 0).teStat g) s

/-- TE0 keeps the start-up firmware of the Cloche ROM (R580 step 2, log 7): its thread 0 runs from RESET in Cloche mode (R197). -/
def State.clocheTask (s : State) : State :=
  ({ s with tmem := s.tmem.wrN 0 ((List.range 0x10000).map Config.clocheRom) }).modThread 0 fun h =>
    { startThread h 0 0 .cloche 15 with fl := 0x40 }

/-! ## The start (R580) -/

/-- The fault sources that the start-up self-test can report (R677, R678). -/
def selfSources : List Nat :=
  (List.range 8).map (16 + ·) ++ [88, 89] ++ (List.range 4).map (46 + ·) ++ [70, 40, 41, 75, 87, 94]

/-- What a start keeps: the Seedbank and the flash with their errors, the Cloche domain, the pins, what waits outside. Everything else
returns to its reset value (R666). -/
def State.fresh (s : State) (a : StartArgs) : State :=
  let regs : SMap Word := s.regs.filter fun e => decide (0x80000 ≤ e.1 ∧ e.1 < 0xC0000 ∨ 0x40080 ≤ e.1 ∧ e.1 < 0x40090 ∨ e.1 = 0xC0044)
  let arb := s.rb 0x481008 6
  let t : State :=
    { seed := s.seed, flash := s.flash, regs, pending := s.pending, freeCtr := s.freeCtr, jtagIr := s.jtagIr, dreq := s.dreq
      warnLow := s.warnLow, warnTiming := s.warnTiming, slowInternal := s.slowInternal
      errs := s.errs.filter fun e => decide (e.region = MemRegion.seedbank)
      life := .waiting, startArgs := a }
  let t := (t.wf 0x80004 0 6 0x3F).wb 0x80004 7 false
  let t := (t.setReg 0x24 (BitVec.ofNat 32 (0x58 + a.smbA.toNat + 256 * b2n a.pairId))).setReg 0x481008
    (BitVec.ofNat 32 (64 * b2n arb + 256 * b2n a.pairId))
  let t := (List.range 14).foldl (fun t d => t.setPdom d (if t.rb 0x80020 d then 2 else 0)) t
  t.setReg 0x80040 0

/-- The pair record gives TW_EPOCH and SYNCEP (R636). -/
def State.pairLoad (s : State) : State :=
  if s.pairValid then
    { s.setReg 0x481010 (BitVec.ofNat 32 (s.seed.le (pairAt + 8) 4)) with pair := { s.pair with syncEp := s.seed.le (pairAt + 12) 4 } }
  else s

/-- Steps 4 to 6 of a start, with the Seedbank resolved. `open_`: a Vault update was open. -/
def State.startApply (s : State) (open_ : Bool) : State :=
  let s := s.chooseImage
  let (s, l) := s.resolve 12 open_
  let s := s.pairLoad
  let go := decide (s.rf 0x80040 0 2 ≠ 0)
  let s := if go then s.applyImage else s.nodesOff.clocheTask
  let s := s.wf 0x80040 8 4 6
  let s := if go && !s.paired && !s.safe then State.autostart (imgRecords s.bankAt) [] (s.settleAll l) else s
  if go && !s.safe then [0, 1, 2, 3, 4].foldl (fun s p => s.trainPort p) s else s

/-- Steps 2 to 6 of a start. A self-test whose reaction is SAFE stops it at step 3 (R618, R677). -/
def State.startRun (s : State) : State :=
  let a := s.startArgs
  let open_ := decide (s.vst = 1 ∨ s.vst = 2)
  let s := { s.wf 0xC0044 0 2 0 with life := .live }
  let s := s.setReg 0x700904 (BitVec.ofNat 32 (256 * a.repaired.toNat))
  let s := (selfSources.filter fun n => decide (n ∈ a.selfTest)).foldl (fun s n => s.report n) s
  let s := if s.slowInternal then { s.report 98 with slowInternal := false } else s
  let s := if s.safe then (s.wf 0x80040 8 4 3).clocheTask else s.startApply open_
  { s.linkUp with hostReady := true }

/-- A start that has begun goes on when PWRWARN_N is high (R697) and VBAK is good (R531). -/
def State.tryStart (s : State) : State :=
  if s.life ≠ .waiting ∨ s.warnLow = true then s
  else if !s.rb 0x80004 6 then s.wf 0x80040 8 4 1
  else s.startRun

/-- A start begins. -/
def State.startGo (s : State) (a : StartArgs) : State := (s.flushEnd.fresh a).tryStart

/-- DEVICE_START (R579, R580, R693, R695). -/
def execDeviceStart (pairId : Bool) (smbA : BitVec 3) (selfTest : List Nat) (repaired : BitVec 8) (ms : BitVec 16) (s : State) :
    Host.Outcome State Fault Refusal :=
  if s.life = .live ∨ s.life = .waiting then .next s
  else fin (s.startGo { pairId, smbA, selfTest, repaired, ms })

/-- PWRWARN_RISE (R536, R697): a waiting start goes on; a device that a flush stopped, its rails good, starts again with the straps
and findings of its last start (log 25). -/
def execPwrwarnRise (s : State) : Host.Outcome State Fault Refusal :=
  let s := { s.wb 0x80004 8 false with warnLow := false, warnTiming := false }
  if s.life = .waiting then fin s.tryStart
  else if s.life = .flushed ∧ s.mainGood = true ∧ s.porstLow = false ∧ s.refclk = true then fin (s.startGo s.startArgs)
  else fin s

/-! ## VBAK -/

/-- VBAK_LOW (R531, R707). -/
def execVbakLow (mv : BitVec 12) (s : State) : Host.Outcome State Fault Refusal :=
  let s := (s.wb 0x80004 6 false).wf 0x80004 9 12 mv.toNat
  if s.life = .live then fin (s.setCond 97 true) else fin s.islandOff

/-- VBAK_GOOD (R531, R707). -/
def execVbakGood (mv : BitVec 12) (s : State) : Host.Outcome State Fault Refusal :=
  let s := (s.wb 0x80004 6 true).wf 0x80004 9 12 mv.toNat
  fin ((if s.life = .live then s.setCond 97 false else s).tryStart)

end Sys2Proof.Machine
end

