-- ==== Sys2Proof/Machine/Clock.lean ====
section
/-! DEFINITION. What a step does on an empty queue: TIME goes on (R516), and a flush in progress completes (R534). -/

namespace Sys2Proof.Machine

/-- One CORE_CLK of 0.625 ns at the RATE in force, in units of 2^-32 ns (R516, log 8). DESIGN CHOICE: this is what a step
does on an empty queue; TIME stands still while REFCLK is absent or nothing runs. A flush in progress
completes: nothing has cut it short. -/
def idleTick (s : State) : State :=
  if s.life = .live then
    { s with time := (s.time + (2684354560 + 2684354560 * s.rate / 1000000).toNat) % 2 ^ 96 }
  else s.flushEnd

end Sys2Proof.Machine
end

