-- ==== Sys2Proof/Machine/TillerCloche.lean ====
section
/-! DEFINITION. The instructions of Cloche mode (R197-R199): LEAVE, and the register bus and Seedbank accesses. RCPE stands with
the floating-point instructions. -/

namespace Sys2Proof.Machine

/-- LEAVE (R198): it waits until every other thread of the Tiller is free. -/
def bodyLeave (s : State) (x : TArg) : TRes :=
  let T := tillerOf x.t
  if (List.range 16).all fun k => decide (16 * T + k = x.t) || decide ((s.thread (16 * T + k)).bind = .free) then
    .done ((s.wb (0x600004 + 8 * (T / 8)) (8 + T % 8) false).freeThreadOf x.t)
  else .stall

/-- RBRD (R199): a register read with guarded access, stored at op. -/
def bodyRbrd (s : State) (x : TArg) : TRes :=
  s.storeOp x (natLE 4 (s.readReg .cloche (s.thread x.t).a.toNat).toNat) 4

/-- RBWR (R199): a register write with guarded access. -/
def bodyRbwr (s : State) (x : TArg) : TRes :=
  s.operand x 4 fun v => .done (s.busWrite .cloche (s.thread x.t).a.toNat (BitVec.ofNat 32 v))

/-- The Seedbank block an offset lies in (R28), for SBRD and SBWR. -/
def Thread.seedBlock (th : Thread) : Nat := th.a.toNat / 64 * 64

/-- The offset in A names no block: the spare region, or beyond the Seedbank (R28). -/
def Thread.noBlock (th : Thread) : Bool := decide (0x3800000 ≤ th.a.toNat)

/-- The 64 bytes of a block; free values where it is uncorrectable. -/
def State.blockBytes (s : State) (a : Nat) : State × Bytes :=
  if s.seedErr a 64 = 2 then
    ({ s with freeCtr := s.freeCtr + 8 }, (List.range 8).flatMap fun i => natLE 8 (Config.freeValue (s.freeCtr + i)).toNat)
  else (s, s.seed.rdN a 64)

/-- SBRD: 64 bytes at op from a Seedbank block, word by word. -/
def bodySbrd (s : State) (x : TArg) : TRes :=
  match opEa x.f (s.thread x.t) with
  | none => .trap 4 0
  | some ea => let r := s.blockBytes (s.thread x.t).seedBlock; r.1.engWrMany x ea 4 r.2 16

/-- SBWR: a Seedbank block from 64 bytes at op. -/
def bodySbwr (s : State) (x : TArg) : TRes :=
  match opEa x.f (s.thread x.t) with
  | none => .trap 4 0
  | some ea =>
    (s.engRdMany x ea 4 16).go fun b => .done (s.seedPut (s.thread x.t).seedBlock b)

/-- LEAVE's row of R175. -/
def infoLeave : TInfo := { legal := okV 0, step := false, cloche := true, unit := true, body := bodyLeave }

/-- RBRD's row of R175. -/
def infoRbrd : TInfo := { legal := okForm [] [1, 2, 3], step := false, cloche := true, unit := true, body := bodyRbrd }

/-- RBWR's row of R175. -/
def infoRbwr : TInfo := { legal := okForm [] [1, 2, 3], step := false, cloche := true, unit := true, body := bodyRbwr }

/-- SBRD's row of R175. -/
def infoSbrd : TInfo := { legal := okForm [] [1, 2, 3], step := false, cloche := true, unit := true, body := bodySbrd }

/-- SBWR's row of R175. -/
def infoSbwr : TInfo := { legal := okForm [] [1, 2, 3], step := false, cloche := true, unit := true, body := bodySbwr }

/-- LEAVE (R198). -/
def execLeave (t : Nat) (f : TForm) (s : State) : Host.Outcome State Fault Refusal := tRun (.leave t f) infoLeave t f s

/-- RBRD (R199). -/
def execRbrd (t : Nat) (f : TForm) (s : State) : Host.Outcome State Fault Refusal := tRun (.rbrd t f) infoRbrd t f s

/-- RBWR (R199). -/
def execRbwr (t : Nat) (f : TForm) (s : State) : Host.Outcome State Fault Refusal := tRun (.rbwr t f) infoRbwr t f s

/-- The instruction would reach the Seedbank with an offset that names no block. -/
def State.seedFault (s : State) (i : TInfo) (t : Nat) (f : TForm) : Bool :=
  s.canIssue t && !(s.thread t).fresh && opGuard f (s.thread t) && (i.refused f (s.thread t) false).isNone && (s.thread t).noBlock

/-- SBRD (R199). An offset that names no block faults. -/
def execSbrd (t : Nat) (f : TForm) (s : State) : Host.Outcome State Fault Refusal :=
  if s.seedFault infoSbrd t f then .fault (.noSuchBlock (s.thread t).a.toNat) else tRun (.sbrd t f) infoSbrd t f s

/-- SBWR (R199). An offset that names no block faults. -/
def execSbwr (t : Nat) (f : TForm) (s : State) : Host.Outcome State Fault Refusal :=
  if s.seedFault infoSbwr t f then .fault (.noSuchBlock (s.thread t).a.toNat) else tRun (.sbwr t f) infoSbwr t f s

end Sys2Proof.Machine
end

