-- ==== Sys2Proof/Machine/TillerFp.lean ====
section
/-! DEFINITION. The Tiller's floating-point instructions (R238-R252): their results come from Machine/Float.lean; here, FA and
memory in the format in force, the sticky flags (R241) and the FPE trap (R243). -/

namespace Sys2Proof.Machine

/-- FCPR.RM of a thread (R149). -/
def Thread.rm (h : Thread) : Nat := h.fpcr.toNat % 4

/-- FA in the format in force (R240). -/
def Thread.faVal (h : Thread) : Nat := if h.dbl then h.fa.toNat else h.fa.toNat % 2 ^ 32

/-- The flags that count for a trap: with the underflow enable set, a tiny result raises underflow even when exact (R243). -/
def Thread.raised (h : Thread) (r : FRes) : Nat :=
  if r.tiny && h.fpcr.getLsbD 7 then r.flags ||| 8 else r.flags

/-- The flags of an instruction: it traps FPE if one of them is enabled, else they are ORed into FPSR (R241, R243). -/
def fpFlags (s : State) (x : TArg) (trap flags : Nat) (k : Thread → Thread) : TRes :=
  if trap &&& (s.thread x.t).fpcr.toNat / 16 % 32 ≠ 0 then .trap 8 trap
  else x.upd s fun h => k { h with fpsr := h.fpsr ||| BitVec.ofNat 32 flags }

/-- A result goes to FA (R150). -/
def fpPut (s : State) (x : TArg) (r : FRes) : TRes :=
  fpFlags s x ((s.thread x.t).raised r) r.flags fun h => { h with fa := BitVec.ofNat 64 r.bits }

/-- FA ← FA op operand. -/
def fpBin (k : Bool → Nat → Nat → Nat → FRes) (s : State) (x : TArg) : TRes :=
  let h := s.thread x.t
  s.fpOperand x 1 fun b => fpPut s x (k h.dbl h.rm h.faVal (leNat b))

/-- FA ← a function of FA, in place (R249). -/
def fpSign (k : Bool → Nat → Nat) (s : State) (x : TArg) : TRes :=
  x.upd s fun h => { h with fa := BitVec.ofNat 64 (k h.dbl h.faVal) }

/-- FLD (R249). -/
def bodyFld (s : State) (x : TArg) : TRes := s.fpOperand x 1 fun b => x.upd s fun h => { h with fa := BitVec.ofNat 64 (leNat b) }

/-- FST (R249): FA in the format in force. -/
def bodyFst (s : State) (x : TArg) : TRes :=
  let h := s.thread x.t
  s.storeOp x (natLE h.fpBytes h.faVal) h.fpBytes

/-- FMA (R239): op × op' + FA. -/
def bodyFma (s : State) (x : TArg) : TRes :=
  let h := s.thread x.t
  s.fpOperand x 2 fun b => fpPut s x (fpFma h.dbl h.rm (leNat (b.take h.fpBytes)) (leNat (b.drop h.fpBytes)) h.faVal)

/-- FMAA (R239): A × op + FA. -/
def bodyFmaa (s : State) (x : TArg) : TRes :=
  let h := s.thread x.t
  s.fpOperand x 1 fun b => fpPut s x (fpFmaa h.dbl h.rm h.a.toInt (leNat b) h.faVal)

/-- FCMP (R250). -/
def bodyFcmp (s : State) (x : TArg) : TRes :=
  let h := s.thread x.t
  s.fpOperand x 1 fun b =>
    let r := fpCmp h.dbl h.fl h.faVal (leNat b)
    fpFlags s x r.2 r.2 fun h => { h with fl := r.1 }

/-- FCVTI (R251). -/
def bodyFcvti (s : State) (x : TArg) : TRes :=
  let h := s.thread x.t
  let r := fpToInt h.dbl h.rm h.faVal
  fpFlags s x r.2 r.2 fun h => { h with a := r.1, fl := flNZ h.fl r.1 }

/-- FLD's row (R249). -/
def infoFld : TInfo := { legal := okForm [] [1, 2, 3], body := bodyFld }

/-- FLD (R249). -/
def execFld (t : Nat) (f : TForm) (s : State) : Host.Outcome State Fault Refusal := tRun (.fld t f) infoFld t f s

/-- FST's row (R249). -/
def infoFst : TInfo := { legal := okForm [] [1, 2, 3], wr := true, body := bodyFst }

/-- FST (R249). -/
def execFst (t : Nat) (f : TForm) (s : State) : Host.Outcome State Fault Refusal := tRun (.fst t f) infoFst t f s

/-- FADD's row (R238). -/
def infoFadd : TInfo := { legal := okForm [] [1, 2, 3], cyc := 4, body := fpBin fun d rm a b => fpAdd d rm a b false }

/-- FADD (R238). -/
def execFadd (t : Nat) (f : TForm) (s : State) : Host.Outcome State Fault Refusal := tRun (.fadd t f) infoFadd t f s

/-- FSUB's row (R238). -/
def infoFsub : TInfo := { legal := okForm [] [1, 2, 3], cyc := 4, body := fpBin fun d rm a b => fpAdd d rm a b true }

/-- FSUB (R238). -/
def execFsub (t : Nat) (f : TForm) (s : State) : Host.Outcome State Fault Refusal := tRun (.fsub t f) infoFsub t f s

/-- FMUL's row (R238). -/
def infoFmul : TInfo := { legal := okForm [] [1, 2, 3], cyc := 4, body := fpBin fpMul }

/-- FMUL (R238). -/
def execFmul (t : Nat) (f : TForm) (s : State) : Host.Outcome State Fault Refusal := tRun (.fmul t f) infoFmul t f s

/-- FDIV's row (R238). -/
def infoFdiv : TInfo := { legal := okForm [] [1, 2, 3], step := false, body := fpBin fpDiv }

/-- FDIV (R238). -/
def execFdiv (t : Nat) (f : TForm) (s : State) : Host.Outcome State Fault Refusal := tRun (.fdiv t f) infoFdiv t f s

/-- FMA's row (R239). -/
def infoFma : TInfo := { legal := okForm [] [1, 2, 3], cyc := 4, body := bodyFma }

/-- FMA (R239). -/
def execFma (t : Nat) (f : TForm) (s : State) : Host.Outcome State Fault Refusal := tRun (.fma t f) infoFma t f s

/-- FMAA's row (R239). -/
def infoFmaa : TInfo := { legal := okForm [] [1, 2, 3], cyc := 4, body := bodyFmaa }

/-- FMAA (R239). -/
def execFmaa (t : Nat) (f : TForm) (s : State) : Host.Outcome State Fault Refusal := tRun (.fmaa t f) infoFmaa t f s

/-- FCMP's row (R250). -/
def infoFcmp : TInfo := { legal := okForm [] [1, 2, 3], cyc := 2, body := bodyFcmp }

/-- FCMP (R250). -/
def execFcmp (t : Nat) (f : TForm) (s : State) : Host.Outcome State Fault Refusal := tRun (.fcmp t f) infoFcmp t f s

/-- FSQRT's row (R238). -/
def infoFsqrt : TInfo := { legal := okV 0, step := false, body := fun s x => let h := s.thread x.t; fpPut s x (fpSqrt h.dbl h.rm h.faVal) }

/-- FSQRT (R238). -/
def execFsqrt (t : Nat) (f : TForm) (s : State) : Host.Outcome State Fault Refusal := tRun (.fsqrt t f) infoFsqrt t f s

/-- FCVTI's row (R251). -/
def infoFcvti : TInfo := { legal := okV 0, cyc := 2, body := bodyFcvti }

/-- FCVTI (R251). -/
def execFcvti (t : Nat) (f : TForm) (s : State) : Host.Outcome State Fault Refusal := tRun (.fcvti t f) infoFcvti t f s

/-- FCVTF's row (R252). -/
def infoFcvtf : TInfo := { legal := okV 0, cyc := 2, body := fun s x => let h := s.thread x.t; fpPut s x (fpOfInt h.dbl h.rm h.a.toInt) }

/-- FCVTF (R252). -/
def execFcvtf (t : Nat) (f : TForm) (s : State) : Host.Outcome State Fault Refusal := tRun (.fcvtf t f) infoFcvtf t f s

/-- FNEG's row (R249). -/
def infoFneg : TInfo := { legal := okV 0, body := fpSign fun d v => withSign d (!fpNeg d v) (fpMag d v) }

/-- FNEG (R249). -/
def execFneg (t : Nat) (f : TForm) (s : State) : Host.Outcome State Fault Refusal := tRun (.fneg t f) infoFneg t f s

/-- FABS's row (R249). -/
def infoFabs : TInfo := { legal := okV 0, body := fpSign fun d v => fpMag d v }

/-- FABS (R249). -/
def execFabs (t : Nat) (f : TForm) (s : State) : Host.Outcome State Fault Refusal := tRun (.fabs t f) infoFabs t f s

/-- RCPE's row (R199, R237). -/
def infoRcpe : TInfo := { legal := okForm [] [1, 2, 3], step := false, cloche := true, body := fun s x => let h := s.thread x.t; s.fpOperand x 1 fun b => x.upd s fun k => { k with fa := BitVec.ofNat 64 (fpRcp h.dbl (leNat b)) } }

/-- RCPE (R199, R237). -/
def execRcpe (t : Nat) (f : TForm) (s : State) : Host.Outcome State Fault Refusal := tRun (.rcpe t f) infoRcpe t f s

end Sys2Proof.Machine
end

