-- ==== Sys2Proof/Machine/TillerMul.lean ====
section
/-! DEFINITION. The multiplier and step division (R225-R236): a product is in flight until PRODUCT_READY shows it in MH and ML. -/

namespace Sys2Proof.Machine

/-! ## Multiplication -/

/-- The significant length of a multiplier (R226). -/
def sigLen (signed : Bool) (b : Word) : Nat :=
  if signed then ((List.range 32).find? fun i => b.sshiftRight i = if b.msb then -1 else 0).elim 32 fun i => i + 1
  else ((List.range 33).find? fun k => decide (b.toNat < 2 ^ k)).getD 32

/-- The latency L of a multiplication (R226). -/
def mulLat (signed : Bool) (b : Word) : Nat := 1 + (sigLen signed b + 3) / 4

/-- A multiplication begins (R225-R227): it ends a division in progress (R234). -/
def mulOp (signed : Bool) (k : Word → Word → BitVec 64) (s : State) (x : TArg) : TRes :=
  s.operand x 4 fun v => x.upd s fun h =>
    let b := BitVec.ofNat 32 v
    { h with product := some (k h.a b), lat := mulLat signed b, mrdy := false, div := none }

/-- The unsigned product (R225). -/
def mulU (a b : Word) : BitVec 64 := a.setWidth 64 * b.setWidth 64

/-- The two's-complement product (R225). -/
def mulS (a b : Word) : BitVec 64 := a.signExtend 64 * b.signExtend 64

/-- MUL's row (R225). -/
def infoMul : TInfo := { legal := okForm [.d8] [0, 1, 2, 3], mul := true, body := mulOp false mulU }

/-- MUL (R225). -/
def execMul (t : Nat) (f : TForm) (s : State) : Host.Outcome State Fault Refusal := tRun (.mul t f) infoMul t f s

/-- MULS's row (R225). -/
def infoMuls : TInfo := { legal := okForm [.d8] [0, 1, 2, 3], mul := true, body := mulOp true mulS }

/-- MULS (R225). -/
def execMuls (t : Nat) (f : TForm) (s : State) : Host.Outcome State Fault Refusal := tRun (.muls t f) infoMuls t f s

/-- PRODUCT_READY (R227): the product appears in MH:ML and MRDY reads 1. -/
def execProductReady (t : Nat) (s : State) : Host.Outcome State Fault Refusal :=
  match (s.thread t).product with
  | some p =>
    if s.running && decide (t < 1024) then
      .next (s.modThread t fun h => { h with mh := (p >>> 32).setWidth 32, ml := p.setWidth 32, mrdy := true, product := none })
    else .next s
  | none => .next s

/-! ## Division -/

/-- The magnitude of a dividend or divisor (R231). -/
def magnitude (signed : Bool) (a : Word) : Word := if signed && a.msb then -a else a

/-- DSETUP and DSETUPS (R231). -/
def divSetup (signed : Bool) (s : State) (x : TArg) : TRes :=
  s.operand x 4 fun v => x.upd s fun h =>
    let b := BitVec.ofNat 32 v
    { h with
      mh := 0, ml := magnitude signed h.a, fl := setFl h.fl 4 (b == 0),
      div := some { divisor := magnitude signed b, signed, negDividend := signed && h.a.msb, negDivisor := signed && b.msb } }

/-- The 32nd step finishes the division (R233). -/
def Thread.divEnd (h : Thread) (d : Division) : Thread :=
  let neg := d.negDividend != d.negDivisor
  let q := if d.signed && neg then -h.ml else h.ml
  let r := if d.signed && d.negDividend then -h.mh else h.mh
  let v := d.signed && !neg && (q == 0x80000000)
  { h with ml := q, mh := r, fl := setFl (flNZ h.fl q) 3 v, div := none }

/-- One DSTEP (R232); with no division in progress it changes nothing (R235). -/
def divStep (h : Thread) : Thread :=
  match h.div with
  | none => h
  | some d =>
    let mh := h.mh <<< 1 ||| (h.ml >>> 31)
    let ml := h.ml <<< 1
    let one := h.mh.msb || decide (d.divisor.toNat ≤ mh.toNat)
    let h := { h with
      mh := if one then mh - d.divisor else mh, ml := if one then ml ||| 1 else ml, fl := setFl h.fl 0 one,
      div := some { d with count := d.count + 1 } }
    if d.count + 1 = 32 then h.divEnd d else h

/-- DSETUP's row (R231). -/
def infoDsetup : TInfo := { legal := okForm [] [0, 1, 2, 3], mul := true, body := divSetup false }

/-- DSETUP (R231). -/
def execDsetup (t : Nat) (f : TForm) (s : State) : Host.Outcome State Fault Refusal := tRun (.dsetup t f) infoDsetup t f s

/-- DSETUPS's row (R231). -/
def infoDsetups : TInfo := { legal := okForm [] [0, 1, 2, 3], mul := true, body := divSetup true }

/-- DSETUPS (R231). -/
def execDsetups (t : Nat) (f : TForm) (s : State) : Host.Outcome State Fault Refusal := tRun (.dsetups t f) infoDsetups t f s

/-- DSTEP's row (R232, R235). -/
def infoDstep : TInfo := { legal := okForm [.zero] [], mul := true, body := fun s x => x.upd s divStep }

/-- DSTEP (R232, R235). -/
def execDstep (t : Nat) (f : TForm) (s : State) : Host.Outcome State Fault Refusal := tRun (.dstep t f) infoDstep t f s

end Sys2Proof.Machine
end

