-- ==== Sys2Proof/Machine/TillerRun.lean ====
section
/-! DEFINITION. The opcode tables of the Tiller (R168-R170, R174, R175), undefined opcodes (R176), decode-table instructions
(R200-R204), and the return of a window load (R165). -/

namespace Sys2Proof.Machine

/-! ## The opcode tables -/

/-- The row of a Tiller instruction, its thread and its form; none: the command is no Tiller instruction. -/
def insnOf : Instr → Option (TInfo × Nat × TForm)
  | .nop t f => some (infoNop, t, f)
  | .mov t f => some (infoMov, t, f)
  | .lda t f => some (infoLda, t, f)
  | .ldah t f => some (infoLdah, t, f)
  | .ldb t f => some (infoLdb, t, f)
  | .ldh t f => some (infoLdh, t, f)
  | .sta t f => some (infoSta, t, f)
  | .stb t f => some (infoStb, t, f)
  | .sth t f => some (infoSth, t, f)
  | .ldx t f => some (infoLdx, t, f)
  | .ldy t f => some (infoLdy, t, f)
  | .stx t f => some (infoStx, t, f)
  | .sty t f => some (infoSty, t, f)
  | .xchg t f => some (infoXchg, t, f)
  | .add t f => some (infoAdd, t, f)
  | .adc t f => some (infoAdc, t, f)
  | .sub t f => some (infoSub, t, f)
  | .sbc t f => some (infoSbc, t, f)
  | .cmp t f => some (infoCmp, t, f)
  | .and t f => some (infoAnd, t, f)
  | .or t f => some (infoOr, t, f)
  | .xor t f => some (infoXor, t, f)
  | .bit t f => some (infoBit, t, f)
  | .cpx t f => some (infoCpx, t, f)
  | .cpy t f => some (infoCpy, t, f)
  | .shl t f => some (infoShl, t, f)
  | .shr t f => some (infoShr, t, f)
  | .sar t f => some (infoSar, t, f)
  | .rol t f => some (infoRol, t, f)
  | .ror t f => some (infoRor, t, f)
  | .adx t f => some (infoAdx, t, f)
  | .ady t f => some (infoAdy, t, f)
  | .pset t f => some (infoPset, t, f)
  | .plogAnd t f => some (infoPlogAnd, t, f)
  | .plogOr t f => some (infoPlogOr, t, f)
  | .plogXor t f => some (infoPlogXor, t, f)
  | .plogAndNot t f => some (infoPlogAndNot, t, f)
  | .bra t f => some (infoBra, t, f)
  | .dbnz t f => some (infoDbnz, t, f)
  | .jmp t f => some (infoJmp, t, f)
  | .call t f => some (infoCall, t, f)
  | .calla t f => some (infoCalla, t, f)
  | .ret t f => some (infoRet, t, f)
  | .wait t f => some (infoWait, t, f)
  | .ldbk t f => some (infoLdbk, t, f)
  | .unaNeg t f => some (infoUnaNeg, t, f)
  | .unaNot t f => some (infoUnaNot, t, f)
  | .unaInc t f => some (infoUnaInc, t, f)
  | .unaDec t f => some (infoUnaDec, t, f)
  | .unaSxb t f => some (infoUnaSxb, t, f)
  | .unaSxh t f => some (infoUnaSxh, t, f)
  | .unaZxb t f => some (infoUnaZxb, t, f)
  | .unaZxh t f => some (infoUnaZxh, t, f)
  | .fence t f => some (infoFence, t, f)
  | .trap t f => some (infoTrap, t, f)
  | .rte t f => some (infoRte, t, f)
  | .xcall t f => some (infoXcall, t, f)
  | .xret t f => some (infoXret, t, f)
  | .mul t f => some (infoMul, t, f)
  | .muls t f => some (infoMuls, t, f)
  | .dsetup t f => some (infoDsetup, t, f)
  | .dsetups t f => some (infoDsetups, t, f)
  | .dstep t f => some (infoDstep, t, f)
  | .next t f => some (infoNext, t, f)
  | .fmark t f => some (infoFmark, t, f)
  | .frewind t f => some (infoFrewind, t, f)
  | .rel t f => some (infoRel, t, f)
  | .fld t f => some (infoFld, t, f)
  | .fst t f => some (infoFst, t, f)
  | .fadd t f => some (infoFadd, t, f)
  | .fsub t f => some (infoFsub, t, f)
  | .fmul t f => some (infoFmul, t, f)
  | .fdiv t f => some (infoFdiv, t, f)
  | .fma t f => some (infoFma, t, f)
  | .fmaa t f => some (infoFmaa, t, f)
  | .fcmp t f => some (infoFcmp, t, f)
  | .fsqrt t f => some (infoFsqrt, t, f)
  | .fcvti t f => some (infoFcvti, t, f)
  | .fcvtf t f => some (infoFcvtf, t, f)
  | .fneg t f => some (infoFneg, t, f)
  | .fabs t f => some (infoFabs, t, f)
  | .dispCopy t f => some (infoDispCopy, t, f)
  | .dispFill t f => some (infoDispFill, t, f)
  | .dispGather t f => some (infoDispGather, t, f)
  | .dispScatter t f => some (infoDispScatter, t, f)
  | .dispDiscard t f => some (infoDispDiscard, t, f)
  | .send t f => some (infoSend, t, f)
  | .tmr t f => some (infoTmr, t, f)
  | .eos t f => some (infoEos, t, f)
  | .parkEnd t f => some (infoParkEnd, t, f)
  | .parkSuspend t f => some (infoParkSuspend, t, f)
  | .rcpe t f => some (infoRcpe, t, f)
  | .leave t f => some (infoLeave, t, f)
  | .rbrd t f => some (infoRbrd, t, f)
  | .rbwr t f => some (infoRbwr, t, f)
  | .sbrd t f => some (infoSbrd, t, f)
  | .sbwr t f => some (infoSbwr, t, f)
  | _ => none

/-- The operand kind of a short opcode (R174); an undefined one has none. -/
def sopKind (sop : Nat) : SKind :=
  match sop with
  | 1 => .r
  | 2 => .i8
  | 3 => .d8
  | 4 => .d8
  | 5 => .i8
  | 6 => .d8
  | 7 => .i8
  | 8 => .d8
  | 9 => .i8
  | 10 => .d8
  | 11 => .d8
  | 12 => .d8
  | 13 => .d8
  | 14 => .i8
  | 15 => .i8
  | 16 => .i8
  | 17 => .i8
  | 18 => .s8
  | 19 => .s8
  | 20 => .d8
  | 21 => .d8
  | 22 => .d8
  | 23 => .d8
  | 24 => .d8
  | 25 => .d8
  | 26 => .pc
  | 27 => .b8
  | 28 => .b8
  | 29 => .m8
  | 30 => .e8
  | 31 => .i8
  | 32 => .i8
  | 34 => .i8
  | 37 => .d8
  | 38 => .d8
  | _ => .zero

/-- UNA by its OPD (R174). -/
def unaInsn (opd t : Nat) (f : TForm) : Instr :=
  match opd with
  | 1 => .unaNot t f | 2 => .unaInc t f | 3 => .unaDec t f | 4 => .unaSxb t f | 5 => .unaSxh t f
  | 6 => .unaZxb t f | 7 => .unaZxh t f | _ => .unaNeg t f

/-- PLOG by V[13:12] (R175). -/
def plogInsn (v t : Nat) (f : TForm) : Instr :=
  match v / 4096 % 4 with
  | 0 => .plogAnd t f | 1 => .plogOr t f | 2 => .plogXor t f | _ => .plogAndNot t f

/-- A short opcode (R174); none: undefined. -/
def shortInsn (sop opd t : Nat) (f : TForm) : Option Instr :=
  match sop with
  | 0 => some (.nop t f)
  | 1 => some (.mov t f)
  | 2 => some (.lda t f)
  | 3 => some (.lda t f)
  | 4 => some (.sta t f)
  | 5 => some (.add t f)
  | 6 => some (.add t f)
  | 7 => some (.sub t f)
  | 8 => some (.sub t f)
  | 9 => some (.cmp t f)
  | 10 => some (.cmp t f)
  | 11 => some (.and t f)
  | 12 => some (.or t f)
  | 13 => some (.xor t f)
  | 14 => some (.shl t f)
  | 15 => some (.shr t f)
  | 16 => some (.sar t f)
  | 17 => some (.rol t f)
  | 18 => some (.adx t f)
  | 19 => some (.ady t f)
  | 20 => some (.ldx t f)
  | 21 => some (.ldy t f)
  | 22 => some (.stx t f)
  | 23 => some (.sty t f)
  | 24 => some (.cpx t f)
  | 25 => some (.cpy t f)
  | 26 => some (.pset t f)
  | 27 => some (.bra t f)
  | 28 => some (.dbnz t f)
  | 29 => some (.ret t f)
  | 30 => some (.wait t f)
  | 31 => some (.ldbk t f)
  | 32 => some (unaInsn opd t f)
  | 33 => some (.fence t f)
  | 34 => some (.trap t f)
  | 35 => some (.rte t f)
  | 36 => some (.xret t f)
  | 37 => some (.mul t f)
  | 38 => some (.muls t f)
  | 39 => some (.dstep t f)
  | 40 => some (.next t f)
  | 41 => some (.fmark t f)
  | 42 => some (.frewind t f)
  | 43 => some (.rel t f)
  | _ => none

/-- A long opcode below 0xE0 (R175); none: undefined. A DISP stands for each of its operations, which its record names. -/
def longInsn (lop v t : Nat) (f : TForm) : Option Instr :=
  match lop with
  | 0x0 => some (.lda t f)
  | 0x1 => some (.ldah t f)
  | 0x2 => some (.ldb t f)
  | 0x3 => some (.ldh t f)
  | 0x4 => some (.sta t f)
  | 0x5 => some (.stb t f)
  | 0x6 => some (.sth t f)
  | 0x7 => some (.ldx t f)
  | 0x8 => some (.ldy t f)
  | 0x9 => some (.stx t f)
  | 0xA => some (.sty t f)
  | 0xB => some (.xchg t f)
  | 0x10 => some (.add t f)
  | 0x11 => some (.adc t f)
  | 0x12 => some (.sub t f)
  | 0x13 => some (.sbc t f)
  | 0x14 => some (.cmp t f)
  | 0x15 => some (.and t f)
  | 0x16 => some (.or t f)
  | 0x17 => some (.xor t f)
  | 0x18 => some (.bit t f)
  | 0x19 => some (.cpx t f)
  | 0x1A => some (.cpy t f)
  | 0x20 => some (.shl t f)
  | 0x21 => some (.shr t f)
  | 0x22 => some (.sar t f)
  | 0x23 => some (.rol t f)
  | 0x24 => some (.ror t f)
  | 0x28 => some (.mul t f)
  | 0x29 => some (.muls t f)
  | 0x2A => some (.dsetup t f)
  | 0x2B => some (.dsetups t f)
  | 0x30 => some (.fld t f)
  | 0x31 => some (.fst t f)
  | 0x32 => some (.fadd t f)
  | 0x33 => some (.fsub t f)
  | 0x34 => some (.fmul t f)
  | 0x35 => some (.fdiv t f)
  | 0x36 => some (.fma t f)
  | 0x37 => some (.fmaa t f)
  | 0x38 => some (.fcmp t f)
  | 0x39 => some (.fsqrt t f)
  | 0x3A => some (.fcvti t f)
  | 0x3B => some (.fcvtf t f)
  | 0x3C => some (.fneg t f)
  | 0x3D => some (.fabs t f)
  | 0x40 => some (.jmp t f)
  | 0x41 => some (.call t f)
  | 0x42 => some (.calla t f)
  | 0x43 => some (.xcall t f)
  | 0x44 => some (plogInsn v t f)
  | 0x48 => some (.dispCopy t f)
  | 0x49 => some (.send t f)
  | 0x4A => some (.tmr t f)
  | 0x4B => some (.eos t f)
  | 0x4C => some (if v = 1 then .parkSuspend t f else .parkEnd t f)
  | 0x60 => some (.rcpe t f)
  | 0x61 => some (.leave t f)
  | 0x62 => some (.rbrd t f)
  | 0x63 => some (.rbwr t f)
  | 0x64 => some (.sbrd t f)
  | 0x65 => some (.sbwr t f)
  | _ => none

/-- The form of an instruction's halfwords (R168-R170). -/
def formOf (w0 w1 : Nat) : TForm :=
  if bits w0 14 2 = 3 then .long (bitOn w0 5) (BitVec.ofNat 3 (bits w0 2 3)) (BitVec.ofNat 2 w0) (BitVec.ofNat 16 w1)
  else .short (BitVec.ofNat 2 (bits w0 8 2)) (sopKind (bits w0 10 6)) (BitVec.ofNat 8 w0)

/-- The instruction of an opcode with a form; none: undefined, or a decode-table instruction. -/
def opInsn (w0 : Nat) (f : TForm) (t : Nat) : Option Instr :=
  match f with
  | .long _ _ _ v => longInsn (bits w0 6 8) v.toNat t f
  | .short _ _ o => shortInsn (bits w0 10 6) o.toNat t f

/-- The long opcodes 0xE0-0xFF: decode-table instructions. -/
def isTableOp (w0 : Nat) : Bool := decide (bits w0 14 2 = 3) && decide (0xE0 ≤ bits w0 6 8)

/-! ## Undefined opcodes -/

/-- UNDEFINED_OPCODE (R176, R199): a guarded-off one passes (R171); one that is refused traps ILLEGAL. Words that a thread may run
leave everything as it is. -/
def execUndefinedOpcode (t : Nat) (w0 w1 : BitVec 16) (s : State) : Host.Outcome State Fault Refusal :=
  let f := formOf w0.toNat w1.toNat
  if !s.canIssue t || isTableOp w0.toNat then .next s
  else
    let s1 := s.firstIssue t
    let th := s1.thread t
    if !s1.canIssue t then fin s1 else
    let why := match (opInsn w0.toNat f t).bind insnOf with
      | some (i, _, _) => i.refused f th false
      | none => some 0
    match why with
    | none => .next s
    | some n => if opGuard f th then fin (s1.doTrap t 4 n (opSize f) 0) else .next (s1.pcPast t (opSize f))

/-! ## Decode-table instructions -/

/-- SUBST (R201): the invoking instruction's mode, and V added to its V. -/
def substForm (inv f : TForm) : TForm :=
  match inv, f with
  | .long _ _ m v, .long sn pg _ w => .long sn pg m (v + w)
  | _, _ => f

/-- A product in flight becomes visible (R227). -/
def State.productNow (s : State) (t : Nat) : State :=
  match (s.thread t).product with
  | some p => s.modThread t fun h => { h with mh := (p >>> 32).setWidth 32, ml := p.setWidth 32, mrdy := true, product := none }
  | none => s

/-- The cycles that reading a memory operand adds (R167). -/
def readCycles (i : TInfo) (f : TForm) (th : Thread) : Nat :=
  match opEa f th with
  | none => 0
  | some ea =>
    let bank := ea / 65536 % 256
    if i.wr then 0 else if bank = 0 then 1 else if bank < 0x10 then 3 else 4

/-- What a step comes to: done, in a number of cycles, a multiplication begun or none; a trap; a stall of the whole sequence; or a codeword that is not delivered
(R22), which leaves the thread where it is. -/
inductive StepRes where
  | done (s : State) (cycles : Nat) (began : Bool)
  | trap (s : State) (cause info : Nat)
  | stall
  | lost (s : State)

/-- One step (R201, R203): `w0`, `w1` its INSN, `inv` the invoking instruction's form. -/
def State.tableStep (s : State) (t : Nat) (inv : TForm) (w0 w1 : Nat) (subst : Bool) : StepRes :=
  let f := formOf w0 w1
  let f := if subst then substForm inv f else f
  if !opGuard f (s.thread t) then .done s 1 false
  else if isTableOp w0 then .trap s 4 2
  else match (opInsn w0 f t).bind insnOf with
    | none => .trap s 4 0
    | some (i, _, _) =>
      match i.refused f (s.thread t) true with
      | some n => .trap s 4 n
      | none =>
        let s := if i.mul then s.productNow t else s
        let x : TArg := { t, f, step := true }
        match i.body s x with
        | .done s' => .done (s.noted s' x (i.ea? f (s.thread t))) (i.cyc + readCycles i f (s.thread t))
          (i.mul && (s'.thread t).product.isSome)
        | .trap c n => .trap (s.badPkt t c n) c n
        | .trapAt s c n => .trap s c n
        | .hold _ => .trap s 4 2
        | .stall => .stall
        | .lost r k => .lost (s.metErr r k 2)

/-- The cycles until a product in flight becomes visible, `n` cycles on; a multiplication that has just begun counts from its own operand
(R227). -/
def Thread.productLeft (h : Thread) (began : Bool) (left n : Nat) : Nat := if began then h.lat - 1 else left - n

/-- The steps of entry `e` from step `k` on (R200, R202, R204): at most `n` more. `pc`: the instruction's own address; `left`: the cycles
until a product in flight becomes visible. -/
def State.tableGo (t e : Nat) (inv : TForm) (pc : BitVec 16) : Nat → Nat → Nat → State → Option State
  | 0, _, _, s => some s
  | n + 1, k, left, s =>
    let s := if left = 0 then s.productNow t else s
    let a := tillerOf t * 0x40000 + 0x10000 + 512 * e + 8 * k
    let w := s.cwWorst .tiller (a / 64) (a / 64)
    let s := s.metErr .tiller (a / 64) w
    let c := s.tmem.le (a + 4) 1
    let back := fun s : State => s.modThread t fun h => { h with pc }
    if w = 2 then some (back s)
    else match s.tableStep t inv (s.tmem.le a 2) (s.tmem.le (a + 2) 2) (bitOn c 1) with
      | .done s' cyc began =>
        let left := (s'.thread t).productLeft began left cyc
        if bitOn c 0 then some (if left = 0 then s'.productNow t else s') else State.tableGo t e inv pc n (k + 1) left s'
      | .trap s cause info => some ((back s).doTrap t cause info 4 k)
      | .stall => none
      | .lost s => some (back s)

/-- DECODE_TABLE_INSN (R171, R200-R204): one step of the block, since no other thread of the Tiller issues (R202). A sequence that
would stall for a dirty context (R157) has not begun. DESIGN CHOICE (log 83): a product in flight as the sequence begins is taken as one
whose multiplication was the instruction before. -/
def execDecodeTableInsn (t e : Nat) (f : TForm) (s : State) : Host.Outcome State Fault Refusal :=
  match f with
  | .short .. => .next s
  | .long .. =>
    if !s.canIssue t || decide (32 ≤ e) then .next s
    else
      let s1 := s.firstIssue t
      let th := s1.thread t
      if !s1.canIssue t then fin s1
      else if !opGuard f th then .next (s1.pcPast t 4)
      else match State.tableGo t e f th.pc 64 0 (th.lat - 1) (s1.pcPast t 4) with
        | some s => fin s
        | none => .next s

/-! ## Window loads -/

/-- What a window load brings (R162, R164): the host's completion, buffer memory, or what its exchange with a node brought; none: it
fails. -/
def State.winBrings (s : State) (w : WinLoad) (data : Bytes) (ok : Bool) : State × Option Bytes :=
  if w.space = 0 then (let i := s.hostIn (if ok then .ok else .ca); (i.1, if i.2 = .ok then some data else none))
  else if w.space = 1 then
    let e := s.cwWorst .buffer (w.addr / 64) ((w.addr + w.len - 1) / 64)
    (s.metErr .buffer (w.addr / 64) e, if e = 2 then none else some (s.buf.rdN w.addr w.len))
  else (s, if w.bad then none else some w.got)

/-- WINDOW_DATA_RETURN (R164, R165): the instruction completes with what its load brings, or traps WINDOW. What a load of buffer memory
or of a node brings, the block holds; a node's load ends once its exchange has ended. -/
def execWindowDataReturn (t : Nat) (data : Bytes) (ok : Bool) (s : State) : Host.Outcome State Fault Refusal :=
  match (s.thread t).win, (s.thread t).load.bind insnOf with
  | some w, some (i, _, f) =>
    if !s.running || w.op.isSome then .next s
    else
      let ins := (s.thread t).load.getD (.nop t f)
      let s := if w.space = 0 then s.readOver (.window t) else s
      let r := s.winBrings w data ok
      match r.2 with
      | some b =>
        tRun ins i t f (r.1.modThread t fun h => { h with load := none, win := none, winGot := h.winGot ++ [(w.ea, b)] })
      | none =>
        fin ((r.1.modThread t fun h => { h with load := none, win := none, winGot := [] }).doTrap t 9 w.ea (opSize f) 0)
  | _, _ => .next s

end Sys2Proof.Machine
end

