-- ==== Sys2Proof/Machine/Dispatch.lean ====
section
/-! DEFINITION. Every command and its meaning. -/

namespace Sys2Proof.Machine

/-- The effect of a command on everything but the queue. -/
def exec (i : Instr) (s : State) : Host.Outcome State Fault Refusal :=
  match i with
  | .deviceStart pairId smbA selfTest repaired ms => Sys2Proof.Machine.execDeviceStart pairId smbA selfTest repaired ms s
  | .porstAssert ns => Sys2Proof.Machine.execPorstAssert ns s
  | .refclkLoss => Sys2Proof.Machine.execRefclkLoss s
  | .pwrwarnFall => Sys2Proof.Machine.execPwrwarnFall s
  | .pwrwarnFilterExpiry => Sys2Proof.Machine.execPwrwarnFilterExpiry s
  | .mainRailFail rail => Sys2Proof.Machine.execMainRailFail rail s
  | .vddSbFail => Sys2Proof.Machine.execVddSbFail s
  | .backupRegulatorOff => Sys2Proof.Machine.execBackupRegulatorOff s
  | .vbakLow mv => Sys2Proof.Machine.execVbakLow mv s
  | .patrolScrub r idx intervened => Sys2Proof.Machine.execPatrolScrub r idx intervened s
  | .doorbell fn q off len v => Sys2Proof.Machine.execDoorbell fn q off len v s
  | .pollRead q => Sys2Proof.Machine.execPollRead q s
  | .entryReadDone q e => Sys2Proof.Machine.execEntryReadDone q e s
  | .entryReadError q err => Sys2Proof.Machine.execEntryReadError q err s
  | .entryRereadTimer q => Sys2Proof.Machine.execEntryRereadTimer q s
  | .dbLagReread q => Sys2Proof.Machine.execDbLagReread q s
  | .sqStart q => Sys2Proof.Machine.execSqStart q s
  | .sqHalt q => Sys2Proof.Machine.execSqHalt q s
  | .sqClear q => Sys2Proof.Machine.execSqClear q s
  | .sqResume q => Sys2Proof.Machine.execSqResume q s
  | .sqRelease q => Sys2Proof.Machine.execSqRelease q s
  | .sqModify q => Sys2Proof.Machine.execSqModify q s
  | .sqReservedOpcode q => Sys2Proof.Machine.execSqReservedOpcode q s
  | .queueEnable who q v => Sys2Proof.Machine.execQueueEnable who q v s
  | .queueDisable who q v => Sys2Proof.Machine.execQueueDisable who q v s
  | .queueDisableDone q => Sys2Proof.Machine.execQueueDisableDone q s
  | .heldStatusPost q => Sys2Proof.Machine.execHeldStatusPost q s
  | .contextWriteBackDone sc => Sys2Proof.Machine.execContextWriteBackDone sc s
  | .contextLoadDone sc => Sys2Proof.Machine.execContextLoadDone sc s
  | .threadBind sc => Sys2Proof.Machine.execThreadBind sc s
  | .migrationEpochEnd busy => Sys2Proof.Machine.execMigrationEpochEnd busy s
  | .teDrain who g v => Sys2Proof.Machine.execTeDrain who g v s
  | .wordFetchDone sc w err => Sys2Proof.Machine.execWordFetchDone sc w err s
  | .cwWrite sc => Sys2Proof.Machine.execCwWrite sc s
  | .cwRead sc => Sys2Proof.Machine.execCwRead sc s
  | .cwControl sc => Sys2Proof.Machine.execCwControl sc s
  | .cwSense sc => Sys2Proof.Machine.execCwSense sc s
  | .cwNop sc => Sys2Proof.Machine.execCwNop sc s
  | .cwBranch sc => Sys2Proof.Machine.execCwBranch sc s
  | .cwReserve sc => Sys2Proof.Machine.execCwReserve sc s
  | .cwRelease sc => Sys2Proof.Machine.execCwRelease sc s
  | .cwWaitPace sc => Sys2Proof.Machine.execCwWaitPace sc s
  | .cwMark sc => Sys2Proof.Machine.execCwMark sc s
  | .cwEndGroup sc => Sys2Proof.Machine.execCwEndGroup sc s
  | .cwNodeSpecific sc => Sys2Proof.Machine.execCwNodeSpecific sc s
  | .suspendRereadDone sc flags err => Sys2Proof.Machine.execSuspendRereadDone sc flags err s
  | .haltTimeout sc => Sys2Proof.Machine.execHaltTimeout sc s
  | .paceTimeout sc => Sys2Proof.Machine.execPaceTimeout sc s
  | .paceTimerExpiry sc => Sys2Proof.Machine.execPaceTimerExpiry sc s
  | .nop t f => Sys2Proof.Machine.execNop t f s
  | .mov t f => Sys2Proof.Machine.execMov t f s
  | .lda t f => Sys2Proof.Machine.execLda t f s
  | .ldah t f => Sys2Proof.Machine.execLdah t f s
  | .ldb t f => Sys2Proof.Machine.execLdb t f s
  | .ldh t f => Sys2Proof.Machine.execLdh t f s
  | .sta t f => Sys2Proof.Machine.execSta t f s
  | .stb t f => Sys2Proof.Machine.execStb t f s
  | .sth t f => Sys2Proof.Machine.execSth t f s
  | .ldx t f => Sys2Proof.Machine.execLdx t f s
  | .ldy t f => Sys2Proof.Machine.execLdy t f s
  | .stx t f => Sys2Proof.Machine.execStx t f s
  | .sty t f => Sys2Proof.Machine.execSty t f s
  | .xchg t f => Sys2Proof.Machine.execXchg t f s
  | .add t f => Sys2Proof.Machine.execAdd t f s
  | .adc t f => Sys2Proof.Machine.execAdc t f s
  | .sub t f => Sys2Proof.Machine.execSub t f s
  | .sbc t f => Sys2Proof.Machine.execSbc t f s
  | .cmp t f => Sys2Proof.Machine.execCmp t f s
  | .and t f => Sys2Proof.Machine.execAnd t f s
  | .or t f => Sys2Proof.Machine.execOr t f s
  | .xor t f => Sys2Proof.Machine.execXor t f s
  | .bit t f => Sys2Proof.Machine.execBit t f s
  | .cpx t f => Sys2Proof.Machine.execCpx t f s
  | .cpy t f => Sys2Proof.Machine.execCpy t f s
  | .shl t f => Sys2Proof.Machine.execShl t f s
  | .shr t f => Sys2Proof.Machine.execShr t f s
  | .sar t f => Sys2Proof.Machine.execSar t f s
  | .rol t f => Sys2Proof.Machine.execRol t f s
  | .ror t f => Sys2Proof.Machine.execRor t f s
  | .adx t f => Sys2Proof.Machine.execAdx t f s
  | .ady t f => Sys2Proof.Machine.execAdy t f s
  | .pset t f => Sys2Proof.Machine.execPset t f s
  | .plogAnd t f => Sys2Proof.Machine.execPlogAnd t f s
  | .plogOr t f => Sys2Proof.Machine.execPlogOr t f s
  | .plogXor t f => Sys2Proof.Machine.execPlogXor t f s
  | .plogAndNot t f => Sys2Proof.Machine.execPlogAndNot t f s
  | .bra t f => Sys2Proof.Machine.execBra t f s
  | .dbnz t f => Sys2Proof.Machine.execDbnz t f s
  | .jmp t f => Sys2Proof.Machine.execJmp t f s
  | .call t f => Sys2Proof.Machine.execCall t f s
  | .calla t f => Sys2Proof.Machine.execCalla t f s
  | .ret t f => Sys2Proof.Machine.execRet t f s
  | .wait t f => Sys2Proof.Machine.execWait t f s
  | .waitWake t => Sys2Proof.Machine.execWaitWake t s
  | .ldbk t f => Sys2Proof.Machine.execLdbk t f s
  | .unaNeg t f => Sys2Proof.Machine.execUnaNeg t f s
  | .unaNot t f => Sys2Proof.Machine.execUnaNot t f s
  | .unaInc t f => Sys2Proof.Machine.execUnaInc t f s
  | .unaDec t f => Sys2Proof.Machine.execUnaDec t f s
  | .unaSxb t f => Sys2Proof.Machine.execUnaSxb t f s
  | .unaSxh t f => Sys2Proof.Machine.execUnaSxh t f s
  | .unaZxb t f => Sys2Proof.Machine.execUnaZxb t f s
  | .unaZxh t f => Sys2Proof.Machine.execUnaZxh t f s
  | .fence t f => Sys2Proof.Machine.execFence t f s
  | .trap t f => Sys2Proof.Machine.execTrap t f s
  | .rte t f => Sys2Proof.Machine.execRte t f s
  | .xcall t f => Sys2Proof.Machine.execXcall t f s
  | .xret t f => Sys2Proof.Machine.execXret t f s
  | .watchdog t => Sys2Proof.Machine.execWatchdog t s
  | .mul t f => Sys2Proof.Machine.execMul t f s
  | .muls t f => Sys2Proof.Machine.execMuls t f s
  | .productReady t => Sys2Proof.Machine.execProductReady t s
  | .dsetup t f => Sys2Proof.Machine.execDsetup t f s
  | .dsetups t f => Sys2Proof.Machine.execDsetups t f s
  | .dstep t f => Sys2Proof.Machine.execDstep t f s
  | .next t f => Sys2Proof.Machine.execNext t f s
  | .fmark t f => Sys2Proof.Machine.execFmark t f s
  | .frewind t f => Sys2Proof.Machine.execFrewind t f s
  | .rel t f => Sys2Proof.Machine.execRel t f s
  | .fld t f => Sys2Proof.Machine.execFld t f s
  | .fst t f => Sys2Proof.Machine.execFst t f s
  | .fadd t f => Sys2Proof.Machine.execFadd t f s
  | .fsub t f => Sys2Proof.Machine.execFsub t f s
  | .fmul t f => Sys2Proof.Machine.execFmul t f s
  | .fdiv t f => Sys2Proof.Machine.execFdiv t f s
  | .fma t f => Sys2Proof.Machine.execFma t f s
  | .fmaa t f => Sys2Proof.Machine.execFmaa t f s
  | .fcmp t f => Sys2Proof.Machine.execFcmp t f s
  | .fsqrt t f => Sys2Proof.Machine.execFsqrt t f s
  | .fcvti t f => Sys2Proof.Machine.execFcvti t f s
  | .fcvtf t f => Sys2Proof.Machine.execFcvtf t f s
  | .fneg t f => Sys2Proof.Machine.execFneg t f s
  | .fabs t f => Sys2Proof.Machine.execFabs t f s
  | .dispCopy t f => Sys2Proof.Machine.execDispCopy t f s
  | .dispFill t f => Sys2Proof.Machine.execDispFill t f s
  | .dispGather t f => Sys2Proof.Machine.execDispGather t f s
  | .dispScatter t f => Sys2Proof.Machine.execDispScatter t f s
  | .dispDiscard t f => Sys2Proof.Machine.execDispDiscard t f s
  | .send t f => Sys2Proof.Machine.execSend t f s
  | .tmr t f => Sys2Proof.Machine.execTmr t f s
  | .threadTimerExpiry t => Sys2Proof.Machine.execThreadTimerExpiry t s
  | .eos t f => Sys2Proof.Machine.execEos t f s
  | .parkEnd t f => Sys2Proof.Machine.execParkEnd t f s
  | .parkSuspend t f => Sys2Proof.Machine.execParkSuspend t f s
  | .rcpe t f => Sys2Proof.Machine.execRcpe t f s
  | .leave t f => Sys2Proof.Machine.execLeave t f s
  | .rbrd t f => Sys2Proof.Machine.execRbrd t f s
  | .rbwr t f => Sys2Proof.Machine.execRbwr t f s
  | .sbrd t f => Sys2Proof.Machine.execSbrd t f s
  | .sbwr t f => Sys2Proof.Machine.execSbwr t f s
  | .decodeTableInsn t e f => Sys2Proof.Machine.execDecodeTableInsn t e f s
  | .windowDataReturn t data ok => Sys2Proof.Machine.execWindowDataReturn t data ok s
  | .dispatchComplete x => Sys2Proof.Machine.execDispatchComplete x s
  | .transferBind half => Sys2Proof.Machine.execTransferBind half s
  | .readDataReturn x second data err => Sys2Proof.Machine.execReadDataReturn x second data err s
  | .dmaCopy c => Sys2Proof.Machine.execDmaCopy c s
  | .dmaFill c => Sys2Proof.Machine.execDmaFill c s
  | .dmaCompare c => Sys2Proof.Machine.execDmaCompare c s
  | .dmaGather c => Sys2Proof.Machine.execDmaGather c s
  | .dmaScatter c => Sys2Proof.Machine.execDmaScatter c s
  | .descriptorComplete c => Sys2Proof.Machine.execDescriptorComplete c s
  | .chEnable who c v => Sys2Proof.Machine.execChEnable who c v s
  | .chDisable who c v => Sys2Proof.Machine.execChDisable who c v s
  | .chPause who c => Sys2Proof.Machine.execChPause who c s
  | .chUnpause who c => Sys2Proof.Machine.execChUnpause who c s
  | .chHalt who c => Sys2Proof.Machine.execChHalt who c s
  | .chAbort who c => Sys2Proof.Machine.execChAbort who c s
  | .chStart who c => Sys2Proof.Machine.execChStart who c s
  | .dreqRise n => Sys2Proof.Machine.execDreqRise n s
  | .dmaPaceTimeout c => Sys2Proof.Machine.execDmaPaceTimeout c s
  | .rxData p path corr d => Sys2Proof.Machine.execRxData p path corr d s
  | .rxStatus p path corr d => Sys2Proof.Machine.execRxStatus p path corr d s
  | .rxAttn p path corr d => Sys2Proof.Machine.execRxAttn p path corr d s
  | .rxPace p path corr d => Sys2Proof.Machine.execRxPace p path corr d s
  | .rxCredit p path corr d => Sys2Proof.Machine.execRxCredit p path corr d s
  | .rxEnumReply p path corr d => Sys2Proof.Machine.execRxEnumReply p path corr d s
  | .rxBadFlit p corr k => Sys2Proof.Machine.execRxBadFlit p corr k s
  | .flitTransmit p => Sys2Proof.Machine.execFlitTransmit p s
  | .creditTimer p node => Sys2Proof.Machine.execCreditTimer p node s
  | .kpTrain who p => Sys2Proof.Machine.execKpTrain who p s
  | .kpDown who p => Sys2Proof.Machine.execKpDown who p s
  | .trainingPhaseEnd p locked back rtt => Sys2Proof.Machine.execTrainingPhaseEnd p locked back rtt s
  | .trainingTimeout p lo hi => Sys2Proof.Machine.execTrainingTimeout p lo hi s
  | .degWindowEnd p idles corr bad => Sys2Proof.Machine.execDegWindowEnd p idles corr bad s
  | .quiesceMarkerReturn m => Sys2Proof.Machine.execQuiesceMarkerReturn m s
  | .quiesceTimeout p => Sys2Proof.Machine.execQuiesceTimeout p s
  | .laneLockLoss p lane => Sys2Proof.Machine.execLaneLockLoss p lane s
  | .ts0Received p => Sys2Proof.Machine.execTs0Received p s
  | .ringOutIdleTimer p => Sys2Proof.Machine.execRingOutIdleTimer p s
  | .enum who p => Sys2Proof.Machine.execEnum who p s
  | .enumTimeout p => Sys2Proof.Machine.execEnumTimeout p s
  | .answerTimeout a => Sys2Proof.Machine.execAnswerTimeout a s
  | .tokenTimer => Sys2Proof.Machine.execTokenTimer s
  | .journalRecordDurable => Sys2Proof.Machine.execJournalRecordDurable s
  | .txidWaitTimeout sc => Sys2Proof.Machine.execTxidWaitTimeout sc s
  | .cretryTimer tx node => Sys2Proof.Machine.execCretryTimer tx node s
  | .weederWalk sc => Sys2Proof.Machine.execWeederWalk sc s
  | .flush who f => Sys2Proof.Machine.execFlush who f s
  | .flushEffect f => Sys2Proof.Machine.execFlushEffect f s
  | .flushTimeout f => Sys2Proof.Machine.execFlushTimeout f s
  | .staleTimer f => Sys2Proof.Machine.execStaleTimer f s
  | .tuningEpochEnd o more => Sys2Proof.Machine.execTuningEpochEnd o more s
  | .fbPrioWrite who o r v => Sys2Proof.Machine.execFbPrioWrite who o r v s
  | .attnClaim used => Sys2Proof.Machine.execAttnClaim used s
  | .holdoffExpiry src => Sys2Proof.Machine.execHoldoffExpiry src s
  | .swtrig who v => Sys2Proof.Machine.execSwtrig who v s
  | .sourceMaskWrite who src v => Sys2Proof.Machine.execSourceMaskWrite who src v s
  | .cqCoalesceTimer q => Sys2Proof.Machine.execCqCoalesceTimer q s
  | .cqiCfgWrite who q v => Sys2Proof.Machine.execCqiCfgWrite who q v s
  | .msixTableWrite fn vec word v => Sys2Proof.Machine.execMsixTableWrite fn vec word v s
  | .configRequest fn k write v => Sys2Proof.Machine.execConfigRequest fn k write v s
  | .registerWrite who off form v => Sys2Proof.Machine.execRegisterWrite who off form v s
  | .portReset => Sys2Proof.Machine.execPortReset s
  | .functionLevelReset fn => Sys2Proof.Machine.execFunctionLevelReset fn s
  | .vfEnableClear => Sys2Proof.Machine.execVfEnableClear s
  | .functionResetDone fn => Sys2Proof.Machine.execFunctionResetDone fn s
  | .readyTimeout => Sys2Proof.Machine.execReadyTimeout s
  | .vaultRead fn off len => Sys2Proof.Machine.execVaultRead fn off len s
  | .vaultWrite fn off data => Sys2Proof.Machine.execVaultWrite fn off data s
  | .tillerRegionWrite who off form v => Sys2Proof.Machine.execTillerRegionWrite who off form v s
  | .ptmDialogue => Sys2Proof.Machine.execPtmDialogue s
  | .ptmResponse master => Sys2Proof.Machine.execPtmResponse master s
  | .ptmTimeout => Sys2Proof.Machine.execPtmTimeout s
  | .completionTimeout r => Sys2Proof.Machine.execCompletionTimeout r s
  | .hpPermWrite who n k v => Sys2Proof.Machine.execHpPermWrite who n k v s
  | .smbSetAddr a pecOk => Sys2Proof.Machine.execSmbSetAddr a pecOk s
  | .smbWrite v pecOk => Sys2Proof.Machine.execSmbWrite v pecOk s
  | .smbRead => Sys2Proof.Machine.execSmbRead s
  | .smbTimeout => Sys2Proof.Machine.execSmbTimeout s
  | .checkpoint => Sys2Proof.Machine.execCheckpoint s
  | .vaultOpen who => Sys2Proof.Machine.execVaultOpen who s
  | .vaultCommit who check => Sys2Proof.Machine.execVaultCommit who check s
  | .vaultAbort who => Sys2Proof.Machine.execVaultAbort who s
  | .vaultCopyDone => Sys2Proof.Machine.execVaultCopyDone s
  | .domainPowerDown who d => Sys2Proof.Machine.execDomainPowerDown who d s
  | .domainPowerUp who d => Sys2Proof.Machine.execDomainPowerUp who d s
  | .domainOff d => Sys2Proof.Machine.execDomainOff d s
  | .drainTimeout d => Sys2Proof.Machine.execDrainTimeout d s
  | .domainPowered d => Sys2Proof.Machine.execDomainPowered d s
  | .sbConfirmTimeout => Sys2Proof.Machine.execSbConfirmTimeout s
  | .backgroundCheckDone => Sys2Proof.Machine.execBackgroundCheckDone s
  | .imageUpdate who => Sys2Proof.Machine.execImageUpdate who s
  | .imageUpdateAbort who => Sys2Proof.Machine.execImageUpdateAbort who s
  | .flashOpDone => Sys2Proof.Machine.execFlashOpDone s
  | .flashTimeout => Sys2Proof.Machine.execFlashTimeout s
  | .faultReport src unit => Sys2Proof.Machine.execFaultReport src unit s
  | .forceFault who src => Sys2Proof.Machine.execForceFault who src s
  | .tempSample temp => Sys2Proof.Machine.execTempSample temp s
  | .rcsClear who off v hw => Sys2Proof.Machine.execRcsClear who off v hw s
  | .glbUpdate who v => Sys2Proof.Machine.execGlbUpdate who v s
  | .beatTimer => Sys2Proof.Machine.execBeatTimer s
  | .rxBeat b => Sys2Proof.Machine.execRxBeat b s
  | .heartbeatLost => Sys2Proof.Machine.execHeartbeatLost s
  | .rxMirror m => Sys2Proof.Machine.execRxMirror m s
  | .rxMack m => Sys2Proof.Machine.execRxMack m s
  | .mirrorTimeout => Sys2Proof.Machine.execMirrorTimeout s
  | .rxToken p k => Sys2Proof.Machine.execRxToken p k s
  | .claimWaitExpiry => Sys2Proof.Machine.execClaimWaitExpiry s
  | .tokenSilence => Sys2Proof.Machine.execTokenSilence s
  | .pairArbRise => Sys2Proof.Machine.execPairArbRise s
  | .twForce who => Sys2Proof.Machine.execTwForce who s
  | .twRejoin who => Sys2Proof.Machine.execTwRejoin who s
  | .loopbackEnter who k v => Sys2Proof.Machine.execLoopbackEnter who k v s
  | .loopbackEnd who k => Sys2Proof.Machine.execLoopbackEnd who k s
  | .loopbackDurExpiry k => Sys2Proof.Machine.execLoopbackDurExpiry k s
  | .spiReadback who => Sys2Proof.Machine.execSpiReadback who s
  | .domainBist who v => Sys2Proof.Machine.execDomainBist who v s
  | .bistDone fails repaired => Sys2Proof.Machine.execBistDone fails repaired s
  | .injectArm who v => Sys2Proof.Machine.execInjectArm who v s
  | .extest => Sys2Proof.Machine.execExtest s
  | .samplePreload => Sys2Proof.Machine.execSamplePreload s
  | .idcode => Sys2Proof.Machine.execIdcode s
  | .clamp => Sys2Proof.Machine.execClamp s
  | .highz => Sys2Proof.Machine.execHighz s
  | .extestPulse => Sys2Proof.Machine.execExtestPulse s
  | .extestTrain => Sys2Proof.Machine.execExtestTrain s
  | .bypass => Sys2Proof.Machine.execBypass s
  | .pwrwarnRise => Sys2Proof.Machine.execPwrwarnRise s
  | .vbakGood mv => Sys2Proof.Machine.execVbakGood mv s
  | .undefinedOpcode t w0 w1 => Sys2Proof.Machine.execUndefinedOpcode t w0 w1 s
  | .pairArbFall => Sys2Proof.Machine.execPairArbFall s
  | .nobeatClaim => Sys2Proof.Machine.execNobeatClaim s
  | .ptmSlewEnd => Sys2Proof.Machine.execPtmSlewEnd s
  | .ackNakDllp nak n => Sys2Proof.Machine.execAckNakDllp nak n s
  | .dreqSample n level => Sys2Proof.Machine.execDreqSample n level s
  | .bypHoldRise p => Sys2Proof.Machine.execBypHoldRise p s
  | .spiReadbackDone diff => Sys2Proof.Machine.execSpiReadbackDone diff s
  | .updateImageReadDone data err => Sys2Proof.Machine.execUpdateImageReadDone data err s

end Sys2Proof.Machine
end

