-- ==== Sys2Proof/Machine/Lanes.lean ====
section
/-! DEFINITION. What the lanes of a port carry: training blocks (R331) and flits, dealt out to the lanes (R314), scrambled
(R310) and put into symbols (R309). This is the port's output, a function of its state. -/

namespace Sys2Proof.Machine

/-! ## Lanes (R314) -/

/-- The bytes of a flit on logical lane `k` of `w`. -/
def laneBytes (w k : Nat) (b : Bytes) : Bytes := (List.range (256 / w)).map fun i => b.getD (w * i + k) 0

/-- The flit that the bytes of its lanes make. -/
def unlane (w : Nat) (l : List Bytes) : Bytes := (List.range 256).map fun i => (l.getD (i % w) []).getD (i / w) 0

/-- The physical lanes of a set, in the order of the logical ones. -/
def physLanes (m : BitVec 4) : List Nat := (List.range 4).filter fun l => m.getLsbD l

/-! ## Symbols (R309) -/

/-- What a lane carries: nothing, PAM4 levels, or NRZ levels (true is high). -/
inductive Symbols where
  | idle
  | pam4 (l : List Int)
  | nrz (l : List Bool)
  deriving DecidableEq, Repr

/-- The level of a pair of bits. -/
def pamLevel (pair : Nat) : Int :=
  match pair with
  | 0 => -3
  | 1 => -1
  | 3 => 1
  | _ => 3

/-- The symbols of bytes. -/
def symbols (nrz : Bool) (b : Bytes) : Symbols :=
  if nrz then .nrz (b.flatMap fun x => (List.range 8).map fun i => x.getLsbD i)
  else .pam4 (b.flatMap fun x => (List.range 4).map fun i => pamLevel (x.toNat / 4 ^ i % 4))

/-! ## Training blocks (R331) -/

/-- A block TS0 to TS2 or TSE (`kind` 0 to 3) of the device, whose HOPS is 0. -/
def trainBlock (kind width : Nat) (nrz : Bool) (lanes epoch : Nat) (prbs : Bytes) : Bytes :=
  let body := natLE 1 kind ++ natLE 1 (width + 4 * b2n nrz) ++ natLE 1 (lanes + 16 * epoch) ++ List.replicate 5 0 ++ padTo 228 prbs
  (List.range 8).flatMap (fun _ => [0x4B, 0xB4]) ++ body ++ natLE 4 (crc32c body).toNat

/-- The block of a kind that a port sends on physical lane `l`, the `n`-th since its training began; EPOCH is valid in TS2. -/
def State.block (s : State) (p l n kind : Nat) : Bytes :=
  let t := s.port p
  trainBlock kind (widthCode t.tgtLanes) t.tgtNrz t.tgtLanes.toNat (if kind = 2 then (s.linkEpoch p + 1) % 16 else 0)
    (prbs (Config.trainStart p l) (228 * n) 228)

/-! ## Ring-out -/

/-- What physical lane `l` of a port's ring-out carries (R330, R342): the training block of its phase (`n` as above; TSE ends BASE,
once ring-in has locked, and opens FRAME), the last flit of a port that sends flits, or nothing. -/
def State.ringOut (s : State) (p l n : Nat) : Symbols :=
  let t := s.port p
  let training := decide (s.kpSt p = 1)
  let lanes := if training then t.tgtLanes else BitVec.ofNat 4 (s.linkCfg p).toNat
  let nrz := if training then t.tgtNrz else (s.linkCfg p).getLsbD 4
  let on := lanes.getLsbD l
  let framed := if training then decide (t.tp = .frame) else decide (t.out = .flits)
  if s.life ≠ .live ∨ t.out = .elecIdle ∨ 4 ≤ l then .idle
  else if framed then
    if !on then .idle
    else if t.flits = 0 then (if training then symbols nrz (s.block p l n 3) else .idle)
    else
      let k := (physLanes lanes).idxOf l
      let w := (physLanes lanes).length
      symbols nrz (scramble (lfsrAfter ((t.flits - 1) * (256 / w)) (scrSeed k)) (laneBytes w k t.lastFlit))
  else match t.tp with
    | .eq => if on then symbols nrz (s.block p l n 1) else .idle
    | .confirm => if on then symbols nrz (s.block p l n 2) else .idle
    | _ => symbols true (s.block p l n (if t.tse then 3 else 0))

end Sys2Proof.Machine
end

