-- ==== Sys2Proof/Safety.lean ====
section
/-! DEFINITION. What a good state of the block is, in the terms the statements use: every sparse table and memory is in
its one canonical form; and what a change of state keeps. -/

namespace Sys2Proof.Machine

/-- Every memory of the block is in canonical form. -/
def State.memWf (s : State) : Bool :=
  Memory.wf s.seed && SMap.wf memErased s.flash && Memory.wf s.buf && Memory.wf s.ctx && Memory.wf s.tmem &&
  Memory.wf s.tpriv && Memory.wf s.vnode

/-- Every memory and every table of the block is in canonical form: keys strictly rising, no entry equal to what an unlisted
key reads as. Equal contents are then equal data, and a register reads as last written. -/
structure State.Canon (s : State) : Prop where
  seed : Memory.wf s.seed = true
  flash : SMap.wf memErased s.flash = true
  buf : Memory.wf s.buf = true
  ctx : Memory.wf s.ctx = true
  tmem : Memory.wf s.tmem = true
  tpriv : Memory.wf s.tpriv = true
  vnode : Memory.wf s.vnode = true
  regs : SMap.wf regReset s.regs = true
  applied : SMap.wf regReset s.applied = true
  fns : SMap.wf (fun _ => {}) s.fns = true
  msix : SMap.wf (fun _ => {}) s.msix = true
  pba : SMap.wf (fun _ => false) s.pba = true
  vnodes : SMap.wf (fun _ => {}) s.vnodes = true
  queues : SMap.wf (fun _ => {}) s.queues = true
  chains : SMap.wf (fun _ => {}) s.chains = true
  threads : SMap.wf (fun _ => {}) s.threads = true
  sources : SMap.wf (fun _ => {}) s.sources = true
  furrows : SMap.wf (fun _ => {}) s.furrows = true
  xfers : SMap.wf (fun _ => none) s.xfers = true
  chans : SMap.wf (fun _ => {}) s.chans = true
  ports : SMap.wf (fun _ => {}) s.ports = true
  ops : SMap.wf (fun _ => none) s.ops = true
  ophGen : SMap.wf (fun _ => 0) s.ophGen = true
  ophUse : SMap.wf (fun _ => (0, 0)) s.ophUse = true
  endedAt : SMap.wf (fun _ => 0) s.endedAt = true
  txns : SMap.wf (fun _ => {}) s.txns = true
  slots : SMap.wf (fun _ => .none) s.slots = true
  waits : SMap.wf (fun _ => none) s.waits = true
  recov : SMap.wf (fun _ => 0) s.recov = true
  inbox : SMap.wf (fun _ => []) s.inbox = true
  fbLast : SMap.wf (fun _ => 11) s.fbLast = true

/-- What a change of state keeps besides the canonical form: which of these fields. -/
structure Kept where
  life : Bool := true
  flash : Bool := true

/-- A change from `s` to `t` keeps the canonical form of every table, leaves the queue of commands alone, never gives a free value
out again, and keeps the fields that κ names. -/
structure State.Keeps (κ : Kept) (s t : State) : Prop where
  canon : s.Canon → t.Canon
  pending : t.pending = s.pending
  free : s.freeCtr ≤ t.freeCtr
  life : κ.life = true → t.life = s.life
  flash : κ.flash = true → t.flash = s.flash

/-! ## Tiller instructions -/

/-- Thread `t` is about to issue an instruction: it is bound, not stopped, not waiting, has no window load in flight (R141, R142, R165,
R188), an attention thread has issued before (R217), and no codeword error lies in the memories (R22). -/
def Issues (s : State) (t : Nat) : Prop :=
  s.canIssue t = true ∧ (s.thread t).fresh = false ∧ (s.thread t).winGot = [] ∧ s.errs = [] ∧ s.due = []

/-- Thread `t` is about to issue an instruction of form `f` whose guard holds (R171). -/
def Ready (s : State) (t : Nat) (f : TForm) : Prop :=
  Issues s t ∧ opGuard f (s.thread t) = true

/-- The state in which an instruction acts: PC is past it (R142), and a packet that its operand names has been looked at (R455). -/
def State.past (s : State) (t : Nat) (f : TForm) : State := (s.pcPast t (opSize f)).windowRead t (opEa f (s.thread t))

/-- The integer operand of `n` bytes of form `f` is `v`: an immediate, zero-extended, or what a read of the effective address gives
(R152, R169, R170). -/
def Reads (s : State) (t : Nat) (f : TForm) (n v : Nat) : Prop :=
  match opEa f (s.thread t) with
  | none => v = opImm f % 2 ^ (8 * n)
  | some ea => ∃ b, s.engRd { t, f } ea n n = .val b ∧ v = leNat b

/-- The operand of LDX, LDY, CPX and CPY: 16 bits, or the low 16 bits of a direct word (R174). -/
def ReadsLow (s : State) (t : Nat) (f : TForm) (v : Nat) : Prop :=
  match f with
  | .short .. => ∃ w, Reads s t f 4 w ∧ v = w % 2 ^ 16
  | .long .. => Reads s t f 2 v

/-- The flags N, Z, C and V are these, and the other bits of FL are as before (R219). -/
def FlagsAre (old fl : Byte) (n z c v : Bool) : Prop :=
  flBit fl 2 = n ∧ flBit fl 1 = z ∧ flBit fl 0 = c ∧ flBit fl 3 = v ∧ ∀ k, 4 ≤ k → flBit fl k = flBit old k

/-- N and Z are these, and the other bits of FL are as before (R219). -/
def NZAre (old fl : Byte) (r : Word) : Prop :=
  flBit fl 2 = r.msb ∧ flBit fl 1 = (r == 0) ∧ ∀ k, k ≠ 1 → k ≠ 2 → flBit fl k = flBit old k

/-- Floating-point operands of `k` values of form `f`, in the format in force (R240). -/
def ReadsFp (s : State) (t : Nat) (f : TForm) (k : Nat) (b : Bytes) : Prop :=
  ∃ ea, opEa f (s.thread t) = some ea ∧ s.engRdMany { t, f } ea (s.thread t).fpBytes k = .val b

/-- N, Z, C and V of a + b + c, 32 bits (R219, R220). -/
def AddFlags (old fl : Byte) (a b : Word) (c : Nat) : Prop :=
  let r := a + b + BitVec.ofNat 32 c
  FlagsAre old fl r.msb (r == 0) (decide (2 ^ 32 ≤ a.toNat + b.toNat + c)) (decide (r.toInt ≠ a.toInt + b.toInt + c))

/-- N, Z, C and V of a − b − c, 32 bits; C: no borrow (R219, R220). -/
def SubFlags (old fl : Byte) (a b : Word) (c : Nat) : Prop :=
  let r := a - b - BitVec.ofNat 32 c
  FlagsAre old fl r.msb (r == 0) (decide (b.toNat + c ≤ a.toNat)) (decide (r.toInt ≠ a.toInt - b.toInt - c))

/-- N, Z, C and V of x − y, 16 bits (R219). -/
def Sub16Flags (old fl : Byte) (x y : BitVec 16) : Prop :=
  FlagsAre old fl (x - y).msb (x - y == 0) (decide (y.toNat ≤ x.toNat)) (decide ((x - y).toInt ≠ x.toInt - y.toInt))

/-- A value that MOV may write to SP (R147). -/
def MovSpOk (v : Nat) : Prop := v % 4 = 0 ∧ 0x400 ≤ v ∧ v ≤ 0xFC0

/-- What register `d` reads after MOV wrote `v` to it (R147, R148): the low bits it has; MH, ML, MST, TID and ZERO keep their values. -/
def movValue (th : Thread) (t d v : Nat) : Nat :=
  match d with
  | 0 | 12 | 13 => v % 2 ^ 32
  | 1 | 2 => v % 2 ^ 16
  | 3 => v % 256
  | 4 => v
  | 5 => th.fl.toNat / 32 * 32 + v % 32
  | 6 => v % 256 ||| 1
  | 10 => v &&& 0x1F
  | 11 => v &&& 0x1F7
  | _ => th.readReg t d

/-- The instruction completes and writes to A the word whose bits are `g`, N and Z of it, and nothing else. -/
def SetsA (s : State) (t : Nat) (f : TForm) (ins : Instr) (g : Nat → Bool) : Prop :=
  ∃ r fl, (∀ k, k < 32 → r.getLsbD k = g k) ∧ NZAre (s.thread t).fl fl r ∧
    exec ins s = .next ((s.past t f).modThread t fun h => { h with a := r, fl })

/-- The shift completes and writes to A the word whose bits are `g`, N and Z of it, C unless the amount `n` is 0, and nothing else. -/
def Shifts (s : State) (t : Nat) (f : TForm) (n : Nat) (ins : Instr) (g : Nat → Bool) (c : Bool) : Prop :=
  ∃ r fl, (∀ k, k < 32 → r.getLsbD k = g k) ∧ flBit fl 2 = r.msb ∧ flBit fl 1 = (r == 0) ∧
    flBit fl 0 = (if n = 0 then flBit (s.thread t).fl 0 else c) ∧ (∀ k, 3 ≤ k → flBit fl k = flBit (s.thread t).fl k) ∧
    exec ins s = .next ((s.past t f).modThread t fun h => { h with a := r, fl })

/-- A predicate: P0 is 1 (R146). -/
def predBit (th : Thread) (k : Nat) : Bool := decide (k = 0) || flBit th.pr k

/-- The instruction completes and writes predicate `d`, P0 staying 1, and nothing else. -/
def SetsP (s : State) (t : Nat) (f : TForm) (ins : Instr) (d : Nat) (b : Bool) : Prop :=
  ∃ pr, (∀ k, k < 8 → flBit pr k = if k = 0 then true else if k = d then b else flBit (s.thread t).pr k) ∧
    exec ins s = .next ((s.past t f).modThread t fun h => { h with pr })

/-- The condition of a code (R173). -/
def CondHolds (fl : Byte) (code : Nat) : Prop :=
  let c := flBit fl 0 = true; let z := flBit fl 1 = true; let n := flBit fl 2 = true; let v := flBit fl 3 = true
  match code with
  | 0 => z | 1 => ¬ z | 2 => c | 3 => ¬ c | 4 => n | 5 => ¬ n | 6 => v | 7 => ¬ v
  | 8 => c ∧ ¬ z | 9 => ¬ c ∨ z | 10 => (n ↔ v) | 11 => ¬ (n ↔ v) | 12 => ¬ z ∧ (n ↔ v) | 13 => z ∨ ¬ (n ↔ v)
  | 14 => True | 15 => flBit fl 4 = true | _ => False

/-- The memory `m` holds `b` from `a` on, and elsewhere what `m₀` holds. -/
def Wrote (m₀ m : Mem) (a : Nat) (b : Bytes) : Prop :=
  m.rdN a b.length = b ∧ ∀ k, k < a ∨ a + b.length ≤ k → m.rd k = m₀.rd k

/-- What a store of bytes `b` at engine address `ea` does outside routine mode, space by space (R152, R154 to R158, R162 to R165), where no
memory holds a codeword error: exactly these bytes change, and no other field; a window store is a memory write of the host, a write of
the function's share of buffer memory, or an exchange with the node, and stalls while eight wait for their nodes. -/
def StoresBytes (s : State) (t : Nat) (f : TForm) (ea : Nat) (b : Bytes) : Prop :=
  (ea < 0x1000 → ∃ m, s.engWr { t, f } ea b b.length = .done { s with tpriv := m } ∧ Wrote s.tpriv m (t * 4096 + ea) b) ∧
  (0x1000 ≤ ea → ea < 0xD000 → ∃ m, s.engWr { t, f } ea b b.length = .done { s with tmem := m } ∧
    Wrote s.tmem m (tillerOf t * 0x40000 + 0x20000 + (ea - 0x1000)) b) ∧
  (∀ sc, (s.thread t).bind = .sc sc → 0x10000 ≤ ea → ea + b.length ≤ 0x10800 →
    (∀ k, ea ≤ k + 0x10000 → k + 0x10000 < ea + b.length → ¬ (k < 12 ∨ (88 ≤ k ∧ k < 104) ∨ (112 ≤ k ∧ k < 120))) →
    sc ∈ s.dirty ∨ s.dirty.length < 512 →
    s.engWr { t, f } ea b b.length = .done (s.cxPut sc (ea - 0x10000) b) ∧
      Wrote s.ctx (s.cxPut sc (ea - 0x10000) b).ctx (sc * 2048 + (ea - 0x10000)) b) ∧
  (0x108000 ≤ ea → ea + b.length ≤ 0x109010 → s.engWr { t, f } ea b b.length =
    .done (s.modThread t fun h => { h with out := h.out.wrN (ea - 0x100000) b })) ∧
  (∀ sp a n, 0x800000 ≤ ea → ea < 0x1000000 → s.window t (s.thread t) ea b.length true = some (sp, a, n) →
    (8 ≤ s.winStores t → s.engWr { t, f } ea b b.length = .stall) ∧
    (s.winStores t < 8 →
      (sp = 0 → s.engWr { t, f } ea b b.length = .done (s.hostWrite (s.winFn (s.thread t)) a b false (tgPort t))) ∧
      (sp = 1 → ∃ m, s.engWr { t, f } ea b b.length = .done { s with buf := m } ∧ Wrote s.buf m a b) ∧
      (∀ s' k, sp = 2 → s.winOpen n a b.length { owner := .winStore t } 1 = some (s', k) →
        s.engWr { t, f } ea b b.length = .done (s'.opData k b true (tgPort t)))))

/-- The state after some commands, if each answers a next state. -/
def runAll : List Instr → State → Option State
  | [], s => some s
  | c :: cs, s => match exec c s with
    | .next s => runAll cs s
    | _ => none

/-- M:V of a long form (R175). -/
def callWord : TForm → Nat
  | .short .. => 0
  | .long _ _ m v => m.toNat * 65536 + v.toNat

/-- The bytes of the slots of a call mask below bit `k` (R179). -/
def slotsBelow (mask : Nat) : Nat → Nat
  | 0 => 0
  | k + 1 => slotsBelow mask k + if bitOn mask k then slotSize k else 0

/-- The first halfword of an undefined opcode (R174, R175): SOP 0x2C to 0x2F, or a LOP below 0xE0 that no row names. -/
def UndefinedOpcode (w0 : Nat) : Prop :=
  (bits w0 14 2 ≠ 3 ∧ 0x2C ≤ bits w0 10 6) ∨
  (bits w0 14 2 = 3 ∧ bits w0 6 8 < 0xE0 ∧ 0x66 ≤ bits w0 6 8) ∨
  (bits w0 14 2 = 3 ∧ bits w0 6 8 ∈ [0xC, 0xD, 0xE, 0xF, 0x1B, 0x1C, 0x1D, 0x1E, 0x1F, 0x25, 0x26, 0x27, 0x2C, 0x2D, 0x2E, 0x2F, 0x3E, 0x3F,
    0x45, 0x46, 0x47, 0x4D, 0x4E, 0x4F, 0x50, 0x51, 0x52, 0x53, 0x54, 0x55, 0x56, 0x57, 0x58, 0x59, 0x5A, 0x5B, 0x5C, 0x5D, 0x5E, 0x5F])

/-- The value of a finite pattern (R238). -/
def fpVal (d : Bool) (x : Nat) : ℚ := (if fpNeg d x then -1 else 1) * fpM d x * (2 : ℚ) ^ fpE d x

/-- N, Z, C and V of FCMP by the relation of the two values, and the other bits of FL as before (R250). -/
def FpOrder (d : Bool) (x y : Nat) (old fl : Byte) : Prop :=
  let fin := fun v => isNan d v = false ∧ isInf d v = false
  (isNan d x = true ∨ isNan d y = true → FlagsAre old fl false false true true) ∧
  (fin x → fin y →
    (fpVal d x < fpVal d y → FlagsAre old fl true false false false) ∧ (fpVal d x = fpVal d y → FlagsAre old fl false true true false) ∧
    (fpVal d y < fpVal d x → FlagsAre old fl false false true false)) ∧
  (isInf d x = true → isNan d y = false → x % 2 ^ (fpS d + 1) ≠ y % 2 ^ (fpS d + 1) →
    if fpNeg d x then FlagsAre old fl true false false false else FlagsAre old fl false false true false) ∧
  (isInf d y = true → isNan d x = false → x % 2 ^ (fpS d + 1) ≠ y % 2 ^ (fpS d + 1) →
    if fpNeg d y then FlagsAre old fl false false true false else FlagsAre old fl true false false false) ∧
  (isInf d x = true → x % 2 ^ (fpS d + 1) = y % 2 ^ (fpS d + 1) → FlagsAre old fl false true true false)

/-! ## Chains -/

/-- The chain of `sc` is to execute a word of a code, and no memory holds a codeword error (R22). -/
def CurWord (s : State) (sc code : Nat) : Prop :=
  s.running = true ∧ s.errs = [] ∧ s.mayChange sc = true ∧ (s.chain sc).phase = .current ∧ s.cwCode sc = code

/-- One more flit `f` waits to leave port `p`; with nothing in its way it stands at the end of the port's output Furrow (R440, R461). -/
def SendsFlit (s m : State) (p : Nat) (f : Flit) : Prop :=
  s.furrowHit = 0 → (m.waitingFlits p).Perm (f :: s.waitingFlits p) ∧
    (s.fab = [] → s.outUsed (p + 1) + 4 ≤ outSize (p + 1) → (m.port p).tx = (s.port p).tx ++ [f])

/-- The TLPs that wait to leave for the host, in the output Furrow and before it. -/
def State.waitingTlps (s : State) : List Tlp :=
  s.hostOut ++ s.fab.filterMap fun k => match k.body with | .write t => some t | .read t _ => some t | _ => none

/-- One more TLP waits to leave for the host; with nothing in its way it stands at the end of the host port's output Furrow (R440,
R461). -/
def SendsTlp (s m : State) (t : Tlp) : Prop :=
  s.furrowHit = 0 → (m.waitingTlps).Perm (t :: s.waitingTlps) ∧
    (s.fab = [] → s.outUsed 0 + t.words ≤ outSize 0 → m.hostOut = s.hostOut ++ [t])

/-- A read of `n` bytes leaves for the host at once (R460, R461, R495, R497): nothing waits before it, there is room for its completion
and in the output Furrow, and no injection is armed for that. -/
def State.hostFree (s : State) (n : Nat) : Prop :=
  s.fab = [] ∧ s.readWait = [] ∧ s.readRoom n = true ∧ s.outUsed 0 < outSize 0 ∧ s.furrowHit = 0

/-- One more read of the host is outstanding, or waits to be issued; where nothing is in its way it leaves as one TLP. -/
def ReadsHost (s m : State) (r : ReadReq) : Prop :=
  m.readsAll.Perm (r :: s.readsAll) ∧
  (s.hostFree r.len → m.reads = s.reads ++ [r] ∧ m.hostOut = s.hostOut ++ [.read r.fn r.addr r.len false (s.fnc r.fn).ecrc])

/-- Where the current word ends, the chain goes on by command chaining with a word not read ahead, in host memory that its function may
read (R99, R102). -/
def ChainsOn (s : State) (sc : Nat) : Prop :=
  s.cwFlag sc 0 = false ∧ s.cwFlag sc 1 = true ∧ s.cwFlag sc 3 = false ∧ (s.chain sc).buf = [] ∧ (s.chain sc).space % 2 = 0 ∧
  s.masters (s.chainFn sc) = true

/-- The word at host address `a` is fetched: one more read is issued, and CUR_CW names it (R102, R104). -/
def FetchesWord (s m : State) (sc a : Nat) : Prop :=
  ReadsHost s m { fn := s.chainFn sc, addr := a, len := 32, why := .word sc } ∧ m.cx sc 32 8 = a % 2 ^ 64 ∧
  (m.chain sc).phase = .fetching

/-- The chain of `sc` runs and has executed a word, outside a group, with no fence under way and no dispatch of its thread in progress;
no memory holds a codeword error. -/
def PlainChain (s : State) (sc : Nat) : Prop :=
  s.running = true ∧ s.errs = [] ∧ (s.chain sc).ran = true ∧ (s.chain sc).fenced = false ∧ s.openTx sc = none ∧
  ∀ t, s.threadOf sc = some t → (s.thread t).disp = [] ∧ t < 1024

/-- The chain of `sc` ended: its status is fixed with CE, the bits and the CHECK_CODE given, its thread is free (R102, R126, R127). -/
def ChainEnded (s m : State) (sc bits code : Nat) : Prop :=
  (m.chain sc).phase = .fixed ∧ bitOn (m.cx sc 150 2) 0 = true ∧ (∀ k, k < 9 → bitOn bits k = true → bitOn (m.cx sc 150 2) k = true) ∧
  m.cx sc 256 4 = code ∧ (∀ t, s.threadOf sc = some t → (m.thread t).bind = .free) ∧
  ∃ r, m.jpend.getLast? = some r ∧ r.eff = .fixed sc

end Sys2Proof.Machine
end

