-- ==== Sys2Proof/Certificates/Slice0/Obligations.lean ====
section
/-! DEFINITION. The statements for the provers, by the chapters of the manual. -/

open Sys2Proof Sys2Proof.Machine

/-! ## The block as a whole -/

/-- A step takes the command at the front of the queue and runs it with the queue's rest; on an empty queue TIME alone goes on while the device
works (the model's choice, log 8). No row of the opcode table gives a command any bits, so no word spells one. -/
def Obligations.StepRunsFrontCommand : Prop :=
  (∀ (s : State) c rest, s.pending = c :: rest → step s = exec c { s with pending := rest }) ∧
  (∀ s : State, s.pending = [] → s.life = .live → ∃ time, step s = .next { s with time }) ∧
  (∀ s : State, s.pending = [] → s.life ≠ .live → s.life ≠ .flushed → step s = .next s) ∧
  ∀ n w, decodeTableWord n w = none

/-- After reset the registers read as their tables say, every MSI-X vector is masked, IDCODE is selected, nothing is queued, and every table is
in canonical form. -/
def Obligations.ResetValues : Prop :=
  let s := State.reset
  s.Canon ∧ s.pending = [] ∧ s.jtagIr = 2 ∧
  (∀ e ∈ [(0x0, 0x1B07064), (0x180000, 10), (0x10000C, 0xA01), (0x101000, 0x8000), (0x101004, 0), (0x700A00, 0x3C14), (0x700804, 1), (0x40004, 0),
    (0x40008, 0)], s.rn e.1 = e.2) ∧
  (∀ i, i < 64 → s.rb (0x180100 + 8 * i) 12 = true) ∧ (∀ n, n < 4096 → s.rf (0x188004 + 8 * n) 0 16 = 0xFFFF) ∧
  (∀ q, q < 8192 → s.rf (0x1A0000 + 8 * q) 16 8 = 1 ∧ s.qEn q = false) ∧ (∀ v, (s.vec v).mask = true ∧ (s.vec v).addr = 0 ∧ s.pbit v = false)

/-- Every step keeps the canonical form: the memories and tables of the block stay strictly rising, with no entry equal to what an unlisted key
reads as, so a register or a byte reads as last written. -/
def Obligations.StepKeepsCanonicalForm : Prop :=
  ∀ s t : State, s.Canon → step s = .next t → t.Canon

/-- Whole-machine rules: every command answers a next state, but for SBRD and SBWR, which stop at an address that names no Seedbank block (R28,
R200); no command touches the queue; a free value is never given out twice; only a start, a supply, PORST_N, REFCLK or PWRWARN_N
changes whether the device works (R14, R532, R580, R694); only an image update's flash commands change the Seed flash (R590). -/
def Obligations.WhatCommandsLeaveAlone : Prop :=
  (∀ (c : Instr) (s : State), (∀ t f, c ≠ .sbrd t f) → (∀ t f, c ≠ .sbwr t f) → ∃ t, exec c s = .next t) ∧
  ∀ (c : Instr) (s t : State), exec c s = .next t →
    t.pending = s.pending ∧ s.freeCtr ≤ t.freeCtr ∧
    ((∀ p a l r m, c ≠ .deviceStart p a l r m) → (∀ k, c ≠ .mainRailFail k) → c ≠ .vddSbFail → (∀ n, c ≠ .porstAssert n) →
      c ≠ .pwrwarnFilterExpiry → c ≠ .pwrwarnRise → c ≠ .refclkLoss → (∀ v, c ≠ .vbakGood v) → t.life = s.life) ∧
    (c ≠ .flashOpDone → c ≠ .flashTimeout → t.flash = s.flash)

/-! ## Tiller instructions -/

/-- NOP, MOV, the loads of A, X and Y, and LDBK in full: each completes, writes its register, N and Z where R219 says so, and nothing
else (R147, R174, R175). A write of a read-only register number changes nothing; SP takes only its own range. -/
def Obligations.TillerMovesLoadRegisters : Prop :=
  ∀ (s : State) (t : Nat) (f : TForm), s.Canon → Ready s t f →
    (okForm [.zero] [] f = true → exec (.nop t f) s = .next (s.past t f)) ∧
    (okForm [.r] [] f = true →
      ((opImm f / 16 = 4 → MovSpOk ((s.thread t).readReg t (opImm f % 16))) →
        ∃ h, exec (.mov t f) s = .next ((s.past t f).setThread t h) ∧
          h.readReg t (opImm f / 16) = movValue (s.thread t) t (opImm f / 16) ((s.thread t).readReg t (opImm f % 16)) ∧
          (∀ e, e ≠ opImm f / 16 → h.readReg t e = (s.thread t).readReg t e) ∧ h.pc = ((s.past t f).thread t).pc) ∧
      (opImm f / 16 = 4 → ¬ MovSpOk ((s.thread t).readReg t (opImm f % 16)) →
        exec (.mov t f) s = .next (s.doTrap t 7 0 2 0).finish)) ∧
    (∀ v, okForm [.i8, .d8] [0, 1, 2, 3] f = true → Reads (s.past t f) t f 4 v →
      ∃ fl, NZAre (s.thread t).fl fl (BitVec.ofNat 32 v) ∧
        exec (.lda t f) s = .next ((s.past t f).modThread t fun h => { h with a := BitVec.ofNat 32 v, fl })) ∧
    (okForm [] [0] f = true → ∃ fl, NZAre (s.thread t).fl fl (BitVec.ofNat 16 (opImm f) ++ (s.thread t).a.setWidth 16) ∧
      exec (.ldah t f) s = .next ((s.past t f).modThread t fun h =>
        { h with a := BitVec.ofNat 16 (opImm f) ++ h.a.setWidth 16, fl })) ∧
    (okForm [] [0, 1, 2, 3] f = true →
      (∀ v, Reads (s.past t f) t f 1 v → ∃ fl, NZAre (s.thread t).fl fl (BitVec.ofNat 32 v) ∧
        exec (.ldb t f) s = .next ((s.past t f).modThread t fun h => { h with a := BitVec.ofNat 32 v, fl })) ∧
      (∀ v, Reads (s.past t f) t f 2 v → ∃ fl, NZAre (s.thread t).fl fl (BitVec.ofNat 32 v) ∧
        exec (.ldh t f) s = .next ((s.past t f).modThread t fun h => { h with a := BitVec.ofNat 32 v, fl }))) ∧
    (∀ v, okForm [.d8] [0, 1, 2, 3] f = true → ReadsLow (s.past t f) t f v →
      exec (.ldx t f) s = .next ((s.past t f).modThread t fun h => { h with x := BitVec.ofNat 16 v }) ∧
      exec (.ldy t f) s = .next ((s.past t f).modThread t fun h => { h with y := BitVec.ofNat 16 v })) ∧
    (okForm [.i8] [] f = true → exec (.ldbk t f) s = .next ((s.past t f).modThread t fun h =>
      { h with bk := BitVec.ofNat 8 (opImm f) }))

/-- A store writes exactly the bytes of its operand, at the effective address, in the engine space of R152: private and shared bank 0,
the context (when the dirty bound allows it), the outbound packet, a window's host memory, buffer memory or node, and nothing of any other
memory (R154 to R157, R162 to R165, R175); and XCHG also loads A with what was there (R194). -/
def Obligations.TillerStoresWriteTheirBytes : Prop :=
  ∀ (s : State) (t : Nat) (f : TForm) (ea : Nat), s.Canon → Ready s t f → opEa f (s.thread t) = some ea → (s.thread t).mode ≠ 1 →
    let ends := fun (c : Instr) (s' : State) => exec c s = .next (if s'.due = [] then s' else s'.finish)
    (∀ b : Bytes, b.length ∈ [1, 2, 4] → ea % b.length = 0 → StoresBytes (s.past t f) t f ea b) ∧
    (∀ s', (s.past t f).engWr { t, f } ea (natLE 4 (s.thread t).a.toNat) 4 = .done s' →
      (okForm [.d8] [1, 2, 3] f = true → ends (.sta t f) s') ∧
      (okForm [] [1] f = true → ∀ v, Reads (s.past t f) t f 4 v →
        ends (.xchg t f) (s'.modThread t fun h => { h with a := BitVec.ofNat 32 v }))) ∧
    (∀ s', (s.past t f).engWr { t, f } ea (natLE 1 (s.thread t).a.toNat) 1 = .done s' → okForm [] [1, 2, 3] f = true →
      ends (.stb t f) s') ∧
    (∀ s', (s.past t f).engWr { t, f } ea (natLE 2 (s.thread t).a.toNat) 2 = .done s' → okForm [] [1, 2, 3] f = true →
      ends (.sth t f) s') ∧
    (∀ s', (s.past t f).engWr { t, f } ea (natLE 2 (s.thread t).x.toNat) 2 = .done s' → okForm [.d8] [1, 2, 3] f = true →
      ends (.stx t f) s') ∧
    (∀ s', (s.past t f).engWr { t, f } ea (natLE 2 (s.thread t).y.toNat) 2 = .done s' → okForm [.d8] [1, 2, 3] f = true →
      ends (.sty t f) s')

/-- Addition, subtraction and comparison on A, X and Y: the result, and N, Z, C and V as R219 and R220 give them; the comparisons write
FL alone. -/
def Obligations.TillerAddSubFlags : Prop :=
  ∀ (s : State) (t : Nat) (f : TForm), s.Canon → Ready s t f →
    (∀ v, Reads (s.past t f) t f 4 v →
      (okForm [.i8, .d8] [0, 1, 2, 3] f = true →
        (∃ fl, AddFlags (s.thread t).fl fl (s.thread t).a (BitVec.ofNat 32 v) 0 ∧ exec (.add t f) s =
          .next ((s.past t f).modThread t fun h => { h with a := h.a + BitVec.ofNat 32 v, fl })) ∧
        (∃ fl, SubFlags (s.thread t).fl fl (s.thread t).a (BitVec.ofNat 32 v) 0 ∧ exec (.sub t f) s =
          .next ((s.past t f).modThread t fun h => { h with a := h.a - BitVec.ofNat 32 v, fl })) ∧
        (∃ fl, SubFlags (s.thread t).fl fl (s.thread t).a (BitVec.ofNat 32 v) 0 ∧ exec (.cmp t f) s =
          .next ((s.past t f).modThread t fun h => { h with fl }))) ∧
      (okForm [] [0, 1, 2, 3] f = true →
        (∃ fl, AddFlags (s.thread t).fl fl (s.thread t).a (BitVec.ofNat 32 v) (b2n (flBit (s.thread t).fl 0)) ∧
          exec (.adc t f) s = .next ((s.past t f).modThread t fun h =>
            { h with a := h.a + BitVec.ofNat 32 v + BitVec.ofNat 32 (b2n (flBit h.fl 0)), fl })) ∧
        (∃ fl, SubFlags (s.thread t).fl fl (s.thread t).a (BitVec.ofNat 32 v) (1 - b2n (flBit (s.thread t).fl 0)) ∧
          exec (.sbc t f) s = .next ((s.past t f).modThread t fun h =>
            { h with a := h.a - BitVec.ofNat 32 v - BitVec.ofNat 32 (1 - b2n (flBit h.fl 0)), fl })))) ∧
    (∀ v, ReadsLow (s.past t f) t f v → okForm [.d8] [0, 1, 2, 3] f = true →
      (∃ fl, Sub16Flags (s.thread t).fl fl (s.thread t).x (BitVec.ofNat 16 v) ∧ exec (.cpx t f) s =
        .next ((s.past t f).modThread t fun h => { h with fl })) ∧
      (∃ fl, Sub16Flags (s.thread t).fl fl (s.thread t).y (BitVec.ofNat 16 v) ∧ exec (.cpy t f) s =
        .next ((s.past t f).modThread t fun h => { h with fl }))) ∧
    (okUna 0 f = true → ∃ fl, SubFlags (s.thread t).fl fl 0 (s.thread t).a 0 ∧ exec (.unaNeg t f) s =
      .next ((s.past t f).modThread t fun h => { h with a := 0 - h.a, fl })) ∧
    (okUna 2 f = true → ∃ fl, AddFlags (s.thread t).fl fl (s.thread t).a 1 0 ∧ exec (.unaInc t f) s =
      .next ((s.past t f).modThread t fun h => { h with a := h.a + 1, fl })) ∧
    (okUna 3 f = true → ∃ fl, SubFlags (s.thread t).fl fl (s.thread t).a 1 0 ∧ exec (.unaDec t f) s =
      .next ((s.past t f).modThread t fun h => { h with a := h.a - 1, fl }))

/-- The logical operations and the extensions of A: the result, bit by bit, N and Z of it, and C and V as they were; BIT writes FL alone
(R174, R175, R219). -/
def Obligations.TillerLogicBits : Prop :=
  ∀ (s : State) (t : Nat) (f : TForm), s.Canon → Ready s t f →
    (∀ v, Reads (s.past t f) t f 4 v →
      (okForm [.d8] [0, 1, 2, 3] f = true →
        SetsA s t f (.and t f) (fun k => (s.thread t).a.getLsbD k && v.testBit k) ∧
        SetsA s t f (.or t f) (fun k => (s.thread t).a.getLsbD k || v.testBit k) ∧
        SetsA s t f (.xor t f) (fun k => (s.thread t).a.getLsbD k != v.testBit k)) ∧
      (okForm [] [0, 1, 2, 3] f = true → ∃ fl r, (∀ k, k < 32 → r.getLsbD k = ((s.thread t).a.getLsbD k && v.testBit k)) ∧
        NZAre (s.thread t).fl fl r ∧ exec (.bit t f) s = .next ((s.past t f).modThread t fun h => { h with fl }))) ∧
    (okUna 1 f = true → SetsA s t f (.unaNot t f) (fun k => !(s.thread t).a.getLsbD k)) ∧
    (okUna 4 f = true → SetsA s t f (.unaSxb t f) (fun k => (s.thread t).a.getLsbD (min k 7))) ∧
    (okUna 5 f = true → SetsA s t f (.unaSxh t f) (fun k => (s.thread t).a.getLsbD (min k 15))) ∧
    (okUna 6 f = true → SetsA s t f (.unaZxb t f) (fun k => (s.thread t).a.getLsbD k && decide (k < 8))) ∧
    (okUna 7 f = true → SetsA s t f (.unaZxh t f) (fun k => (s.thread t).a.getLsbD k && decide (k < 16)))

/-- Shifts and rotates: every entry of the table of R223, for the whole operand (R222), and V as it was. -/
def Obligations.TillerShiftsAndRotates : Prop :=
  ∀ (s : State) (t : Nat) (f : TForm) (n : Nat), s.Canon → Ready s t f → Reads (s.past t f) t f 4 n →
    (okForm [.i8] [0, 1, 2, 3] f = true →
      Shifts s t f n (.shl t f)
        (fun k => decide (n ≤ k) && (s.thread t).a.getLsbD (k - n))
        (decide (n ≤ 32) && (s.thread t).a.getLsbD (32 - n)) ∧
      Shifts s t f n (.shr t f) (fun k => (s.thread t).a.getLsbD (k + n))
        (decide (n ≤ 32) && (s.thread t).a.getLsbD (n - 1)) ∧
      Shifts s t f n (.sar t f) (fun k => (s.thread t).a.getLsbD (min (k + n) 31)) ((s.thread t).a.getLsbD (min (n - 1) 31)) ∧
      Shifts s t f n (.rol t f) (fun k => (s.thread t).a.getLsbD ((k + 32 - n % 32) % 32))
        ((s.thread t).a.getLsbD ((32 - n % 32) % 32))) ∧
    (okForm [] [0, 1, 2, 3] f = true →
      Shifts s t f n (.ror t f) (fun k => (s.thread t).a.getLsbD ((k + n) % 32)) ((s.thread t).a.getLsbD ((31 + n) % 32)))

/-- ADX and ADY add a signed byte modulo 2^16; PSET makes the condition of R173 a predicate, alone or ANDed; PLOG combines two
predicates; P0 stays 1; no flag changes (R146, R173, R174, R175, R221). -/
def Obligations.TillerIndexAndPredicates : Prop :=
  ∀ (s : State) (t : Nat) (f : TForm), s.Canon → Ready s t f →
    (okForm [.s8] [] f = true →
      exec (.adx t f) s = .next ((s.past t f).modThread t fun h => { h with x := BitVec.ofInt 16 (h.x.toInt + (BitVec.ofNat 8 (opImm f)).toInt) }) ∧
      exec (.ady t f) s = .next ((s.past t f).modThread t fun h => { h with y := BitVec.ofInt 16 (h.y.toInt + (BitVec.ofNat 8 (opImm f)).toInt) })) ∧
    (okForm [.pc] [] f = true → ∃ b, (b = true ↔ CondHolds (s.thread t).fl (opImm f % 16)) ∧
      SetsP s t f (.pset t f) (opImm f / 16 % 8) (b && (decide (opImm f < 128) || predBit (s.thread t) (opImm f / 16 % 8)))) ∧
    (okPlog 0 f = true → SetsP s t f (.plogAnd t f) (opImm f % 8)
      (predBit (s.thread t) (opImm f / 16 % 8) && predBit (s.thread t) (opImm f / 256 % 8))) ∧
    (okPlog 1 f = true → SetsP s t f (.plogOr t f) (opImm f % 8)
      (predBit (s.thread t) (opImm f / 16 % 8) || predBit (s.thread t) (opImm f / 256 % 8))) ∧
    (okPlog 2 f = true → SetsP s t f (.plogXor t f) (opImm f % 8)
      (predBit (s.thread t) (opImm f / 16 % 8) != predBit (s.thread t) (opImm f / 256 % 8))) ∧
    (okPlog 3 f = true → SetsP s t f (.plogAndNot t f) (opImm f % 8)
      (predBit (s.thread t) (opImm f / 16 % 8) && !predBit (s.thread t) (opImm f / 256 % 8)))

/-- MUL and MULS wait for MRDY, then start the 64-bit product of A and the operand, unsigned and two's-complement, and end a division;
PRODUCT_READY shows the product in MH:ML with MRDY 1 (R225, R227, R229, R234). No flag changes.
DSETUP and DSETUPS prepare a division (R231), and a DSTEP before the 32nd moves one bit of MH:ML by a 33-bit compare and changes no
flag but C (R232); with no division in progress it changes nothing (R235). -/
def Obligations.TillerMultiplyAndDivide : Prop :=
  (
  (∀ (s : State) (t : Nat) (f : TForm) (v : Nat), s.Canon → Ready s t f → Reads (s.past t f) t f 4 v →
    okForm [.d8] [0, 1, 2, 3] f = true →
    ((s.thread t).mrdy = false → exec (.mul t f) s = .next s ∧ exec (.muls t f) s = .next s) ∧
    ((s.thread t).mrdy = true →
      exec (.mul t f) s = .next ((s.past t f).modThread t fun h =>
        { h with product := some (BitVec.ofNat 64 (h.a.toNat * (v % 2 ^ 32))), lat := mulLat false (BitVec.ofNat 32 v), mrdy := false, div := none }) ∧
      exec (.muls t f) s = .next ((s.past t f).modThread t fun h =>
        { h with product := some (BitVec.ofInt 64 (h.a.toInt * (BitVec.ofNat 32 v).toInt)), lat := mulLat true (BitVec.ofNat 32 v), mrdy := false, div := none }))) ∧
  (∀ (s : State) (t : Nat) (p : BitVec 64), s.running = true → t < 1024 → (s.thread t).product = some p →
    exec (.productReady t) s = .next (s.modThread t fun h =>
      { h with mh := BitVec.ofNat 32 (p.toNat / 2 ^ 32), ml := BitVec.ofNat 32 p.toNat, mrdy := true, product := none }))) ∧ (
  ∀ (s : State) (t : Nat) (f : TForm), s.Canon → Ready s t f → (s.thread t).mrdy = true →
    (∀ v, Reads (s.past t f) t f 4 v → okForm [] [0, 1, 2, 3] f = true →
      ∃ fl, (∀ k, flBit fl k = if k = 4 then BitVec.ofNat 32 v == 0 else flBit (s.thread t).fl k) ∧
        exec (.dsetup t f) s = .next ((s.past t f).modThread t fun h => { h with
          mh := 0, ml := h.a, fl, div := some { divisor := BitVec.ofNat 32 v, signed := false, negDividend := false, negDivisor := false } }) ∧
        exec (.dsetups t f) s = .next ((s.past t f).modThread t fun h => { h with
          mh := 0, ml := BitVec.ofNat 32 h.a.toInt.natAbs, fl,
          div := some { divisor := BitVec.ofNat 32 (BitVec.ofNat 32 v).toInt.natAbs, signed := true, negDividend := h.a.msb,
                        negDivisor := (BitVec.ofNat 32 v).msb } })) ∧
    (okForm [.zero] [] f = true →
      ((s.thread t).div = none → exec (.dstep t f) s = .next (s.past t f)) ∧
      (∀ d, (s.thread t).div = some d → d.count ≠ 31 →
        let w := 2 * ((s.thread t).mh.toNat * 2 ^ 32 + (s.thread t).ml.toNat)
        let one := decide (d.divisor.toNat ≤ w / 2 ^ 32)
        ∃ fl, (∀ k, flBit fl k = if k = 0 then one else flBit (s.thread t).fl k) ∧
          exec (.dstep t f) s = .next ((s.past t f).modThread t fun h => { h with
            mh := BitVec.ofNat 32 (w / 2 ^ 32) - (if one then d.divisor else 0), ml := BitVec.ofNat 32 (w + b2n one), fl,
            div := some { d with count := d.count + 1 } }))))

/-- A setup and 32 steps divide, for every dividend and divisor (R231 to R233, R236): quotient in ML, remainder in MH, N and Z of the
quotient, V only for the one signed overflow, DZ for a zero divisor; A is as before. -/
def Obligations.TillerDivisionIn32Steps : Prop :=
  ∀ (s : State) (t : Nat) (f g : TForm) (v : Nat), s.Canon → Ready s t f → Reads (s.past t f) t f 4 v → (s.thread t).mrdy = true →
    okForm [] [0, 1, 2, 3] f = true → okForm [.zero] [] g = true → opGuard g (s.thread t) = true →
    let a := (s.thread t).a
    let b := BitVec.ofNat 32 v
    (∃ u, runAll (.dsetup t f :: List.replicate 32 (.dstep t g)) s = some u ∧ (u.thread t).div = none ∧ (u.thread t).a = a ∧
      (b ≠ 0 → (u.thread t).ml = a / b ∧ (u.thread t).mh = a % b) ∧
      (b = 0 → (u.thread t).ml = 0xFFFFFFFF ∧ (u.thread t).mh = a) ∧
      flBit (u.thread t).fl 2 = (u.thread t).ml.msb ∧ flBit (u.thread t).fl 1 = ((u.thread t).ml == 0) ∧
      flBit (u.thread t).fl 3 = false ∧ flBit (u.thread t).fl 4 = (b == 0)) ∧
    (∃ u, runAll (.dsetups t f :: List.replicate 32 (.dstep t g)) s = some u ∧ (u.thread t).div = none ∧ (u.thread t).a = a ∧
      (b ≠ 0 → (u.thread t).ml = BitVec.ofInt 32 (a.toInt.tdiv b.toInt) ∧ (u.thread t).mh = BitVec.ofInt 32 (a.toInt.tmod b.toInt)) ∧
      (b = 0 → (u.thread t).ml = (if a.msb then 1 else 0xFFFFFFFF) ∧ (u.thread t).mh = a) ∧
      flBit (u.thread t).fl 2 = (u.thread t).ml.msb ∧ flBit (u.thread t).fl 1 = ((u.thread t).ml == 0) ∧
      flBit (u.thread t).fl 3 = (a == 0x80000000 && b == 0xFFFFFFFF) ∧ flBit (u.thread t).fl 4 = (b == 0))

/-- Branches: BRA and DBNZ go a signed number of halfwords from the next instruction, DBNZ while X − 1 is not zero; JMP goes to its
operand, halfword-aligned (R169, R175, R178). -/
def Obligations.TillerBranches : Prop :=
  ∀ (s : State) (t : Nat) (f : TForm), s.Canon → Ready s t f →
    let next := ((s.past t f).thread t).pc
    let target := next + BitVec.ofInt 16 (2 * (BitVec.ofNat 8 (opImm f)).toInt)
    (okForm [.b8] [] f = true →
      exec (.bra t f) s = .next ((s.past t f).modThread t fun h => { h with pc := target }) ∧
      exec (.dbnz t f) s = .next ((s.past t f).modThread t fun h =>
        { h with x := h.x - 1, pc := if (s.thread t).x = 1 then next else target })) ∧
    (∀ v, Reads (s.past t f) t f 2 v → okForm [] [0, 1, 2, 3] f = true →
      exec (.jmp t f) s = .next ((s.past t f).modThread t fun h => { h with pc := BitVec.ofNat 16 (v / 2 * 2) }))

/-- CALL and CALLA push the mask's registers from bit 0 up and the return word, each a slot below the one before, change nothing else of
the private bank, and go to the target (R175, R179); with no room for the return word they trap STACK at the instruction (R181); out of a
routine's own code they trap ILLEGAL (R213).
RET pops the return word and the slots of its call mask from bit 7 down, restores the registers in both masks and none other, and
goes on from the return word (R180); out of a routine's own code it traps ILLEGAL (R213). Nothing is written to memory. -/
def Obligations.TillerCallAndReturn : Prop :=
  (
  ∀ (s : State) (t : Nat) (f : TForm), s.Canon → Ready s t f →
    let p := s.pcPast t (opSize f)
    let sp := (s.thread t).sp.toNat
    ∀ (ins : Instr) (mask target : Nat),
      (ins = .call t f ∧ okForm [] [0, 1, 2, 3] f = true ∧ mask = callWord f % 256 ∧ target = callWord f / 256 * 64) ∨
      (ins = .calla t f ∧ okForm [] [0] f = true ∧ mask = opImm f % 256 ∧ target = (s.thread t).a.toNat % 65536) →
      let inside := ∀ c, (s.thread t).shadow = some c → Config.ownCode c.entry.toNat target = true
      (¬ inside → exec ins s = .next (s.doTrap t 4 0 (opSize f) 0).finish) ∧
      (inside → sp % 4 = 0 → sp ≤ 0xFC0 → 0x404 + slotsBelow mask 8 ≤ sp →
        ∃ m, exec ins s = .next ({ p with tpriv := m }.modThread t fun h =>
            { h with sp := BitVec.ofNat 16 (sp - slotsBelow mask 8 - 4), pc := BitVec.ofNat 16 (target / 2 * 2) }) ∧
          m.le (t * 4096 + (sp - slotsBelow mask 8 - 4)) 4 = (p.thread t).pc.toNat + 65536 * mask ∧
          (∀ k, k < 8 → bitOn mask k = true →
            m.le (t * 4096 + (sp - slotsBelow mask (k + 1))) (slotSize k) = (s.thread t).slot k) ∧
          (∀ a, a < t * 4096 + (sp - slotsBelow mask 8 - 4) ∨ t * 4096 + sp ≤ a → m.rd a = s.tpriv.rd a)) ∧
      (inside → mask = 0 → sp < 0x404 → exec ins s = .next (((p.modThread t fun h => { h with pc := (s.thread t).pc }).doTrap t 7 0 4 0).finish))) ∧ (
  ∀ (s : State) (t : Nat) (f : TForm), s.Canon → Ready s t f → okForm [.m8] [] f = true →
    let sp := (s.thread t).sp.toNat
    let w := s.tpriv.le (t * 4096 + sp) 4
    let call := w / 65536 % 256
    let slot := fun k => s.tpriv.le (t * 4096 + (sp + 4 + (slotsBelow call 8 - slotsBelow call (k + 1)))) (slotSize k)
    let both := fun k => bitOn call k && bitOn (opImm f) k
    let inside := ∀ c, (s.thread t).shadow = some c → Config.ownCode c.entry.toNat (w % 65536) = true
    sp % 4 = 0 → sp + 4 + slotsBelow call 8 ≤ 0xFC0 →
      (¬ inside → exec (.ret t f) s = .next (s.doTrap t 4 0 (opSize f) 0).finish) ∧
      (inside → ∃ h, exec (.ret t f) s = .next ((s.past t f).setThread t h) ∧
        h.pc = BitVec.ofNat 16 (w % 65536 / 2 * 2) ∧ h.sp.toNat = sp + 4 + slotsBelow call 8 ∧
        h.a = (if both 0 then BitVec.ofNat 32 (slot 0) else (s.thread t).a) ∧
        h.x = (if both 1 then BitVec.ofNat 16 (slot 1) else (s.thread t).x) ∧
        h.y = (if both 2 then BitVec.ofNat 16 (slot 2) else (s.thread t).y) ∧
        h.bk = (if both 3 then BitVec.ofNat 8 (slot 3) else (s.thread t).bk) ∧
        (∀ k, flBit h.fl k = if both 4 && decide (k < 5) then (slot 4).testBit k else flBit (s.thread t).fl k) ∧
        h.pr = (if both 5 then BitVec.ofNat 8 (slot 5) ||| 1 else (s.thread t).pr) ∧
        h.fa = (if both 6 then BitVec.ofNat 64 (slot 6) else (s.thread t).fa) ∧
        h.fpcr = (if both 7 then BitVec.ofNat 32 (slot 7) &&& 0x1F7 else (s.thread t).fpcr) ∧
        h.mh = (s.thread t).mh ∧ h.ml = (s.thread t).ml ∧ h.fpsr = (s.thread t).fpsr ∧ h.furrow = (s.thread t).furrow ∧
        h.ev = (s.thread t).ev ∧ h.timer = (s.thread t).timer))

/-- Taking a trap (R4, R182 to R184, R186, R216): outside a routine the frame holds RETPC, CAUSE, STEP, INFO, FL and PR and zero in its reserved
bytes, TIP is set, PC is the cause's vector, and nothing else changes; in a routine RETPC is the XCALL, RPC the routine's instruction, the
firmware's registers return, PC is the XTRAP vector, and the chain ends with UC and TRANSFORM_TRAP; with TIP set, the thread stops and a
double trap is reported.
RTE restores FL[4:0] and PR from the frame, clears TIP, keeps MODE and goes on at RETPC (R185). -/
def Obligations.TrapEntryAndReturn : Prop :=
  (
  ∀ (s : State) (t cause info size step : Nat), s.Canon → cause < 16 → step < 64 → info < 2 ^ 32 →
    let h := s.thread t
    let a := t * 4096 + 0xFF0
    (flBit h.fl 7 = false → h.shadow = none →
      ∃ m, s.doTrap t cause info size step = { s with tpriv := m }.modThread t (fun k => { k with fl := k.fl ||| 0x80, pc := BitVec.ofNat 16 (4 * cause) }) ∧
        m.le a 2 = (if cause = 10 then (h.pc + BitVec.ofNat 16 size).toNat else h.pc.toNat) ∧ m.le (a + 2) 1 = cause ∧
        m.le (a + 3) 1 = step ∧ m.le (a + 4) 4 = info ∧ m.rd (a + 8) = h.fl ∧ m.rd (a + 9) = h.pr ∧
        m.le (a + 10) 6 = 0 ∧ ∀ k, k < a ∨ a + 16 ≤ k → m.rd k = s.tpriv.rd k) ∧
    (∀ c, flBit h.fl 7 = false → h.shadow = some c →
      ∃ m, (let u := { s with tpriv := m }.setThread t { h.unshadow c with fl := (h.unshadow c).fl ||| 0x80, pc := 12 }
          s.doTrap t cause info size step = (match h.bind with | .sc sc => u.owe (.xtrap sc) | _ => u)) ∧
        m.le a 2 = (c.pc - 4).toNat ∧ m.le (a + 2) 1 = cause ∧ m.le (a + 3) 1 = step ∧ m.le (a + 4) 4 = info ∧
        m.rd (a + 8) = h.fl ∧ m.rd (a + 9) = h.pr ∧ m.le (a + 10) 2 = h.pc.toNat ∧ m.le (a + 12) 4 = 0 ∧
        ∀ k, k < a ∨ a + 16 ≤ k → m.rd k = s.tpriv.rd k) ∧
    (flBit h.fl 7 = true →
      s.doTrap t cause info size step = (s.modThread t fun k => { k with stopped := true }).report (8 + groupOf t)) ∧
    (∀ sc, s.due = [.xtrap sc] →
      s.finish = (State.dueGo 9 ({ s with due := [] }.endChain sc { bits := 4, code := 7, info := 0 })).wake.settle)) ∧ (
  ∀ (s : State) (t : Nat) (f : TForm), s.Canon → Ready s t f → okForm [.zero] [] f = true → (s.thread t).mode ≠ 1 →
    let a := t * 4096 + 0xFF0
    ∃ fl pr, (∀ k, flBit fl k = if k < 5 then flBit (s.tpriv.rd (a + 8)) k else decide (k ≠ 7) && flBit (s.thread t).fl k) ∧
      (∀ k, flBit pr k = if k = 0 then true else flBit (s.tpriv.rd (a + 9)) k) ∧
      exec (.rte t f) s = .next ((s.past t f).modThread t fun h =>
        { h with fl, pr, pc := BitVec.ofNat 16 (s.tpriv.le a 2 / 2 * 2) }))

/-- What traps, and with which cause and INFO (R174, R176, R182, R199, R203, R216): TRAP in normal mode; every Tiller instruction of a form
its row does not allow, or outside Cloche mode where its row needs it; an undefined opcode; and a routine whose budget is spent. -/
def Obligations.TillerInstructionsThatTrap : Prop :=
  ∀ (s : State) (t : Nat),
    (∀ f, Ready s t f → okForm [.i8] [] f = true → (s.thread t).mode ≠ 1 →
      exec (.trap t f) s = .next (s.doTrap t 10 (opImm f) 2 0).finish) ∧
    (∀ (c : Instr) (i : TInfo) (f : TForm), insnOf c = some (i, t, f) → Ready s t f → (i.mul = true → (s.thread t).mrdy = true) →
      (i.cloche = false → i.legal f = false → exec c s = .next (s.doTrap t 4 0 (opSize f) 0).finish) ∧
      (i.cloche = true → (s.thread t).mode ≠ 2 → exec c s = .next (s.doTrap t 4 1 (opSize f) 0).finish)) ∧
    (∀ w0 w1 : BitVec 16, Ready s t (formOf w0.toNat w1.toNat) → UndefinedOpcode w0.toNat →
      exec (.undefinedOpcode t w0 w1) s = .next (s.doTrap t 4 0 (opSize (formOf w0.toNat w1.toNat)) 0).finish) ∧
    (s.running = true → t < 1024 → (s.thread t).shadow.isSome = true → (s.thread t).budget ≠ 0 → (s.thread t).stopped = false →
      exec (.watchdog t) s = .next (s.doTrap t 11 0 4 0).finish)

/-- A guard that does not hold: the instruction changes nothing but PC, of any Tiller instruction and any form (R171). -/
def Obligations.GuardFalseChangesNothing : Prop :=
  ∀ (s : State) (c : Instr) (i : TInfo) (t : Nat) (f : TForm), insnOf c = some (i, t, f) → Issues s t → opGuard f (s.thread t) = false →
    exec c s = .next (s.modThread t fun h => { h with pc := h.pc + BitVec.ofNat 16 (opSize f) })

/-- Events: WAIT completes with the pending events it names in A and clears the latched ones among them, or waits; WAIT_WAKE completes a
waiting WAIT once one is pending; TMR sets the thread timer and its expiry latches TIMER; FENCE passes once no window store of the thread
waits for its node, and stalls until then (R165, R174, R187, R188). Event 0 is a packet at the read position. -/
def Obligations.TillerEventsAndWait : Prop :=
  ∀ (s : State) (t : Nat), s.Canon →
    (∃ e : Byte, (∀ k, flBit e k = if k = 0 then (s.pkt t 0).isSome else decide (k < 7) && flBit (s.thread t).ev k) ∧
      (∀ f, Ready s t f → okForm [.e8] [] f = true → (s.thread t).mode ≠ 1 →
        (e &&& BitVec.ofNat 8 (opImm f) ≠ 0 → exec (.wait t f) s = .next ((s.past t f).modThread t fun h => { h with
          a := (e &&& BitVec.ofNat 8 (opImm f)).setWidth 32, ev := h.ev &&& ~~~(e &&& BitVec.ofNat 8 (opImm f)), waiting := none })) ∧
        (e &&& BitVec.ofNat 8 (opImm f) = 0 → exec (.wait t f) s = .next ((s.past t f).modThread t fun h =>
          { h with waiting := some (BitVec.ofNat 8 (opImm f)) }))) ∧
      (∀ m, (s.thread t).waiting = some m → s.running = true → t < 1024 → (s.thread t).stopped = false → e &&& m ≠ 0 →
        exec (.waitWake t) s = .next (s.modThread t fun h =>
          { h with a := (e &&& m).setWidth 32, ev := h.ev &&& ~~~(e &&& m), waiting := none }))) ∧
    (∀ f v, Ready s t f → Reads (s.past t f) t f 4 v → okForm [] [0, 1, 2, 3] f = true → (s.thread t).mode ≠ 1 →
      exec (.tmr t f) s = .next ((s.past t f).modThread t fun h => { h with timer := BitVec.ofNat 32 v })) ∧
    (s.running = true → t < 1024 → (s.thread t).timer ≠ 0 →
      exec (.threadTimerExpiry t) s = .next (s.modThread t fun h => { h with timer := 0, ev := h.ev ||| 4 })) ∧
    (∀ f, Ready s t f → okForm [.zero] [] f = true → (s.thread t).mode ≠ 1 → 
      exec (.fence t f) s = .next (if s.winStores t = 0 then s.past t f else s))

/-- The consumer operations of the thread Furrow: NEXT, FMARK, FREWIND and REL act on the read position, the mark and the release point as
the table gives, and change nothing else of the device (R448, R449). -/
def Obligations.FurrowConsumerOperations : Prop :=
  ∀ (s : State) (t : Nat) (f : TForm), s.Canon → Ready s t f → okForm [.zero] [] f = true → (s.thread t).mode ≠ 1 →
    let fu := (s.thread t).furrow
    let sets := fun (c : Instr) (g : Furrow) => exec c s = .next ((s.past t f).modThread t fun h => { h with furrow := g })
    ((s.pkt t 0).isSome = true → sets (.next t f) { fu with rd := fu.rd + 1, staleRaised := false }) ∧
    ((s.pkt t 0).isSome = false → exec (.next t f) s = .next (s.past t f)) ∧
    sets (.fmark t f) { fu with mark := some fu.rd } ∧
    (∀ m, fu.mark = some m → sets (.frewind t f) { fu with rd := m, staleRaised := false }) ∧
    (fu.mark = none → sets (.frewind t f) { fu with staleRaised := false }) ∧
    (∃ g, exec (.rel t f) s = .next ((s.past t f).modThread t fun h => { h with furrow := g }).finish ∧ g.pkts = fu.pkts.drop fu.rd ∧ g.rd = 0 ∧ g.opens = fu.opens ∧
      (∀ m, fu.mark = some m → g.mark = if m < fu.rd then none else some (m - fu.rd)) ∧ (fu.mark = none → g.mark = none))

/-- FLD, FST, FNEG and FABS move bits, of the format in force, NaNs included, raise no flag and trap no FPE; a binary32 result clears
FA[63:32] (R149, R150, R249). FCMP orders FA and op, ±0 equal, and a NaN gives unordered (R250). -/
def Obligations.FpMovesAndCompares : Prop :=
  ∀ (s : State) (t : Nat) (f : TForm), s.Canon → Ready s t f →
    let h := s.thread t
    (∀ b, ReadsFp (s.past t f) t f 1 b → okForm [] [1, 2, 3] f = true →
      exec (.fld t f) s = .next ((s.past t f).modThread t fun h => { h with fa := BitVec.ofNat 64 (leNat b) }) ∧
      (h.fpcr.toNat / 16 % 2 = 0 ∨ ¬ (isSnan h.dbl h.faVal = true ∨ isSnan h.dbl (leNat b) = true) →
        ∃ fl, FpOrder h.dbl h.faVal (leNat b) h.fl fl ∧
          exec (.fcmp t f) s = .next ((s.past t f).modThread t fun k => { k with
            fl, fpsr := k.fpsr ||| (if isSnan h.dbl h.faVal = true ∨ isSnan h.dbl (leNat b) = true then 1 else 0) }))) ∧
    (∀ ea s', opEa f h = some ea → okForm [] [1, 2, 3] f = true →
      (s.past t f).engWr { t, f } ea (natLE h.fpBytes h.fa.toNat) h.fpBytes = .done s' →
      exec (.fst t f) s = .next (if s'.due = [] then s' else s'.finish)) ∧
    (okV 0 f = true → ∃ n a : BitVec 64, exec (.fneg t f) s = .next ((s.past t f).modThread t fun h => { h with fa := n }) ∧
      exec (.fabs t f) s = .next ((s.past t f).modThread t fun h => { h with fa := a }) ∧
      ∀ k, n.getLsbD k = (if k = fpS h.dbl then !h.fa.getLsbD k else decide (k < fpS h.dbl) && h.fa.getLsbD k) ∧
        a.getLsbD k = (decide (k < fpS h.dbl) && h.fa.getLsbD k))

/-- The computing floating-point instructions complete with the result of their operation under RM in FA (A for FCVTI) and the flags it raises
ORed into FPSR, as long as none of these flags is enabled in TEN; with one enabled they trap FPE with every flag raised and write
nothing (R238, R239, R241, R243). -/
def Obligations.FpResultsAndTraps : Prop :=
  ∀ (s : State) (t : Nat) (f : TForm), s.Canon → Ready s t f →
    let h := s.thread t
    let p := s.past t f
    let gives := fun (c : Instr) (r : FRes) =>
      ((h.raised r) &&& (h.fpcr.toNat / 16 % 32) = 0 → exec c s = .next (p.modThread t fun k =>
        { k with fa := BitVec.ofNat 64 r.bits, fpsr := k.fpsr ||| BitVec.ofNat 32 r.flags })) ∧
      ((h.raised r) &&& (h.fpcr.toNat / 16 % 32) ≠ 0 → exec c s = .next (s.doTrap t 8 (h.raised r) 4 0).finish)
    (∀ b, ReadsFp p t f 1 b → okForm [] [1, 2, 3] f = true →
      gives (.fadd t f) (fpAdd h.dbl h.rm h.faVal (leNat b) false) ∧ gives (.fsub t f) (fpAdd h.dbl h.rm h.faVal (leNat b) true) ∧
      gives (.fmul t f) (fpMul h.dbl h.rm h.faVal (leNat b)) ∧ gives (.fdiv t f) (fpDiv h.dbl h.rm h.faVal (leNat b)) ∧
      gives (.fmaa t f) (fpFmaa h.dbl h.rm h.a.toInt (leNat b) h.faVal)) ∧
    (∀ b b', ReadsFp p t f 2 (b ++ b') → b.length = h.fpBytes → okForm [] [1, 2, 3] f = true →
      gives (.fma t f) (fpFma h.dbl h.rm (leNat b) (leNat b') h.faVal)) ∧
    (okV 0 f = true → gives (.fsqrt t f) (fpSqrt h.dbl h.rm h.faVal) ∧ gives (.fcvtf t f) (fpOfInt h.dbl h.rm h.a.toInt) ∧
      ((fpToInt h.dbl h.rm h.faVal).2 &&& (h.fpcr.toNat / 16 % 32) = 0 →
        ∃ fl, NZAre h.fl fl (fpToInt h.dbl h.rm h.faVal).1 ∧ exec (.fcvti t f) s = .next (p.modThread t fun k =>
          { k with a := (fpToInt h.dbl h.rm h.faVal).1, fl, fpsr := k.fpsr ||| BitVec.ofNat 32 (fpToInt h.dbl h.rm h.faVal).2 })) ∧
      ((fpToInt h.dbl h.rm h.faVal).2 &&& (h.fpcr.toNat / 16 % 32) ≠ 0 →
        exec (.fcvti t f) s = .next (s.doTrap t 8 (fpToInt h.dbl h.rm h.faVal).2 4 0).finish))

/-- One rounding: the result for a nonzero exact value m × 2^e, where it does not overflow, differs from it by less than one unit in the
last place, by at most half of one to nearest, on the side that RM names, and inexact is raised exactly when it differs (R238, R241,
R149). An overflow gives the largest finite magnitude or infinity as R242 has it, with overflow and inexact.
Operations with a NaN operand, and invalid ones: the result is the first signalling NaN made quiet, else the first quiet NaN, with
invalid for a signalling one (and for FMA's 0 × ∞, even beside a quiet NaN); an invalid operation with no NaN gives the default NaN
(R241, R245, R246, R247). -/
def Obligations.FpResultValues : Prop :=
  (
  ∀ (d : Bool) (rm : Nat) (neg : Bool) (m : Nat) (e : Int), m ≠ 0 → rm < 4 →
    let r := roundFp d rm neg m e
    let x : ℚ := m * (2 : ℚ) ^ e
    let u : ℚ := (2 : ℚ) ^ max (e + bitLen m - (fpF d + 1)) (fpMin d)
    (r.flags &&& 4 = 0 →
      let v : ℚ := fpM d r.bits * (2 : ℚ) ^ fpE d r.bits
      fpNeg d r.bits = neg ∧ isInf d r.bits = false ∧ isNan d r.bits = false ∧ |v - x| < u ∧ (r.flags &&& 16 = 0 ↔ v = x) ∧
      (rm = 0 → 2 * |v - x| ≤ u) ∧ (rm = 1 → v ≤ x) ∧ (rm = 2 → if neg then v ≤ x else x ≤ v) ∧ (rm = 3 → if neg then x ≤ v else v ≤ x)) ∧
    (r.flags &&& 4 ≠ 0 → r.flags = 20 ∧ r.bits = withSign d neg
      (if rm = 0 ∨ (rm = 2 ∧ neg = false) ∨ (rm = 3 ∧ neg = true) then fpInf d else fpInf d - 1))) ∧ (
  ∀ (d : Bool) (rm x y c : Nat),
    let quiet := fun n => n ||| 2 ^ (fpF d - 1)
    let pick := fun (l : List Nat) (r : FRes) (inv : Bool) =>
      (∀ n, l.find? (isSnan d) = some n → r.bits = quiet n ∧ r.flags = 1) ∧
      (∀ n, l.find? (isSnan d) = none → l.find? (isNan d) = some n → r.bits = n ∧ r.flags = if inv then 1 else 0)
    pick [x, y] (fpAdd d rm x y false) false ∧ pick [x, y] (fpAdd d rm x y true) false ∧ pick [x, y] (fpMul d rm x y) false ∧
    pick [x, y] (fpDiv d rm x y) false ∧ pick [x] (fpSqrt d rm x) false ∧
    (∀ a : Int, a ≠ 0 → pick [y, c] (fpFmaa d rm a y c) false) ∧
    pick [x, y, c] (fpFma d rm x y c) ((isInf d x && isZero d y) || (isZero d x && isInf d y)) ∧
    (isNan d x = false → isNan d y = false →
      (isInf d x = true → isInf d y = true → fpNeg d x ≠ fpNeg d y → fpAdd d rm x y false = invalid d) ∧
      (isInf d x = true → isInf d y = true → fpNeg d x = fpNeg d y → fpAdd d rm x y true = invalid d) ∧
      (isInf d x = true → isZero d y = true → fpMul d rm x y = invalid d ∧ fpMul d rm y x = invalid d) ∧
      (isInf d x = true → isInf d y = true → fpDiv d rm x y = invalid d) ∧
      (isZero d x = true → isZero d y = true → fpDiv d rm x y = invalid d) ∧
      (fpNeg d x = true → isZero d x = false → fpSqrt d rm x = invalid d)) ∧
    (invalid d).bits = (if d then 0x7FF8000000000000 else 0x7FC00000) ∧ (invalid d).flags = 1)

/-- XCALL saves the firmware's registers and enters the routine that its index names, with the registers of R212, in routine mode and with
the entry's rounding, format and budget (R210, R212); XRET puts A out as the length, restores the firmware's registers but A, and ORs the
routine's sticky flags into its FPSR (R215). -/
def Obligations.TransformRoutineCallAndReturn : Prop :=
  ∀ (s : State) (t : Nat) (f : TForm), s.Canon → Ready s t f →
    let h := s.thread t
    let p := s.past t f
    let q := p.pktAt t 0
    (∀ v, Reads p t f 4 v → okForm [] [0, 1, 2, 3] f = true → h.mode ≠ 1 → (∀ sc, h.bind = .sc sc → (s.chain sc).fwd = none) →
      let e := s.tmem.le (tillerOf t * 0x40000 + 0x40 + 4 * (v % 256)) 4
      ∃ k c, exec (.xcall t f) s = .next (p.setThread t k) ∧ k.shadow = some c ∧
        c.a = h.a ∧ c.x = h.x ∧ c.y = h.y ∧ c.bk = h.bk ∧ c.sp = h.sp ∧ c.pr = h.pr ∧ c.fa = h.fa ∧ c.fpcr = h.fpcr ∧ c.pc = (p.thread t).pc ∧
        (∀ i, i < 5 → flBit c.fl i = flBit h.fl i) ∧
        k.a.toNat = q.data.length % 2 ^ 32 ∧ k.y = 0x10 ∧ k.x = 0x8010 ∧ k.bk = 0x10 ∧ k.sp = h.sp ∧ k.fa = 0 ∧ k.mode = 1 ∧
        (∀ i, i < 8 → flBit k.pr i = (decide (i = 0) || (decide (i = 1) && q.first) || (decide (i = 2) && q.last))) ∧
        k.fpcr.toNat = bits e 20 2 + 4 * bits e 22 1 ∧ k.budget = bits e 24 8 * 64 ∧ k.pc.toNat = e % 65536 / 2 * 2 ∧
        k.mh = h.mh ∧ k.ml = h.ml ∧ k.fpsr = h.fpsr) ∧
    (∀ c, h.shadow = some c → okForm [.zero] [] f = true → h.a.toNat ≤ 4096 →
      ∃ m : State, exec (.xret t f) s = .next m.finish ∧
        let k := m.thread t
        k.shadow = none ∧ k.a = h.a ∧ k.x = c.x ∧ k.y = c.y ∧ k.bk = c.bk ∧ k.sp = c.sp ∧ k.pr = c.pr ∧ k.fa = c.fa ∧ k.fpcr = c.fpcr ∧
        k.fpsr = c.fpsr ||| h.fpsr ∧ k.pc = c.pc ∧ (∀ i, i < 7 → flBit k.fl i = flBit c.fl i) ∧ k.budget = 0 ∧ k.mh = h.mh ∧ k.ml = h.ml ∧
        k.out = h.out.wrN 0x8000 ((Pkt.bytes { q with
          tag := 0, data := List.replicate h.a.toNat 0, offset := h.sc?.elim 0 fun sc =>
            if readCode (s.chain sc).code then (s.chain sc).out else ((s.chain sc).op.bind s.op).elim 0 fun o => o.sentOff }).take 16))

/-- DISP sends the dispatch record at its operand to the Barrows: one new transfer, waiting to be bound, with the record's operation,
priority, spaces, addresses, length and list offset, in the half of the thread's group and for its subchannel's function (R256, R297,
R298); the fifth one in progress, those of the thread's chain counted, and one behind a window store stall (R195, R301); a record outside banks
0x00 and 0x01 traps BADADDR, an unaligned one ALIGN, a reserved OP ILLEGAL. -/
def Obligations.DispatchStartsTransfer : Prop :=
  ∀ (s : State) (t : Nat) (f : TForm) (ea op : Nat) (c : Instr), s.Canon → Ready s t f → (s.thread t).mode ≠ 1 →
    okForm [] [1, 2, 3] f = true → opEa f (s.thread t) = some ea →
    (c, op) ∈ [(Instr.dispCopy t f, 1), (.dispFill t f, 2), (.dispGather t f, 4), (.dispScatter t f, 5), (.dispDiscard t f, 6)] →
    (0x20000 ≤ ea → exec c s = .next (s.doTrap t 5 ea 4 0).finish) ∧
    (ea < 0x20000 → ea % 8 ≠ 0 → exec c s = .next (s.doTrap t 6 ea 4 0).finish) ∧
    (∀ b, ea < 0x20000 → ea % 8 = 0 → (s.past t f).engRdMany { t, f } ea 8 5 = .val b →
      (leAt b 0 1 % 16 ∉ [1, 2, 4, 5, 6] → exec c s = .next (s.doTrap t 4 0 4 0).finish) ∧
      (leAt b 0 1 % 16 = op → 4 ≤ s.dispCount t ∨ s.winStores t ≠ 0 → exec c s = .next s) ∧
      (leAt b 0 1 % 16 = op → s.dispCount t < 4 → s.winStores t = 0 → s.badDisp (s.dispXfer t ea b) (leAt b 24 2) = false →
        ∃ m v, exec c s = .next m.finish ∧ m.xfer s.nextXfer = some v ∧ m.nextXfer = s.nextXfer + 1 ∧
          m = ((s.past t f).newXfer v).1.modThread t (fun h => { h with disp := h.disp ++ [s.nextXfer] }) ∧
          v.owner = .disp t ea ∧ v.op = op ∧ v.prio = leAt b 1 1 % 16 ∧ v.half = decide (4 ≤ t / 128) ∧ v.srcSpace = leAt b 2 1 % 4 ∧
          v.dstSpace = leAt b 2 1 / 4 % 4 ∧ v.src = leAt b 8 8 ∧ v.dst = leAt b 16 8 ∧ v.len = leAt b 4 4 ∧
          v.pattern = BitVec.ofNat 64 (leAt b 8 8) ∧ (op = 4 ∨ op = 5 → v.skip = leAt b 28 4) ∧
          (∀ sc, (s.thread t).bind = .sc sc → v.fn = s.chainFn sc) ∧ v.done = 0 ∧ v.code = none ∧ v.slot = none))

/-- EOS with the tag of the thread's claim ends that service, deferred as op[16] says, and frees the thread; with any other tag, and where
no service is bound, it changes nothing but BAD_EOS (R483). PARK ends a chain with its status fixed, or, with PRES 0, suspends it;
it waits for MRDY (R189). SEND passes the outbound packet to the port of its node; on a port that is DOWN it sends nothing. All but EOS stall
while a window store of the thread waits for its node (R165, R195).
A thread that is freed (R141, R187, R450): unbound, with no event, timer, product, division, routine, packet or mark, and MODE and TIP
clear; its private bank keeps its contents. -/
def Obligations.TillerWorkEnds : Prop :=
  (
  ∀ (s : State) (t : Nat) (f : TForm), s.Canon → Ready s t f → (s.thread t).mode ≠ 1 →
    let p := s.pcPast t (opSize f)
    let seen := fun u : State => u.windowRead t (opEa f (s.thread t))
    (∀ v, Reads p t f 4 v → okForm [] [0, 1, 2, 3] f = true →
      (∀ k, (s.thread t).bind = .attn k → v % 65536 = (s.thread t).claim →
        exec (.eos t f) s = .next (seen ((p.endService k (v.testBit 16) true).freeThreadOf t)).finish) ∧
      ((∀ k, (s.thread t).bind = .attn k → v % 65536 ≠ (s.thread t).claim) →
        exec (.eos t f) s = .next (seen (p.setBit 0x180004 3)).finish)) ∧
    (okV 0 f = true → (s.thread t).mrdy = true → s.winStores t = 0 → ∀ sc, (s.thread t).bind = .sc sc →
      exec (.parkEnd t f) s = .next ((p.modThread t fun h => { h with div := none }).endChain sc {}).finish) ∧
    (okV 1 f = true → (s.thread t).mrdy = true → s.winStores t = 0 → ∀ sc, (s.thread t).bind = .sc sc →
      (((p.modThread t fun h => { h with div := none }).stopXfer sc).cxFlag sc 0 = false →
        exec (.parkSuspend t f) s = .next (((p.modThread t fun h => { h with div := none }).stopXfer sc).suspend sc).finish)) ∧
    ((s.thread t).mrdy = false ∨ s.winStores t ≠ 0 → (okV 0 f = true → exec (.parkEnd t f) s = .next s) ∧ (okV 1 f = true → exec (.parkSuspend t f) s = .next s)) ∧
    (∀ v, Reads p t f 4 v → okForm [] [1, 2, 3] f = true →
      let node := (s.thread t).out.le 0x8004 2 % 4096
      (s.winStores t ≠ 0 → exec (.send t f) s = .next s) ∧
      (s.winStores t = 0 → s.kpSt (node / 1024 % 4) = 0 → exec (.send t f) s = .next (seen p.tick).finish) ∧
      (s.winStores t = 0 → s.kpSt (node / 1024 % 4) ≠ 0 → ∃ oph m, exec (.send t f) s = .next (seen m).finish ∧
        m = State.sendFlits node oph (tgPort t) ((s.thread t).out.le 0x8000 1 |>.testBit 4) ((s.thread t).out.le 0x8000 1 |>.testBit 5) 20
          ((s.thread t).out.le 0x8008 8) ((s.thread t).out.rdN 0x8010 (min ((s.thread t).out.le 0x8002 2 % 8192) 4096)) p.tick))) ∧ (
  ∀ (s : State) (t : Nat), s.Canon →
    let u := s.freeThreadOf t
    let h := u.thread t
    h.bind = .free ∧ h.ev = 0 ∧ h.timer = 0 ∧ h.mrdy = true ∧ h.product = none ∧ h.div = none ∧ h.shadow = none ∧ h.waiting = none ∧
    h.load = none ∧ h.win = none ∧ h.winGot = [] ∧ h.stopped = false ∧ h.furrow = {} ∧ h.mode = 0 ∧ flBit h.fl 7 = false ∧
    u.tpriv = s.tpriv ∧ u.tmem = s.tmem ∧ u.ctx = s.ctx ∧ ((s.thread t).win = none → ∀ k, k ≠ t → u.thread k = s.thread k))

/-- Cloche mode: LEAVE clears the Tiller's CLOCHE bit and frees the thread once every other thread of the Tiller is free, and waits until
then (R198); RBRD and RBWR reach the register at offset A with guarded access (R199); SBRD and SBWR move the 64 bytes of the Seedbank
block in which A lies; an A beyond the last region faults (R28). RCPE completes with the special cases of R237. -/
def Obligations.ClocheModeInstructions : Prop :=
  ∀ (s : State) (t : Nat) (f : TForm), s.Canon → Ready s t f → (s.thread t).mode = 2 →
    let p := s.past t f
    let q := s.pcPast t (opSize f)
    let seen := fun u : State => u.windowRead t (opEa f (s.thread t))
    let a := (s.thread t).a.toNat
    (okV 0 f = true →
      ((∀ k, k < 16 → 16 * (t / 16) + k ≠ t → (s.thread (16 * (t / 16) + k)).bind = .free) →
        exec (.leave t f) s = .next ((p.wb (0x600004 + 8 * (t / 128)) (8 + t / 16 % 8) false).freeThreadOf t).finish) ∧
      (∀ k, k < 16 → 16 * (t / 16) + k ≠ t → (s.thread (16 * (t / 16) + k)).bind ≠ .free → exec (.leave t f) s = .next s)) ∧
    (okForm [] [1, 2, 3] f = true →
      (∀ b, ReadsFp p t f 1 b → ∃ r, exec (.rcpe t f) s = .next (p.modThread t fun h => { h with fa := BitVec.ofNat 64 r }) ∧
        let d := (s.thread t).dbl
        let x := leNat b
        (isNan d x = true → r = fpNan d) ∧ (isInf d x = true → r = withSign d (fpNeg d x) 0) ∧
        (fpMag d x < 2 ^ fpF d → r = withSign d (fpNeg d x) (fpInf d))) ∧
      (∀ ea s', opEa f (s.thread t) = some ea → p.engWr { t, f } ea (natLE 4 (p.readReg .cloche a).toNat) 4 = .done s' →
        exec (.rbrd t f) s = .next s'.finish) ∧
      (∀ v, Reads p t f 4 v → exec (.rbwr t f) s = .next (seen (q.busWrite .cloche a (BitVec.ofNat 32 v))).finish) ∧
      (a < 0x3800000 →
        (∀ ea s', opEa f (s.thread t) = some ea → s.seedErr (a / 64 * 64) 64 ≠ 2 →
          p.engWrMany { t, f } ea 4 (s.seed.rdN (a / 64 * 64) 64) 16 = .done s' → exec (.sbrd t f) s = .next s'.finish) ∧
        (∀ ea b, opEa f (s.thread t) = some ea → p.engRdMany { t, f } ea 4 16 = .val b →
          exec (.sbwr t f) s = .next (seen (q.seedPut (a / 64 * 64) b)).finish)) ∧
      (0x3800000 ≤ a → exec (.sbrd t f) s = .fault (.noSuchBlock a) ∧ exec (.sbwr t f) s = .fault (.noSuchBlock a)))

/-- A decode-table instruction whose first step is its last runs that step (R200 to R202): a step whose guard fails changes nothing; a
forbidden step traps ILLEGAL with INFO 2 and is not performed, with RETPC the instruction and STEP the step (R203, R204); SUBST takes the
invoking mode and adds the V fields (R201). -/
def Obligations.DecodeTableSteps : Prop :=
  ∀ (s : State) (t e : Nat) (f : TForm), s.Canon → Ready s t f → e < 32 → opSize f = 4 →
    let a := tillerOf t * 0x40000 + 0x10000 + 512 * e
    let w0 := s.tmem.le a 2
    let g := if bitOn (s.tmem.le (a + 4) 1) 1 then substForm f (formOf w0 (s.tmem.le (a + 2) 2)) else formOf w0 (s.tmem.le (a + 2) 2)
    let p := s.pcPast t 4
    let trapped := ((p.modThread t fun h => { h with pc := (s.thread t).pc }).doTrap t 4 2 4 0).finish
    bitOn (s.tmem.le (a + 4) 1) 0 = true → (s.thread t).product = none →
      (opGuard g (s.thread t) = false → exec (.decodeTableInsn t e f) s = .next p.finish) ∧
      (opGuard g (s.thread t) = true → 0xE0 ≤ bits w0 6 8 → bits w0 14 2 = 3 →
        exec (.decodeTableInsn t e f) s = .next trapped) ∧
      (∀ c i u v, opGuard g (s.thread t) = true → isTableOp w0 = false → opInsn w0 g t = some c → insnOf c = some (i, u, v) →
        i.mul = false → i.step = true → i.refused g (s.thread t) true = none →
        ∀ s', i.body p { t, f := g, step := true } = .done s' → (s'.thread t).product = none →
          exec (.decodeTableInsn t e f) s = .next (s'.windowRead t (i.ea? g (s.thread t))).finish) ∧
      (∀ c i u v, opGuard g (s.thread t) = true → isTableOp w0 = false → opInsn w0 g t = some c → insnOf c = some (i, u, v) →
        i.mul = false → i.step = false →
        exec (.decodeTableInsn t e f) s = .next trapped)

/-- The data of a window load arrives: the instruction that waited completes with it, here LDA, or, on an error, traps WINDOW at itself with the
engine address (R164, R165). Host data is what the completion carries, that of buffer memory and of a node what the block holds. -/
def Obligations.WindowLoadCompletes : Prop :=
  ∀ (s : State) (t : Nat) (f : TForm) (w : WinLoad) (data : Bytes) (ok : Bool), s.Canon → s.running = true → t < 1024 →
    let h := s.thread t
    h.load = some (.lda t f) → h.win = some w → w.op = none → h.winGot = [] →
    let i := (if w.space = 0 then s.readOver (.window t) else s).winBrings w data ok
    (w.space = 0 → s.furrowHit = 0 → i.2 = if ok then some data else none) ∧
    (w.space = 1 → s.errs = [] → i.2 = some (s.buf.rdN w.addr w.len)) ∧
    (2 ≤ w.space → i.2 = if w.bad then none else some w.got) ∧
    (i.2 = none → exec (.windowDataReturn t data ok) s =
      .next ((i.1.modThread t fun h => { h with load := none, win := none, winGot := [] }).doTrap t 9 w.ea (opSize f) 0).finish) ∧
    (∀ b, i.2 = some b → i.1.errs = [] → i.1.due = [] → h.bind ≠ .free → h.stopped = false → h.waiting = none → h.fresh = false →
      opGuard f h = true → h.mode ≠ 1 → okForm [.i8, .d8] [0, 1, 2, 3] f = true → opEa f h = some w.ea → 0x800000 ≤ w.ea → w.ea < 0x1000000 →
      w.ea % 4 = 0 → i.1.running = true →
      ∃ fl, NZAre h.fl fl (BitVec.ofNat 32 (leNat (padTo 4 b))) ∧ exec (.windowDataReturn t data ok) s = .next (i.1.modThread t fun h =>
        { h with load := none, win := none, pc := h.pc + BitVec.ofNat 16 (opSize f), a := BitVec.ofNat 32 (leNat (padTo 4 b)), fl }))

/-! ## Supplies, power cuts, start -/

/-- What stops the working device: PWRWARN_N low for the whole filter with WARN_EN triggers a flush (CAUSE 1, R532); a main rail falls,
and the flush it triggers is abandoned at once (CAUSE 2, FLUSH 2, R532, R535); a PORST_N pulse of 2 µs or more holds the device (CAUSE 4,
R694), a pulse below 0.5 µs does nothing; REFCLK is lost (CAUSE 3, no flush, R14, R15). In every case BYP_HOLD falls and ERR_A and ERR_B
show the encoding of that state; contexts and their dirty marks stand as they were. The premises: no memory holds a codeword error, and no earlier
command has left anything to be done.
The pins and supplies that only mark: PWRWARN_N falls and its filter starts (R532); the backup regulator is switched on with VDD_SB's
fall and off after its time (R528, R529); VBAK below its level is shown and reported (R531, R707), and its return is shown. -/
def Obligations.PowerEvents : Prop :=
  (
  ∀ s : State, s.Canon → s.life = .live → s.errs = [] → s.due = [] →
    let stopped := fun (c : Instr) (l : Life) (cause flush : Nat) =>
      ∃ t, exec c s = .next t ∧ t.life = l ∧ t.rf 0x80010 0 3 = cause ∧ t.rf 0x80010 3 2 = flush ∧
        t.reg 0x80014 = s.reg 0x80014 + (if l = .flushed then 1 else 0) ∧ (∀ p, p < 4 → t.rf (kp p 0xC) 21 1 = 0) ∧ t.hostReady = false ∧
        t.errA = false ∧ t.errB = decide (l = .lost) ∧ t.ctx = s.ctx ∧ t.dirty = s.dirty ∧ t.jpend = [] ∧ t.pending = s.pending
    (s.warnTiming = true → s.warnLow = true → s.rb 0x80000 8 = true → stopped .pwrwarnFilterExpiry .flushed 1 0) ∧
    (∀ rail, rail < 6 → s.rb 0x80004 rail = true → (if rail = 2 then s.rb 0x80004 6 else s.rb 0x80004 2) = true →
      stopped (.mainRailFail rail) .flushed 2 2) ∧
    (s.rb 0x80004 2 = true → s.rb 0x80004 6 = true → stopped .vddSbFail .flushed 2 2) ∧
    (∀ ns, 2000 ≤ ns → stopped (.porstAssert ns) .held 4 0) ∧
    (∀ ns, ns < 500 → exec (.porstAssert ns) s = .next s) ∧
    stopped .refclkLoss .lost 3 0) ∧ (
  ∀ s : State, s.Canon →
    (s.warnLow = false → ∃ m : State, exec .pwrwarnFall s = .next m.finish ∧ m = { s.wb 0x80004 8 true with warnLow := true, warnTiming := true } ∧
      m.rb 0x80004 8 = true) ∧
    (s.backupOn = true → exec .backupRegulatorOff s = .next (State.finish { s with backupOn := false })) ∧
    (s.rb 0x80004 2 = true → ∃ m : State, exec .vddSbFail s = .next m.finish ∧ m.backupOn = true ∧
      (s.rb 0x80004 6 = true → m.rb 0x80004 7 = true ∧ m.rb 0x80004 2 = false)) ∧
    (∀ mv : BitVec 12, s.life = .live → ∃ u : State, exec (.vbakLow mv) s = .next (u.setCond 97 true).finish ∧ u.rb 0x80004 6 = false ∧
      u.rf 0x80004 9 12 = mv.toNat ∧ (∀ o, o ≠ 0x80004 → u.reg o = s.reg o) ∧ 97 ∈ (u.setCond 97 true).conds) ∧
    (∀ mv : BitVec 12, s.life = .flushed → ∃ m : State, exec (.vbakGood mv) s = .next m.finish ∧ m.rb 0x80004 6 = true ∧
      m.rf 0x80004 9 12 = mv.toNat) ∧
    (∀ mv : BitVec 12, s.life = .live → s.conds.Nodup → ∃ m : State, exec (.vbakGood mv) s = .next m.finish ∧ m.rb 0x80004 6 = true ∧
      m.rf 0x80004 9 12 = mv.toNat ∧ 97 ∉ m.conds) ∧
    (s.life = .live → ∃ m : State, exec .pwrwarnRise s = .next m.finish ∧ m.rb 0x80004 8 = false ∧ m.warnLow = false ∧ m.warnTiming = false))

/-- A flush that runs to its end (here: on a step with nothing queued) has written every dirty context, at most 512, in order to the flush
shadow, and CL_LASTDOWN shows FLUSH 1 and the count; nothing else of the Seedbank than the shadow changes (R534 steps 4 to 6, R535). The Seedbank holds no codeword error. -/
def Obligations.FlushSavesDirtyContexts : Prop :=
  ∀ s : State, s.Canon → s.pending = [] → s.life = .flushed → s.rf 0x80010 3 2 = 0 → s.errs = [] →
    ∃ t, step s = .next t ∧ t.life = .flushed ∧ t.rf 0x80010 0 3 = s.rf 0x80010 0 3 ∧ t.rf 0x80010 3 2 = 1 ∧
      t.rf 0x80010 5 10 = min s.dirty.length 512 ∧ t.flushSt.headerDurable = true ∧
      (∀ i sc, i < 512 → s.dirty[i]? = some sc → t.seed.rdN (0x3629000 + 4096 + 512 * i) 512 = s.ctx.rdN (2048 * sc) 512) ∧
      (∀ a, a < 0x3629000 ∨ 0x3629000 + 4096 + 512 * 512 ≤ a → t.seed.rd a = s.seed.rd a) ∧ t.flash = s.flash ∧ t.ctx = s.ctx

/-- A start (R580): it begins only on a device that is neither working nor starting; every register outside the Cloche domain, and every
memory but the Seedbank and the Seed flash, returns to its reset value (R666), the straps are taken (R695); with PWRWARN_N low or VBAK
not good it waits (R531, R697), and PWRWARN_RISE or VBAK_GOOD lets it go on; otherwise the device works and is ready for the host. -/
def Obligations.DeviceStartResetsAndRuns : Prop :=
  ∀ (s : State) (pairId : Bool) (smbA : BitVec 3) (selfTest : List Nat) (repaired : BitVec 8) (ms : BitVec 16), s.Canon →
    s.life ≠ .live → s.life ≠ .waiting →
    let a : StartArgs := { pairId, smbA, selfTest, repaired, ms }
    let u := s.flushEnd.fresh a
    (exec (.deviceStart pairId smbA selfTest repaired ms) s = .next u.tryStart.finish) ∧
    (u.seed = s.flushEnd.seed ∧ u.flash = s.flash ∧ u.ctx = [] ∧ u.buf = [] ∧ u.tmem = [] ∧ u.tpriv = [] ∧ u.queues = [] ∧ u.chains = [] ∧
      u.threads = [] ∧ u.xfers = [] ∧ u.chans = [] ∧ u.ports = [] ∧ u.txns = [] ∧ u.slots = [] ∧ u.sources = [] ∧ u.fns = [] ∧
      u.rf 0x24 0 7 = 0x58 + smbA.toNat ∧ u.rf 0x24 8 1 = b2n pairId ∧
      (∀ o, o ≠ 0x24 → o ≠ 0xC0044 → o ≠ 0x481008 → (o < 0x80000 ∨ 0xC0000 ≤ o) → (o < 0x40080 ∨ 0x40090 ≤ o) → u.reg o = regReset o)) ∧
    (s.warnLow = true → ∃ t, exec (.deviceStart pairId smbA selfTest repaired ms) s = .next t ∧ t.life = .waiting) ∧
    (s.warnLow = false → s.flushEnd.rb 0x80004 6 = false →
      ∃ t, exec (.deviceStart pairId smbA selfTest repaired ms) s = .next t ∧ t.life = .waiting ∧ t.rf 0x80040 8 4 = 1) ∧
    (s.warnLow = false → s.flushEnd.rb 0x80004 6 = true →
      ∃ t, exec (.deviceStart pairId smbA selfTest repaired ms) s = .next t ∧ t.life = .live ∧ t.flash = s.flash ∧ t.pending = s.pending) ∧
    (∀ w : State, w.Canon → w.life = .waiting → w.rb 0x80004 6 = true →
      (∃ t, exec .pwrwarnRise w = .next t ∧ t.life = .live) ∧
      (∀ mv : BitVec 12, w.warnLow = false → ∃ t, exec (.vbakGood mv) w = .next t ∧ t.life = .live))

/-! ## Queues -/

/-- Doorbells (R41, R42, R44, R49): a 32-bit write at offset 0 by the owner of an enabled queue is the new head of a CQ, or the new tail of an
SQ or DQ, bits [31:17] ignored; in poll mode it ends the wait; a value R43 calls an error gives a free position. Any other write, and
any to a disabled queue, leaves the queue alone. -/
def Obligations.DoorbellMovesTailOrHead : Prop :=
  ∀ (s : State) (fn q off len : Nat) (v : Word), s.Canon → s.memServe fn = .full →
    let v17 := BitVec.ofNat 32 (v.toNat % 2 ^ 17)
    let mine := s.safe = false ∧ s.standby = false ∧ q < 8192 ∧ s.qEn q = true ∧ s.qFn q = fn
    (mine → s.qType q = 2 → s.badBell q v17.toNat = false →
      ∃ t, exec (.doorbell fn q 0 4 v) s = .next t ∧ t = (s.setReg (tq q 0x14) v17).finish) ∧
    (mine → s.qType q = 2 → s.badBell q v17.toNat = true → ∃ t k, exec (.doorbell fn q 0 4 v) s = .next t ∧
      t = (s.tick.setReg (tq q 0x14) (BitVec.ofNat 32 (s.posVal q (k % (2 * s.qSize q))))).finish) ∧
    (mine → s.qType q ≠ 2 → s.polls q = true → ∃ t, exec (.doorbell fn q 0 4 v) s = .next t ∧
      t = ((s.setReg (tq q 0x18) v17).modQueue q fun k => { k with errWait := false, pollWait := false }).finish) ∧
    (mine → s.qType q ≠ 2 → s.polls q = false → s.badBell q v17.toNat = false → ∃ t, exec (.doorbell fn q 0 4 v) s = .next t ∧
      t = ((s.setReg (tq q 0x18) v17).modQueue q fun k => { k with errWait := false }).finish) ∧
    (mine → s.qType q ≠ 2 → s.polls q = false → s.badBell q v17.toNat = true → ∃ t k, exec (.doorbell fn q 0 4 v) s = .next t ∧
      t = ((s.tick.setReg (tq q 0x18) (BitVec.ofNat 32 (s.posVal q (k % (2 * s.qSize q))))).modQueue q fun k =>
        { k with errWait := false }).finish) ∧
    (off ≠ 0 ∨ len ≠ 4 ∨ 8192 ≤ q ∨ s.qEn q = false ∨ s.qFn q ≠ fn → exec (.doorbell fn q off len v) s = .next s.finish)

/-- Entry reads (R45, R46, R47, R48, R52, R708): an entry whose OWN matches the phase is kept behind those read before it, and a START that is
read ahead has its first two command words read too; one that does not match sets DB_LAG and waits, in doorbell mode, or ends a poll and raises the interval code, at most to its limit; a failed read takes nothing,
sets READ_ERR, and waits; each timer ends its wait. -/
def Obligations.EntryReadsFillThePrefetch : Prop :=
  ∀ (s : State) (q : Nat), s.Canon → s.running = true → q < 8192 →
    let pos := ((s.queue q).head + (s.queue q).pf.length) % (2 * s.qSize q)
    let held := fun m : State => (m.queue q).pf.map fun p => p.entry
    (∀ e : Bytes, e.length = 64 → s.readOut (.entry q) = true → (s.queue q).reading = true → s.rb 0x700A10 15 = false →
      ∃ m : State, exec (.entryReadDone q e) s = .next m.finish ∧ (s.fab = [] → m.readOut (.entry q) = false) ∧
        (m.queue q).reading = false ∧ (m.queue q).head = (s.queue q).head ∧
        (bitOn (leAt e 63 1) 7 = s.phase q pos → held m = held s ++ [e] ∧ (leAt e 0 1 ≠ 1 → m.regs = s.regs) ∧
          (leAt e 0 1 = 1 → s.qType q = 1 → s.polls q = false → s.pfDepth q ≠ 0 → (s.queue q).pf ≠ [] → leAt e 16 1 % 2 = 0 →
            s.scFn (leAt e 2 2 % 16384) = s.qFn q → s.masters (s.qFn q) = true →
            ReadsHost (s.readOver (.entry q)) m { fn := s.qFn q, addr := leAt e 8 8, len := 64, why := .ahead q pos })) ∧
        (bitOn (leAt e 63 1) 7 ≠ s.phase q pos → held m = held s ∧
          (s.polls q = false → (m.queue q).lag = true ∧ m.rb (tq q 0x1C) 3 = true) ∧
          (s.polls q = true → (m.queue q).pollWait = true ∧ (s.rb (tq q 0x10) 12 = true → m.reg (tq q 0x10) = s.reg (tq q 0x10)) ∧
            (s.rb (tq q 0x10) 12 = false → m.rf (tq q 0x10) 8 4 = min (s.rf (tq q 0x10) 8 4 + 1)
              (max (min (s.af (tq q 0x10) 0 4) 12) (min (s.af (tq q 0x10) 4 4) 12)))))) ∧
    (∀ err, err ≠ .ok → s.readOut (.entry q) = true → (s.queue q).reading = true →
      ∃ m : State, exec (.entryReadError q err) s = .next m.finish ∧ m.readOut (.entry q) = false ∧ m.rb (tq q 0x1C) 6 = true ∧
        (m.queue q).reading = false ∧ (m.queue q).pf = (s.queue q).pf ∧ (m.queue q).head = (s.queue q).head ∧
        (s.polls q = false → (m.queue q).errWait = true) ∧ (s.polls q = true → (m.queue q).pollWait = true)) ∧
    (s.qLive q = true →
      ((s.queue q).pollWait = true → exec (.pollRead q) s = .next (s.modQueue q fun k => { k with pollWait := false }).finish) ∧
      ((s.queue q).errWait = true → exec (.entryRereadTimer q) s = .next (s.modQueue q fun k => { k with errWait := false }).finish) ∧
      ((s.queue q).lag = true → exec (.dbLagReread q) s = .next (s.modQueue q fun k => { k with lag := false }).finish))

/-- Enabling and disabling a queue (R37, R67, R83, R490): an enable that R30, R47 and R67 refuse sets ENABLE_ERR and leaves EN 0; another one
starts the queue at head and tail 0 with nothing counted and what was held for it still held, the
slots of the replies it is owed still reserved. A CQ that an enabled queue names, or that
has held statuses, stays enabled with DISABLE_REFUSED; another CQ is off at once, with U 0; an SQ or DQ drops what it read ahead and is off at
QUEUE_DISABLE_DONE, once every head of it is published. -/
def Obligations.QueueEnableAndDisable : Prop :=
  ∀ (s : State) (who : Req) (q : Nat) (v : Word), s.Canon → q < 8192 → s.standby = false → s.serves_ who = true →
    s.reaches who (tq q 0) = true →
    (s.qEn q = false →
      let w := s.softWrite who (tq q 0) (v &&& ~~~1#32)
      (w.enableRefused q = true → ∃ m : State, exec (.queueEnable who q v) s = .next m.finish ∧ m = w.setBit (tq q 0x1C) 0 ∧
        m.rb (tq q 0x1C) 0 = true) ∧
      (w.enableRefused q = false → ∃ m : State, exec (.queueEnable who q v) s = .next m.finish ∧ m.qEn q = true ∧ m.rn (tq q 0x14) = 0 ∧
        m.rn (tq q 0x18) = 0 ∧ m.rsv q = s.rsv q ∧ (m.queue q).head = 0 ∧ (m.queue q).cnt = 0 ∧ (m.queue q).pf = [] ∧
        (m.queue q).held = (s.queue q).held)) ∧
    (s.qEn q = true → (s.queue q).stopped = false →
      (s.qType q = 2 →
        ((s.liveQueues.any fun k => s.qEn k && decide (s.qType k = 1 ∨ s.qType k = 3) && decide (s.qPair k = q)) = true ∨
            (s.queue q).held ≠ [] →
          ∃ m : State, exec (.queueDisable who q v) s = .next m.finish ∧ m = s.setBit (tq q 0x1C) 1 ∧ m.rb (tq q 0x1C) 1 = true) ∧
        ((s.liveQueues.any fun k => s.qEn k && decide (s.qType k = 1 ∨ s.qType k = 3) && decide (s.qPair k = q)) = false →
            (s.queue q).held = [] →
          ∃ m : State, exec (.queueDisable who q v) s = .next m.finish ∧ m.qEn q = false ∧ m.rf (cqi q + 4) 16 8 = 0 ∧
            (m.queue q).timer = false)) ∧
      (s.qType q ≠ 2 → ∃ m : State, exec (.queueDisable who q v) s = .next m.finish ∧ m.qEn q = true ∧ (m.queue q).disabling = true ∧
        (m.queue q).pf = [] ∧ m.readOut (.entry q) = false)) ∧
    ((s.queue q).disabling = true → (∀ r ∈ s.jpend, r.eff.heads q = false) → ∃ m : State, exec (.queueDisableDone q) s = .next m.finish ∧ m.qEn q = false ∧
      (m.queue q).disabling = false ∧ m.appReg (tq q 0x10) = s.reg (tq q 0x10)) ∧
    (∀ sc l, (s.queue q).held = sc :: l → s.running = true → 0 < s.cqFree q →
      exec (.heldStatusPost q) s = .next ((s.unhold sc q).postHeld sc q).finish)

/-! ## Requests, contexts, placement -/

/-- A reply (R57, R58): one POSTED record, whose entry carries KIND 1, the subchannel, the status bits, TAG and REASON, OWN as the lap of its
slot says, and zero in LASTCW and RESIDUAL; it takes the next slot of the paired CQ. One whose CQ is not enabled waits for that (R67).
An accepted START (R47, R57, R76, R77): the context takes TAG and CHAIN, PRES and AUTO clear, CHGSEQ rises, the subchannel is
START_PENDING with a START record issued and no reply owed; where a group is left it waits for a thread at the word CHAIN names, and words that were not read
with its entry are asked for. The context holds no codeword error. -/
def Obligations.RequestEffects : Prop :=
  (
  ∀ (s : State) (q sc bits reason tag : Nat), s.Canon → s.safe = false → sc < 16384 → bits < 2 ^ 16 → reason < 64 → tag < 2 ^ 32 →
    let cq := s.qPair q
    let t := s.postReply q sc bits reason tag
    (s.qEn cq = false → ∃ e, t = { s with owed := s.owed ++ [.late cq e (some q) none true] }) ∧
    (s.qEn cq = true → ∃ r e, t.jpend.getLast? = some r ∧ t.jpend.length = s.jpend.length + 1 ∧ r.eff = .posted cq e (s.queue cq).head ((s.queue cq).cnt + 1) (some q) none true ∧
      e.length = 32 ∧ leAt e 8 8 = 0 ∧ leAt e 16 4 = 0 ∧ leAt e 20 2 = sc + 16384 ∧ leAt e 22 2 = bits ∧ leAt e 24 4 = tag ∧
      leAt e 30 1 = 4 * reason ∧ bitOn (leAt e 31 1) 7 = s.phase cq (s.queue cq).head ∧
      (t.queue cq).head = ((s.queue cq).head + 1) % (2 * s.qSize cq) ∧ (t.queue cq).cnt = (s.queue cq).cnt + 1)) ∧ (
  ∀ (s : State) (q : Nat) (e : Bytes), s.Canon → s.safe = false → s.errs = [] → s.candGroups (leAt e 2 2 % 16384) ≠ [] →
    s.scState (leAt e 2 2 % 16384) = 0 →
    let sc := leAt e 2 2 % 16384
    let m := s.reqStart q sc e
    m.scState sc = 1 ∧ m.cx sc 12 4 = leAt e 4 4 ∧ m.cx sc 16 8 = leAt e 8 8 ∧ m.cxFlag sc 0 = false ∧ m.cxFlag sc 2 = false ∧
    m.cxFlag sc 4 = false ∧ m.cx sc 92 4 = (s.cx sc 92 4 + 1) % 2 ^ 32 ∧ (m.chain sc).phase = .unbound ∧ (m.chain sc).prio = leAt e 1 1 % 16 ∧
    (m.chain sc).bufAddr = leAt e 8 8 ∧ (∃ r h, m.jpend.getLast? = some r ∧ m.jpend.length = s.jpend.length + 1 ∧ r.eff = .start sc (some q) h) ∧
    (m.queue q).head = ((s.queue q).head + 1) % (2 * s.qSize q) ∧ (m.queue (s.qPair q)).held = (s.queue (s.qPair q)).held ∧
    m.rsv (s.qPair q) = s.rsv (s.qPair q) ∧
    (∀ p, (s.queue q).pf.head? = some p → p.await = false → p.err = none → p.words = [] → leAt e 16 1 % 2 = 0 → s.masters (s.scFn sc) = true →
      m.readsAll.Perm ({ fn := s.scFn sc, addr := leAt e 8 8, len := 64, why := .word sc } :: s.readsAll)))

/-- Every cell of the table of R76: what each request does in each state of its subchannel, its context at hand and its ownership proved,
with no MODIFY before it on its way and no 513th dirty context to come of it (R57, R58, R71, R76, R79, R81). 0 IDLE, 1 START_PENDING, 2 ACTIVE, 3 SUSPENDED, 4 STATUS_PENDING, 5 HALT_PENDING, 6 CLEAR_PENDING, 7 FENCED.
Requests that ownership refuses, or whose opcode is reserved, are taken and rejected with NOT_OWNED or BAD_REQUEST (R57, R58, R81); one
whose context is not cached waits at the head while the context is loaded, with CTX_WAIT set where no context can be evicted for it (R72, R73);
one that a MODIFY on its way or the dirty bound holds back stays where it is (R71, R79). -/
def Obligations.RequestsByState : Prop :=
  (
  ∀ (s : State) (q : Nat) (e : Bytes), s.Canon → s.qType q = 1 → s.headEntry q = some e → s.notOwned q e = false →
    leAt e 2 2 % 16384 ∈ s.cached → s.mustWait (leAt e 2 2 % 16384) = false → s.ctxErr (leAt e 2 2 % 16384) = 0 →
    let sc := leAt e 2 2 % 16384
    let st := s.scState sc
    let u := s.useCtx sc
    let h : HaltReq := { sq := q, tag := leAt e 4 4 }
    let does := fun (c : Instr) (m : State) => exec c s = .next m.finish
    (leAt e 0 1 = 1 →
      (st = 0 → does (.sqStart q) (u.reqStart q sc e)) ∧ (st = 7 → does (.sqStart q) ((u.dropAhead q).reject q sc 4 e)) ∧
      (st ≠ 0 → st ≠ 7 → does (.sqStart q) ((u.dropAhead q).reject q sc 1 e))) ∧
    (leAt e 0 1 = 2 →
      (st = 0 ∨ st = 4 → does (.sqHalt q) (u.answer q sc 6 e)) ∧
      (st = 1 → does (.sqHalt q) ((((u.takeReply q).setScState sc 5).oweHalt sc h).notStarted sc)) ∧
      (st = 2 ∨ st = 3 → does (.sqHalt q) ((((u.answer q sc 0 e).setScState sc 5).notice sc).haltChain sc false)) ∧
      (st = 5 ∨ st = 6 → does (.sqHalt q) (u.reject q sc 1 e)) ∧ (st = 7 → does (.sqHalt q) (u.reject q sc 4 e))) ∧
    (leAt e 0 1 = 3 →
      (st = 0 → does (.sqClear q) ((u.setCxFlag sc 0 false).answer q sc 0 e)) ∧
      (1 ≤ st → st ≤ 5 → does (.sqClear q) ((u.takeReply q).clearSc sc { h with clear := true })) ∧
      (st = 6 → does (.sqClear q) (u.reject q sc 1 e)) ∧
      (st = 7 → (u.causeGone sc = true → does (.sqClear q) ((u.takeReply q).clearNow sc { h with clear := true })) ∧
        (u.causeGone sc = false → does (.sqClear q) (u.reject q sc 5 e)))) ∧
    (leAt e 0 1 = 4 →
      (st = 0 ∨ st = 4 → does (.sqResume q) (u.reject q sc 3 e)) ∧
      (st = 1 ∨ st = 2 → does (.sqResume q) (((u.takeSilent q).setCxFlag sc 0 true).notice sc)) ∧
      (st = 3 → does (.sqResume q) (((u.takeSilent q).setScState sc 2).modChain sc fun c => { c with phase := .unbound, resumed := true })) ∧
      (st = 5 ∨ st = 6 → does (.sqResume q) (u.reject q sc 1 e)) ∧ (st = 7 → does (.sqResume q) (u.reject q sc 4 e))) ∧
    (leAt e 0 1 = 5 →
      (st = 0 → does (.sqRelease q) ((u.releaseSlots fun k o => decide (o = Holder.sc sc) && decide (k / 4 = leAt e 20 2 % 4096) &&
        (decide (leAt e 20 2 / 4096 % 16 = 0) || bitOn (leAt e 20 2 / 4096) (k % 4))).answer q sc 0 e)) ∧
      (st = 7 → does (.sqRelease q) (u.reject q sc 4 e)) ∧ (st ≠ 0 → st ≠ 7 → does (.sqRelease q) (u.reject q sc 1 e))) ∧
    (leAt e 0 1 = 6 →
      (st = 0 ∨ st = 3 → does (.sqModify q) (u.reqModify q sc e)) ∧
      (st = 7 → does (.sqModify q) (u.reject q sc 4 e)) ∧ (st ≠ 0 → st ≠ 3 → st ≠ 7 → does (.sqModify q) (u.reject q sc 1 e)))) ∧ (
  ∀ (s : State) (q : Nat) (e : Bytes), s.Canon → s.qType q = 1 → s.headEntry q = some e →
    let sc := leAt e 2 2 % 16384
    let cs := fun c => (c, leAt e 0 1) ∈ [(Instr.sqStart q, 1), (.sqHalt q, 2), (.sqClear q, 3), (.sqResume q, 4), (.sqRelease q, 5), (.sqModify q, 6)]
    (∀ c, cs c → s.notOwned q e = true → exec c s = .next ((s.dropAhead q).reject q sc 2 e).finish) ∧
    (s.notOwned q e = false → leAt e 0 1 = 0 ∨ 6 < leAt e 0 1 → exec (.sqReservedOpcode q) s = .next (s.reject q sc 9 e).finish) ∧
    (∀ c, cs c → s.notOwned q e = false → sc ∉ s.cached → sc ∉ s.loading → s.cached.length + s.loading.length < 4096 →
      ∃ m : State, exec c s = .next m.finish ∧ m.loading = s.loading ++ [sc] ∧ (m.queue q).missWait = true ∧ (m.queue q).pf = (s.queue q).pf ∧
        (m.queue q).head = (s.queue q).head ∧ m.jpend = s.jpend) ∧
    (∀ c, cs c → s.notOwned q e = false → sc ∉ s.cached → sc ∉ s.loading → 4096 ≤ s.cached.length + s.loading.length →
      (∀ k ∈ s.cached, s.evictable k = false) →
      exec c s = .next ((s.modQueue q fun k => { k with missWait := true }).setBit (tq q 0x1C) 5).finish) ∧
    (∀ c, cs c → s.notOwned q e = false → sc ∈ s.cached → s.mustWait sc = true → exec c s = .next s.finish))

/-- The context cache and threads: a write-back of the least recently changed context with every change durable leaves its Seedbank image equal to it and
the context clean (R71); a load leaves the context cached, and equal to its image but for SC_OWNER, while one used meanwhile stays as it is (R69,
R70, R72); a subchannel that waits is bound to the lowest free thread of the Tiller with most free threads and
starts at the START vector with the registers of R151 (R141); an epoch's LOAD adds the waiting STARTs to the busy threads, at most 255
(R85); DRAIN of a group is written by an admitted requester (R209). -/
def Obligations.ContextsAndThreads : Prop :=
  ∀ s : State, s.Canon →
    (∀ sc l r, s.life = .live → s.dirty = l ++ sc :: r → (∀ k ∈ l, s.scPending k = true) → s.scPending sc = false → s.errs = [] →
      s.rb 0x700A10 15 = false →
      ∃ m : State, exec (.contextWriteBackDone sc) s = .next m.finish ∧ (s.dirty.Nodup → s.dirtyWait = [] → m.dirty = l ++ r) ∧
        (∀ k ks, s.dirty.Nodup → s.dirty.length ≤ 512 → s.dirtyWait = k :: ks → k ∉ s.dirty → m.dirty = l ++ r ++ [k] ∧ m.dirtyWait = ks) ∧
        m.ctx = s.ctx ∧
        m.seed.rdN (512 * sc) 512 = s.ctx.rdN (2048 * sc) 512 ∧
        ∀ a, a < 512 * sc ∨ 512 * sc + 512 ≤ a → m.seed.rd a = s.seed.rd a) ∧
    (∀ sc, s.running = true → sc ∈ s.loading →
      ∃ m : State, exec (.contextLoadDone sc) s = .next m.finish ∧ sc ∈ m.cached ∧ m.loading = s.loading.erase sc) ∧
    (∀ sc, s.running = true → sc ∈ s.loading → s.errs = [] → s.rb 0x700A10 15 = false → (∀ q, (s.queue q).missWait = false) →
      ∃ m : State, exec (.contextLoadDone sc) s = .next m.finish ∧ m.seed = s.seed ∧ (sc ∈ s.cached → m.ctx = s.ctx) ∧
        (sc ∉ s.cached → m.ctx.rdN (2048 * sc) 512 = putAt (s.seed.rdN (512 * sc) 512) 11 [BitVec.ofNat 8 (s.scFn sc)])) ∧
    (∀ sc t, s.running = true → (s.chain sc).phase = .unbound → s.mayChange sc = true → s.ctxErr sc = 0 → s.pickThread (bits (s.cx sc 10 1) 0 3) = some t →
      exec (.threadBind sc) s = .next (s.bindThread sc t).finish ∧ (s.thread t).bind = .free ∧ t / 128 = bits (s.cx sc 10 1) 0 3 ∧
      (∀ k, t / 16 * 16 ≤ k → k < t → (s.thread k).bind ≠ .free) ∧
      (∀ i, i < 8 → s.inCloche (t / 128 * 8 + i) = false → s.boundOn (t / 16) ≤ s.boundOn (t / 128 * 8 + i)) ∧
      (let h := startThread (s.thread t) 1 sc (.sc sc) (s.chain sc).prio
       h.a = BitVec.ofNat 32 sc ∧ h.x = 0 ∧ h.y = 0 ∧ h.bk = 1 ∧ h.sp = 0x0FC0 ∧ h.pr = 1 ∧ h.fl = 0 ∧ h.fa = 0 ∧ h.mh = 0 ∧ h.ml = 0 ∧
       h.mrdy = true ∧ h.fpsr = 0 ∧ h.fpcr = 0 ∧ h.pc = 4 ∧ h.bind = .sc sc ∧ h.prio = (s.chain sc).prio)) ∧
    (∀ busy : List Nat, s.running = true → ∃ m : State, exec (.migrationEpochEnd busy) s = .next m.finish ∧
      (∀ g, g < 8 → m.rn (0x610010 + 4 * g) = min (busy.getD g 0 + s.startsIn g) 255) ∧
      ∀ o, (∀ g, g < 8 → o ≠ 0x610010 + 4 * g) → m.reg o = s.reg o) ∧
    (∀ who g (v : Word), g < 8 → s.serves_ who = true → reqAdm who = true →
      ∃ m : State, exec (.teDrain who g v) s = .next m.finish ∧ m.rb (0x600000 + 8 * g) 0 = v.getLsbD 0 ∧
        ∀ o, o ≠ 0x600000 + 8 * g → o ≠ 0x600004 + 8 * g → m.reg o = s.reg o)

/-! ## Command words -/

/-- A fetched word becomes current (R102, R104, R128): context bytes 32 to 83 hold its address, the word, and DATA_ADDR and COUNT still to
go; a word in on-chip space comes from buffer memory; where it begins an operation, it gives that its code, node, sub-address and parameter
(R97). No memory holds a codeword error (R22), and none is armed.
Suspend points (R102, R115 to R117) and the timeouts of a chain (R109, R110, R120). -/
def Obligations.WordFetchesAndSuspends : Prop :=
  (
  ∀ (s : State) (sc : Nat), s.Canon → s.running = true → s.errs = [] → s.rb 0x700A10 15 = false → (s.chain sc).phase = .fetching →
    let a := s.cx sc 32 8
    let current := fun (m : State) (w : Bytes) => (m.chain sc).phase = .current ∧ m.cx sc 32 8 = a ∧
      m.ctx.rdN (2048 * sc + 40) 32 = w ∧ m.cx sc 72 8 = leAt w 8 8 ∧ m.cx sc 80 4 = leAt w 4 4 ∧
      ((s.chain sc).cont = false → leAt w 0 1 ≠ 8 → (m.chain sc).code = leAt w 0 1 ∧ (m.chain sc).node = leAt w 16 2 % 4096 ∧
        (m.chain sc).sub = leAt w 18 6 % 2 ^ 46 ∧ (m.chain sc).param = leAt w 24 4)
    (∀ (w : Bytes) r, (s.chain sc).space % 2 = 0 → (s.reads.find? fun r => decide (r.why = .word sc)) = some r → r.len = 32 → w.length = 32 →
      s.badWord sc (s.chain sc).space a w = false →
      ∃ m : State, exec (.wordFetchDone sc w .ok) s = .next m.finish ∧ current m w ∧
        (s.fab = [] → ∀ r ∈ m.reads, r.why ≠ .word sc)) ∧
    (∀ w : Bytes, (s.chain sc).space = 1 → s.badWord sc 1 a (s.buf.rdN a 32) = false →
      ∃ m : State, exec (.wordFetchDone sc w .ok) s = .next m.finish ∧ current m (s.buf.rdN a 32) ∧ m.buf = s.buf)) ∧ (
  ∀ (s : State) (sc : Nat), s.Canon →
    let a := s.cx sc 32 8
    let goes := fun (c : Instr) (P : State → Prop) => ∃ m : State, exec c s = .next m.finish ∧ P m
    (CurWord s sc 5 → s.cwFlag sc 3 = true → s.cxFlag sc 0 = false → goes (.cwNop sc) fun m => m.scState sc = 3 ∧ (m.chain sc).phase = .suspended ∧
      ∀ t, s.threadOf sc = some t → (s.thread t).disp = [] → (m.thread t).bind = .free ∧ m.cx sc 192 4 = (s.thread t).a.toNat ∧
        m.cx sc 206 2 = (s.thread t).pc.toNat ∧ m.cx sc 208 8 = (s.thread t).fa.toNat ∧ m.cx sc 204 2 = (s.thread t).sp.toNat) ∧
    (CurWord s sc 5 → s.cwFlag sc 3 = true → s.cxFlag sc 0 = true → (s.chain sc).space % 2 = 0 → s.masters (s.chainFn sc) = true →
      goes (.cwNop sc) fun m => m.cxFlag sc 0 = false ∧ (m.chain sc).phase = .rereading ∧ m.scState sc = s.scState sc ∧
        ReadsHost s m { fn := s.chainFn sc, addr := a, len := 32, why := .reread sc }) ∧
    (∀ fl : Byte, s.running = true → s.errs = [] → s.rb 0x700A10 15 = false → (s.chain sc).phase = .rereading → s.readOut (.reread sc) = true → (s.chain sc).space % 2 = 0 →
      (s.chain sc).buf = [] → s.masters (s.chainFn sc) = true → s.cwFlag sc 0 = false → bitOn fl.toNat 0 = false → bitOn fl.toNat 1 = true →
      bitOn fl.toNat 3 = false →
      goes (.suspendRereadDone sc fl .ok) fun m => FetchesWord (s.readOver (.reread sc)) m sc (a + 32)) ∧
    (PlainChain s sc → (s.chain sc).phase = .ending → (s.chain sc).halting = true → goes (.haltTimeout sc) fun m => ChainEnded s m sc 4 6) ∧
    (PlainChain s sc → (s.chain sc).phase = .paceNode → s.cwCount sc ≠ 0 → goes (.paceTimeout sc) fun m => ChainEnded s m sc 4 8) ∧
    (s.running = true → s.errs = [] → (s.chain sc).phase = .paceTimer → ChainsOn s sc →
      goes (.paceTimerExpiry sc) fun m => FetchesWord s m sc (a + 32) ∧ m.cx sc 264 8 = (s.chain sc).due % 2 ^ 64 ∧
        (s.chain sc).due * 2 ^ 32 ≤ m.time))

/-- Words without data (R90, R91, R99, R102, R103, R109, R110, R403): NOP and MARK end at once; BRANCH goes on at DATA_ADDR; a timer WAIT_PACE
waits for its base and COUNT microseconds, or ends at once as an overrun; one for a node waits for PACE, or takes one recorded before;
END_GROUP issues the DECIDE record of the open group. A word that ends with CC is followed by a fetch 32 bytes on. -/
def Obligations.PlainWords : Prop :=
  ∀ (s : State) (sc : Nat), s.Canon →
    let a := s.cx sc 32 8
    let fn := s.chainFn sc
    let goes := fun (c : Instr) (P : State → Prop) => ∃ m : State, exec c s = .next m.finish ∧ P m
    (CurWord s sc 5 → ChainsOn s sc → goes (.cwNop sc) fun m => FetchesWord s m sc (a + 32)) ∧
    (CurWord s sc 8 → s.cw sc 2 1 % 4 = 0 → (s.chain sc).buf = [] → s.masters fn = true →
      goes (.cwBranch sc) fun m => FetchesWord s m sc (s.cw sc 8 8) ∧ (m.chain sc).cont = (s.chain sc).cont ∧ (m.chain sc).op = (s.chain sc).op ∧
        (m.chain sc).lastCw = (s.chain sc).lastCw) ∧
    (CurWord s sc 11 → bitOn (s.chain sc).param 0 = false →
      let due := (if (s.chain sc).paced then s.cx sc 264 8 else s.cx sc 104 8) + 1000 * s.cwCount sc
      (s.now ≤ due → goes (.cwWaitPace sc) fun m => (m.chain sc).phase = .paceTimer ∧ (m.chain sc).due = due ∧ m.ctx = s.ctx) ∧
      (due < s.now → ChainsOn s sc → goes (.cwWaitPace sc) fun m => FetchesWord s m sc (a + 32) ∧ m.cx sc 264 8 = s.now ∧
        m.cx sc 272 4 = (s.cx sc 272 4 + 1) % 2 ^ 32 ∧ (m.chain sc).paced = true)) ∧
    (CurWord s sc 11 → bitOn (s.chain sc).param 0 = true → s.nodeRefused sc 0 = none →
      let node := (s.chain sc).node
      let p := s.cx sc 276 2
      (¬ (bitOn p 15 = true ∧ p % 4096 = node) →
        goes (.cwWaitPace sc) fun m => (m.chain sc).phase = .paceNode ∧ (m.chain sc).node = node ∧ m.ctx = s.ctx) ∧
      (bitOn p 15 = true → p % 4096 = node → ChainsOn s sc →
        goes (.cwWaitPace sc) fun m => FetchesWord s m sc (a + 32) ∧ bitOn (m.cx sc 276 2) 15 = false)) ∧
    (CurWord s sc 12 → ChainsOn s sc →
      let at_ := s.cw sc 8 8
      let b := natLE 8 s.now ++ natLE 8 a
      (s.cw sc 2 1 % 4 = 0 → goes (.cwMark sc) fun m => (m.chain sc).phase = .fetching ∧ m.cx sc 32 8 = (a + 32) % 2 ^ 64 ∧
        m.readsAll.Perm ({ fn, addr := a + 32, len := 32, why := .word sc } :: s.readsAll) ∧
        (s.hostFree 32 → s.outUsed 0 + 2 ≤ outSize 0 →
          m.hostOut = s.hostOut ++ [.write fn at_ b false (s.fnc fn).ecrc, .read fn (a + 32) 32 false (s.fnc fn).ecrc])) ∧
      (s.cw sc 2 1 % 4 = 1 → s.shareRun fn at_ 16 = 16 →
        goes (.cwMark sc) fun m => FetchesWord s m sc (a + 32) ∧ Wrote s.buf m.buf at_ b)) ∧
    (CurWord s sc 13 →
      (s.openTx sc = none → ChainsOn s sc → goes (.cwEndGroup sc) fun m => FetchesWord s m sc (a + 32)) ∧
      (∀ x, s.openTx sc = some x → goes (.cwEndGroup sc) fun m => (m.chain sc).phase = .deciding ∧ (m.txn x).decideIssued = true ∧
        ∃ r, m.jpend.getLast? = some r ∧ r.eff = .decide x))

/-- RESERVE takes the slots of its mask, all of them free or its own, and sends the flit; RELEASE frees those its subchannel holds at the
node, 0 naming all four (R90, R92, R424, R427). -/
def Obligations.ReserveAndRelease : Prop :=
  ∀ (s : State) (sc : Nat), s.Canon → s.nodeRefused sc 3 = none → (s.chain sc).node ∉ s.relNeeded →
    let node := (s.chain sc).node
    let mask := (s.chain sc).param % 16
    let asked := fun k => k < 4 ∧ bitOn (if mask = 0 then 15 else mask) k = true
    (CurWord s sc 9 → s.openTx sc = none → s.scHolders.length < 1024 →
      (∀ k, k < 4 → bitOn mask k = true → s.holder (4 * node + k) = .none ∨ s.holder (4 * node + k) = .sc sc) →
      ∃ m : State, exec (.cwReserve sc) s = .next m.finish ∧ (m.chain sc).phase = .answer ∧
        (∀ k, k < 4 → bitOn mask k = true → m.holder (4 * node + k) = .sc sc) ∧
        ∀ n, (∀ k, k < 4 → bitOn mask k = true → n ≠ 4 * node + k) → m.holder n = s.holder n) ∧
    (CurWord s sc 10 → s.waits = [] → (∃ k, asked k ∧ s.holder (4 * node + k) = .sc sc) →
      ∃ m : State, exec (.cwRelease sc) s = .next m.finish ∧ (m.chain sc).phase = .answer ∧
        (∀ k, asked k → s.holder (4 * node + k) = .sc sc → m.holder (4 * node + k) = .none) ∧
        ∀ n, (∀ k, asked k → s.holder (4 * node + k) = .sc sc → n ≠ 4 * node + k) → m.holder n = s.holder n)

/-- The first word of a data-moving operation (R90, R97, R130, R370, R371): the operation opens at NODE under a free handle, its OPEN flit
carries code, sub-address, count and parameter, and a transfer for its data is made. -/
def Obligations.DataWordsOpenOperations : Prop :=
  ∀ (s : State) (sc oph : Nat) (c : Instr), s.Canon → CurWord s sc (s.chain sc).code →
    let code := (s.chain sc).code
    (c, code) ∈ [(Instr.cwWrite sc, 1), (.cwRead sc, 2), (.cwControl sc, 3), (.cwSense sc, 4)] ∨ (c = .cwNodeSpecific sc ∧ 0x40 ≤ code ∧ code < 0x80) →
    let node := (s.chain sc).node
    let sub := (s.chain sc).sub
    (s.chain sc).cont = false → (s.chain sc).op = none → (s.chain sc).endStatus = none → s.cw sc 2 1 % 4 < 2 → s.cwCount sc ≠ 0 → (s.chain sc).stg = false →
    (s.chain sc).xf = false → s.perm (s.chainFn sc) node (codeClass code) = true → s.kpWithdrawn (nodePort node) = false →
    s.gate node = .go → s.nodeCheck node = none → node ∉ s.relNeeded → s.isPower sc = false → s.findOph node = some oph →
      let opens : CmdF := { oph, kind := 0, dir := readCode code, chained := s.cwFlag sc 0, code, subaddr := sub, count := s.cwCount sc, param := (s.chain sc).param }
      ∃ m : State, exec c s = .next m.finish ∧ (m.chain sc).op = some (ophKey oph) ∧ (m.chain sc).phase = .moving ∧
        (m.chain sc).xfer = some s.nextXfer ∧
        (∃ o, m.op (ophKey oph) = some o ∧ o.node = node ∧ o.owner = .chain sc ∧ o.read = readCode code ∧ o.sub = sub) ∧
        SendsFlit s m (nodePort node) { node, path := s.nodePath node, body := .cmd opens }

/-! ## Barrow transfers and DMA channels -/

/-- Transfers: the one bound next and its slot (R257, R258), the one evicted (R264, R266), read data staged with what lies outside the
transfer discarded (R262, R267), a failed read (R283), a completed dispatch, whose record may run from the private into the shared bank
(R154, R302). -/
def Obligations.BarrowTransfers : Prop :=
  ∀ s : State, s.Canon → s.running = true →
    let waits := fun (half : Bool) (v : Xfer) => v.slot = none ∧ v.code = none ∧ v.paused = false ∧ s.serves v = half
    (∀ half x, s.nextUnbound half = some x → ∃ v, s.xfer x = some v ∧ waits half v ∧
      (∀ y w, s.xfer y = some w → waits half w → w.prio < v.prio ∨ (w.prio = v.prio ∧ v.age ≤ w.age)) ∧
      (∀ b k, s.pickSlot half = some (b, k) → exec (.transferBind half) s = .next (s.bindXfer x b k).finish ∧ b / 8 = b2n half ∧ k < 4 ∧
        s.rb (0x308000 + 16 * b) k = false ∧ (∀ j, j < k → s.rb (0x308000 + 16 * b) j = true) ∧
        ∀ c, c / 8 = b2n half → (s.freeSlots c).length ≤ (s.freeSlots b).length ∧ (c < b → (s.freeSlots c).length < (s.freeSlots b).length)) ∧
      (∀ y, s.pickSlot half = none → s.victim half v.prio = some y →
        (∀ z w, s.xfer z = some w → w.evicting = false) →
        exec (.transferBind half) s = .next ((s.modXfer y fun v => { v with evicting := true }).evictDone y).finish ∧
        ∃ w, s.xfer y = some w ∧ w.prio < v.prio ∧ w.paused = false ∧
          ∀ z u b k, s.xfer z = some u → u.slot = some (b, k) → b / 8 = b2n half → u.paused = false → (u.paced = false ∨ u.burst = 0) →
            w.prio < u.prio ∨ (w.prio = u.prio ∧ u.boundAt ≤ w.boundAt))) ∧
    (∀ x v r n data, s.xfer x = some v → (s.reads.find? fun r => decide (r.why = .xfer x)) = some r → s.rb 0x700A10 15 = false →
      v.code = none → v.want = some (.data n) → v.op ≠ 4 → v.srcOp = none → v.dstOp = none →
      (v.paused = true → v.done < v.len → v.srcEnd = false → v.srcEnd2 = false → v.evicting = false →
        ∃ m : State, exec (.readDataReturn x false data .ok) s = .next m.finish ∧
          m.xfer x = some { v with want := none, staged := v.staged ++ padTo n ((padTo r.len data).drop ((v.src + (v.rd - n)) % 64)) } ∧
          (∀ q ∈ m.reads, q.why ≠ .xfer x) ∧ m.hostOut = s.hostOut ∧ m.buf = s.buf) ∧
      (∀ t a err, v.owner = .disp t a → x ∈ (s.thread t).disp → err ≠ .ok → v.want2 = none → v.evicting = false →
        ∃ m : State, ∃ w, exec (.readDataReturn x false data err) s = .next m.finish ∧ m.xfer x = some w ∧
          w.code = some (if err = .ue then 4 else 3) ∧ w.info = v.rd - n ∧ w.done = v.done ∧ w.staged = [] ∧ w.slot = none)) ∧
    (∀ x v t a k, s.xfer x = some v → v.owner = .disp t a → v.code = some k → v.want = none → v.want2 = none → s.crossing x = false →
      a < 0x1000 →
      let b := natLE 4 v.done ++ natLE 1 k
      ∃ m : State, exec (.dispatchComplete x) s = .next m.finish ∧ (a + 37 ≤ 0x1000 → Wrote s.tpriv m.tpriv (t * 4096 + a + 32) b) ∧
        (s.errs = [] → ∀ i, i < 5 → 0x1000 ≤ a + 32 + i →
          m.tmem.rd (tillerOf t * 0x40000 + 0x20000 + (a + 32 + i - 0x1000)) = b.getD i 0) ∧
        m.xfer x = none ∧ (m.thread t).disp = (s.thread t).disp.erase x ∧ bitOn (m.thread t).ev.toNat 1 = true)

/-- A channel takes the descriptor at its DQ's head: it is ACTIVE, the head advances, a transfer of the descriptor's operation is made, or
the code that a check gives (R274 to R277). At its completion (R281, R283 to R285, R287, R288): DONE, COUNT, ERR, the record, the CQ
entry; a transfer with a read still to arrive keeps its slot; HALT acts, on a paused channel not yet.
The commands of a channel (R272, R273, R287, R288) and its request lines and timeout (R290 to R293). -/
def Obligations.DmaDescriptorsAndChannels : Prop :=
  (
  ∀ (s : State) (c : Nat), s.Canon → c < 256 →
    let dq := s.chDq c
    (∀ (i : Instr) (op : Nat) (e : Bytes), (i, op) ∈ [(Instr.dmaCopy c, 1), (.dmaFill c, 2), (.dmaCompare c, 3), (.dmaGather c, 4), (.dmaScatter c, 5)] →
      s.dscReady c op = some e → e.length = 64 → dscOp e = op → badDsc e = false → (s.chan c).halt = false → (s.chan c).abort = false →
      ∃ m : State, exec i s = .next m.finish ∧ (m.chan c).desc = e ∧ m.rf (bwCh c 0x10) 0 3 = 2 ∧ m.rn (bwCh c 0x14) = 0 ∧
        (m.queue dq).head = ((s.queue dq).head + 1) % (2 * s.qSize dq) ∧
        (∀ k, s.dscCheck c e = some k → (m.chan c).code = some k ∧ (m.chan c).xfer = none) ∧
        (s.dscCheck c e = none → dscNodes e = [] → (m.chan c).xfer = some s.nextXfer ∧
          ∃ v, m.xfer s.nextXfer = some v ∧ v.owner = .chan c ∧ v.op = op ∧ v.prio = leAt e 1 1 % 16 ∧ v.len = leAt e 4 4 ∧ v.src = leAt e 8 8 ∧
            v.dst = leAt e 16 8 ∧ v.slot = none ∧ v.half = s.rb (bwCh c 0) 1)) ∧
    (∀ code done ns, s.running = true → s.dscResult c = some (code, done, ns) → (s.chan c).discard = false →
      ∃ m : State, exec (.descriptorComplete c) s = .next m.finish ∧ m.rn (bwCh c 0x14) = done % 2 ^ 32 ∧
        m.count64 (bwCh c 0x20) = (s.count64 (bwCh c 0x20) + 1) % 2 ^ 64 ∧ m.rb (bwCh c 0x18) 3 = (s.rb (bwCh c 0x18) 3 || decide (1 < code)) ∧
        (m.chan c).desc = [] ∧
        (∀ x v, (s.chan c).xfer = some x → s.xfer x = some v →
          (v.want = none → v.want2 = none → m.xfer x = none) ∧
          (v.want ≠ none ∨ v.want2 ≠ none → ∃ w, m.xfer x = some w ∧ w.owner = .ended ∧ w.slot = v.slot)) ∧
        ((s.chan c).halt = true → (s.chan c).abort = false → (s.chan c).paused = true → s.rf (bwCh c 0x10) 0 3 ∉ [0, 5] →
          m.rf (bwCh c 0x10) 0 3 = 4) ∧
        ((s.chan c).halt = true ∧ (s.chan c).paused = false ∨ (s.chan c).abort = true → m.rf (bwCh c 0x10) 0 3 = if s.rb (bwCh c 0) 0 then 5 else 0) ∧
        ((s.chan c).halt = false → (s.chan c).abort = false → (s.chan c).paused = false → s.rf (bwCh c 0x10) 0 3 ∉ [0, 5] →
          m.rf (bwCh c 0x10) 0 3 = 1) ∧
        (bitOn (s.dsc c 3 1) 1 = true → bitOn (s.dsc c 3 1) 2 = false → s.masters (s.chFn c) = true → s.rb (tq (s.qPair dq) 0) 4 = false →
          s.fab = [] → s.furrowHit = 0 → s.outUsed 0 < outSize 0 → m.hostOut = s.hostOut ++
            [.write (s.chFn c) (s.dsc c 32 8) (s.dscRecord c code done ns) false (s.fnc (s.chFn c)).ecrc]) ∧
        (s.qEn (s.qPair dq) = true → bitOn (s.dsc c 3 1) 0 = true ∨ code ≠ 0 → ∃ r e pos n, m.jpend.getLast? = some r ∧ r.eff = .posted (s.qPair dq) e pos n (some dq) none true ∧
          leAt e 20 2 = c + 16384 ∧ leAt e 22 2 = (if 1 < code then 5 else 1) ∧ leAt e 24 4 = s.dsc c 28 4))) ∧ (
  ∀ (s : State) (c : Nat), s.Canon → c < 256 →
    let st := fun m : State => m.rf (bwCh c 0x10) 0 3
    let q := s.chan c
    (∀ who v, s.serves_ who = true → s.reaches who (bwCh c 0) = true →
      let w := s.softWrite who (bwCh c 0) (v &&& ~~~1#32)
      (s.rb (bwCh c 0) 0 = true → exec (.chEnable who c v) s = .next s.finish) ∧
      (s.rb (bwCh c 0) 0 = false → w.chRefused c = true → ∃ m : State, exec (.chEnable who c v) s = .next m.finish ∧
        m.rb (bwCh c 0x18) 0 = true ∧ m.rb (bwCh c 0) 0 = false) ∧
      (s.rb (bwCh c 0) 0 = false → w.chRefused c = false → q.desc = [] → q.paused = false →
        ∃ m : State, exec (.chEnable who c v) s = .next m.finish ∧ m.rb (bwCh c 0) 0 = true ∧ st m = 1 ∧ m.count64 (bwCh c 0x20) = 0) ∧
      (s.rb (bwCh c 0) 0 = true → ∃ m : State, exec (.chDisable who c v) s = .next m.finish ∧
        (st s = 1 ∨ st s = 5 → m.rb (bwCh c 0) 0 = false ∧ st m = 0) ∧
        (st s ≠ 1 → st s ≠ 5 → m.rb (bwCh c 0) 0 = true ∧ st m = st s ∧ m.rb (bwCh c 0x18) 1 = true))) ∧
    (∀ who, s.serves_ who = true → s.reaches who (bwCh c 0xC) = true → st s ≠ 0 → st s ≠ 5 → q.abort = false →
      (q.halt = false → ∃ m : State, exec (.chPause who c) s = .next m.finish ∧ st m = 3 ∧ m.rb (bwCh c 0xC) 0 = true ∧ (m.chan c).paused = true ∧
        ∀ x v, q.xfer = some x → s.xfer x = some v → m.xfer x = some { v with paused := true }) ∧
      (q.halt = false → q.xfer = none → ∃ m : State, exec (.chUnpause who c) s = .next m.finish ∧ st m = (if q.desc = [] then 1 else 2) ∧
        m.rb (bwCh c 0xC) 0 = false ∧ (m.chan c).paused = false) ∧
      (∃ m : State, exec (.chHalt who c) s = .next m.finish ∧
        (q.desc = [] → q.paused = false → st m = (if s.rb (bwCh c 0) 0 then 5 else 0) ∧ m.rb (bwCh c 0xC) 1 = false) ∧
        (q.desc ≠ [] → st m = 4 ∧ m.rb (bwCh c 0xC) 1 = true ∧ (m.chan c).halt = true ∧ (m.chan c).desc = q.desc)) ∧
      (∃ m : State, exec (.chAbort who c) s = .next m.finish ∧
        (q.desc = [] → st m = (if s.rb (bwCh c 0) 0 then 5 else 0) ∧ m.rb (bwCh c 0xC) 2 = false) ∧
        (q.desc ≠ [] → st m = 4 ∧ m.rb (bwCh c 0xC) 2 = true ∧ ∀ x v, q.xfer = some x → s.xfer x = some v → ∃ w, m.xfer x = some w ∧
          w.done = v.done ∧ (v.code = none → w.code = some 2 ∧ w.staged = []) ∧ (v.code ≠ none → w.code = v.code)))) ∧
    (∀ who, s.serves_ who = true → s.reaches who (bwCh c 0xC) = true → st s = 5 → q = {} →
      ∃ m : State, exec (.chStart who c) s = .next m.finish ∧ st m = 1) ∧
    (∀ n, s.running = true → n < 8 → s.lineChan n = some c →
      (s.rb (bwCh c 0) 7 = true → ∃ m : State, exec (.dreqRise n) s = .next m.finish ∧ m.dreq.getLsbD n = true ∧
        m.rf (bwCh c 0x1C) 0 8 = min (s.rf (bwCh c 0x1C) 0 8 + 1) 255 ∧
        m.rb (bwCh c 0x18) 2 = (s.rb (bwCh c 0x18) 2 || decide (s.rf (bwCh c 0x1C) 0 8 = 255))) ∧
      (∀ level, ∃ m : State, exec (.dreqSample n level) s = .next m.finish ∧ m.dreq.getLsbD n = level ∧ m.dackWait.getLsbD n = false ∧
        (∀ k, k < 8 → k ≠ n → m.dreq.getLsbD k = s.dreq.getLsbD k ∧ m.dackWait.getLsbD k = s.dackWait.getLsbD k) ∧ m.dack = s.dack)) ∧
    (∀ x v, s.running = true → s.rf (bwCh c 8) 16 16 ≠ 0 → q.xfer = some x → s.xfer x = some v → v.paced = true → v.burst = 0 → v.code = none →
      (s.paceReq c = true → exec (.dmaPaceTimeout c) s = .next s) ∧
      (s.paceReq c = false → ∃ m : State, ∃ w, exec (.dmaPaceTimeout c) s = .next m.finish ∧ m.xfer x = some w ∧ w.code = some 11 ∧
        w.done = v.done ∧ w.info = v.done)))

/-! ## Links and flits -/

/-- A port trains, or goes DOWN (R330, R332, R335 to R340): TRAIN starts BASE at the best configuration, an ACTIVE port quiesces first; BASE sends
TSE once ring-in has locked, and ends when it returns; each phase ends in the next; the link ends ACTIVE under a new EPOCH with a re-base; three attempts at one configuration, then a lower one. -/
def Obligations.LinkTraining : Prop :=
  ∀ (s : State) (p : Nat), s.Canon → s.linkLive p = true →
    let t := s.port p
    let goes := fun (c : Instr) (P : State → Prop) => ∃ m : State, exec c s = .next m.finish ∧ P m
    let trains := fun (m : State) (lanes : BitVec 4) (nrz : Bool) (n : Nat) => m.kpSt p = 1 ∧ (m.port p).tp = .base ∧ (m.port p).tgtLanes = lanes ∧
      (m.port p).tgtNrz = nrz ∧ (m.port p).attempt = n ∧ (m.port p).out = .ts0
    (∀ who lanes, s.serves_ who = true → s.reaches who (kp p 8) = true → s.kpUsable p = true → s.bestLanes p = some lanes →
      (s.kpSt p = 0 → goes (.kpTrain who p) fun m => trains m lanes (s.bestNrz p) 0) ∧
      (s.kpSt p = 2 → goes (.kpTrain who p) fun m => m.kpSt p = 3 ∧ (m.port p).tgtLanes = lanes ∧ (m.port p).tgtNrz = s.bestNrz p ∧
        ∃ f c, (m.port p).tx = f :: t.tx ∧ f.path = (if p = 4 then 0 else 0x3FFFF) ∧ f.body = .credit c ∧ c.quiesce = true ∧ c.rebase = false ∧
          c.epoch.toNat = s.linkEpoch p) ∧
      (s.kpSt p = 1 ∨ s.kpSt p = 3 → goes (.kpTrain who p) fun m => m.kpSt p = s.kpSt p ∧ (m.port p).queuedTrain = true)) ∧
    (∀ who, s.serves_ who = true → s.reaches who (kp p 8) = true → s.kpSt p ≠ 0 →
      goes (.kpDown who p) fun m => m.kpSt p = 0 ∧ m.rb (kp p 0xC) 21 = false ∧ (m.port p).tp = .off) ∧
    (∀ locked (back : RingBack) rtt, s.kpSt p = 1 →
      (t.tp = .base → locked ≠ 0 → t.tse = true → back.tse = true →
        goes (.trainingPhaseEnd p locked back rtt) fun m => (m.port p).tp = .eq ∧ m.kpSt p = 1) ∧
      (t.tp = .base → locked ≠ 0 → t.tse = false ∨ back.tse = false →
        goes (.trainingPhaseEnd p locked back rtt) fun m => (m.port p).tp = .base ∧ (m.port p).tse = true ∧ m.kpSt p = 1) ∧
      (t.tp = .eq → locked &&& t.tgtLanes = t.tgtLanes →
        goes (.trainingPhaseEnd p locked back rtt) fun m => (m.port p).tp = .confirm ∧ m.kpSt p = 1) ∧
      (t.tp = .confirm → rtt.toNat ≤ 50000 → goes (.trainingPhaseEnd p locked back rtt) fun m => (m.port p).tp = .frame ∧ m.kpSt p = 1 ∧
        m.rf (kp p 0xC) 14 7 = (if p = 4 then 1 else back.hops.toNat) ∧ m.rf (kp p 0x10) 0 16 = rtt.toNat) ∧
      (t.tp = .confirm → 50000 < rtt.toNat → t.attempt < 2 →
        goes (.trainingPhaseEnd p locked back rtt) fun m => trains m t.tgtLanes t.tgtNrz (t.attempt + 1)) ∧
      (t.tp = .frame → p = 4 ∨ s.rf (kp p 0xC) 14 7 ≠ 0 → t.queuedTrain = false → t.queuedLane = false → t.winStash = [] →
        goes (.trainingPhaseEnd p locked back rtt) fun m => m.kpSt p = 2 ∧ (m.port p).hist = List.replicate 16 .idle ∧ m.rf (kp p 0xC) 6 4 = t.tgtLanes.toNat ∧
          m.rf (kp p 0xC) 5 1 = b2n t.tgtNrz ∧ m.linkEpoch p = (s.linkEpoch p + 1) % 16 ∧ (m.port p).tp = .off ∧
          m.count64 (kp p 0x88) = (s.count64 (kp p 0x88) + 1) % 2 ^ 64 ∧
          ∃ f ∈ (m.port p).tx, ∃ c, f.path = (if p = 4 then 0 else 0x3FFFF) ∧ f.body = .credit c ∧ c.rebase = true ∧ c.quiesce = false ∧
            c.epoch.toNat = (s.linkEpoch p + 1) % 16)) ∧
    (∀ lo hi : BitVec 2, s.kpSt p = 1 → t.tp ≠ .off →
      let l := if t.tp = .base then 0 else if t.tp = .eq then hi ++ lo else t.tgtLanes
      (t.attempt < 2 → goes (.trainingTimeout p lo hi) fun m => trains m t.tgtLanes t.tgtNrz (t.attempt + 1)) ∧
      (∀ lanes nrz, 2 ≤ t.attempt → lowerCfg t.tgtLanes t.tgtNrz l = some (lanes, nrz) →
        goes (.trainingTimeout p lo hi) fun m => trains m lanes nrz 0) ∧
      (2 ≤ t.attempt → lowerCfg t.tgtLanes t.tgtNrz l = none →
        exec (.trainingTimeout p lo hi) s = .next (s.trainFail p).finish ∧ ((s.setBit (kp p 0x14) 6).portDown p).kpSt p = 0)) ∧
    (∀ corr, s.kpSt p = 3 → goes (.quiesceMarkerReturn ⟨corr, p⟩) fun m => trains m t.tgtLanes t.tgtNrz t.attempt ∧ m.rb (kp p 0x14) 1 = s.rb (kp p 0x14) 1) ∧
    (s.kpSt p = 3 → goes (.quiesceTimeout p) fun m => trains m t.tgtLanes t.tgtNrz 0 ∧ m.rb (kp p 0x14) 8 = true ∧ m.rb (kp p 0x14) 1 = true ∧
      (m.port p).unpl = t.unpl + 1)

/-- Events of a running link (R326, R333, R339 to R342, R389): a window is judged by what the port has counted in it, the IDLEs the command tells of (log 83) among them, in QUIESCE later; a lost lane or TS0 retrains at once; ring-out goes idle;
BYP_HOLD rises; CREDITs and TOKENs fall due.
What a flit slot carries (R318, R324): an owed CREDIT first, then a due TOKEN, then what R318's list chooses, an IDLE where nothing may
go; a flit that leaves is counted in SENT; the slot is remembered for the quota of IDLE. -/
def Obligations.LinkEventsAndSlots : Prop :=
  (
  ∀ (s : State) (p : Nat), s.Canon →
    let t := s.port p
    let cfg := kp p 4
    let goes := fun (c : Instr) (P : State → Prop) => ∃ m : State, exec c s = .next m.finish ∧ P m
    let retrains := fun m : State => m.kpSt p = 1 ∧ m.rb (kp p 0x14) 1 = true ∧ (m.port p).tp = .base ∧ (m.port p).unpl = t.unpl + 1 ∧
      (m.port p).tgtLanes.toNat = (if s.kpSt p = 3 then t.tgtLanes.toNat else s.rf (kp p 0xC) 6 4) ∧
      (m.port p).tgtNrz = if s.kpSt p = 3 then t.tgtNrz else s.rb (kp p 0xC) 5
    (∀ idles corr noisy, s.linkLive p = true → s.kpSt p = 2 →
      let heard := s.ringIn p = true ∧ idles ≠ 0 ∧ noisy ≤ 7 * idles
      let flits := if heard then t.winFlits + idles + noisy else t.winFlits
      let lost := if heard then t.winUncorr + noisy else t.winUncorr
      let csum := ((List.range 4).map fun l => if bitOn (s.rf (kp p 0xC) 6 4) l then
        (if heard then t.winCorr.getD l 0 + corr.getD l 0 else t.winCorr.getD l 0) else 0).sum
      let bad := (s.af cfg 8 4 ≠ 0 ∧ 256 * flits / 2 ^ s.af cfg 8 4 < csum) ∨ (s.af cfg 16 8 ≠ 0 ∧ s.af cfg 16 8 ≤ lost) ∨ 3 ≤ t.unpl
      ((¬ bad ∨ t.run + 1 < max 1 (s.af cfg 12 4) ∨ s.ab (kp p 0) 3 = false ∨ s.rb cfg 31 = true) →
        goes (.degWindowEnd p idles corr noisy) fun m => m.kpSt p = 2 ∧ (m.port p).unpl = 0 ∧ (m.port p).winFlits = 0 ∧ (m.port p).winUncorr = 0 ∧ (bad → (m.port p).run = t.run + 1) ∧
          (¬ bad → (m.port p).run = 0)) ∧
      (bad → max 1 (s.af cfg 12 4) ≤ t.run + 1 → s.ab (kp p 0) 3 = true → s.rb cfg 31 = false → s.rb (kp p 0xC) 5 = false →
        goes (.degWindowEnd p idles corr noisy) fun m => m.kpSt p = 3 ∧ (m.port p).run = 0 ∧ m.rb (kp p 0x14) 0 = true ∧
          m.count64 (kp p 0x90) = (s.count64 (kp p 0x90) + 1) % 2 ^ 64)) ∧
    (s.linkLive p = true → s.kpSt p = 3 → goes (.degWindowEnd p 0 [] 0) fun m => (m.port p).unpl = 0 ∧ (m.port p).winFlits = 0 ∧
      (m.port p).winStash = t.winStash ++ [(256 * t.winFlits, t.winCorr, t.winUncorr, t.unpl)]) ∧
    (s.linkLive p = true → s.kpSt p = 2 ∨ s.kpSt p = 3 →
      (∀ lane, lane < 4 → s.rb (kp p 0xC) (6 + lane) = true → goes (.laneLockLoss p lane) retrains) ∧ goes (.ts0Received p) retrains) ∧
    (s.linkLive p = true → s.kpSt p = 0 → ∀ lane, lane < 4 → goes (.laneLockLoss p lane) fun m => m.rb (kp p 0xC) 21 = false) ∧
    (p < 5 → s.rf (kp p 0xC) 21 1 = 0 → s.kpSt p = 0 → ∃ m : State, exec (.ringOutIdleTimer p) s = .next m ∧ (m.port p).out = .elecIdle ∧
      m.regs = s.regs) ∧
    (s.linkLive p = true → p < 4 → s.kpSt p = 1 → goes (.bypHoldRise p) fun m => m.rb (kp p 0xC) 21 = true ∧ m.kpSt p = 1) ∧
    (s.linkLive p = true → s.kpSt p = 2 → ∀ st vc, vc < 4 → st ∉ t.credits →
      SMap.get (fun _ => 0) t.rxFreed (st * 4 + vc) ≠ SMap.get (fun _ => 0) t.rxSaid (st * 4 + vc) →
      goes (.creditTimer p st) fun m => (m.port p).credits = t.credits ++ [st]) ∧
    (s.running = true → goes .tokenTimer fun m => ∀ k, (m.port k).tokenDue = (if k < 4 ∧ s.kpSt k = 2 then true else (s.port k).tokenDue))) ∧ (
  ∀ (s : State) (p : Nat), s.Canon → p < 5 → s.running = true → s.kpSt p = 2 → s.lbDepth (p + 1) = 0 → s.pair.copyPos = none →
    let t := s.port p
    let goes := fun (P : State → Prop) => ∃ m : State, exec (.flitTransmit p) s = .next m.finish ∧ P m
    let sent := fun (m : State) (f : Flit) (k : SlotKind) => (m.port p).lastFlit = f.enc s.tepoch ∧ (m.port p).hist = (k :: t.hist).take 16
    let noCredit := t.credits = [] ∧ (∀ f ∈ t.tx, f.body.isCredit = false)
    (∀ st l, t.credits = st :: l → (∀ f ∈ t.tx, f.body.isCredit = false) →
      goes fun m => sent m (s.creditFor p st) .other ∧ (m.port p).credits = l ∧ (m.port p).tx = t.tx) ∧
    (noCredit → t.tokenDue = true → goes fun m => sent m s.tokenFlit .other ∧ (m.port p).tokenDue = false ∧ (m.port p).tx = t.tx ∧
      m.pair.tseq = s.pair.tseq + 1) ∧
    (noCredit → t.tokenDue = false → ∀ f b, s.choose p = (some f, b) → f.err = false → f.ce = false →
      goes fun m => sent m f (if f.body = .idle then .idle else if f.body.isCmd then .cmd else .other) ∧ (m.port p).tx = t.tx.erase f ∧
        (∀ vc, SMap.wf (fun _ => 0) t.sent = true → f.body.vc = some vc → let k := f.path % 64 * 4 + vc
          SMap.get (fun _ => 0) (m.port p).sent k = (SMap.get (fun _ => 0) t.sent k + 1) % 65536) ∧
        (f.body.vc = none → (m.port p).sent = t.sent)) ∧
    (noCredit → t.tokenDue = false → t.tx = [] → goes fun m => sent m idleFlit .idle ∧ (m.port p).tx = [] ∧ (m.port p).sent = t.sent))

/-- What a port's lanes carry (R309, R310, R314, R330): a flit dealt out to one, two or four lanes, each lane scrambled and descrambled
from the same register, is the flit; the levels of a lane give its bytes back; on an ACTIVE port each lane of the active set, in order,
carries its bytes of the last flit, scrambled from where its register stands after the flits before it, and no other lane carries anything;
in BASE all four carry TS0 at NRZ, or TSE once ring-in has locked, in EQ and CONFIRM the target lanes TS1 and TS2; a block is 256 bytes, of
which 228 are the lane's PRBS31, whose start the manual leaves open (log 54). -/
def Obligations.LanesCarryTheFlit : Prop :=
  (∀ (b : Bytes) (w : Nat) (r : Nat → BitVec 31), b.length = 256 → w = 1 ∨ w = 2 ∨ w = 4 →
    unlane w ((List.range w).map fun k => scramble (r k) (scramble (r k) (laneBytes w k b))) = b) ∧
  (∀ nrz b c, symbols nrz b = symbols nrz c → b = c) ∧
  (∀ kind width nrz lanes epoch prbs, (trainBlock kind width nrz lanes epoch prbs).length = 256) ∧
  (∀ (s : State) p j n kind, ((s.block p j n kind).drop 24).take 228 = prbs (Config.trainStart p j) (228 * n) 228) ∧
  ∀ (s : State) p j n, s.life = .live → (s.port p).out ≠ .elecIdle → j < 4 →
    let t := s.port p
    let m : BitVec 4 := BitVec.ofNat 4 (s.rf (kp p 0xC) 6 4)
    let ls := physLanes m
    (s.kpSt p = 2 → t.out = .flits → t.flits ≠ 0 →
      (∀ k, ls[k]? = some j → s.ringOut p j n = symbols (s.rb (kp p 0xC) 5)
        (scramble (lfsrAfter ((t.flits - 1) * (256 / ls.length)) (scrSeed k)) (laneBytes ls.length k t.lastFlit))) ∧
      (j ∉ ls → s.ringOut p j n = .idle)) ∧
    (s.kpSt p = 1 →
      (t.tp = .base → s.ringOut p j n = symbols true (s.block p j n (if t.tse then 3 else 0))) ∧
      (t.tp = .eq → s.ringOut p j n = if t.tgtLanes.getLsbD j then symbols t.tgtNrz (s.block p j n 1) else .idle) ∧
      (t.tp = .confirm → s.ringOut p j n = if t.tgtLanes.getLsbD j then symbols t.tgtNrz (s.block p j n 2) else .idle))

/-- Credited flits that ring-in delivers (R296, R326, R329, R372 to R375, R403, R424, R473 to R476): each takes a buffer and frees
it as it is consumed; DATA advances its exchange and stays in the input Furrow, its buffer held, until a transfer takes it (R462); STATUS ends
the exchange; an attention makes its source PENDING; PACE counts; a sender without a buffer is refused. No memory holds a codeword error, and
none is armed.
Flits without credit, and flits not delivered (R316, R324, R327, R338, R339): a CREDIT of the epoch is adopted, a re-base restarting SENT;
others are ignored; a bad flit is counted, and the eighth uncorrectable one in a row retrains the link; an IDLE is decoded like any other. -/
def Obligations.RingInFlits : Prop :=
  (
  ∀ (s : State) (p : Nat) (path : BitVec 18), s.Canon → s.errs = [] → s.rb 0x700A10 15 = false → p < 4 → s.ringIn p = true → s.lbDepth (p + 1) = 0 →
    let room := fun vc => 0 < (s.port p).room (path.toNat % 64 * 4 + vc) ∧ (s.port p).room (path.toNat % 64 * 4 + vc) < 32768
    let goes := fun (c : Instr) (P : State → Prop) => ∃ m : State, exec c s = .next m.finish ∧ P m
    (∀ c vc corr, (∃ d, c = .rxData p path corr d ∧ vc = 1) ∨ (∃ d, c = .rxStatus p path corr d ∧ vc = 0) ∨
        (∃ d, c = .rxAttn p path corr d ∧ vc = 3) ∨ (∃ d, c = .rxPace p path corr d ∧ vc = 3) → ¬ room vc →
      exec c s = .next ((((s.flitIn p corr).setBit (kp p 0x14) 5).bump (kp p 0x80)).report (62 + p)).finish) ∧
    (∀ corr d o, room 1 → s.exchange p path d.oph.toNat = some o → o.read = true → o.kind = 0 → o.lastSeen = false →
      o.rcvd = d.offset.toNat → d.data ≠ [] → o.rcvd + d.data.length ≤ o.fetchEnd →
      let key := ophKey d.oph.toNat
      let vk := path.toNat % 64 * 4 + 1
      let z : Nat → Nat := fun _ => 0
      goes (.rxData p path corr d) fun m =>
        (∃ q, m.op key = some q ∧ q.rcvd = o.rcvd + d.data.length ∧ q.lastSeen = d.last ∧ q.node = o.node) ∧
        (∀ t w, o.owner = .winLoad t → (s.thread t).win = some w → w.op = some key → (m.thread t).win = some { w with got := w.got ++ d.data }) ∧
        ((∀ t, o.owner ≠ .winLoad t) → SMap.wf z (s.port p).rxCount = true →
          m.inboxOf key = s.inboxOf key ++ [{ key := vk, epoch := s.rf (kp p 0xC) 10 4, data := d.data }] ∧
          SMap.get z (m.port p).rxCount vk = (SMap.get z (s.port p).rxCount vk + 1) % 65536 ∧ (m.port p).rxFreed = (s.port p).rxFreed)) ∧
    (∀ x v key o f, s.xfer x = some v → v.slot.isSome = true → v.op ≠ 3 → v.srcOp = some key → s.opXfer key = some (x, false) →
      s.op key = some o → s.inboxOf key = [f] → v.staged.length + f.data.length ≤ 4096 → v.done + v.staged.length + f.data.length ≤ v.len →
      let q := key / 4096 % 4
      let m := s.stage x false
      m.inboxOf key = [] ∧ (∃ w, m.xfer x = some w ∧ w.staged = v.staged ++ f.data ∧ w.done = v.done) ∧
        (f.epoch = s.rf (kp q 0xC) 10 4 → (m.port q).rxFreed = ((s.port q).rxFree f.key).rxFreed)) ∧
    (∀ corr d o, room 0 → d.dack = false → s.exchange p path d.oph.toNat = some o →
      (o.kind = 0 → o.owner = .unowned → d.endd = true → goes (.rxStatus p path corr d) fun m => m.op (ophKey d.oph.toNat) = none) ∧
      (∀ sc, o.kind = 4 → o.owner = .reserve sc → d.ans = true → d.result = 0 → (s.chain sc).phase = .answer → ChainsOn s sc →
        goes (.rxStatus p path corr d) fun m => FetchesWord s m sc (s.cx sc 32 8 + 32) ∧ m.op (ophKey d.oph.toNat) = none)) ∧
    (∀ corr d n, room 3 → s.sender p path = some n → d.source.toNat < 14 → s.srcSt (16 * n + d.source.toNat) = 0 →
      (s.src (16 * n + d.source.toNat)).lvl = false → d.lvl = false ∨ d.level = true →
      goes (.rxAttn p path corr d) fun m => m.srcSt (16 * n + d.source.toNat) = 1 ∧ (m.src (16 * n + d.source.toNat)).info = d.info ∧
        (m.src (16 * n + d.source.toNat)).since = s.now) ∧
    (∀ corr d, room 3 → s.sender p path = none → goes (.rxAttn p path corr d) fun m => m.rb 0x180004 2 = true ∧
      m.count64 (cnt 0x180040 4) = (s.count64 (cnt 0x180040 4) + 1) % 2 ^ 64) ∧
    (∀ corr d n, room 3 → s.sender p path = some n →
      (let c := d.number.toNat
       d.tgt = true → c < 256 → s.rf (bwCh c 0) 2 2 = 2 → s.rf (bwCh c 8) 0 12 = n →
        goes (.rxPace p path corr d) fun m => m.rf (bwCh c 0x1C) 0 8 = min (s.rf (bwCh c 0x1C) 0 8 + d.grant.toNat) 255) ∧
      (let sc := d.number.toNat
       d.tgt = false → (s.threadOf sc).isSome = true →
        ((s.chain sc).phase = .paceNode → (s.chain sc).node = n → ChainsOn s sc →
          goes (.rxPace p path corr d) fun m => FetchesWord s m sc (s.cx sc 32 8 + 32)) ∧
        ((s.chain sc).phase ≠ .paceNode → goes (.rxPace p path corr d) fun m => m.cx sc 276 2 = n + 32768)))) ∧ (
  ∀ (s : State) (p : Nat) (path : BitVec 18) (corr : List Nat), s.Canon → s.ringIn p = true →
    let t := s.port p
    let st := path.toNat % 64
    let g := fun (m : SMap Nat) vc => SMap.get (fun _ => 0) m (st * 4 + vc)
    let goes := fun (c : Instr) (P : State → Prop) => ∃ m : State, exec c s = .next m.finish ∧ P m
    (∀ d, d.epoch.toNat = s.linkEpoch p → d.quiesce = false → SMap.wf (fun _ => 0) t.grant = true → SMap.wf (fun _ => 0) t.sent = true →
      goes (.rxCredit p path corr d) fun m => g (m.port p).grant 0 = d.cmd.toNat ∧ g (m.port p).grant 1 = d.data.toNat ∧
        g (m.port p).grant 2 = d.decide.toNat ∧ g (m.port p).grant 3 = d.attn.toNat ∧
        (d.rebase = true → st ∈ (m.port p).rebased ∧ ∀ vc, vc < 4 → g (m.port p).sent vc = 0) ∧
        (d.rebase = false → (m.port p).sent = t.sent ∧ (m.port p).rebased = t.rebased)) ∧
    (∀ d, d.epoch.toNat ≠ s.linkEpoch p ∨ d.quiesce = true →
      goes (.rxCredit p path corr d) fun m => (m.port p).grant = t.grant ∧ (m.port p).sent = t.sent) ∧
    goes (.rxBadFlit p corr .uncorrectable) (fun m => m.rb (kp p 0x14) 2 = true ∧
      m.count64 (kp p 0x68) = (s.count64 (kp p 0x68) + 1) % 2 ^ 64 ∧
      (t.uncorrRun < 7 → (m.port p).uncorrRun = t.uncorrRun + 1 ∧ m.kpSt p = s.kpSt p) ∧
      (7 ≤ t.uncorrRun → m.kpSt p = 1 ∧ m.rb (kp p 0x14) 1 = true)) ∧
    goes (.rxBadFlit p corr .header) (fun m => m.rb (kp p 0x14) 3 = true ∧ (m.port p).uncorrRun = 0 ∧
      m.count64 (kp p 0x70) = (s.count64 (kp p 0x70) + 1) % 2 ^ 64) ∧
    goes (.rxBadFlit p corr .unclaimed) (fun m => m.rb (kp p 0x14) 4 = true ∧ (m.port p).uncorrRun = 0 ∧
      m.count64 (kp p 0x78) = (s.count64 (kp p 0x78) + 1) % 2 ^ 64) ∧
    goes (.rxBadFlit p corr .idle) (fun m => (m.port p).uncorrRun = 0 ∧ (m.port p).winFlits = t.winFlits + 1 ∧
      m.count64 (kp p 0x40) = (s.count64 (kp p 0x40) + 1) % 2 ^ 64))

/-- Enumeration (R359 to R364): it sends QUERY position by position; a reply's record goes into the entry its path names, the SET of a
matching one makes it PRESENT; an exchange is tried three times. No memory holds a codeword error.
Answers awaited (R378, R379, R405, R406): a flit goes again when T_ANS passes, twice; then the exchange is over, or the member is
unconfirmed; a decision is offered again to an unconfirmed member. No memory holds a codeword error. -/
def Obligations.EnumerationAndAnswers : Prop :=
  (
  ∀ (s : State) (p : Nat), s.Canon → s.errs = [] → p < 4 → s.running = true → s.kpSt p = 2 →
    let e := s.en p
    let hops := s.rf (kp p 0xC) 14 7
    let stat := 0x410020 + 4 * p
    let query := fun (m : State) pos => SendsFlit s m p { path := 0x3FFFF, body := .enumReq 0 pos 0 1 0 0 }
    let goes := fun (c : Instr) (P : State → Prop) => ∃ m : State, exec c s = .next m.finish ∧ P m
    (∀ who, s.serves_ who = true → reqAdm who = true →
      (e.phase = 0 → hops ≠ 0 → goes (.enum who p) fun m => query m 0 ∧ m.en p = { phase := 1 } ∧ m.rb (0x410010 + 4 * p) 0 = true) ∧
      (e.phase ≠ 0 → goes (.enum who p) fun m => (m.port p).enumQueued = true ∧ m.en p = e ∧ m.rb (0x410010 + 4 * p) 0 = true)) ∧
    (∀ path corr (d : EnumF), s.lbDepth (p + 1) ≠ 5 → e.phase = 1 → d.op ≠ 2 → d.pos.toNat = e.pos → d.level = 1 → e.pos + 1 < hops →
      d.cap.length = 64 →
      goes (.rxEnumReply p path corr d) fun m =>
        let grp := bitOn (leAt d.cap 6 1) 6
        query m (e.pos + 1) ∧ (m.en p).pos = e.pos + 1 ∧ (m.en p).found = e.found ++ [(d.prefixPath.toNat, 1, grp)] ∧
        (∀ n, s.nodeAt p d.prefixPath.toNat = some n → (∀ f ∈ e.found, f.1 ≠ d.prefixPath.toNat) →
          s.identity n d.cap = true →
          m.ntFlag n 3 = false ∧ m.ntFlag n 2 = grp ∧ (m.en p).sets = e.sets ++ [n] ∧ m.seed.rdN (0x900000 + 256 * n + 64) 64 = d.cap) ∧
        (∀ n, s.nodeAt p d.prefixPath.toNat = some n → (∀ f ∈ e.found, f.1 ≠ d.prefixPath.toNat) → s.identity n d.cap = false →
          m.ntFlag n 3 = true ∧ m.ntFlag n 1 = true ∧ m.rb stat 3 = true ∧ (m.en p).sets = e.sets) ∧
        (s.nodeAt p d.prefixPath.toNat = none → (∀ f ∈ e.found, f.1 ≠ d.prefixPath.toNat) → m.rb stat 4 = true ∧ (m.en p).sets = e.sets)) ∧
    (∀ path corr (d : EnumF) n k l, s.lbDepth (p + 1) ≠ 5 → e.phase = 4 → e.sets = n :: k :: l → d.op = 2 → s.nodePath n = d.prefixPath.toNat →
      goes (.rxEnumReply p path corr d) fun m => m.ntFlag n 1 = true ∧ (m.en p).sets = k :: l ∧ (m.en p).matched = e.matched + 1) ∧
    (e.phase = 1 → e.pos < hops → e.tries < 2 → goes (.enumTimeout p) fun m => query m e.pos ∧ (m.en p).tries = e.tries + 1 ∧ (m.en p).pos = e.pos) ∧
    (e.phase = 1 → e.pos + 1 < hops → 2 ≤ e.tries →
      goes (.enumTimeout p) fun m => query m (e.pos + 1) ∧ (m.en p).tries = 0 ∧ m.rb stat 6 = true)) ∧ (
  ∀ s : State, s.Canon → s.errs = [] → s.running = true →
    let goes := fun (c : Instr) (P : State → Prop) => ∃ m : State, exec c s = .next m.finish ∧ P m
    (∀ oph o f, s.op (ophKey oph) = some o → o.await = some f → o.gen = oph / 16384 → s.kpSt (nodePort o.node) = 2 →
      (o.tries < 2 → goes (.answerTimeout (.op oph)) fun m => (∃ q, m.op (ophKey oph) = some q ∧ q.tries = o.tries + 1 ∧ q.await = some f) ∧
        SendsFlit s m (nodePort o.node) f ∧
        m.nt o.node 136 4 = (s.nt o.node 136 4 + 1) % 2 ^ 32) ∧
      (2 ≤ o.tries → o.owner = .unowned → goes (.answerTimeout (.op oph)) fun m => m.op (ophKey oph) = none ∧
        ∃ g ∈ m.waitingFlits (nodePort o.node), g.body = .cmd { oph := o.gen * 16384 + ophKey oph, kind := 2 })) ∧
    (∀ x node b, (s.txn x).members.find? (fun m => decide (m.node = node)) = some b → s.kpSt (nodePort node) = 2 →
      (s.port (nodePort node)).firstEnum = true → s.ntFlag node 0 = true → s.ntFlag node 3 = false →
      let decision : FlitBody := if (s.txn x).decided then .commit x (s.txn x).tserial else .abort x (s.txn x).tserial
      let told := fun m : State => SendsFlit s m (nodePort node) { node, path := s.nodePath node, body := decision }
      (b.sent = true → b.answered = false → b.unconf = false → b.tries < 2 → goes (.answerTimeout (.member x node)) told) ∧
      (b.sent = true → b.answered = false → b.unconf = false → 2 ≤ b.tries → (s.txn x).posted = true →
        goes (.answerTimeout (.member x node)) fun m => m.rb 0x680004 2 = true ∧
          ∀ a ∈ (m.txn x).members, a.node = node → a.unconf = true) ∧
      ((s.txn x).used = true → b.unconf = true → b.answered = false → s.ntFlag node 1 = true → goes (.cretryTimer x node) told)))

/-! ## The journal, groups, the Weeder, the fabric -/

/-- A journal record becomes durable (R401, R539, R544): its 64 bytes lie in its slot; a published head shows; a decision counts; one whose
mirror is not acknowledged stays pending (R633).
Waits that end (R395, R429 to R431, R546): a chain that found no TXID ends with SA; a walk that finds no cycle does nothing, one too long is
counted, a cycle loses its youngest chain; a checkpoint takes the next JSEQ. -/
def Obligations.JournalAndWaits : Prop :=
  (
  ∀ (s : State) (r : JRec) (slot : Nat), s.Canon → s.life = .live → s.jpend = [r] → r.slot = some slot → r.local_ = false → r.raw.length = 64 →
    (r.acked = true → ∀ q head, r.eff = .qpub q head → ∃ m : State, exec .journalRecordDurable s = .next m.finish ∧ m.jpend = [] ∧
      Wrote s.seed m.seed (0xA00000 + 64 * slot) r.raw ∧ m.rn (tq q 0x14) = head % 2 ^ 32 ∧ (m.queue q).jseq = r.jseq) ∧
    (r.acked = true → ∀ x, r.eff = .decide x → ∃ m : State, exec .journalRecordDurable s = .next m.finish ∧ m.jpend = [] ∧
      m.seed.rdN (0xA00000 + 64 * slot) 64 = r.raw ∧ (m.txn x).decided = true) ∧
    (r.acked = false → ∃ m : State, exec .journalRecordDurable s = .next m.finish ∧ m.jpend = [{ r with local_ := true }] ∧
      Wrote s.seed m.seed (0xA00000 + 64 * slot) r.raw)) ∧ (
  ∀ s : State, s.Canon → s.running = true →
    let goes := fun (c : Instr) (P : State → Prop) => ∃ m : State, exec c s = .next m.finish ∧ P m
    (∀ sc, (s.chain sc).phase = .txidWait → (s.chain sc).xfer = none → (s.chain sc).fwd = none → PlainChain s sc → goes (.txidWaitTimeout sc) fun m => (m.chain sc).phase = .fixed ∧
      bitOn (m.cx sc 150 2) 5 = true ∧ bitOn (m.cx sc 150 2) 0 = true ∧ m.rb 0x680004 1 = true ∧
      m.count64 (cnt 0x680040 8) = (s.count64 (cnt 0x680040 8) + 1) % 2 ^ 64) ∧
    (∀ sc, (s.wait sc).isSome = true →
      (s.waitsFor sc = none → exec (.weederWalk sc) s = .next s) ∧
      (s.waitsFor sc = some sc → exec (.weederWalk sc) s = .next (s.breakCycle [sc]).finish) ∧
      (∀ c, s.waitsFor sc = some c → c ≠ sc → (s.wait c).isSome = true → s.waitsFor c = some sc →
        exec (.weederWalk sc) s = .next (s.breakCycle [sc, c]).finish) ∧
      (∀ c, s.waitsFor sc = some c → c ≠ sc → (s.wait c).isSome = true → s.waitsFor c = some c →
        goes (.weederWalk sc) fun m => m.rb 0x6A0000 2 = true ∧ m.count64 0x6A0018 = (s.count64 0x6A0018 + 1) % 2 ^ 64 ∧ m.chains = s.chains)) ∧
    (∀ l v, s.youngest l = some v → v ∈ l ∧ ∀ c ∈ l, s.cx c 96 8 < s.cx v 96 8 ∨ (s.cx c 96 8 = s.cx v 96 8 ∧ c ≤ v)) ∧
    (s.standby = false → s.ckFrom = none → 6 ≤ s.startStep →
      goes .checkpoint fun m => m.ckFrom = some (s.count64 0xC0010) ∧ m.rb 0xC001C 31 = true ∧ m.jpend = s.jpend))

/-- Port Furrows and priorities (R446, R450, R451, R455, R467, R469, R470): a FLUSH takes effect once no packet open at its request is open, by force
after 1 ms, and discards what lies in the Furrow; a stale packet raises its source once; tuning moves a priority by one within its bounds; an Ack releases TLPs. -/
def Obligations.FabricAndFurrows : Prop :=
  ∀ s : State, s.Canon →
    let goes := fun (c : Instr) (P : State → Prop) => ∃ m : State, exec c s = .next m.finish ∧ P m
    (∀ f, f < 24 →
      let k := s.furrow f
      let done := fun m : State => (m.furrow f).pkts = [] ∧ (m.furrow f).mark = none ∧ (m.furrow f).rd = 0 ∧ (m.furrow f).flush = false ∧
        m.rb (fu f 0) 0 = false ∧ (f % 2 = 0 → ∀ p ∈ s.inPkts (f / 2), p ∉ m.fab) ∧ (f = 1 → m.hostOut = []) ∧
        (f % 2 = 1 → 3 ≤ f → f ≤ 11 → ∀ x ∈ (m.port ((f - 3) / 2)).tx, x.body.isCredit = true)
      (∀ who, s.serves_ who = true → s.reaches who (fu f 0) = true → k.flush = false →
        (k.opens = [] → goes (.flush who f) fun m => done m ∧ (m.furrow f).opens = []) ∧
        (k.opens ≠ [] → goes (.flush who f) fun m => (m.furrow f).flush = true ∧ (m.furrow f).pkts = k.pkts ∧ m.rb (fu f 0) 0 = true ∧
          ∀ o ∈ (m.furrow f).opens, o.old = true)) ∧
      (s.running = true → k.flush = true → (∀ o ∈ k.opens, o.old = false) →
        goes (.flushEffect f) fun m => done m ∧ (m.furrow f).opens = k.opens) ∧
      (s.running = true → k.flush = true → goes (.flushTimeout f) fun m => done m ∧ m.rb (fu f 8) 3 = true ∧
        (∀ o ∈ (m.furrow f).opens, ∃ p ∈ k.opens, p.old = false ∧ o.pkt = p.pkt) ∧
        m.count64 (fu f 0x10) = (s.count64 (fu f 0x10) + k.opens.countP fun o => o.old) % 2 ^ 64) ∧
      (s.running = true → s.af 0x280000 16 16 ≠ 0 → s.fuVisible f = true → k.staleRaised = false → s.srcSt (intSrc f) = 0 →
        s.srcTgt (intSrc f) = false → goes (.staleTimer f) fun m => m.rb (fu f 8) 2 = true ∧ m.srcSt (intSrc f) = 1 ∧
          (m.furrow f).staleRaised = true)) ∧
    (∀ o, s.running = true → o < 12 → s.ab (0x200400 + 16 * o) 1 = true → s.rb 0x200500 31 = false →
      ∀ more : List Nat, goes (.tuningEpochEnd o more) fun m => ∀ r, r < 12 →
        let a := fbPrio o r
        let p := s.rf a 0 4
        let b := s.backlog o r + more.getD r 0
        m.rf a 0 4 = (if s.af a 12 4 < s.af a 8 4 then p else if s.af 0x200504 16 13 ≤ b then min (p + 1) (s.af a 12 4)
          else if b ≤ s.af 0x200504 0 13 then max (p - 1) (s.af a 8 4) else p)) ∧
    (∀ who o r (v : Word), o < 12 → r < 12 → s.serves_ who = true → s.reaches who (fbPrio o r) = true →
      goes (.fbPrioWrite who o r v) fun m => m.rf (fbPrio o r) 0 4 = v.toNat % 16 ∧ m.appReg (fbPrio o r) = s.appReg (fbPrio o r)) ∧
    (∀ nak n, s.life = .live → goes (.ackNakDllp nak n) fun m => m.hostOut = s.hostOut.drop n ∧ m.reads = s.reads ∧ m.fab = s.fab ∧
      m.count64 (cnt 0x100040 6) = (s.count64 (cnt 0x100040 6) + b2n (nak && decide (n < s.hostOut.length))) % 2 ^ 64)
/-! ## Rake -/

/-- Attention sources and claims (R471, R476, R478, R480 to R482, R484): the moves of R476; a write of RK_SWTRIG is an event or a level; a
mask; the claim of highest PRIO, earliest, lowest, on the least loaded Tiller; its record, its thread at the ATTN vector, its tag. -/
def Obligations.AttentionSources : Prop :=
  ∀ s : State, s.Canon →
    let goes := fun (c : Instr) (P : State → Prop) => ∃ m : State, exec c s = .next m.finish ∧ P m
    (∀ k, k < 65600 → s.srcTgt k = false →
      (s.srcSt k = 0 → (s.srcEvent k).srcSt k = 1) ∧ (s.srcSt k = 2 → (s.srcEvent k).srcSt k = 3) ∧
      (s.srcSt k = 1 ∨ s.srcSt k = 3 → (s.srcEvent k).srcSt k = s.srcSt k ∧
        (s.srcEvent k).count64 (cnt 0x180040 1) = (s.count64 (cnt 0x180040 1) + 1) % 2 ^ 64 ∧ (s.srcEvent k).rb 0x180004 0 = true) ∧
      (∀ b, (s.src k).lvl ≠ b → ((s.srcLevel k b).src k).lvl = b ∧ (s.srcLevel k b).srcSt k =
        if s.srcSt k = 0 ∧ b = true then 1 else if s.srcSt k = 1 ∧ b = false then 0 else s.srcSt k) ∧
      (∀ defer hold, (s.endService k defer hold).srcSt k =
        if s.srcIsLevel k then (if (s.src k).lvl then 1 else 0) else if defer = true ∨ s.srcSt k = 3 then 1 else 0)) ∧
    (∀ who (v : Word), s.serves_ who = true → reqAdm who = true → goes (.swtrig who v) fun m =>
      (∀ i, i < 16 → m.rb 0x180008 i = if v.getLsbD (16 + i) then v.getLsbD i else s.rb 0x180008 i) ∧
      ∀ i, i < 16 → (∀ j, j < 16 → v.getLsbD (16 + j) = decide (j = i)) →
        let w := s.wb 0x180008 i (v.getLsbD i)
        m = if s.rb (isrcA (65584 + i)) 13 then (if v.getLsbD i && !s.rb 0x180008 i then w.srcEvent (65584 + i) else w)
          else w.srcLevel (65584 + i) (v.getLsbD i)) ∧
    (∀ who n (v : Word), n < 4096 → s.serves_ who = true → s.reaches who (0x188004 + 8 * n) = true →
      goes (.sourceMaskWrite who n v) fun m => ∀ k, k < 16 →
        m.srcMasked (16 * n + k) = if v.getLsbD (16 + k) then v.getLsbD k else s.srcMasked (16 * n + k)) ∧
    (∀ who i (v : Word), i < 64 → s.serves_ who = true → s.reaches who (isrcA (65536 + i)) = true →
      goes (.sourceMaskWrite who (4096 + i) v) fun m => m.srcMasked (65536 + i) = v.getLsbD 12 ∧
        m.srcPrio (65536 + i) = v.toNat % 16 ∧
        (i < 48 ∨ v.getLsbD 13 = s.rb (isrcA (65536 + i)) 13 → m.srcSt (65536 + i) = s.srcSt (65536 + i))) ∧
    (∀ k, s.running = true → (s.src k).hold = true →
      goes (.holdoffExpiry k) fun m => m = s.modSrc k fun c => { c with hold := false }) ∧
    (∀ used : BitVec 8, s.running = true →
      (s.nextClaim used = none → exec (.attnClaim used) s = .next s) ∧
      ∀ k T, s.nextClaim used = some (k, T) →
        s.claimable k = true ∧ s.eligible k T used = true ∧ T < 64 ∧
        (∀ U, U < 64 → s.eligible k U used = true → s.runPrio T ≤ s.runPrio U) ∧
        (∀ j ∈ s.sources.keys, s.claimable j = true → (∃ U, U < 64 ∧ s.eligible j U used = true) →
          s.srcPrio j < s.srcPrio k ∨ (s.srcPrio j = s.srcPrio k ∧
            ((s.src k).ord < (s.src j).ord ∨ ((s.src k).ord = (s.src j).ord ∧ k ≤ j)))) ∧
        ∀ t, k < 65600 → s.freeThread T = some t → s.claimTag < 65536 → goes (.attnClaim used) fun m =>
          m.srcSt k = 2 ∧ (m.src k).thread = some t ∧ (m.thread t).bind = .attn k ∧ (m.thread t).pc = 8 ∧ (m.thread t).prio = s.srcPrio k ∧
          (m.thread t).ev = 0x20 ∧ m.rakeRR = (T + 1) % 64 ∧ m.claimTag = (s.claimTag + 1) % 65536 ∧
          m.tpriv.le (t * 4096 + 0xFC0) 2 = (if 65536 ≤ k then 32768 + (k - 65536) else k / 16) ∧
          m.tpriv.le (t * 4096 + 0xFC4) 4 = s.claimTag + 2 ^ 17 * s.srcSc k ∧ m.tpriv.le (t * 4096 + 0xFC8) 8 = (s.src k).since % 2 ^ 64 ∧
          m.tpriv.le (t * 4096 + 0xFC3) 1 = s.srcPrio k + 16 * s.srcHsel k)

/-- Messages and CQ interrupts (R489, R490, R492, R493): what a message that falls due does, what the timer and a write of RK_CQI_CFG do
to U, and a write to an MSI-X entry, whose vector sends once if it waits and nothing masks it (R522: with ECRC where the function
generates it). -/
def Obligations.MessagesAndCoalescing : Prop :=
  ∀ s : State, s.Canon →
    let goes := fun (c : Instr) (P : State → Prop) => ∃ m : State, exec c s = .next m.finish ∧ P m
    let sends := fun (m : State) fn (e : MsixEntry) => SendsTlp s m (.write fn e.addr.toNat (natLE 4 e.data.toNat) false (s.fnc fn).ecrc)
    (∀ fn vec, s.life = .live → s.safe = false → vec < msixSize fn → s.masters fn = true →
      ((s.fnc fn).msixEn = false → s.message fn vec = s) ∧
      ((s.fnc fn).msixEn = true →
        ((s.vec (fn * 2048 + vec)).mask = true ∨ (s.fnc fn).fmask = true →
          (s.message fn vec).pbit (fn * 2048 + vec) = true ∧ (s.message fn vec).hostOut = s.hostOut ∧ (s.message fn vec).fab = s.fab) ∧
        ((s.vec (fn * 2048 + vec)).mask = false → (s.fnc fn).fmask = false →
          sends (s.message fn vec) fn (s.vec (fn * 2048 + vec)) ∧ (s.message fn vec).pba = s.pba))) ∧
    (∀ q, q < 8192 → s.running = true → (s.queue q).timer = true → s.rb (cqi q) 11 = true → s.rf (cqi q + 4) 0 16 ≠ 0 →
      s.rf (cqi q + 4) 16 8 ≠ 0 → goes (.cqCoalesceTimer q) fun m => m.rf (cqi q + 4) 16 8 = 0 ∧ (m.queue q).timer = false ∧
        (msixSize (s.qFn q) ≤ s.rf (cqi q) 0 11 → m.rb 0x180004 5 = true ∧ m.hostOut = s.hostOut ∧ m.fab = s.fab) ∧
        (s.rf (cqi q) 0 11 < msixSize (s.qFn q) → (s.fnc (s.qFn q)).msixEn = true → s.masters (s.qFn q) = true →
          (s.fnc (s.qFn q)).fmask = false → (s.vec (s.qFn q * 2048 + s.rf (cqi q) 0 11)).mask = false →
          sends m (s.qFn q) (s.vec (s.qFn q * 2048 + s.rf (cqi q) 0 11)))) ∧
    (∀ who q (v : Word), q < 8192 → s.serves_ who = true → s.reaches who (cqi q) = true → goes (.cqiCfgWrite who q v) fun m =>
      m.rf (cqi q + 4) 16 8 = 0 ∧ m.rf (cqi q + 4) 0 16 = s.rf (cqi q + 4) 0 16 ∧ (m.queue q).timer = false ∧
      m.rf (cqi q) 0 11 = v.toNat % 2048 ∧ m.rb (cqi q) 11 = v.getLsbD 11 ∧ m.rf (cqi q) 16 8 = bits v.toNat 16 8) ∧
    (∀ q, s.rb (cqi q) 11 = false → s.cqPosted q = s) ∧
    (∀ fn vec word (v : Word), s.serves_ (.fn fn) = true → vec < msixSize fn → word < 4 →
      let k := fn * 2048 + vec
      goes (.msixTableWrite fn vec word v) fun m =>
        ((m.vec k).addr.setWidth 32 = if word = 0 then v &&& 0xFFFFFFFC#32 else (s.vec k).addr.setWidth 32) ∧
        (((m.vec k).addr >>> 32).setWidth 32 = if word = 1 then v else ((s.vec k).addr >>> 32).setWidth 32) ∧
        (m.vec k).data = (if word = 2 then v else (s.vec k).data) ∧ (m.vec k).mask = (if word = 3 then v.getLsbD 0 else (s.vec k).mask) ∧
        (∀ j, j ≠ k → m.vec j = s.vec j ∧ m.pbit j = s.pbit j) ∧
        (let go := s.pbit k && (s.fnc fn).msixEn && !(m.vec k).mask && !(s.fnc fn).fmask && s.masters fn &&
            (!s.safe || (decide (fn = 0 ∧ vec = s.af 0x40000 0 11) && s.ab 0x40000 11));
          (go = true → m.pbit k = false ∧ sends m fn (m.vec k)) ∧ (go = false → m.pbit k = s.pbit k ∧ m.hostOut = s.hostOut ∧ m.fab = s.fab)))

/-! ## The host port and the register bus -/

/-- Configuration, resets and time at the host port (R2, R493, R511 to R515, R518 to R521, R706): what a configuration request answers and changes; a
reset of a function leaves its configuration and its vectors at their reset values, memory requests refused until it completes; a read that
never completes fails; the correction by E after a PTM dialogue. -/
def Obligations.HostPortFunctionsAndTime : Prop :=
  ∀ s : State, s.Canon →
    let goes := fun (c : Instr) (P : State → Prop) => ∃ m : State, exec c s = .next m.finish ∧ P m
    let clear := fun (m : State) fn flr => m.fnc fn = { resetting := true, flr } ∧ m.memServe fn ≠ .full ∧
      ∀ v, v < 2048 → m.vec (fn * 2048 + v) = {} ∧ m.pbit (fn * 2048 + v) = false
    (∀ fn k w (v : Byte),
      (s.portThere = false → exec (.configRequest fn k w v) s = .next { s with reply := .silent }) ∧
      (s.portThere = true → s.hostReady = false → exec (.configRequest fn k w v) s = .next { s with reply := .retry }) ∧
      (s.portThere = true → s.hostReady = true → s.fnExists fn = false →
        exec (.configRequest fn k w v) s = .next { s.bump (cnt 0x100040 1) with reply := .unsupported }) ∧
      (s.portThere = true → s.hostReady = true → s.fnExists fn = true →
        exec (.configRequest fn k false v) s = .next { s with reply := .data (natLE (cfgSize k) ((s.fnc fn).get fn k)) 0 } ∧
        (cfgFixed k = true → goes (.configRequest fn k true v) fun m => m = { s with reply := .data [] 0 }) ∧
        (s.owed = [] → k ≠ .vfEnable → k = .ptmEnable → fn = 0 → goes (.configRequest fn k true v) fun m => (m.fnc 0).ptm = decide (v ≠ 0)) ∧
        (s.owed = [] → cfgFixed k = false → k ≠ .vfEnable → k ≠ .ptmEnable → goes (.configRequest fn k true v) fun m => m.reply = .data [] 0 ∧
          (m.fnc fn).get fn k = (if k = .cplTimeout then v.toNat % 16 else if k = .aerStatus then ((s.fnc fn).aer &&& ~~~v).toNat
            else b2n (decide (v ≠ 0))) ∧
          ∀ j, j ≠ k → (m.fnc fn).get fn j = (s.fnc fn).get fn j))) ∧
    let linked := fun m : State => m.rf 0x100004 0 3 ∈ [1, 2, 3, 4] ∧ m.rf 0x100004 3 5 ∈ [1, 4, 8, 16] ∧ m.rb 0x100004 8 = true
    (s.portThere = true → goes .portReset fun m => clear m 0 false ∧ (m.fnc 0).vfEn = false ∧ m.rb 0x100008 6 = true ∧ linked m) ∧
    (∀ fn, s.portThere = true → s.hostReady = true → s.fnExists fn = true →
      goes (.functionLevelReset fn) fun m => clear m fn true ∧ (fn = 0 → (m.fnc 0).vfEn = false)) ∧
    (s.portThere = true → s.hostReady = true → (s.fnc 0).vfEn = true →
      goes .vfEnableClear fun m => (m.fnc 0).vfEn = false ∧ (m.fnc 31).bme = false ∧ m.memServe 31 ≠ .full ∧
        ∀ v, v < 64 → m.vec (31 * 2048 + v) = {} ∧ m.pbit (31 * 2048 + v) = false) ∧
    (∀ fn, s.portThere = true → (s.fnc fn).resetting = true → goes (.functionResetDone fn) fun m =>
      m.fnc fn = { s.fnc fn with resetting := false, flr := false } ∧ ((s.fnc fn).flr = true → m.rb 0x100008 5 = true)) ∧
    (s.portThere = true → s.hostReady = false → s.startStep < 6 →
      goes .readyTimeout fun m => m.hostReady = true ∧ linked m ∧ ∀ k, k ≠ 0x100004 → m.reg k = s.reg k) ∧
    (∀ (r : Nat) q, s.reads[r]? = some q → s.life = .live → (s.fnc q.fn).cplDis = false →
      (∀ sc, q.why = .word sc → (s.chain sc).phase = .fetching → PlainChain s sc → goes (.completionTimeout r) fun m => ChainEnded s m sc 4 3) ∧
      (∀ k, q.why = .entry k → (s.queue k).reading = true → k < 8192 → goes (.completionTimeout r) fun m =>
        m.rb (tq k 0x1C) 6 = true ∧ m.readOut (.entry k) = false ∧ (m.queue k).reading = false ∧ m.rb 0x100008 2 = true ∧
        m.count64 (cnt 0x100040 3) = (s.count64 (cnt 0x100040 3) + 1) % 2 ^ 64)) ∧
    (s.life = .live → s.hostReady = true → (s.fnc 0).ptm = true → s.rb 0x10000C 0 = true →
      exec .ptmDialogue s = .next { s with ptmOpen := true }) ∧
    (∀ master : BitVec 64, s.life = .live → s.ptmOpen = true →
      let e := (master - BitVec.ofNat 64 s.now).toInt
      goes (.ptmResponse master) fun m =>
        (-1000 ≤ e → e ≤ 1000 → m.rb 0x100010 0 = true ∧ m.ptmOpen = false ∧ m.ptmFails = 0 ∧ m.time = s.time ∧ m.rate = (if e = 0 then 0 else if 0 < e then 100 else -100) ∧
          m.rb 0x100010 1 = decide (e ≠ 0) ∧ m.rb 0x100010 2 = decide (e < 0) ∧ (m.count64 0x100020 : Int) % 2 ^ 64 = e % 2 ^ 64) ∧
        (1000 < e → s.rb 0x10000C 1 = false → (∀ sc, (s.chain sc).phase ≠ .paceTimer) →
          m.time = s.time + e.toNat * 2 ^ 32 ∧ m.ptmFails = 0 ∧ m.rate = 0 ∧ m.rb 0x100010 1 = false ∧ m.rb 0x100010 0 = true) ∧
        (1000 < e → s.rb 0x10000C 1 = true → m.rb 0x100010 0 = true ∧ m.time = s.time ∧ m.ptmFails = 0 ∧ m.rate = 1000) ∧
        (e < -1000 → m.rb 0x100010 0 = true ∧ m.time = s.time ∧ m.ptmFails = 0 ∧ m.rate = -1000 ∧ m.rb 0x100010 2 = true ∧ m.rb 0x100008 7 = true)) ∧
    (s.life = .live → s.ptmOpen = true → goes .ptmTimeout fun m => m.ptmOpen = false ∧ m.rate = 0 ∧ m.rb 0x100008 8 = true ∧
      m.ptmFails = s.ptmFails + 1 ∧ m.rb 0x100010 0 = (s.rb 0x100010 0 && decide (s.ptmFails < 2))) ∧
    (s.life = .live → s.rb 0x100010 1 = true → ∃ m : State, exec .ptmSlewEnd s = .next m ∧ m.rate = 0 ∧ m.rb 0x100010 1 = false ∧
      m.rb 0x100010 2 = false ∧ m.rb 0x100010 0 = s.rb 0x100010 0 ∧ m.time = s.time)

/-- Register writes, clears by sequence, GLB_UPDATE, permissions and Tiller memories (R206, R499, R501, R508, R548, R650, R652 to R655, R657,
R659): a write replaces the bits its access types and its requester allow; status bits rise with SEQ and fall only to the current SEQ; a
strobe applies the groups it names. -/
def Obligations.RegisterBus : Prop :=
  ∀ s : State, s.Canon →
    let goes := fun (c : Instr) (P : State → Prop) => ∃ m : State, exec c s = .next m.finish ∧ P m
    (∀ who off r (v : Word), s.serves_ who = true → s.reaches who off = true → off % 4 = 0 → off < 0x1000000 ∨ 0x3000000 ≤ off →
      ¬ (0x108000 ≤ off ∧ off < 0x110000) → regAt off = some r → s.deaf who off = false → off ≠ 0x40068 → s.openWrite who off v = none →
      (reqAdm who = true → s.guardedWrite off v = none) →
      goes (.registerWrite who off .dword v) fun m =>
        (let w := r.writable (reqAdm who) v
         m.reg off = (s.reg off &&& ~~~w) ||| (v &&& w)) ∧
        (∀ k, k ≠ off → k ≠ 0x14 → m.reg k = s.reg k) ∧
        (∀ g, updGroup off = some g → (r.mask fun f => (reqAdm who || !f.g) && decide (f.acc = .rwu)) ≠ 0 → m.rb 0x14 g = true)) ∧
    (∀ who off (v : Word), s.serves_ who = true → off < 0x1000000 →
      goes (.registerWrite who off .other v) fun m => m.rb 0x100008 0 = true ∧
        m.count64 (cnt 0x100040 0) = (s.count64 (cnt 0x100040 0) + 1) % 2 ^ 64 ∧ ∀ k, k < 0x100008 → m.reg k = s.reg k) ∧
    (∀ f off (v : Word), s.serves_ (.fn f) = true →
      (goes (.registerWrite (.fn f) off .poisoned v) fun m => m.rb 0x100008 1 = true ∧ (m.fnc f).aer.getLsbD 2 = true ∧
        m.count64 (cnt 0x100040 2) = (s.count64 (cnt 0x100040 2) + 1) % 2 ^ 64 ∧ ∀ k, k < 0x100008 → m.reg k = s.reg k) ∧
      ((s.fnc f).ecrcChk = true → goes (.registerWrite (.fn f) off .badEcrc v) fun m => m.rb 0x100008 4 = true ∧ (m.fnc f).aer.getLsbD 6 = true ∧
        m.count64 (cnt 0x100040 5) = (s.count64 (cnt 0x100040 5) + 1) % 2 ^ 64 ∧ ∀ k, k < 0x100008 → m.reg k = s.reg k) ∧
      ((s.fnc f).ecrcChk = false → exec (.registerWrite (.fn f) off .badEcrc v) s = exec (.registerWrite (.fn f) off .dword v) s)) ∧
    (∀ who off (v : Word), s.serves_ who = true → s.reaches who off = false → off % 4 = 0 → off < 0x1000000 ∨ 0x3000000 ≤ off →
      ¬ (0x108000 ≤ off ∧ off < 0x110100) → exec (.registerWrite who off .dword v) s = .next s) ∧
    (∀ off mask, let t := s.setStatus off mask
      (∀ k, k < 24 → t.rb off k = (s.rb off k || bitOn mask k)) ∧
      t.rf off 24 8 = (if (List.range 24).any fun k => bitOn mask k && !s.rb off k then (s.rf off 24 8 + 1) % 256 else s.rf off 24 8)) ∧
    (∀ who off (v : Word) (hw : BitVec 24), isRcs off = true → off ≠ 0x18 → s.serves_ who = true → s.reaches who off = true →
      let hits := fun k => hw.getLsbD k = true ∧ bitOn (rcsMask off) k = true
      ((∀ k, ¬ hits k) → v.toNat / 2 ^ 24 = s.rf off 24 8 → goes (.rcsClear who off v hw) fun m => m.rf off 24 8 = s.rf off 24 8 ∧
        (∀ k, k < 24 → bitOn (rcsMask off) k = true → m.rb off k = (s.rb off k && !v.getLsbD k)) ∧ m.reg 0x18 = s.reg 0x18) ∧
      ((∀ k, ¬ hits k) → v.toNat / 2 ^ 24 ≠ s.rf off 24 8 → goes (.rcsClear who off v hw) fun m => m.reg off = s.reg off ∧
        m.rb 0x18 0 = true ∧ m.count64 (cnt 0x40 1) = (s.count64 (cnt 0x40 1) + 1) % 2 ^ 64) ∧
      (off < 0x40010 ∨ 0x40024 ≤ off → (∃ k, hits k) → goes (.rcsClear who off v hw) fun m => m.rb 0x18 1 = true ∧
        m.count64 (cnt 0x40 0) = (s.count64 (cnt 0x40 0) + 1) % 2 ^ 64 ∧
        ∀ k, k < 24 → (s.rb off k = true → m.rb off k = true) ∧ (hits k → m.rb off k = true))) ∧
    (∀ who (v : Word), s.serves_ who = true → reqAdm who = true → v.getLsbD 8 = false → goes (.glbUpdate who v) fun m =>
      (∀ k r g, updGroup k = some g → regAt k = some r →
        let u := r.mask fun f => decide (f.acc = .rwu)
        if v.getLsbD g = true ∧ g < 16 then m.appReg k = (s.appReg k &&& ~~~u) ||| (s.reg k &&& u) else m.appReg k = s.appReg k) ∧
      (∀ g, g < 16 → m.rb 0x14 g = (s.rb 0x14 g && !v.getLsbD g)) ∧
      m.count64 (cnt 0x40 2) = (s.count64 (cnt 0x40 2) + 1) % 2 ^ 64) ∧
    (∀ who n k (v : Word), s.errs = [] → s.rb 0x700A10 15 = false → n < 4096 → k < 4 → s.standby = false → s.serves_ who = true → reqAdm who = true →
      goes (.hpPermWrite who n k v) fun m => m.reg (0x140000 + 16 * n + 4 * k) = v ∧
        m.seed.rdN (0x3601000 + 16 * n + 4 * k) 4 = natLE 4 v.toNat ∧ m.seed.rdN (0x3611000 + 16 * n + 4 * k) 4 = natLE 4 v.toNat) ∧
    (∀ off (v : Word), off < 0x1000000 → s.serves_ (.fn 0) = true → off % 4 = 0 →
      let drained := s.rb (0x600004 + 8 * (off / 0x200000)) 16
      (drained = false → goes (.tillerRegionWrite (.fn 0) off .dword v) fun m => m.tmem = s.tmem ∧ m.rb 0x600040 0 = true) ∧
      (drained = true → teReserved (off % 0x40000) = true → exec (.tillerRegionWrite (.fn 0) off .dword v) s = .next s) ∧
      (drained = true → teReserved (off % 0x40000) = false → s.errs = [] → goes (.tillerRegionWrite (.fn 0) off .dword v) fun m =>
        Wrote s.tmem m.tmem off (natLE 4 v.toNat) ∧ m = { s with tmem := m.tmem }))

/-! ## The management port, the Vault -/

/-- The management port (R523, R524, R692): SET_ADDR, WRITE and READ act as the PF on the offset held, which then advances by 4; a bad PEC
discards a command; after a timeout the offset is a free value (log 4), as is the value beside "not reachable".
The Vault (R521, R551 to R555): reads give the staged contents of an open update, else the committed ones; the first write of a block
stages it; OPEN, COMMIT, ABORT; the copy home. Where the Seedbank does not confirm in time, source 94 brings the safe state (R604). -/
def Obligations.ManagementAndVault : Prop :=
  (
  ∀ s : State, s.Canon → s.life = .live ∨ s.life = .waiting →
    let a := s.smbAddr.toNat
    (∀ w, exec (.smbSetAddr w true) s = .next { s with smbAddr := w } ∧ exec (.smbSetAddr w false) s = .next s ∧
      exec (.smbWrite w false) s = .next s) ∧
    (∀ v, smbReach a = false → exec (.smbWrite v true) s = .next { s with smbAddr := s.smbAddr + 4 }) ∧
    (∀ v r, smbReach a = true → regAt a = some r → ¬ (0x108000 ≤ a ∧ a < 0x110000) → s.deaf .mgmt a = false → a ≠ 0x40068 →
      s.openWrite .mgmt a v = none → s.guardedWrite a v = none →
      ∃ m : State, exec (.smbWrite v true) s = .next m.finish ∧ m.smbAddr = s.smbAddr + 4 ∧
        m.reg a = ((s.reg a &&& ~~~(r.writable true v)) ||| (v &&& r.writable true v)) ∧ ∀ k, k ≠ a → k ≠ 0x14 → m.reg k = s.reg k) ∧
    (smbReach a = true → exec .smbRead s =
      .next { s with smbAddr := s.smbAddr + 4, reply := .data (natLE 4 (s.readReg (.fn 0) a).toNat) 0 }) ∧
    (smbReach a = false → ∃ w : Word, exec .smbRead s =
      .next { s with smbAddr := s.smbAddr + 4, freeCtr := s.freeCtr + 1, reply := .data (natLE 4 w.toNat) 1 }) ∧
    (∃ w, exec .smbTimeout s = .next { s with smbAddr := w, freeCtr := s.freeCtr + 1, reply := .none })) ∧ (
  ∀ s : State, s.Canon →
    let goes := fun (c : Instr) (P : State → Prop) => ∃ m : State, exec c s = .next m.finish ∧ P m
    (s.memServe 0 = .full → ∀ off len, off < 0x2000000 →
      (len = 0 ∨ 4096 < off % 4096 + len → goes (.vaultRead 0 off len) fun m => m.rb 0x100008 0 = true ∧ m.seed = s.seed ∧
        m.reply = .data (List.replicate len 0) 0) ∧
      (0 < len → off % 4096 + len ≤ 4096 →
        let from_ := match s.staged (off / 4096) with
          | some k => if s.vst = 1 ∨ s.vst = 3 then vaultSlot k + off % 4096 else 0x1600000 + off
          | none => 0x1600000 + off
        (s.seedErr from_ len = 0 → exec (.vaultRead 0 off len) s = .next { s with reply := .data (s.seed.rdN from_ len) 0 }.finish) ∧
        (s.seedErr from_ len = 1 → goes (.vaultRead 0 off len) fun m => m.reply = .data (s.seed.rdN from_ len) 0) ∧
        (s.seedErr from_ len = 2 → goes (.vaultRead 0 off len) fun m => m.reply = .poisoned (s.seed.rdN from_ len)))) ∧
    (s.memServe 0 = .full → ∀ off (d : Bytes), off < 0x2000000 → off % 4096 + d.length ≤ 4096 →
      (s.vst ≠ 1 → goes (.vaultWrite 0 off d) fun m => m.rb 0xC0000 3 = true ∧ m.seed = s.seed) ∧
      (s.safe = false → s.standby = false → s.vst = 1 →
        (s.staged (off / 4096) = none → 256 ≤ s.vstage.length → goes (.vaultWrite 0 off d) fun m => m.rb 0xC0000 4 = true ∧
          m.seed = s.seed ∧ m.vstage = s.vstage ∧ m.vover = true) ∧
        (s.errs = [] → s.rb 0x700A10 15 = false →
          (∀ k, s.staged (off / 4096) = some k → goes (.vaultWrite 0 off d) fun m => m.vstage = s.vstage ∧
            Wrote s.seed m.seed (vaultSlot k + off % 4096) d) ∧
          (s.staged (off / 4096) = none → s.vstage.length < 256 → goes (.vaultWrite 0 off d) fun m =>
            m.vstage = s.vstage ++ [(off / 4096, s.vstage.length)] ∧ m.rf 0xC0044 2 9 = s.vstage.length + 1 ∧
            Wrote s.seed m.seed (vaultSlot s.vstage.length)
              (putAt (s.seed.rdN (0x1600000 + off / 4096 * 4096) 4096) (off % 4096) d))))) ∧
    (∀ who, s.serves_ who = true → reqAdm who = true → s.standby = false →
      (s.safe = false → s.vst = 0 → goes (.vaultOpen who) fun m => m.vst = 1 ∧ m.vstage = [] ∧ m.rf 0xC0044 2 9 = 0 ∧ m.seed = s.seed) ∧
      (s.vst ≠ 0 ∨ s.safe = true → goes (.vaultOpen who) fun m => m = s) ∧
      (s.vst = 1 → goes (.vaultAbort who) fun m => m.vst = 0 ∧ m.vstage = [] ∧ m.seed = s.seed ∧
        m.count64 (cnt 0xC0080 3) = (s.count64 (cnt 0xC0080 3) + 1) % 2 ^ 64) ∧
      (s.vst ≠ 1 → goes (.vaultAbort who) fun m => m = s) ∧
      (s.safe = false → s.vst = 1 → ∀ check : Option Bool,
        let checks := check.getD (s.rb 0xC0040 3)
        (s.vover = true ∨ s.rb 0xC0000 4 = true ∨ s.vstage = [] → goes (.vaultCommit who check) fun m => m.vst = 1 ∧ m.vstage = s.vstage ∧
          m.jpend = s.jpend) ∧
        (s.vover = false → s.rb 0xC0000 4 = false → s.vstage ≠ [] →
          (checks = true → s.vaultCrc ≠ s.reg 0xC0048 → goes (.vaultCommit who check) fun m => m.vst = 1 ∧ m.vstage = s.vstage ∧
            m.rb 0xC0000 5 = true ∧ m.jpend = s.jpend) ∧
          (checks = false ∨ s.vaultCrc = s.reg 0xC0048 → goes (.vaultCommit who check) fun m => m.vst = 2 ∧ m.vstage = s.vstage ∧
            ∃ r, m.jpend.getLast? = some r ∧ r.eff = .vcommit)))) ∧
    (s.life = .live → s.safe = false → s.errs = [] → s.rb 0x700A10 15 = false → s.vst = 3 → (∀ r ∈ s.jpend, r.eff ≠ .vdone) → (∀ e ∈ s.vstage, e.1 < 8192 ∧ e.2 < 256) →
      (s.vstage.map Prod.fst).Nodup → goes .vaultCopyDone fun m => m.vst = 3 ∧
        (∀ e ∈ s.vstage, m.seed.rdN (0x1600000 + 4096 * e.1) 4096 = s.seed.rdN (vaultSlot e.2) 4096) ∧
        ∃ r, m.jpend.getLast? = some r ∧ r.eff = .vdone) ∧
    (∀ j, (s.applyEff j .vcommit).vst = 3 ∧ (s.applyEff j .vcommit).reg 0xC004C = s.reg 0xC004C + 1 ∧ (s.applyEff j .vdone).vst = 0) ∧
    (s.life = .live → goes .sbConfirmTimeout fun m => m.safe = true ∧ m.sticky 94 = true))

/-! ## Power domains, image updates, faults -/

/-- Power domains (R557, R558, R561, R562, R614): REQ = 1 drains an idle domain, turns a fenced one OFF at once, and is refused for the
second Barrow half; what happens OFF and at power-up to a group's memories, a half and its fence; DRTMO forces the end. -/
def Obligations.PowerDomains : Prop :=
  ∀ (s : State) (d : Nat), s.Canon → d < 14 →
    let goes := fun (c : Instr) (P : State → Prop) => ∃ m : State, exec c s = .next m.finish ∧ P m
    let quiet := (12 ≤ d → s.xfers = []) ∧ (4 ≤ d → d < 12 → s.threads = [] ∧ s.chains = []) ∧
      (d < 4 → s.chains = [] ∧ s.txns = [] ∧ s.chans = [] ∧ s.lbDepth (d + 1) = 0)
    (∀ who, s.serves_ who = true → reqAdm who = true →
      (s.rb 0x80020 d = true → exec (.domainPowerDown who d) s = .next s.finish) ∧
      (s.rb 0x80020 d = false → 12 ≤ d → s.rb 0x80020 (25 - d) = true → goes (.domainPowerDown who d) fun m => m.rb 0xC0000 1 = true ∧
        m.rb 0x80020 d = false ∧ m.pdom d = s.pdom d) ∧
      (s.rb 0x80020 d = false → (12 ≤ d → s.rb 0x80020 (25 - d) = false) →
        (s.pdom d = 1 ∨ s.pdom d = 2 → goes (.domainPowerDown who d) fun m => m.rb 0x80020 d = true ∧ m.pdom d = s.pdom d) ∧
        (s.pdom d = 0 ∨ s.pdom d = 3 →
          (s.domFenced d = true → 4 ≤ d → goes (.domainPowerDown who d) fun m => m.rb 0x80020 d = true ∧ m.pdom d = 2) ∧
          (s.domFenced d = false → quiet → goes (.domainPowerDown who d) fun m => m = (s.wb 0x80020 d true).setPdom d 1 ∧
            m.rb 0x80020 d = true ∧ m.pdom d = 1))) ∧
      (s.rb 0x80020 d = true → s.rf 0x700904 0 3 ≠ 1 → goes (.domainPowerUp who d) fun m => m.rb 0x80020 d = false ∧
        m.pdom d = if s.pdom d = 2 then 3 else s.pdom d)) ∧
    (s.life = .live → s.pdom d = 1 →
      (4 ≤ d → s.inFlight d = false → goes (.domainOff d) fun m => m.pdom d = (if s.rb 0x80020 d then 2 else 3) ∧
        (d < 12 → (∀ a, a / 0x200000 = d - 4 → m.tmem.rd a = 0) ∧ ∀ a, a / 0x200000 ≠ d - 4 → m.tmem.rd a = s.tmem.rd a)) ∧
      goes (.drainTimeout d) fun m => m.rb 0xC0000 0 = true ∧ (m.pdom d = 2 ∨ m.pdom d = 3)) ∧
    (s.life = .live → s.pdom d = 3 → 4 ≤ d → goes (.domainPowered d) fun m => m.pdom d = 0 ∧
      m.rb 0x40008 (d - 4) = (s.rb 0x40008 (d - 4) && !s.domClear d) ∧
      (d < 12 → (∀ t, groupOf t = d - 4 → m.thread t = {}) ∧
        ∀ k, k < 8 → k ≠ d - 4 → s.pdom (4 + k) = 0 → (∀ j, j < k → s.pdom (4 + j) ≠ 0 ∨ j = d - 4) →
          ∀ T o, T / 8 = d - 4 → o < 0x40000 → m.tmem.rd (T * 0x40000 + o) = s.tmem.rd (8 * k * 0x40000 + o)))

/-- Image updates (R590 to R593, R712): GO reads the header as the PF and names the copy the start did not use; each completed flash
command erases, programs or checks its part, the header last; each failure has its code. -/
def Obligations.ImageUpdates : Prop :=
  ∀ s : State, s.Canon →
    let goes := fun (c : Instr) (P : State → Prop) => ∃ m : State, exec c s = .next m.finish ∧ P m
    let a := 0x800000 * s.suTarget + s.upd.pos
    let failed := fun (m : State) code => m.suSt = 7 ∧ m.rf 0x80064 3 3 = code ∧ m.upd = {}
    let reads := fun (s m : State) off =>
      ReadsHost s m { fn := 0, addr := (s.count64 0x80058 / 4096 * 4096 + off) % 2 ^ 64, len := 4096, why := .image }
    (∀ who, s.serves_ who = true → reqAdm who = true →
      (s.updating = true → goes (.imageUpdate who) fun m => m = s) ∧
      (s.updating = false → goes (.imageUpdate who) fun m => m.bgCheck = false ∧
        (s.masters 0 = true → m.suSt = 1 ∧ m.suTarget = (if s.rf 0x80040 0 2 = 1 then 1 else 0) ∧ reads s m 0) ∧
        (s.masters 0 = false → failed m 1)) ∧
      (s.updating = false → goes (.imageUpdateAbort who) fun m => m = s) ∧
      (s.suSt = 1 → goes (.imageUpdateAbort who) fun m => failed m 6) ∧
      (s.suSt = 3 → s.readOut .image = true → goes (.imageUpdateAbort who) fun m => failed m 6) ∧
      (s.suSt = 2 ∨ (s.suSt = 3 ∧ s.readOut .image = false) ∨ s.suSt = 4 ∨ s.suSt = 5 → goes (.imageUpdateAbort who) fun m => m.suSt = s.suSt ∧ m.upd.abort = true)) ∧
    (∀ (data : Bytes) err, s.life = .live → s.readOut .image = true → s.updating = true → s.rb 0x700A10 15 = false →
      let over_ := s.readOver .image
      (err ≠ .ok → goes (.updateImageReadDone data err) fun m => failed m 1) ∧
      (s.suSt = 1 → s.upd.hdr = [] → data.length = 4096 → s.masters 0 = true →
        (headerOk (fun i => data.getD i 0) = true → goes (.updateImageReadDone data .ok) fun m => m.upd.hdr = data ∧ m.suSt = 1 ∧ reads over_ m 0) ∧
        (headerOk (fun i => data.getD i 0) = false → goes (.updateImageReadDone data .ok) fun m => failed m 2)) ∧
      (s.suSt = 1 → s.upd.hdr ≠ [] → data.length = 4096 → s.upd.img.length + 4096 < s.suLen → s.masters 0 = true →
        goes (.updateImageReadDone data .ok) fun m => m.upd.img = s.upd.img ++ data ∧ m.suSt = 1 ∧ reads over_ m (s.upd.img.length + 4096)) ∧
      (s.suSt = 1 → s.upd.hdr ≠ [] → data.length = 4096 → s.suLen ≤ s.upd.img.length + 4096 →
        (copyOk (fun i => (s.upd.img ++ data).getD i 0) = true → goes (.updateImageReadDone data .ok) fun m => m.suSt = 2 ∧ m.upd.pos = 0) ∧
        (copyOk (fun i => (s.upd.img ++ data).getD i 0) = false → goes (.updateImageReadDone data .ok) fun m => failed m 3))) ∧
    (s.life = .live → s.suFlash = true → s.upd.abort = false →
      (s.suSt = 2 → goes .flashOpDone fun m => (∀ k, a ≤ k → k < a + 65536 → SMap.get memErased m.flash k = 0xFF) ∧
        (∀ k, k < a ∨ a + 65536 ≤ k → SMap.get memErased m.flash k = SMap.get memErased s.flash k) ∧
        (s.upd.pos + 65536 < s.suLen → m.suSt = 2 ∧ m.upd.pos = s.upd.pos + 65536) ∧
        (s.suLen ≤ s.upd.pos + 65536 → s.masters 0 = true → m.suSt = 3 ∧ m.upd.pos = 4096 ∧ reads s m 4096)) ∧
      (s.suSt = 3 → 256 ≤ s.upd.img.length → goes .flashOpDone fun m =>
        (∀ i, i < 256 → SMap.get memErased m.flash (a + i) = s.upd.img.getD i 0) ∧
        (∀ k, k < a ∨ a + 256 ≤ k → SMap.get memErased m.flash k = SMap.get memErased s.flash k) ∧
        (256 < s.upd.img.length → m.suSt = 3 ∧ m.upd.pos = s.upd.pos + 256 ∧ m.upd.img = s.upd.img.drop 256) ∧
        (s.upd.img.length = 256 → s.suLen ≤ s.upd.pos + 256 → m.suSt = 4 ∧ m.upd.pos = 0)) ∧
      (s.suSt = 4 → goes .flashOpDone fun m => m.flash = s.flash ∧
        (s.upd.pos + 4096 < s.suLen → m.suSt = 4 ∧ m.upd.pos = s.upd.pos + 4096) ∧
        (s.suLen ≤ s.upd.pos + 4096 → if imgDigest s.suImage = imgSha s.suImage ∧ crcsOk s.suImage = true then m.suSt = 5 else failed m 5)) ∧
      (s.suSt = 5 → s.upd.back = false → s.upd.pos + 256 ≤ 4096 → s.upd.hdr.length = 4096 → goes .flashOpDone fun m =>
        (∀ i, i < 256 → SMap.get memErased m.flash (a + i) = s.suHeader.getD (s.upd.pos + i) 0) ∧
        (∀ k, k < a ∨ a + 256 ≤ k → SMap.get memErased m.flash k = SMap.get memErased s.flash k) ∧ m.suSt = 5 ∧
        m.upd.back = decide (s.upd.pos = 3840)) ∧
      (s.suSt = 5 → s.upd.back = true → goes .flashOpDone fun m => m.flash = s.flash ∧
        if imgN (s.flashAt s.suTarget) 0 4096 = s.suHeader then m.suSt = 6 else failed m 5)) ∧
    (s.life = .live → s.suFlash = true → s.upd.abort = true → s.suSt = 4 → s.upd.pos + 4096 < s.suLen → goes .flashOpDone fun m => failed m 6) ∧
    (s.life = .live → s.suFlash = true → s.suSt ≠ 4 → s.upd.back = false → goes .flashTimeout fun m => failed m 4 ∧
      (s.suSt = 2 → s.upd.pos = 0 → headerOk (m.flashAt s.suTarget) = false) ∧
      ∀ k, k < a ∨ a + 65536 ≤ k → SMap.get memErased m.flash k = SMap.get memErased s.flash k) ∧
    (s.life = .live → s.bgCheck = true → goes .backgroundCheckDone fun m => m.rb 0x80040 6 = copyOk (s.flashAt 0) ∧
      m.rb 0x80040 7 = copyOk (s.flashAt 1) ∧ m.rb 0x80040 12 = true ∧ m.bgCheck = false)

/-- Faults (R25, R26, R594, R595, R597 to R601, R604, R605, R609, R613, R615): a report sets its sticky bit, and PR_FIRST where none was set; LOG does no
more, FENCE takes the unit out unless it is the last, SAFE takes every port DOWN; conditions, temperature, the patrol. -/
def Obligations.FaultReports : Prop :=
  ∀ s : State, s.Canon → s.life = .live →
    let goes := fun (c : Instr) (P : State → Prop) => ∃ m : State, exec c s = .next m.finish ∧ P m
    let logged := fun (m : State) n => m.sticky n = true ∧ (∀ j, j < 106 → j ≠ n → m.sticky j = s.sticky j) ∧
      (s.anySticky = false → m.rn 0x40070 = n + 128 ∧ m.count64 0x40078 = s.now) ∧ (s.anySticky = true → m.rn 0x40070 = s.rn 0x40070)
    let stops := fun (m : State) n => m.sticky n = true ∧ m.safe = true ∧ (s.safe = false → (∀ p, p < 5 → m.kpSt p = 0) ∧
      m.rf 0x40080 0 7 = n ∧ m.rb 0x40080 7 = true ∧ m.rf 0x40080 8 16 = min (s.rf 0x40080 8 16 + 1) 65535 ∧ m.count64 0x40088 = s.now)
    let bare := fun n => n ∉ [42, 43, 73, 74, 76, 77, 78] ∧ ¬ (50 ≤ n ∧ n < 54)
    (∀ n unit, n < 106 → bare n → srcIsCond n = false →
      (s.react n = 0 → goes (.faultReport n unit) fun m => logged m n ∧ m.safe = s.safe ∧ m.reg 0x40008 = s.reg 0x40008) ∧
      (s.react n = 2 → goes (.faultReport n unit) fun m => stops m n)) ∧
    (∀ n unit, n < 106 → srcIsCond n = true → (n ∈ s.conds → goes (.faultReport n unit) fun m => m = s) ∧
      (n ∉ s.conds → s.react n = 0 → goes (.faultReport n unit) fun m => m.conds = s.conds ++ [n] ∧ logged m n)) ∧
    (∀ n g unit, srcUnit n = .tg g → n < 40 → s.react n = 1 →
      ((∀ k, k < 8 → k ≠ g → s.tgIn k = false) → goes (.faultReport n unit) fun m => stops m n) ∧
      ((∃ k, k < 8 ∧ k ≠ g ∧ s.tgIn k = true) → s.threads = [] → s.chains = [] → goes (.faultReport n unit) fun m => logged m n ∧
        m.safe = s.safe ∧ ∀ k, k < 32 → m.rb 0x40008 k = (s.rb 0x40008 k || decide (k = g)))) ∧
    (∀ n unit, n = 40 ∨ n = 41 → s.react n = 1 →
      (s.bwIn (41 - n) = false → goes (.faultReport n unit) fun m => stops m n) ∧
      (s.bwIn (41 - n) = true → s.xfers = [] → goes (.faultReport n unit) fun m => logged m n ∧ m.safe = s.safe ∧
        m.rb 0x40008 (n - 32) = true)) ∧
    s.react 105 = 2 ∧ (∀ n, n < 105 →
      let w := s.af (0x40050 + 4 * (n / 16)) (2 * (n % 16)) 2
      s.react n = if w = 3 ∨ (w = 1 ∧ srcUnit n = .none) then 2 else if w < srcLowest n then srcLowest n else w) ∧
    (∀ who n, n < 106 → s.serves_ who = true → reqAdm who = true → (srcUnit n = .none ∨ s.react n ≠ 1) → ¬ (50 ≤ n ∧ n < 54) →
      (s.react n = 0 → goes (.forceFault who n) fun m => logged m n) ∧ (s.react n = 2 → goes (.forceFault who n) fun m => stops m n)) ∧
    (∀ temp : BitVec 12, s.conds = [] →
      (temp.toInt ≤ 880 → goes (.tempSample temp) fun m => m.rf 0x20 0 12 = temp.toNat ∧ m.conds = []) ∧
      (880 < temp.toInt → temp.toInt ≤ 1000 → s.react 102 = 0 → goes (.tempSample temp) fun m => m.rf 0x20 0 12 = temp.toNat ∧
        m.conds = [102] ∧ logged m 102) ∧
      (1000 < temp.toInt → goes (.tempSample temp) fun m => m.conds = [102, 103] ∧ m.safe = true ∧ m.sticky 103 = true)) ∧
    (∀ r idx e, s.rb 0x700A00 31 = false → (s.errs.find? fun e => decide (e.region = r ∧ e.idx = idx)) = some e →
      (e.poisoned = false → e.burst ≤ 32 → s.react (scrubCe r idx) = 0 →
        (goes (.patrolScrub r idx false) fun m => m.errs = s.errs.erase e ∧ logged m (scrubCe r idx)) ∧
        goes (.patrolScrub r idx true) fun m => m.errs = s.errs ∧ logged m (scrubCe r idx)) ∧
      (e.poisoned = true ∨ 32 < e.burst → bare (scrubUe r idx).1 → s.react (scrubUe r idx).1 = 0 →
        goes (.patrolScrub r idx false) fun m => m.errs = s.errs ∧ logged m (scrubUe r idx).1)) ∧
    (∀ r idx, (s.errs.find? fun e => decide (e.region = r ∧ e.idx = idx)) = none → exec (.patrolScrub r idx false) s = .next s)

/-! ## The redundant pair -/

/-- The pair (R626 to R633, R636 to R641, R643, R644): BEATs and their loss; mirrored blocks, their MACK and what it makes durable; who
claims and when a claim is won, lost or waits; a won claim raises TEPOCH before anything else; a master that sees another stops. -/
def Obligations.RedundantPair : Prop :=
  ∀ s : State, s.Canon →
    let goes := fun (c : Instr) (P : State → Prop) => ∃ m : State, exec c s = .next m.finish ∧ P m
    let rec_ := if s.pairValid then s.seed.le 0x37AC008 4 else 0
    let high := max (max (s.rn 0x481010) rec_) (max s.pair.maxTok (s.pair.beat.elim 0 fun b => b.tepoch.toNat))
    let won := fun (m : State) => ∃ u : State, m = u.takeUp (if s.pair.takeover then 11 else 12) ∧ u.role = 1 ∧
      u.rn 0x481010 = (high + 1) % 2 ^ 32 ∧ u.rb 0x481008 5 = true ∧ u.pair.claim = .none ∧ u.seed.le 0x37AC008 4 = (high + 1) % 2 ^ 32 ∧
      u.seed.le 0x37AC004 1 % 4 = 1
    let waits := fun (m : State) t => m.role = 3 ∧ m.rb 0x481008 7 = true ∧ m.pair.claim = .wait2 ∧ m.pair.takeover = t
    let lost := fun (m : State) => m.role = 2 ∧ m.rb 0x481008 3 = false ∧ m.rb 0x481008 7 = false ∧ m.pair.claim = .none
    let mayClaim := s.role ≠ 1 ∧ s.pair.claim = .none ∧ s.safe = false
    (s.ringIn 4 = true → s.kpSt 4 = 2 → goes .beatTimer fun m => m.pair.bseq = s.pair.bseq + 1 ∧
      ∃ f b, SendsFlit s m 4 f ∧ f.body = .beat b ∧ b.pairId = s.pairId ∧ b.role.toNat = s.role ∧
        b.insync = s.rb 0x481008 3 ∧ b.tepoch = s.reg 0x481010 ∧ b.bseq.toNat = s.pair.bseq % 2 ^ 32 ∧ b.imageSha = s.ownSha) ∧
    (∀ corr (b : BeatF), s.ringIn 4 = true → s.paired = true → b.pairId ≠ s.pairId → b.imageSha = s.ownSha →
      (s.role = 2 ∨ s.role = 3 ∨ s.role = 4 → goes (.rxBeat ⟨corr, b⟩) fun m => m.pair.beat = some b ∧ m.rb 0x481008 4 = decide (s.kpSt 4 = 2) ∧
        m.rn 0x481010 = max (s.rn 0x481010) b.tepoch.toNat ∧ m.role = s.role) ∧
      (s.role = 0 → 6 ≤ s.startStep →
        (b.role = 1 ∨ s.rb 0x481008 6 = true → goes (.rxBeat ⟨corr, b⟩) fun m => m.role = 2 ∧ m.rb 0x481008 3 = false) ∧
        (b.role ≠ 1 → s.rb 0x481008 6 = false →
          (b.tepoch.toNat < s.rn 0x481010 ∨ (b.tepoch.toNat = s.rn 0x481010 ∧ s.pairId = false) → s.pair.claim = .none →
            goes (.rxBeat ⟨corr, b⟩) fun m => waits m false) ∧
          (s.rn 0x481010 < b.tepoch.toNat ∨ (b.tepoch.toNat = s.rn 0x481010 ∧ s.pairId = true) →
            goes (.rxBeat ⟨corr, b⟩) fun m => m.role = 0 ∧ m.pair.claim = s.pair.claim))) ∧
      (s.role = 1 →
        (s.rn 0x481010 < b.tepoch.toNat → goes (.rxBeat ⟨corr, b⟩) fun m => m.role = 4 ∧ m.safe = true ∧ m.rb 0x481008 7 = false ∧
          m.rb 0x48100C 6 = true) ∧
        (b.tepoch.toNat ≤ s.rn 0x481010 → b.role = 2 → b.insync = false → s.pair.copyPos = none → s.pair.copyLast = none →
          goes (.rxBeat ⟨corr, b⟩) fun m => m.pair.copyPos = some 0 ∧ m.rb 0x481008 5 = true ∧ m.role = 1))) ∧
    (s.life = .live → s.paired = true → s.rb 0x481008 4 = true → s.rb 0x48100C 1 = true ∨ s.react 71 = 0 →
      (s.role ≠ 1 → goes .heartbeatLost fun m => m.rb 0x481008 4 = false ∧ m.rb 0x48100C 1 = true ∧ m.pair.copyPos = none ∧ m.role = s.role ∧
        m.count64 (cnt 0x481040 2) = (s.count64 (cnt 0x481040 2) + 1) % 2 ^ 64) ∧
      (s.mirroring = true → s.safe = false → s.pair.goSolo = false → goes .heartbeatLost fun m => m.pair.goSolo = true ∧ m.reg 0x481010 = s.reg 0x481010 + 1)) ∧
    (∀ r ∈ s.jpend, r.acked = false → s.life = .live → s.mirroring = true → s.pair.goSolo = false → goes .mirrorTimeout fun m =>
      m.pair.goSolo = true ∧ m.reg 0x481010 = s.reg 0x481010 + 1 ∧ m.jpend = s.jpend ∧
      ∀ p, p < 4 → s.ab 0x481000 (1 + p) = true → s.kpSt p = 2 → (m.port p).tokenDue = true) ∧
    (∀ corr (b : MirrorF) off (d : Bytes), s.ringIn 4 = true → s.role = 2 → b.blocks = [(off, d)] → d.length = 64 → s.errs = [] →
      s.rb 0x700A10 15 = false → 0 < (s.port 4).room 1 → (s.port 4).room 1 < 32768 →
      goes (.rxMirror ⟨corr, b⟩) fun m => m.pair.rxMseq = b.mseq.toNat ∧
        (off < 0x3800000 → off ≠ 0x37AC000 → b.copy = false → Wrote s.seed m.seed off d) ∧
        (b.copy = false → SendsFlit s m 4 { path := 0, body := .mack b.mseq }) ∧
        (b.copy = true → copyFrom (off + 64) = none → s.rb 0x48100C 5 = false → s.rb 0x48100C 8 = true →
          m.rb 0x481008 3 = true ∧ m.role = 2 ∧ m.pair.syncEp = s.pair.beat.elim (s.rn 0x481010) fun b => b.tepoch.toNat)) ∧
    (∀ corr (mseq : BitVec 32), s.ringIn 4 = true → s.role = 1 →
      (s.jpend = [] → goes (.rxMack ⟨corr, mseq⟩) fun m => m.pair.unacked = s.pair.unacked.filter (fun k => !covers mseq.toNat k) ∧
        (∀ k, s.pair.copyLast = some k → covers mseq.toNat k = true → s.rb 0x48100C 8 = true →
          m.pair.copyLast = none ∧ m.rb 0x481008 5 = false)) ∧
      (∀ r k x, s.jpend = [r] → r.local_ = true → r.acked = false → r.mseq = some k → r.eff = .decide x → s.pair.copyLast = none →
        (covers mseq.toNat k = true → goes (.rxMack ⟨corr, mseq⟩) fun m => m.jpend = [] ∧ (m.txn x).decided = true) ∧
        (covers mseq.toNat k = false → goes (.rxMack ⟨corr, mseq⟩) fun m => m.jpend = [r]))) ∧
    (∀ p corr (k : TokenF), s.running = true → p < 4 →
      (s.forwards p = true → goes (.rxToken p ⟨corr, k⟩) fun m => m.pair.maxTok = max s.pair.maxTok k.tepoch.toNat ∧
        m.rn 0x481010 = max (s.rn 0x481010) k.tepoch.toNat ∧
        m.rb 0x481008 3 = (s.rb 0x481008 3 && !(decide (s.role = 2) && decide (s.pair.syncEp < k.tepoch.toNat)))) ∧
      (s.ringIn p = true → s.paired = true → s.role = 1 →
        (s.rn 0x481010 < k.tepoch.toNat → goes (.rxToken p ⟨corr, k⟩) fun m => m.role = 4 ∧ m.safe = true) ∧
        (s.rn 0x481010 = k.tepoch.toNat → s.pair.goSolo = true → s.jpend = [] → goes (.rxToken p ⟨corr, k⟩) fun m => m.rb 0x481008 5 = true ∧
          m.pair.goSolo = false ∧ m.pair.unacked = []))) ∧
    (s.life = .live →
      (s.pair.claim = .wait2 → s.rb 0x481008 6 = false → goes .claimWaitExpiry won) ∧
      (s.pair.claim = .wait10 → s.rb 0x481008 6 = false → goes .claimWaitExpiry won) ∧
      (s.pair.claim = .wait2 → s.rb 0x481008 6 = true → s.pairId = true → goes .claimWaitExpiry lost) ∧
      (s.pair.claim = .wait2 → s.rb 0x481008 6 = true → s.pairId = false → goes .claimWaitExpiry fun m =>
        m = { s with pair := { s.pair with claim := .wait10 } }) ∧
      (s.pair.claim = .wait10 → s.rb 0x481008 6 = true → goes .claimWaitExpiry fun m => lost m ∧ m.rb 0x48100C 3 = true) ∧
      (s.pair.claim = .wait10 → goes .pairArbFall won) ∧
      (s.role = 1 → goes .pairArbRise fun m => m.role = 4 ∧ m.safe = true ∧ m.rb 0x481008 7 = false ∧ m.rb 0x48100C 6 = true)) ∧
    (s.pair.claim ≠ .wait10 → ∃ m : State, exec .pairArbFall s = .next m ∧ m.rb 0x481008 6 = false ∧ m.role = s.role) ∧
    (s.role ≠ 1 → ∃ m : State, exec .pairArbRise s = .next m ∧ m.rb 0x481008 6 = true ∧ m.role = s.role) ∧
    (s.running = true → s.paired = true → ¬ s.pair.syncEp < s.pair.maxTok → s.pair.claim = .none →
      (s.role = 2 → s.rb 0x481008 3 = true → s.rb 0x481008 4 = false → (∀ b, s.pair.beat = some b → b.pairId ≠ s.pairId) →
        (s.rb 0x481008 6 = false → goes .tokenSilence fun m => waits m true) ∧ (s.rb 0x481008 6 = true → goes .tokenSilence lost)) ∧
      (s.role = 2 → s.rb 0x481008 3 = false ∨ s.rb 0x481008 4 = true → exec .tokenSilence s = .next s) ∧
      (s.role = 0 → 6 ≤ s.startStep → s.pair.beat = none → s.rb 0x481008 6 = false → s.rb 0x48100C 7 = true ∨ s.react 71 = 0 →
        (if s.pairValid then s.seed.le 0x37AC004 1 % 4 = 1 else s.pairId = false) →
        goes .nobeatClaim fun m => waits m false ∧ m.rb 0x48100C 7 = true)) ∧
    (∀ who, s.serves_ who = true → reqAdm who = true →
      (s.paired = true → mayClaim → s.rb 0x481008 6 = false → goes (.twForce who) fun m => waits m (decide (s.role = 2))) ∧
      (s.paired = true → mayClaim → s.rb 0x481008 6 = true → goes (.twForce who) lost) ∧
      (s.paired = false → goes (.twForce who) fun m => m = s) ∧
      (s.role = 2 → goes (.twRejoin who) fun m => m.rb 0x481008 3 = false ∧ m.role = 2 ∧
        m.seed.le 0x37AC000 4 = 0x4C4B5052) ∧
      (s.role ≠ 2 → goes (.twRejoin who) fun m => m = s))

/-! ## Loopback, test, JTAG -/

/-- Loopbacks, read-back, BIST, injection, JTAG (R669, R673 to R676, R678 to R681): what a GO starts or is refused, what its end shows; a TAP instruction
that needs PORST_N low acts as BYPASS otherwise. Counts of a pattern checker, and the CRC of a read that differs, are free values (log 4). -/
def Obligations.TestFunctions : Prop :=
  ∀ s : State, s.Canon →
    let goes := fun (c : Instr) (P : State → Prop) => ∃ m : State, exec c s = .next m.finish ∧ P m
    (∀ who i (v : Word), i < 6 → s.serves_ who = true → reqAdm who = true →
      let depth := v.toNat % 8
      (0 < depth → s.lbRefused i depth (v.toNat / 16 % 4) = true → goes (.loopbackEnter who i v) fun m => m.rb 0x700F00 0 = true ∧
        m.lbDepth i = s.lbDepth i) ∧
      (0 < depth → 0 < i → depth ≠ 5 → s.lbRefused i depth (v.toNat / 16 % 4) = false → goes (.loopbackEnter who i v) fun m =>
        m.lbDepth i = depth ∧ m.rf (lbReg i) 4 2 = v.toNat / 16 % 4 ∧ m.rf (lbReg i) 8 16 = v.toNat / 256 % 65536 ∧ m.rb (lbReg i + 4) 0 = true ∧
        (depth = 3 ∨ depth = 4 → m.count64 (lbReg i + 8) = 0 ∧ ∀ l, l < 16 → m.rn (lbReg i + 0x40 + 4 * l) = 0)) ∧
      (0 < depth → i = 0 → s.lbRefused i depth (v.toNat / 16 % 4) = false → goes (.loopbackEnter who i v) fun m =>
        m.lbDepth 0 = depth ∧ m.rb 0x700004 0 = true ∧ m.rn 0x100004 = 0 ∧ m.portThere = false ∧ (m.fnc 0).bme = false) ∧
      (s.lbDepth i ≠ 0 → 0 < depth → s.lbRefused i depth (v.toNat / 16 % 4) = true) ∧
      (s.lbUnitOut i = true → s.lbRefused i depth (v.toNat / 16 % 4) = true)) ∧
    (∀ who i, 1 ≤ i → i ≤ 5 → s.serves_ who = true → reqAdm who = true → s.lbDepth i ≠ 0 → s.lbDepth i ≠ 5 →
      goes (.loopbackEnd who i) fun m => m.lbDepth i = 0 ∧
        ∃ u : State, m = (u.trainGo (i - 1)).setReg (lbReg i) (s.reg (lbReg i) &&& 0x00FFFF30#32) ∧ u.lbDepth i = 0 ∧ u.rf (lbReg i + 4) 0 2 = 0 ∧
          u.ports = s.ports) ∧
    (∀ i, i < 6 → s.life = .live → s.lbDepth i ≠ 0 → s.rf (lbReg i) 8 16 ≠ 0 → goes (.loopbackDurExpiry i) fun m => m.rb 0x700F00 1 = true ∧
      m = (s.lbLeave i).setBit 0x700F00 1) ∧
    (∀ who, s.serves_ who = true → reqAdm who = true →
      (s.updating = true → goes (.spiReadback who) fun m => m.rb 0x700F00 3 = true ∧ m.reg 0x70080C = s.reg 0x70080C) ∧
      (s.updating = false → goes (.spiReadback who) fun m => m.rf 0x70080C 0 2 = 1 ∧ (s.rf 0x70080C 0 2 ≠ 1 → m.bgCheck = false))) ∧
    (s.life = .live → s.rf 0x70080C 0 2 = 1 →
      let r := s.spiRange
      (goes (.spiReadbackDone none) fun m => m.reg 0x70080C = 2 ∧
        m.reg 0x700810 = crc32c ((List.range r.2).map fun i => SMap.get memErased s.flash (r.1 + i))) ∧
      ∀ a, a < 2 ^ 24 → goes (.spiReadbackDone (some a)) fun m => m.rf 0x70080C 0 2 = 2 ∧ m.rf 0x70080C 8 24 = a ∧ m.rb 0x700F00 2 = true ∧
        m.freeCtr = s.freeCtr + 1) ∧
    (∀ who (v : Word), s.serves_ who = true → reqAdm who = true →
      let d := v.toNat % 16
      (d < 14 → s.pdom d = 2 → s.rf 0x700904 0 3 ≠ 1 → goes (.domainBist who v) fun m => m.reg 0x700904 = 1 ∧ m.bistDom = d ∧
        m.rf 0x700900 0 4 = d) ∧
      (13 < d ∨ s.pdom d ≠ 2 ∨ s.rf 0x700904 0 3 = 1 → goes (.domainBist who v) fun m => m.rb 0x700F00 5 = true ∧
        m.reg 0x700904 = s.reg 0x700904)) ∧
    (∀ fails (rep : BitVec 8), s.life = .live → s.rf 0x700904 0 3 = 1 → s.bistDom < 14 →
      ((∀ n ∈ bistSources s.bistDom, n ∉ fails) → goes (.bistDone fails rep) fun m => m.rf 0x700904 0 3 = 2 ∧ m.rf 0x700904 8 8 = rep.toNat ∧
        m.reg 0x40008 = s.reg 0x40008) ∧
      ((∃ n ∈ bistSources s.bistDom, n ∈ fails) → ∃ u : State, u.rf 0x700904 0 3 = 3 ∧ u.rf 0x700904 8 8 = rep.toNat ∧ u.rb 0x700F00 4 = true ∧
        exec (.bistDone fails rep) s =
          .next (((bistSources s.bistDom).filter fun n => decide (n ∈ fails)).foldl (fun s n => s.report n) u).finish)) ∧
    (∀ who (v : Word), s.serves_ who = true → reqAdm who = true → goes (.injectArm who v) fun m =>
      m.rf 0x700A10 0 3 = v.toNat % 8 ∧ m.rf 0x700A10 3 3 = v.toNat / 8 % 8 ∧ m.rf 0x700A10 6 6 = v.toNat / 64 % 64 ∧
      m.rb 0x700A10 15 = v.getLsbD 15 ∧ ∀ t, m.injBurst t = if v.getLsbD 15 = true ∧ v.toNat % 8 = t then some (v.toNat / 64 % 64 + 1) else none) ∧
    (let tap := fun c (code : Byte) => exec c s = .next { s with jtagIr := code, bscan := 0 }
     let pin := fun c (code : Byte) => exec c s = .next { s with jtagIr := code, bscan := if s.porstLow then code + 1 else 0 }
     pin .extest 0 ∧ tap .samplePreload 1 ∧ tap .idcode 2 ∧ pin .clamp 3 ∧ pin .highz 4 ∧ pin .extestPulse 8 ∧ pin .extestTrain 9 ∧
     tap .bypass 0xFF)
end

