-- ==== Sys2Proof/Laws/Memory.lean ====
section
/-! SUPPORT. Sparse tables: a read after a write, and the canonical form under every operation over a table or a memory. -/

namespace Sys2Proof.Machine

variable {α : Type} [DecidableEq α] {d : Nat → α}

/-- A write leaves every other key alone. -/
theorem SMap.get_set_ne (m : SMap α) {j k : Nat} (v : α) (h : j ≠ k) : SMap.get d (SMap.set d m k v) j = SMap.get d m j := by
  induction m with
  | nil => unfold SMap.set; split <;> simp [SMap.get, Ne.symm h]
  | cons e m ih =>
    obtain ⟨a, b⟩ := e
    simp only [SMap.set]
    split
    · split <;> simp [SMap.get, Ne.symm h]
    · split
      · subst_vars; split <;> simp [SMap.get, Ne.symm h]
      · simp [SMap.get, ih]

/-- A canonical table may be read as one with a lower first key. -/
theorem SMap.wfFrom_mono (m : SMap α) {a b : Nat} (h : a ≤ b) (w : SMap.wfFrom d b m = true) : SMap.wfFrom d a m = true := by
  cases m with
  | nil => rfl
  | cons e m => simp only [SMap.wfFrom, Bool.and_eq_true, decide_eq_true_eq] at w ⊢; exact ⟨⟨by omega, w.1.2⟩, w.2⟩

/-- Below its first key a canonical table reads as its default. -/
theorem SMap.get_below (m : SMap α) {a k : Nat} (h : k < a) (w : SMap.wfFrom d a m = true) : SMap.get d m k = d k := by
  induction m generalizing a with
  | nil => rfl
  | cons e m ih =>
    simp only [SMap.wfFrom, Bool.and_eq_true, decide_eq_true_eq] at w
    simp only [SMap.get]
    rw [if_neg (by omega)]
    exact ih (by omega) w.2

/-- A canonical table gives back what was written. -/
theorem SMap.get_set_from (m : SMap α) (a k : Nat) (v : α) (w : SMap.wfFrom d a m = true) : SMap.get d (SMap.set d m k v) k = v := by
  induction m generalizing a with
  | nil => unfold SMap.set; split <;> simp_all [SMap.get]
  | cons e m ih =>
    obtain ⟨x, y⟩ := e
    simp only [SMap.wfFrom, Bool.and_eq_true, decide_eq_true_eq] at w
    simp only [SMap.set]
    split
    · split
      · rename_i h1 h2; subst h2
        simp only [SMap.get]; rw [if_neg (by omega)]; exact SMap.get_below m (by omega) w.2
      · simp [SMap.get]
    · split
      · split
        · rename_i h1 h2 h3; subst h3; subst h2; exact SMap.get_below m (by omega) w.2
        · simp [SMap.get]
      · simp only [SMap.get]; rw [if_neg (by omega)]; exact ih _ w.2

/-- A canonical table gives back what was written. -/
theorem SMap.get_set_same {m : SMap α} (k : Nat) (v : α) (w : SMap.wf d m = true) : SMap.get d (SMap.set d m k v) k = v :=
  SMap.get_set_from m 0 k v w

/-- A write keeps the canonical form, from a bound not above the key. -/
theorem SMap.set_wfFrom (m : SMap α) (a k : Nat) (v : α) (h : a ≤ k) (w : SMap.wfFrom d a m = true) :
    SMap.wfFrom d a (SMap.set d m k v) = true := by
  induction m generalizing a with
  | nil => unfold SMap.set; split <;> simp_all [SMap.wfFrom]
  | cons e m ih =>
    obtain ⟨x, y⟩ := e
    simp only [SMap.wfFrom, Bool.and_eq_true, decide_eq_true_eq] at w
    simp only [SMap.set]
    split
    · split
      · simp only [SMap.wfFrom, Bool.and_eq_true, decide_eq_true_eq]; exact w
      · simp only [SMap.wfFrom, Bool.and_eq_true, decide_eq_true_eq]; exact ⟨⟨h, by assumption⟩, ⟨by omega, w.1.2⟩, w.2⟩
    · split
      · split
        · exact SMap.wfFrom_mono m (by omega) w.2
        · subst_vars; simp only [SMap.wfFrom, Bool.and_eq_true, decide_eq_true_eq]; exact ⟨⟨h, by assumption⟩, w.2⟩
      · simp only [SMap.wfFrom, Bool.and_eq_true, decide_eq_true_eq]; exact ⟨w.1, ih _ (by omega) w.2⟩

/-- A write keeps the canonical form. -/
theorem SMap.set_wf {m : SMap α} (k : Nat) (v : α) (w : SMap.wf d m = true) : SMap.wf d (SMap.set d m k v) = true :=
  SMap.set_wfFrom m 0 k v (Nat.zero_le k) w

/-- Taking entries out keeps the canonical form, from any bound. -/
theorem SMap.filter_wfFrom (m : SMap α) (a : Nat) (p : Nat × α → Bool) (w : SMap.wfFrom d a m = true) :
    SMap.wfFrom d a (m.filter p) = true := by
  induction m generalizing a with
  | nil => rfl
  | cons e m ih =>
    simp only [SMap.wfFrom, Bool.and_eq_true, decide_eq_true_eq] at w
    simp only [List.filter_cons]
    split
    · simp only [SMap.wfFrom, Bool.and_eq_true, decide_eq_true_eq]; exact ⟨w.1, ih _ w.2⟩
    · exact SMap.wfFrom_mono _ (by omega) (ih _ w.2)

/-- Taking entries out keeps the canonical form. -/
theorem SMap.filter_wf {m : SMap α} (p : Nat × α → Bool) (w : SMap.wf d m = true) : SMap.wf d (m.filter p) = true :=
  SMap.filter_wfFrom m 0 p w

/-- A fold of writes keeps the canonical form. -/
theorem SMap.fold_wf {β : Type} (l : List β) (k : β → Nat) (v : SMap α → β → α) {m : SMap α} (w : SMap.wf d m = true) :
    SMap.wf d (l.foldl (fun m e => SMap.set d m (k e) (v m e)) m) = true := by
  induction l generalizing m with
  | nil => exact w
  | cons e l ih => exact ih (SMap.set_wf _ _ w)

/-- Two canonical tables, the keys of the first below a bound from which the second begins, join to one. -/
theorem SMap.append_wfFrom (m n : SMap α) (a b : Nat) (hm : SMap.wfFrom d a m = true) (hn : SMap.wfFrom d b n = true) (hab : a ≤ b)
    (hk : ∀ e ∈ m, e.1 < b) : SMap.wfFrom d a (m ++ n) = true := by
  induction m generalizing a with
  | nil => exact SMap.wfFrom_mono _ hab hn
  | cons e m ih =>
    simp only [SMap.wfFrom, Bool.and_eq_true, decide_eq_true_eq] at hm
    have h1 := hk e (by simp)
    simp only [List.cons_append, SMap.wfFrom, Bool.and_eq_true, decide_eq_true_eq]
    exact ⟨hm.1, ih _ hm.2 (by omega) fun x hx => hk x (by simp [hx])⟩

/-- The entries from a key on are canonical from that key. -/
theorem SMap.filter_from (m : SMap α) (a b : Nat) (p : Nat × α → Bool) (hp : ∀ e, p e = true → b ≤ e.1) (w : SMap.wfFrom d a m = true) :
    SMap.wfFrom d b (m.filter p) = true := by
  induction m generalizing a with
  | nil => rfl
  | cons e m ih =>
    have w0 := w
    simp only [SMap.wfFrom, Bool.and_eq_true, decide_eq_true_eq] at w
    simp only [List.filter_cons]
    split
    · rename_i h
      simp only [SMap.wfFrom, Bool.and_eq_true, decide_eq_true_eq]
      exact ⟨⟨hp e h, w.1.2⟩, SMap.filter_wfFrom m _ p w.2⟩
    · exact ih _ w.2

/-- A fold of changes that each keep the canonical form keeps it. -/
theorem SMap.foldl_wf {β : Type} {f : SMap α → β → SMap α} (hf : ∀ m x, SMap.wf d m = true → SMap.wf d (f m x) = true) (l : List β)
    {m : SMap α} (w : SMap.wf d m = true) : SMap.wf d (l.foldl f m) = true := by
  induction l generalizing m with
  | nil => exact w
  | cons x l ih => exact ih (hf _ _ w)

/-- Keys moved by a rising function stay canonical, where every key has the same default. -/
theorem SMap.map_wfFrom (m : SMap α) (a : Nat) (f : Nat → Nat) (hf : ∀ x y, x < y → f x < f y) (hd : ∀ x y, d x = d y)
    (w : SMap.wfFrom d a m = true) : SMap.wfFrom d (f a) (m.map fun e => (f e.1, e.2)) = true := by
  induction m generalizing a with
  | nil => rfl
  | cons e m ih =>
    simp only [SMap.wfFrom, Bool.and_eq_true, decide_eq_true_eq] at w
    simp only [List.map_cons, SMap.wfFrom, Bool.and_eq_true, decide_eq_true_eq]
    refine ⟨⟨?_, fun h => w.1.2 (h.trans (hd _ _))⟩, SMap.wfFrom_mono _ (hf _ _ (Nat.lt_succ_self _)) (ih _ w.2)⟩
    rcases Nat.lt_or_eq_of_le w.1.1 with h | h
    · exact Nat.le_of_lt (hf _ _ h)
    · rw [h]

/-- Changing values in place keeps the canonical form, if no value turns into what an unlisted key reads as. -/
theorem SMap.mapVal_wfFrom (m : SMap α) (a : Nat) (g : α → α) (hg : ∀ k x, x ≠ d k → g x ≠ d k) (w : SMap.wfFrom d a m = true) :
    SMap.wfFrom d a (m.map fun e => (e.1, g e.2)) = true := by
  induction m generalizing a with
  | nil => rfl
  | cons e m ih =>
    simp only [SMap.wfFrom, List.map_cons, Bool.and_eq_true, decide_eq_true_eq] at w ⊢
    exact ⟨⟨w.1.1, hg _ _ w.1.2⟩, ih _ w.2⟩

theorem SMap.mapVal_wf {m : SMap α} (g : α → α) (hg : ∀ k x, x ≠ d k → g x ≠ d k) (w : SMap.wf d m = true) :
    SMap.wf d (m.map fun e => (e.1, g e.2)) = true := SMap.mapVal_wfFrom m 0 g hg w

/-- Tables in rising blocks of keys join to one. -/
theorem SMap.blocks_wfFrom (g : Nat → SMap α) (c : Nat) (hg : ∀ i, SMap.wfFrom d (c * i) (g i) = true ∧ ∀ e ∈ g i, e.1 < c * (i + 1))
    (n : Nat) : SMap.wfFrom d 0 ((List.range n).flatMap g) = true ∧ ∀ e ∈ (List.range n).flatMap g, e.1 < c * n := by
  induction n with
  | zero => exact ⟨rfl, by simp⟩
  | succ n ih =>
    rw [List.range_succ, List.flatMap_append, List.flatMap_singleton]
    refine ⟨SMap.append_wfFrom _ _ 0 _ ih.1 (hg n).1 (Nat.zero_le _) ih.2, fun e he => ?_⟩
    rcases List.mem_append.mp he with h | h
    · exact Nat.lt_of_lt_of_le (ih.2 e h) (Nat.mul_le_mul_left c (Nat.le_succ n))
    · exact (hg n).2 e h

/-! ## Byte memories -/

/-- A store keeps the canonical form (R27, R28: one value per address). -/
theorem Mem.wrN_wf {m : Mem} (a : Nat) (b : Bytes) (w : Memory.wf m = true) : Memory.wf (m.wrN a b) = true := by
  induction b generalizing m a with
  | nil => exact w
  | cons x b ih => exact ih _ (SMap.set_wf _ _ w)

/-- A store of a number keeps the canonical form. -/
theorem Mem.setLe_wf {m : Mem} (a n v : Nat) (w : Memory.wf m = true) : Memory.wf (m.setLe a n v) = true := Mem.wrN_wf _ _ w

/-- Dropping a range keeps the canonical form. -/
theorem Mem.drop_wf {m : Mem} (a n : Nat) (w : Memory.wf m = true) : Memory.wf (m.drop a n) = true := SMap.filter_wf _ w

/-- Taking bytes out keeps the canonical form. -/
theorem Mem.filter_wf {m : Mem} (p : Nat × Byte → Bool) (w : Memory.wf m = true) : Memory.wf (List.filter p m) = true :=
  SMap.filter_wf p w

/-- Moving a range keeps the canonical form. -/
theorem Mem.copyRange_wf (src : Mem) {dst : Mem} (a b n : Nat) (w : Memory.wf dst = true) :
    Memory.wf (Mem.copyRange src dst a b n) = true :=
  SMap.fold_wf (d := memZero) _ (fun e : Nat × Byte => e.1 - a + b) (fun _ e => e.2) (Mem.drop_wf _ _ w)

/-- A store leaves every byte outside it alone. -/
theorem Mem.rd_wrN_out (m : Mem) (a : Nat) (b : Bytes) (k : Nat) (h : k < a ∨ a + b.length ≤ k) : (m.wrN a b).rd k = m.rd k := by
  induction b generalizing m a with
  | nil => rfl
  | cons x b ih =>
    simp only [List.length_cons] at h
    simp only [Mem.wrN]
    rw [ih _ _ (by omega)]
    exact SMap.get_set_ne m x (by omega)

/-- A byte stored reads back. -/
theorem Mem.rd_wrN_in {m : Mem} (w : Memory.wf m = true) (a : Nat) (b : Bytes) (i : Nat) (h : i < b.length) :
    (m.wrN a b).rd (a + i) = b[i] := by
  induction b generalizing m a i with
  | nil => simp at h
  | cons x b ih =>
    simp only [Mem.wrN]
    cases i with
    | zero =>
      rw [Nat.add_zero, Mem.rd_wrN_out _ _ _ _ (by omega)]
      exact SMap.get_set_same _ _ w
    | succ i =>
      have := ih (m := SMap.set memZero m a x) (SMap.set_wf a x w) (a + 1) i (by simpa using h)
      rw [show a + (i + 1) = a + 1 + i by omega]; simpa using this

/-- The bytes of a store read back whole. -/
theorem Mem.rdN_wrN {m : Mem} (w : Memory.wf m = true) (a : Nat) (b : Bytes) : (m.wrN a b).rdN a b.length = b := by
  induction b generalizing m a with
  | nil => rfl
  | cons x b ih =>
    simp only [List.length_cons, Mem.rdN, Mem.wrN]
    rw [Mem.rd_wrN_out _ _ _ _ (by omega), ih (SMap.set_wf a x w)]
    exact congrArg (· :: b) (SMap.get_set_same _ _ w)

end Sys2Proof.Machine
end

