-- ==== Sys2Proof/Laws/Keeps.lean ====
section
/-! SUPPORT. What a change of state keeps (`State.Keeps`): one lemma for each set of fields a definition of the model updates, and for
the ways in which changes are put together. -/

namespace Sys2Proof.Machine

variable {κ : Kept} {r s t : State}

theorem State.Keeps.rfl : s.Keeps κ s := ⟨id, Eq.refl _, Nat.le_refl _, fun _ => Eq.refl _, fun _ => Eq.refl _⟩

theorem State.Keeps.trans (h : r.Keeps κ s) (k : s.Keeps κ t) : r.Keeps κ t :=
  ⟨fun c => k.canon (h.canon c), k.pending.trans h.pending, Nat.le_trans h.free k.free, fun e => (k.life e).trans (h.life e),
   fun e => (k.flash e).trans (h.flash e)⟩

theorem State.keeps_ite {c : Prop} [Decidable c] (h : r.Keeps κ s) (k : r.Keeps κ t) : r.Keeps κ (if c then s else t) := by
  split <;> assumption

theorem State.Keeps.of_pair {β : Type} {p : State × β} {y : β} (h : r.Keeps κ p.1) (e : p = (s, y)) : r.Keeps κ s := by
  subst e; exact h

theorem State.Keeps.of_some {o : Option State} (h : ∀ t, o = some t → r.Keeps κ t) (e : o = some s) : r.Keeps κ s := h _ e

theorem State.keeps_elim {β : Type} {o : Option β} {f : β → State} (h : r.Keeps κ s) (hf : ∀ x, r.Keeps κ (f x)) :
    r.Keeps κ (o.elim s f) := by
  cases o
  · exact h
  · exact hf _

theorem State.opt_ite {c : Prop} [Decidable c] {a b : Option State} (ha : ∀ t, a = some t → r.Keeps κ t)
    (hb : ∀ t, b = some t → r.Keeps κ t) : ∀ t, (if c then a else b) = some t → r.Keeps κ t := by
  split <;> assumption

theorem State.opt_some (h : r.Keeps κ s) : ∀ t, some s = some t → r.Keeps κ t := by
  intro t e; cases e; exact h

theorem State.opt_none : ∀ t, (none : Option State) = some t → r.Keeps κ t := by
  intro t e; cases e

theorem State.keeps_getD {o : Option State} (h : r.Keeps κ s) (ho : ∀ t, o = some t → r.Keeps κ t) : r.Keeps κ (o.getD s) := by
  cases o
  · exact h
  · exact ho _ (Eq.refl _)

theorem State.keeps_fold {β : Type} {f : State → β → State} (hf : ∀ s x, r.Keeps κ s → r.Keeps κ (f s x)) (l : List β)
    (h : r.Keeps κ s) : r.Keeps κ (l.foldl f s) := by
  induction l generalizing s with
  | nil => exact h
  | cons x l ih => exact ih (hf _ _ h)

/-- What an instruction's effect comes to keeps what a change keeps. -/
def TRes.Keeps (κ : Kept) (r : State) : TRes → Prop
  | .done t => r.Keeps κ t
  | .trapAt t _ _ => r.Keeps κ t
  | .hold t => r.Keeps κ t
  | _ => True

/-- The same for a read of an operand. -/
def MRes.Keeps (κ : Kept) (r : State) : MRes → Prop
  | .hold t => r.Keeps κ t
  | _ => True

/-- The same for the outcome of a command. -/
def OKeeps (κ : Kept) (r : State) : Host.Outcome State Fault Refusal → Prop
  | .next t => r.Keeps κ t
  | _ => True

theorem okeeps_next (h : r.Keeps κ s) : OKeeps κ r (.next s) := h

theorem okeeps_ite {c : Prop} [Decidable c] {a b : Host.Outcome State Fault Refusal} (h : OKeeps κ r a) (k : OKeeps κ r b) :
    OKeeps κ r (if c then a else b) := by
  split <;> assumption

theorem tkeeps_done (h : r.Keeps κ s) : TRes.Keeps κ r (.done s) := h
theorem tkeeps_hold (h : r.Keeps κ s) : TRes.Keeps κ r (.hold s) := h
theorem mkeeps_hold (h : r.Keeps κ s) : MRes.Keeps κ r (.hold s) := h
theorem tkeeps_trapAt (h : r.Keeps κ s) (c n : Nat) : TRes.Keeps κ r (.trapAt s c n) := h
theorem tkeeps_trap (c n : Nat) : TRes.Keeps κ r (.trap c n) := True.intro
theorem tkeeps_stall : TRes.Keeps κ r .stall := True.intro

theorem mkeeps_stall : MRes.Keeps κ r .stall := True.intro
theorem mkeeps_lost (x : MemRegion) (i : Nat) : MRes.Keeps κ r (.lost x i) := True.intro
theorem tkeeps_lost (x : MemRegion) (i : Nat) : TRes.Keeps κ r (.lost x i) := True.intro

theorem mkeeps_val (b : Bytes) : MRes.Keeps κ r (.val b) := True.intro
theorem mkeeps_ite {c : Prop} [Decidable c] {a b : MRes} (h : MRes.Keeps κ r a) (k : MRes.Keeps κ r b) :
    MRes.Keeps κ r (if c then a else b) := by
  split <;> assumption

theorem mkeeps_trap (c n : Nat) : MRes.Keeps κ r (.trap c n) := True.intro

theorem tkeeps_ite {c : Prop} [Decidable c] {a b : TRes} (h : TRes.Keeps κ r a) (k : TRes.Keeps κ r b) :
    TRes.Keeps κ r (if c then a else b) := by
  split <;> assumption

/-! ## Updates of fields -/

theorem State.keeps_applied (h : r.Keeps κ s) (v23 : SMap Word) (h23 : SMap.wf regReset s.applied = true → SMap.wf regReset v23 = true) :
    r.Keeps κ { s with applied := v23 } :=
  ⟨fun c => let c := h.canon c; ⟨c.seed, c.flash, c.buf, c.ctx, c.tmem, c.tpriv, c.vnode, c.regs, h23 c.applied, c.fns, c.msix, c.pba, c.vnodes, c.queues, c.chains, c.threads, c.sources, c.furrows, c.xfers, c.chans, c.ports, c.ops, c.ophGen, c.ophUse, c.endedAt, c.txns, c.slots, c.waits, c.recov, c.inbox, c.fbLast⟩,
   h.pending, h.free, h.life, h.flash⟩

theorem State.keeps_autoWait (h : r.Keeps κ s) (v73 : List AutoReq) :
    r.Keeps κ { s with autoWait := v73 } :=
  ⟨fun c => let c := h.canon c; ⟨c.seed, c.flash, c.buf, c.ctx, c.tmem, c.tpriv, c.vnode, c.regs, c.applied, c.fns, c.msix, c.pba, c.vnodes, c.queues, c.chains, c.threads, c.sources, c.furrows, c.xfers, c.chans, c.ports, c.ops, c.ophGen, c.ophUse, c.endedAt, c.txns, c.slots, c.waits, c.recov, c.inbox, c.fbLast⟩,
   h.pending, h.free, h.life, h.flash⟩

theorem State.keeps_backupOn (h : r.Keeps κ s) (v8 : Bool) :
    r.Keeps κ { s with backupOn := v8 } :=
  ⟨fun c => let c := h.canon c; ⟨c.seed, c.flash, c.buf, c.ctx, c.tmem, c.tpriv, c.vnode, c.regs, c.applied, c.fns, c.msix, c.pba, c.vnodes, c.queues, c.chains, c.threads, c.sources, c.furrows, c.xfers, c.chans, c.ports, c.ops, c.ophGen, c.ophUse, c.endedAt, c.txns, c.slots, c.waits, c.recov, c.inbox, c.fbLast⟩,
   h.pending, h.free, h.life, h.flash⟩

theorem State.keeps_bgCheck (h : r.Keeps κ s) (v80 : Bool) :
    r.Keeps κ { s with bgCheck := v80 } :=
  ⟨fun c => let c := h.canon c; ⟨c.seed, c.flash, c.buf, c.ctx, c.tmem, c.tpriv, c.vnode, c.regs, c.applied, c.fns, c.msix, c.pba, c.vnodes, c.queues, c.chains, c.threads, c.sources, c.furrows, c.xfers, c.chans, c.ports, c.ops, c.ophGen, c.ophUse, c.endedAt, c.txns, c.slots, c.waits, c.recov, c.inbox, c.fbLast⟩,
   h.pending, h.free, h.life, h.flash⟩

theorem State.keeps_bistDom (h : r.Keeps κ s) (v87 : Nat) :
    r.Keeps κ { s with bistDom := v87 } :=
  ⟨fun c => let c := h.canon c; ⟨c.seed, c.flash, c.buf, c.ctx, c.tmem, c.tpriv, c.vnode, c.regs, c.applied, c.fns, c.msix, c.pba, c.vnodes, c.queues, c.chains, c.threads, c.sources, c.furrows, c.xfers, c.chans, c.ports, c.ops, c.ophGen, c.ophUse, c.endedAt, c.txns, c.slots, c.waits, c.recov, c.inbox, c.fbLast⟩,
   h.pending, h.free, h.life, h.flash⟩

theorem State.keeps_buf (h : r.Keeps κ s) (v36 : Mem) (h36 : Memory.wf s.buf = true → Memory.wf v36 = true) :
    r.Keeps κ { s with buf := v36 } :=
  ⟨fun c => let c := h.canon c; ⟨c.seed, c.flash, h36 c.buf, c.ctx, c.tmem, c.tpriv, c.vnode, c.regs, c.applied, c.fns, c.msix, c.pba, c.vnodes, c.queues, c.chains, c.threads, c.sources, c.furrows, c.xfers, c.chans, c.ports, c.ops, c.ophGen, c.ophUse, c.endedAt, c.txns, c.slots, c.waits, c.recov, c.inbox, c.fbLast⟩,
   h.pending, h.free, h.life, h.flash⟩

theorem State.keeps_cached (h : r.Keeps κ s) (v42 : List Nat) :
    r.Keeps κ { s with cached := v42 } :=
  ⟨fun c => let c := h.canon c; ⟨c.seed, c.flash, c.buf, c.ctx, c.tmem, c.tpriv, c.vnode, c.regs, c.applied, c.fns, c.msix, c.pba, c.vnodes, c.queues, c.chains, c.threads, c.sources, c.furrows, c.xfers, c.chans, c.ports, c.ops, c.ophGen, c.ophUse, c.endedAt, c.txns, c.slots, c.waits, c.recov, c.inbox, c.fbLast⟩,
   h.pending, h.free, h.life, h.flash⟩

theorem State.keeps_chains (h : r.Keeps κ s) (v47 : SMap Chain) (h47 : SMap.wf (fun _ => {}) s.chains = true → SMap.wf (fun _ => {}) v47 = true) :
    r.Keeps κ { s with chains := v47 } :=
  ⟨fun c => let c := h.canon c; ⟨c.seed, c.flash, c.buf, c.ctx, c.tmem, c.tpriv, c.vnode, c.regs, c.applied, c.fns, c.msix, c.pba, c.vnodes, c.queues, h47 c.chains, c.threads, c.sources, c.furrows, c.xfers, c.chans, c.ports, c.ops, c.ophGen, c.ophUse, c.endedAt, c.txns, c.slots, c.waits, c.recov, c.inbox, c.fbLast⟩,
   h.pending, h.free, h.life, h.flash⟩

theorem State.keeps_chans (h : r.Keeps κ s) (v56 : SMap Chan) (h56 : SMap.wf (fun _ => {}) s.chans = true → SMap.wf (fun _ => {}) v56 = true) :
    r.Keeps κ { s with chans := v56 } :=
  ⟨fun c => let c := h.canon c; ⟨c.seed, c.flash, c.buf, c.ctx, c.tmem, c.tpriv, c.vnode, c.regs, c.applied, c.fns, c.msix, c.pba, c.vnodes, c.queues, c.chains, c.threads, c.sources, c.furrows, c.xfers, h56 c.chans, c.ports, c.ops, c.ophGen, c.ophUse, c.endedAt, c.txns, c.slots, c.waits, c.recov, c.inbox, c.fbLast⟩,
   h.pending, h.free, h.life, h.flash⟩

theorem State.keeps_ckFrom (h : r.Keeps κ s) (v75 : Option Nat) :
    r.Keeps κ { s with ckFrom := v75 } :=
  ⟨fun c => let c := h.canon c; ⟨c.seed, c.flash, c.buf, c.ctx, c.tmem, c.tpriv, c.vnode, c.regs, c.applied, c.fns, c.msix, c.pba, c.vnodes, c.queues, c.chains, c.threads, c.sources, c.furrows, c.xfers, c.chans, c.ports, c.ops, c.ophGen, c.ophUse, c.endedAt, c.txns, c.slots, c.waits, c.recov, c.inbox, c.fbLast⟩,
   h.pending, h.free, h.life, h.flash⟩

theorem State.keeps_conds (h : r.Keeps κ s) (v83 : List Nat) :
    r.Keeps κ { s with conds := v83 } :=
  ⟨fun c => let c := h.canon c; ⟨c.seed, c.flash, c.buf, c.ctx, c.tmem, c.tpriv, c.vnode, c.regs, c.applied, c.fns, c.msix, c.pba, c.vnodes, c.queues, c.chains, c.threads, c.sources, c.furrows, c.xfers, c.chans, c.ports, c.ops, c.ophGen, c.ophUse, c.endedAt, c.txns, c.slots, c.waits, c.recov, c.inbox, c.fbLast⟩,
   h.pending, h.free, h.life, h.flash⟩

theorem State.keeps_ctx (h : r.Keeps κ s) (v37 : Mem) (h37 : Memory.wf s.ctx = true → Memory.wf v37 = true) :
    r.Keeps κ { s with ctx := v37 } :=
  ⟨fun c => let c := h.canon c; ⟨c.seed, c.flash, c.buf, h37 c.ctx, c.tmem, c.tpriv, c.vnode, c.regs, c.applied, c.fns, c.msix, c.pba, c.vnodes, c.queues, c.chains, c.threads, c.sources, c.furrows, c.xfers, c.chans, c.ports, c.ops, c.ophGen, c.ophUse, c.endedAt, c.txns, c.slots, c.waits, c.recov, c.inbox, c.fbLast⟩,
   h.pending, h.free, h.life, h.flash⟩

theorem State.keeps_dack (h : r.Keeps κ s) (v15 : Byte) :
    r.Keeps κ { s with dack := v15 } :=
  ⟨fun c => let c := h.canon c; ⟨c.seed, c.flash, c.buf, c.ctx, c.tmem, c.tpriv, c.vnode, c.regs, c.applied, c.fns, c.msix, c.pba, c.vnodes, c.queues, c.chains, c.threads, c.sources, c.furrows, c.xfers, c.chans, c.ports, c.ops, c.ophGen, c.ophUse, c.endedAt, c.txns, c.slots, c.waits, c.recov, c.inbox, c.fbLast⟩,
   h.pending, h.free, h.life, h.flash⟩

theorem State.keeps_dirty (h : r.Keeps κ s) (v43 : List Nat) :
    r.Keeps κ { s with dirty := v43 } :=
  ⟨fun c => let c := h.canon c; ⟨c.seed, c.flash, c.buf, c.ctx, c.tmem, c.tpriv, c.vnode, c.regs, c.applied, c.fns, c.msix, c.pba, c.vnodes, c.queues, c.chains, c.threads, c.sources, c.furrows, c.xfers, c.chans, c.ports, c.ops, c.ophGen, c.ophUse, c.endedAt, c.txns, c.slots, c.waits, c.recov, c.inbox, c.fbLast⟩,
   h.pending, h.free, h.life, h.flash⟩

theorem State.keeps_dirtyWait (h : r.Keeps κ s) (v44 : List Nat) :
    r.Keeps κ { s with dirtyWait := v44 } :=
  ⟨fun c => let c := h.canon c; ⟨c.seed, c.flash, c.buf, c.ctx, c.tmem, c.tpriv, c.vnode, c.regs, c.applied, c.fns, c.msix, c.pba, c.vnodes, c.queues, c.chains, c.threads, c.sources, c.furrows, c.xfers, c.chans, c.ports, c.ops, c.ophGen, c.ophUse, c.endedAt, c.txns, c.slots, c.waits, c.recov, c.inbox, c.fbLast⟩,
   h.pending, h.free, h.life, h.flash⟩

theorem State.keeps_dreq (h : r.Keeps κ s) (v16 : Byte) :
    r.Keeps κ { s with dreq := v16 } :=
  ⟨fun c => let c := h.canon c; ⟨c.seed, c.flash, c.buf, c.ctx, c.tmem, c.tpriv, c.vnode, c.regs, c.applied, c.fns, c.msix, c.pba, c.vnodes, c.queues, c.chains, c.threads, c.sources, c.furrows, c.xfers, c.chans, c.ports, c.ops, c.ophGen, c.ophUse, c.endedAt, c.txns, c.slots, c.waits, c.recov, c.inbox, c.fbLast⟩,
   h.pending, h.free, h.life, h.flash⟩

theorem State.keeps_due (h : r.Keeps κ s) (v82 : List Due) :
    r.Keeps κ { s with due := v82 } :=
  ⟨fun c => let c := h.canon c; ⟨c.seed, c.flash, c.buf, c.ctx, c.tmem, c.tpriv, c.vnode, c.regs, c.applied, c.fns, c.msix, c.pba, c.vnodes, c.queues, c.chains, c.threads, c.sources, c.furrows, c.xfers, c.chans, c.ports, c.ops, c.ophGen, c.ophUse, c.endedAt, c.txns, c.slots, c.waits, c.recov, c.inbox, c.fbLast⟩,
   h.pending, h.free, h.life, h.flash⟩

theorem State.keeps_errs (h : r.Keeps κ s) (v81 : List CwErr) :
    r.Keeps κ { s with errs := v81 } :=
  ⟨fun c => let c := h.canon c; ⟨c.seed, c.flash, c.buf, c.ctx, c.tmem, c.tpriv, c.vnode, c.regs, c.applied, c.fns, c.msix, c.pba, c.vnodes, c.queues, c.chains, c.threads, c.sources, c.furrows, c.xfers, c.chans, c.ports, c.ops, c.ophGen, c.ophUse, c.endedAt, c.txns, c.slots, c.waits, c.recov, c.inbox, c.fbLast⟩,
   h.pending, h.free, h.life, h.flash⟩

theorem State.keeps_fab (h : r.Keeps κ s) (v30 : List FPkt) :
    r.Keeps κ { s with fab := v30 } :=
  ⟨fun c => let c := h.canon c; ⟨c.seed, c.flash, c.buf, c.ctx, c.tmem, c.tpriv, c.vnode, c.regs, c.applied, c.fns, c.msix, c.pba, c.vnodes, c.queues, c.chains, c.threads, c.sources, c.furrows, c.xfers, c.chans, c.ports, c.ops, c.ophGen, c.ophUse, c.endedAt, c.txns, c.slots, c.waits, c.recov, c.inbox, c.fbLast⟩,
   h.pending, h.free, h.life, h.flash⟩

theorem State.keeps_fbLast (h : r.Keeps κ s) (v31 : SMap Nat) (h31 : SMap.wf (fun _ => 11) s.fbLast = true → SMap.wf (fun _ => 11) v31 = true) :
    r.Keeps κ { s with fbLast := v31 } :=
  ⟨fun c => let c := h.canon c; ⟨c.seed, c.flash, c.buf, c.ctx, c.tmem, c.tpriv, c.vnode, c.regs, c.applied, c.fns, c.msix, c.pba, c.vnodes, c.queues, c.chains, c.threads, c.sources, c.furrows, c.xfers, c.chans, c.ports, c.ops, c.ophGen, c.ophUse, c.endedAt, c.txns, c.slots, c.waits, c.recov, c.inbox, h31 c.fbLast⟩,
   h.pending, h.free, h.life, h.flash⟩

theorem State.keeps_flash (h : r.Keeps κ s) (v35 : Mem) (h35 : SMap.wf memErased s.flash = true → SMap.wf memErased v35 = true) (hf : κ.flash = false) :
    r.Keeps κ { s with flash := v35 } :=
  ⟨fun c => let c := h.canon c; ⟨c.seed, h35 c.flash, c.buf, c.ctx, c.tmem, c.tpriv, c.vnode, c.regs, c.applied, c.fns, c.msix, c.pba, c.vnodes, c.queues, c.chains, c.threads, c.sources, c.furrows, c.xfers, c.chans, c.ports, c.ops, c.ophGen, c.ophUse, c.endedAt, c.txns, c.slots, c.waits, c.recov, c.inbox, c.fbLast⟩,
   h.pending, h.free, h.life, (fun e => by simp [hf] at e)⟩

theorem State.keeps_flushSt (h : r.Keeps κ s) (v76 : FlushSt) :
    r.Keeps κ { s with flushSt := v76 } :=
  ⟨fun c => let c := h.canon c; ⟨c.seed, c.flash, c.buf, c.ctx, c.tmem, c.tpriv, c.vnode, c.regs, c.applied, c.fns, c.msix, c.pba, c.vnodes, c.queues, c.chains, c.threads, c.sources, c.furrows, c.xfers, c.chans, c.ports, c.ops, c.ophGen, c.ophUse, c.endedAt, c.txns, c.slots, c.waits, c.recov, c.inbox, c.fbLast⟩,
   h.pending, h.free, h.life, h.flash⟩

theorem State.keeps_fns (h : r.Keeps κ s) (v24 : SMap FnCfg) (h24 : SMap.wf (fun _ => {}) s.fns = true → SMap.wf (fun _ => {}) v24 = true) :
    r.Keeps κ { s with fns := v24 } :=
  ⟨fun c => let c := h.canon c; ⟨c.seed, c.flash, c.buf, c.ctx, c.tmem, c.tpriv, c.vnode, c.regs, c.applied, h24 c.fns, c.msix, c.pba, c.vnodes, c.queues, c.chains, c.threads, c.sources, c.furrows, c.xfers, c.chans, c.ports, c.ops, c.ophGen, c.ophUse, c.endedAt, c.txns, c.slots, c.waits, c.recov, c.inbox, c.fbLast⟩,
   h.pending, h.free, h.life, h.flash⟩

theorem State.keeps_freeCtr (h : r.Keeps κ s) (v88 : Nat) (hc : s.freeCtr ≤ v88) :
    r.Keeps κ { s with freeCtr := v88 } :=
  ⟨fun c => let c := h.canon c; ⟨c.seed, c.flash, c.buf, c.ctx, c.tmem, c.tpriv, c.vnode, c.regs, c.applied, c.fns, c.msix, c.pba, c.vnodes, c.queues, c.chains, c.threads, c.sources, c.furrows, c.xfers, c.chans, c.ports, c.ops, c.ophGen, c.ophUse, c.endedAt, c.txns, c.slots, c.waits, c.recov, c.inbox, c.fbLast⟩,
   h.pending, Nat.le_trans h.free hc, h.life, h.flash⟩

theorem State.keeps_furrows (h : r.Keeps κ s) (v52 : SMap Furrow) (h52 : SMap.wf (fun _ => {}) s.furrows = true → SMap.wf (fun _ => {}) v52 = true) :
    r.Keeps κ { s with furrows := v52 } :=
  ⟨fun c => let c := h.canon c; ⟨c.seed, c.flash, c.buf, c.ctx, c.tmem, c.tpriv, c.vnode, c.regs, c.applied, c.fns, c.msix, c.pba, c.vnodes, c.queues, c.chains, c.threads, c.sources, h52 c.furrows, c.xfers, c.chans, c.ports, c.ops, c.ophGen, c.ophUse, c.endedAt, c.txns, c.slots, c.waits, c.recov, c.inbox, c.fbLast⟩,
   h.pending, h.free, h.life, h.flash⟩

theorem State.keeps_hostOut (h : r.Keeps κ s) (v27 : List Tlp) :
    r.Keeps κ { s with hostOut := v27 } :=
  ⟨fun c => let c := h.canon c; ⟨c.seed, c.flash, c.buf, c.ctx, c.tmem, c.tpriv, c.vnode, c.regs, c.applied, c.fns, c.msix, c.pba, c.vnodes, c.queues, c.chains, c.threads, c.sources, c.furrows, c.xfers, c.chans, c.ports, c.ops, c.ophGen, c.ophUse, c.endedAt, c.txns, c.slots, c.waits, c.recov, c.inbox, c.fbLast⟩,
   h.pending, h.free, h.life, h.flash⟩

theorem State.keeps_hostReady (h : r.Keeps κ s) (v2 : Bool) :
    r.Keeps κ { s with hostReady := v2 } :=
  ⟨fun c => let c := h.canon c; ⟨c.seed, c.flash, c.buf, c.ctx, c.tmem, c.tpriv, c.vnode, c.regs, c.applied, c.fns, c.msix, c.pba, c.vnodes, c.queues, c.chains, c.threads, c.sources, c.furrows, c.xfers, c.chans, c.ports, c.ops, c.ophGen, c.ophUse, c.endedAt, c.txns, c.slots, c.waits, c.recov, c.inbox, c.fbLast⟩,
   h.pending, h.free, h.life, h.flash⟩

theorem State.keeps_inbox (h : r.Keeps κ s) (v59 : SMap (List InFlit)) (h59 : SMap.wf (fun _ => []) s.inbox = true → SMap.wf (fun _ => []) v59 = true) :
    r.Keeps κ { s with inbox := v59 } :=
  ⟨fun c => let c := h.canon c; ⟨c.seed, c.flash, c.buf, c.ctx, c.tmem, c.tpriv, c.vnode, c.regs, c.applied, c.fns, c.msix, c.pba, c.vnodes, c.queues, c.chains, c.threads, c.sources, c.furrows, c.xfers, c.chans, c.ports, c.ops, c.ophGen, c.ophUse, c.endedAt, c.txns, c.slots, c.waits, c.recov, h59 c.inbox, c.fbLast⟩,
   h.pending, h.free, h.life, h.flash⟩

theorem State.keeps_jpend (h : r.Keeps κ s) (v69 : List JRec) :
    r.Keeps κ { s with jpend := v69 } :=
  ⟨fun c => let c := h.canon c; ⟨c.seed, c.flash, c.buf, c.ctx, c.tmem, c.tpriv, c.vnode, c.regs, c.applied, c.fns, c.msix, c.pba, c.vnodes, c.queues, c.chains, c.threads, c.sources, c.furrows, c.xfers, c.chans, c.ports, c.ops, c.ophGen, c.ophUse, c.endedAt, c.txns, c.slots, c.waits, c.recov, c.inbox, c.fbLast⟩,
   h.pending, h.free, h.life, h.flash⟩

theorem State.keeps_life (h : r.Keeps κ s) (v0 : Life) (hl : κ.life = false) :
    r.Keeps κ { s with life := v0 } :=
  ⟨fun c => let c := h.canon c; ⟨c.seed, c.flash, c.buf, c.ctx, c.tmem, c.tpriv, c.vnode, c.regs, c.applied, c.fns, c.msix, c.pba, c.vnodes, c.queues, c.chains, c.threads, c.sources, c.furrows, c.xfers, c.chans, c.ports, c.ops, c.ophGen, c.ophUse, c.endedAt, c.txns, c.slots, c.waits, c.recov, c.inbox, c.fbLast⟩,
   h.pending, h.free, (fun e => by simp [hl] at e), h.flash⟩

theorem State.keeps_loading (h : r.Keeps κ s) (v45 : List Nat) :
    r.Keeps κ { s with loading := v45 } :=
  ⟨fun c => let c := h.canon c; ⟨c.seed, c.flash, c.buf, c.ctx, c.tmem, c.tpriv, c.vnode, c.regs, c.applied, c.fns, c.msix, c.pba, c.vnodes, c.queues, c.chains, c.threads, c.sources, c.furrows, c.xfers, c.chans, c.ports, c.ops, c.ophGen, c.ophUse, c.endedAt, c.txns, c.slots, c.waits, c.recov, c.inbox, c.fbLast⟩,
   h.pending, h.free, h.life, h.flash⟩

theorem State.keeps_mainGood (h : r.Keeps κ s) (v4 : Bool) :
    r.Keeps κ { s with mainGood := v4 } :=
  ⟨fun c => let c := h.canon c; ⟨c.seed, c.flash, c.buf, c.ctx, c.tmem, c.tpriv, c.vnode, c.regs, c.applied, c.fns, c.msix, c.pba, c.vnodes, c.queues, c.chains, c.threads, c.sources, c.furrows, c.xfers, c.chans, c.ports, c.ops, c.ophGen, c.ophUse, c.endedAt, c.txns, c.slots, c.waits, c.recov, c.inbox, c.fbLast⟩,
   h.pending, h.free, h.life, h.flash⟩

theorem State.keeps_msix (h : r.Keeps κ s) (v25 : SMap MsixEntry) (h25 : SMap.wf (fun _ => {}) s.msix = true → SMap.wf (fun _ => {}) v25 = true) :
    r.Keeps κ { s with msix := v25 } :=
  ⟨fun c => let c := h.canon c; ⟨c.seed, c.flash, c.buf, c.ctx, c.tmem, c.tpriv, c.vnode, c.regs, c.applied, c.fns, h25 c.msix, c.pba, c.vnodes, c.queues, c.chains, c.threads, c.sources, c.furrows, c.xfers, c.chans, c.ports, c.ops, c.ophGen, c.ophUse, c.endedAt, c.txns, c.slots, c.waits, c.recov, c.inbox, c.fbLast⟩,
   h.pending, h.free, h.life, h.flash⟩

theorem State.keeps_ophGen (h : r.Keeps κ s) (v60 : SMap Nat) (h60 : SMap.wf (fun _ => 0) s.ophGen = true → SMap.wf (fun _ => 0) v60 = true) :
    r.Keeps κ { s with ophGen := v60 } :=
  ⟨fun c => let c := h.canon c; ⟨c.seed, c.flash, c.buf, c.ctx, c.tmem, c.tpriv, c.vnode, c.regs, c.applied, c.fns, c.msix, c.pba, c.vnodes, c.queues, c.chains, c.threads, c.sources, c.furrows, c.xfers, c.chans, c.ports, c.ops, h60 c.ophGen, c.ophUse, c.endedAt, c.txns, c.slots, c.waits, c.recov, c.inbox, c.fbLast⟩,
   h.pending, h.free, h.life, h.flash⟩

theorem State.keeps_ops (h : r.Keeps κ s) (v58 : SMap (Option NOp)) (h58 : SMap.wf (fun _ => none) s.ops = true → SMap.wf (fun _ => none) v58 = true) :
    r.Keeps κ { s with ops := v58 } :=
  ⟨fun c => let c := h.canon c; ⟨c.seed, c.flash, c.buf, c.ctx, c.tmem, c.tpriv, c.vnode, c.regs, c.applied, c.fns, c.msix, c.pba, c.vnodes, c.queues, c.chains, c.threads, c.sources, c.furrows, c.xfers, c.chans, c.ports, h58 c.ops, c.ophGen, c.ophUse, c.endedAt, c.txns, c.slots, c.waits, c.recov, c.inbox, c.fbLast⟩,
   h.pending, h.free, h.life, h.flash⟩

theorem State.keeps_owed (h : r.Keeps κ s) (v72 : List JEff) :
    r.Keeps κ { s with owed := v72 } :=
  ⟨fun c => let c := h.canon c; ⟨c.seed, c.flash, c.buf, c.ctx, c.tmem, c.tpriv, c.vnode, c.regs, c.applied, c.fns, c.msix, c.pba, c.vnodes, c.queues, c.chains, c.threads, c.sources, c.furrows, c.xfers, c.chans, c.ports, c.ops, c.ophGen, c.ophUse, c.endedAt, c.txns, c.slots, c.waits, c.recov, c.inbox, c.fbLast⟩,
   h.pending, h.free, h.life, h.flash⟩

theorem State.keeps_pair (h : r.Keeps κ s) (v84 : Pair) :
    r.Keeps κ { s with pair := v84 } :=
  ⟨fun c => let c := h.canon c; ⟨c.seed, c.flash, c.buf, c.ctx, c.tmem, c.tpriv, c.vnode, c.regs, c.applied, c.fns, c.msix, c.pba, c.vnodes, c.queues, c.chains, c.threads, c.sources, c.furrows, c.xfers, c.chans, c.ports, c.ops, c.ophGen, c.ophUse, c.endedAt, c.txns, c.slots, c.waits, c.recov, c.inbox, c.fbLast⟩,
   h.pending, h.free, h.life, h.flash⟩

theorem State.keeps_pba (h : r.Keeps κ s) (v26 : SMap Bool) (h26 : SMap.wf (fun _ => false) s.pba = true → SMap.wf (fun _ => false) v26 = true) :
    r.Keeps κ { s with pba := v26 } :=
  ⟨fun c => let c := h.canon c; ⟨c.seed, c.flash, c.buf, c.ctx, c.tmem, c.tpriv, c.vnode, c.regs, c.applied, c.fns, c.msix, h26 c.pba, c.vnodes, c.queues, c.chains, c.threads, c.sources, c.furrows, c.xfers, c.chans, c.ports, c.ops, c.ophGen, c.ophUse, c.endedAt, c.txns, c.slots, c.waits, c.recov, c.inbox, c.fbLast⟩,
   h.pending, h.free, h.life, h.flash⟩

theorem State.keeps_porstLow (h : r.Keeps κ s) (v3 : Bool) :
    r.Keeps κ { s with porstLow := v3 } :=
  ⟨fun c => let c := h.canon c; ⟨c.seed, c.flash, c.buf, c.ctx, c.tmem, c.tpriv, c.vnode, c.regs, c.applied, c.fns, c.msix, c.pba, c.vnodes, c.queues, c.chains, c.threads, c.sources, c.furrows, c.xfers, c.chans, c.ports, c.ops, c.ophGen, c.ophUse, c.endedAt, c.txns, c.slots, c.waits, c.recov, c.inbox, c.fbLast⟩,
   h.pending, h.free, h.life, h.flash⟩

theorem State.keeps_ports (h : r.Keeps κ s) (v57 : SMap Port) (h57 : SMap.wf (fun _ => {}) s.ports = true → SMap.wf (fun _ => {}) v57 = true) :
    r.Keeps κ { s with ports := v57 } :=
  ⟨fun c => let c := h.canon c; ⟨c.seed, c.flash, c.buf, c.ctx, c.tmem, c.tpriv, c.vnode, c.regs, c.applied, c.fns, c.msix, c.pba, c.vnodes, c.queues, c.chains, c.threads, c.sources, c.furrows, c.xfers, c.chans, h57 c.ports, c.ops, c.ophGen, c.ophUse, c.endedAt, c.txns, c.slots, c.waits, c.recov, c.inbox, c.fbLast⟩,
   h.pending, h.free, h.life, h.flash⟩

theorem State.keeps_ptmOpen (h : r.Keeps κ s) (v20 : Bool) :
    r.Keeps κ { s with ptmOpen := v20 } :=
  ⟨fun c => let c := h.canon c; ⟨c.seed, c.flash, c.buf, c.ctx, c.tmem, c.tpriv, c.vnode, c.regs, c.applied, c.fns, c.msix, c.pba, c.vnodes, c.queues, c.chains, c.threads, c.sources, c.furrows, c.xfers, c.chans, c.ports, c.ops, c.ophGen, c.ophUse, c.endedAt, c.txns, c.slots, c.waits, c.recov, c.inbox, c.fbLast⟩,
   h.pending, h.free, h.life, h.flash⟩

theorem State.keeps_queues (h : r.Keeps κ s) (v46 : SMap Queue) (h46 : SMap.wf (fun _ => {}) s.queues = true → SMap.wf (fun _ => {}) v46 = true) :
    r.Keeps κ { s with queues := v46 } :=
  ⟨fun c => let c := h.canon c; ⟨c.seed, c.flash, c.buf, c.ctx, c.tmem, c.tpriv, c.vnode, c.regs, c.applied, c.fns, c.msix, c.pba, c.vnodes, h46 c.queues, c.chains, c.threads, c.sources, c.furrows, c.xfers, c.chans, c.ports, c.ops, c.ophGen, c.ophUse, c.endedAt, c.txns, c.slots, c.waits, c.recov, c.inbox, c.fbLast⟩,
   h.pending, h.free, h.life, h.flash⟩

theorem State.keeps_rate (h : r.Keeps κ s) (v19 : Int) :
    r.Keeps κ { s with rate := v19 } :=
  ⟨fun c => let c := h.canon c; ⟨c.seed, c.flash, c.buf, c.ctx, c.tmem, c.tpriv, c.vnode, c.regs, c.applied, c.fns, c.msix, c.pba, c.vnodes, c.queues, c.chains, c.threads, c.sources, c.furrows, c.xfers, c.chans, c.ports, c.ops, c.ophGen, c.ophUse, c.endedAt, c.txns, c.slots, c.waits, c.recov, c.inbox, c.fbLast⟩,
   h.pending, h.free, h.life, h.flash⟩

theorem State.keeps_readWait (h : r.Keeps κ s) (v29 : List FPkt) :
    r.Keeps κ { s with readWait := v29 } :=
  ⟨fun c => let c := h.canon c; ⟨c.seed, c.flash, c.buf, c.ctx, c.tmem, c.tpriv, c.vnode, c.regs, c.applied, c.fns, c.msix, c.pba, c.vnodes, c.queues, c.chains, c.threads, c.sources, c.furrows, c.xfers, c.chans, c.ports, c.ops, c.ophGen, c.ophUse, c.endedAt, c.txns, c.slots, c.waits, c.recov, c.inbox, c.fbLast⟩,
   h.pending, h.free, h.life, h.flash⟩

theorem State.keeps_reads (h : r.Keeps κ s) (v28 : List ReadReq) :
    r.Keeps κ { s with reads := v28 } :=
  ⟨fun c => let c := h.canon c; ⟨c.seed, c.flash, c.buf, c.ctx, c.tmem, c.tpriv, c.vnode, c.regs, c.applied, c.fns, c.msix, c.pba, c.vnodes, c.queues, c.chains, c.threads, c.sources, c.furrows, c.xfers, c.chans, c.ports, c.ops, c.ophGen, c.ophUse, c.endedAt, c.txns, c.slots, c.waits, c.recov, c.inbox, c.fbLast⟩,
   h.pending, h.free, h.life, h.flash⟩

theorem State.keeps_recov (h : r.Keeps κ s) (v67 : SMap Nat) (h67 : SMap.wf (fun _ => 0) s.recov = true → SMap.wf (fun _ => 0) v67 = true) :
    r.Keeps κ { s with recov := v67 } :=
  ⟨fun c => let c := h.canon c; ⟨c.seed, c.flash, c.buf, c.ctx, c.tmem, c.tpriv, c.vnode, c.regs, c.applied, c.fns, c.msix, c.pba, c.vnodes, c.queues, c.chains, c.threads, c.sources, c.furrows, c.xfers, c.chans, c.ports, c.ops, c.ophGen, c.ophUse, c.endedAt, c.txns, c.slots, c.waits, h67 c.recov, c.inbox, c.fbLast⟩,
   h.pending, h.free, h.life, h.flash⟩

theorem State.keeps_regs (h : r.Keeps κ s) (v22 : SMap Word) (h22 : SMap.wf regReset s.regs = true → SMap.wf regReset v22 = true) :
    r.Keeps κ { s with regs := v22 } :=
  ⟨fun c => let c := h.canon c; ⟨c.seed, c.flash, c.buf, c.ctx, c.tmem, c.tpriv, c.vnode, h22 c.regs, c.applied, c.fns, c.msix, c.pba, c.vnodes, c.queues, c.chains, c.threads, c.sources, c.furrows, c.xfers, c.chans, c.ports, c.ops, c.ophGen, c.ophUse, c.endedAt, c.txns, c.slots, c.waits, c.recov, c.inbox, c.fbLast⟩,
   h.pending, h.free, h.life, h.flash⟩

theorem State.keeps_relNeeded (h : r.Keeps κ s) (v68 : List Nat) :
    r.Keeps κ { s with relNeeded := v68 } :=
  ⟨fun c => let c := h.canon c; ⟨c.seed, c.flash, c.buf, c.ctx, c.tmem, c.tpriv, c.vnode, c.regs, c.applied, c.fns, c.msix, c.pba, c.vnodes, c.queues, c.chains, c.threads, c.sources, c.furrows, c.xfers, c.chans, c.ports, c.ops, c.ophGen, c.ophUse, c.endedAt, c.txns, c.slots, c.waits, c.recov, c.inbox, c.fbLast⟩,
   h.pending, h.free, h.life, h.flash⟩

theorem State.keeps_reply (h : r.Keeps κ s) (v32 : Reply) :
    r.Keeps κ { s with reply := v32 } :=
  ⟨fun c => let c := h.canon c; ⟨c.seed, c.flash, c.buf, c.ctx, c.tmem, c.tpriv, c.vnode, c.regs, c.applied, c.fns, c.msix, c.pba, c.vnodes, c.queues, c.chains, c.threads, c.sources, c.furrows, c.xfers, c.chans, c.ports, c.ops, c.ophGen, c.ophUse, c.endedAt, c.txns, c.slots, c.waits, c.recov, c.inbox, c.fbLast⟩,
   h.pending, h.free, h.life, h.flash⟩

theorem State.keeps_resq (h : r.Keeps κ s) (v66 : List ResReq) :
    r.Keeps κ { s with resq := v66 } :=
  ⟨fun c => let c := h.canon c; ⟨c.seed, c.flash, c.buf, c.ctx, c.tmem, c.tpriv, c.vnode, c.regs, c.applied, c.fns, c.msix, c.pba, c.vnodes, c.queues, c.chains, c.threads, c.sources, c.furrows, c.xfers, c.chans, c.ports, c.ops, c.ophGen, c.ophUse, c.endedAt, c.txns, c.slots, c.waits, c.recov, c.inbox, c.fbLast⟩,
   h.pending, h.free, h.life, h.flash⟩

theorem State.keeps_seed (h : r.Keeps κ s) (v34 : Mem) (h34 : Memory.wf s.seed = true → Memory.wf v34 = true) :
    r.Keeps κ { s with seed := v34 } :=
  ⟨fun c => let c := h.canon c; ⟨h34 c.seed, c.flash, c.buf, c.ctx, c.tmem, c.tpriv, c.vnode, c.regs, c.applied, c.fns, c.msix, c.pba, c.vnodes, c.queues, c.chains, c.threads, c.sources, c.furrows, c.xfers, c.chans, c.ports, c.ops, c.ophGen, c.ophUse, c.endedAt, c.txns, c.slots, c.waits, c.recov, c.inbox, c.fbLast⟩,
   h.pending, h.free, h.life, h.flash⟩

theorem State.keeps_slots (h : r.Keeps κ s) (v64 : SMap Holder) (h64 : SMap.wf (fun _ => .none) s.slots = true → SMap.wf (fun _ => .none) v64 = true) :
    r.Keeps κ { s with slots := v64 } :=
  ⟨fun c => let c := h.canon c; ⟨c.seed, c.flash, c.buf, c.ctx, c.tmem, c.tpriv, c.vnode, c.regs, c.applied, c.fns, c.msix, c.pba, c.vnodes, c.queues, c.chains, c.threads, c.sources, c.furrows, c.xfers, c.chans, c.ports, c.ops, c.ophGen, c.ophUse, c.endedAt, c.txns, h64 c.slots, c.waits, c.recov, c.inbox, c.fbLast⟩,
   h.pending, h.free, h.life, h.flash⟩

theorem State.keeps_slowInternal (h : r.Keeps κ s) (v9 : Bool) :
    r.Keeps κ { s with slowInternal := v9 } :=
  ⟨fun c => let c := h.canon c; ⟨c.seed, c.flash, c.buf, c.ctx, c.tmem, c.tpriv, c.vnode, c.regs, c.applied, c.fns, c.msix, c.pba, c.vnodes, c.queues, c.chains, c.threads, c.sources, c.furrows, c.xfers, c.chans, c.ports, c.ops, c.ophGen, c.ophUse, c.endedAt, c.txns, c.slots, c.waits, c.recov, c.inbox, c.fbLast⟩,
   h.pending, h.free, h.life, h.flash⟩

theorem State.keeps_smbAddr (h : r.Keeps κ s) (v33 : Word) :
    r.Keeps κ { s with smbAddr := v33 } :=
  ⟨fun c => let c := h.canon c; ⟨c.seed, c.flash, c.buf, c.ctx, c.tmem, c.tpriv, c.vnode, c.regs, c.applied, c.fns, c.msix, c.pba, c.vnodes, c.queues, c.chains, c.threads, c.sources, c.furrows, c.xfers, c.chans, c.ports, c.ops, c.ophGen, c.ophUse, c.endedAt, c.txns, c.slots, c.waits, c.recov, c.inbox, c.fbLast⟩,
   h.pending, h.free, h.life, h.flash⟩

theorem State.keeps_sources (h : r.Keeps κ s) (v51 : SMap Src) (h51 : SMap.wf (fun _ => {}) s.sources = true → SMap.wf (fun _ => {}) v51 = true) :
    r.Keeps κ { s with sources := v51 } :=
  ⟨fun c => let c := h.canon c; ⟨c.seed, c.flash, c.buf, c.ctx, c.tmem, c.tpriv, c.vnode, c.regs, c.applied, c.fns, c.msix, c.pba, c.vnodes, c.queues, c.chains, c.threads, h51 c.sources, c.furrows, c.xfers, c.chans, c.ports, c.ops, c.ophGen, c.ophUse, c.endedAt, c.txns, c.slots, c.waits, c.recov, c.inbox, c.fbLast⟩,
   h.pending, h.free, h.life, h.flash⟩

theorem State.keeps_stamp (h : r.Keeps κ s) (v55 : Nat) :
    r.Keeps κ { s with stamp := v55 } :=
  ⟨fun c => let c := h.canon c; ⟨c.seed, c.flash, c.buf, c.ctx, c.tmem, c.tpriv, c.vnode, c.regs, c.applied, c.fns, c.msix, c.pba, c.vnodes, c.queues, c.chains, c.threads, c.sources, c.furrows, c.xfers, c.chans, c.ports, c.ops, c.ophGen, c.ophUse, c.endedAt, c.txns, c.slots, c.waits, c.recov, c.inbox, c.fbLast⟩,
   h.pending, h.free, h.life, h.flash⟩

theorem State.keeps_threads (h : r.Keeps κ s) (v48 : SMap Thread) (h48 : SMap.wf (fun _ => {}) s.threads = true → SMap.wf (fun _ => {}) v48 = true) :
    r.Keeps κ { s with threads := v48 } :=
  ⟨fun c => let c := h.canon c; ⟨c.seed, c.flash, c.buf, c.ctx, c.tmem, c.tpriv, c.vnode, c.regs, c.applied, c.fns, c.msix, c.pba, c.vnodes, c.queues, c.chains, h48 c.threads, c.sources, c.furrows, c.xfers, c.chans, c.ports, c.ops, c.ophGen, c.ophUse, c.endedAt, c.txns, c.slots, c.waits, c.recov, c.inbox, c.fbLast⟩,
   h.pending, h.free, h.life, h.flash⟩

theorem State.keeps_time (h : r.Keeps κ s) (v18 : Nat) :
    r.Keeps κ { s with time := v18 } :=
  ⟨fun c => let c := h.canon c; ⟨c.seed, c.flash, c.buf, c.ctx, c.tmem, c.tpriv, c.vnode, c.regs, c.applied, c.fns, c.msix, c.pba, c.vnodes, c.queues, c.chains, c.threads, c.sources, c.furrows, c.xfers, c.chans, c.ports, c.ops, c.ophGen, c.ophUse, c.endedAt, c.txns, c.slots, c.waits, c.recov, c.inbox, c.fbLast⟩,
   h.pending, h.free, h.life, h.flash⟩

theorem State.keeps_tmem (h : r.Keeps κ s) (v38 : Mem) (h38 : Memory.wf s.tmem = true → Memory.wf v38 = true) :
    r.Keeps κ { s with tmem := v38 } :=
  ⟨fun c => let c := h.canon c; ⟨c.seed, c.flash, c.buf, c.ctx, h38 c.tmem, c.tpriv, c.vnode, c.regs, c.applied, c.fns, c.msix, c.pba, c.vnodes, c.queues, c.chains, c.threads, c.sources, c.furrows, c.xfers, c.chans, c.ports, c.ops, c.ophGen, c.ophUse, c.endedAt, c.txns, c.slots, c.waits, c.recov, c.inbox, c.fbLast⟩,
   h.pending, h.free, h.life, h.flash⟩

theorem State.keeps_tpriv (h : r.Keeps κ s) (v39 : Mem) (h39 : Memory.wf s.tpriv = true → Memory.wf v39 = true) :
    r.Keeps κ { s with tpriv := v39 } :=
  ⟨fun c => let c := h.canon c; ⟨c.seed, c.flash, c.buf, c.ctx, c.tmem, h39 c.tpriv, c.vnode, c.regs, c.applied, c.fns, c.msix, c.pba, c.vnodes, c.queues, c.chains, c.threads, c.sources, c.furrows, c.xfers, c.chans, c.ports, c.ops, c.ophGen, c.ophUse, c.endedAt, c.txns, c.slots, c.waits, c.recov, c.inbox, c.fbLast⟩,
   h.pending, h.free, h.life, h.flash⟩

theorem State.keeps_txns (h : r.Keeps κ s) (v63 : SMap Txn) (h63 : SMap.wf (fun _ => {}) s.txns = true → SMap.wf (fun _ => {}) v63 = true) :
    r.Keeps κ { s with txns := v63 } :=
  ⟨fun c => let c := h.canon c; ⟨c.seed, c.flash, c.buf, c.ctx, c.tmem, c.tpriv, c.vnode, c.regs, c.applied, c.fns, c.msix, c.pba, c.vnodes, c.queues, c.chains, c.threads, c.sources, c.furrows, c.xfers, c.chans, c.ports, c.ops, c.ophGen, c.ophUse, c.endedAt, h63 c.txns, c.slots, c.waits, c.recov, c.inbox, c.fbLast⟩,
   h.pending, h.free, h.life, h.flash⟩

theorem State.keeps_upd (h : r.Keeps κ s) (v79 : Upd) :
    r.Keeps κ { s with upd := v79 } :=
  ⟨fun c => let c := h.canon c; ⟨c.seed, c.flash, c.buf, c.ctx, c.tmem, c.tpriv, c.vnode, c.regs, c.applied, c.fns, c.msix, c.pba, c.vnodes, c.queues, c.chains, c.threads, c.sources, c.furrows, c.xfers, c.chans, c.ports, c.ops, c.ophGen, c.ophUse, c.endedAt, c.txns, c.slots, c.waits, c.recov, c.inbox, c.fbLast⟩,
   h.pending, h.free, h.life, h.flash⟩

theorem State.keeps_vnode (h : r.Keeps κ s) (v40 : Mem) (h40 : Memory.wf s.vnode = true → Memory.wf v40 = true) :
    r.Keeps κ { s with vnode := v40 } :=
  ⟨fun c => let c := h.canon c; ⟨c.seed, c.flash, c.buf, c.ctx, c.tmem, c.tpriv, h40 c.vnode, c.regs, c.applied, c.fns, c.msix, c.pba, c.vnodes, c.queues, c.chains, c.threads, c.sources, c.furrows, c.xfers, c.chans, c.ports, c.ops, c.ophGen, c.ophUse, c.endedAt, c.txns, c.slots, c.waits, c.recov, c.inbox, c.fbLast⟩,
   h.pending, h.free, h.life, h.flash⟩

theorem State.keeps_vnodes (h : r.Keeps κ s) (v41 : SMap VNode) (h41 : SMap.wf (fun _ => {}) s.vnodes = true → SMap.wf (fun _ => {}) v41 = true) :
    r.Keeps κ { s with vnodes := v41 } :=
  ⟨fun c => let c := h.canon c; ⟨c.seed, c.flash, c.buf, c.ctx, c.tmem, c.tpriv, c.vnode, c.regs, c.applied, c.fns, c.msix, c.pba, h41 c.vnodes, c.queues, c.chains, c.threads, c.sources, c.furrows, c.xfers, c.chans, c.ports, c.ops, c.ophGen, c.ophUse, c.endedAt, c.txns, c.slots, c.waits, c.recov, c.inbox, c.fbLast⟩,
   h.pending, h.free, h.life, h.flash⟩

theorem State.keeps_vover (h : r.Keeps κ s) (v78 : Bool) :
    r.Keeps κ { s with vover := v78 } :=
  ⟨fun c => let c := h.canon c; ⟨c.seed, c.flash, c.buf, c.ctx, c.tmem, c.tpriv, c.vnode, c.regs, c.applied, c.fns, c.msix, c.pba, c.vnodes, c.queues, c.chains, c.threads, c.sources, c.furrows, c.xfers, c.chans, c.ports, c.ops, c.ophGen, c.ophUse, c.endedAt, c.txns, c.slots, c.waits, c.recov, c.inbox, c.fbLast⟩,
   h.pending, h.free, h.life, h.flash⟩

theorem State.keeps_vstage (h : r.Keeps κ s) (v77 : List (Nat × Nat)) :
    r.Keeps κ { s with vstage := v77 } :=
  ⟨fun c => let c := h.canon c; ⟨c.seed, c.flash, c.buf, c.ctx, c.tmem, c.tpriv, c.vnode, c.regs, c.applied, c.fns, c.msix, c.pba, c.vnodes, c.queues, c.chains, c.threads, c.sources, c.furrows, c.xfers, c.chans, c.ports, c.ops, c.ophGen, c.ophUse, c.endedAt, c.txns, c.slots, c.waits, c.recov, c.inbox, c.fbLast⟩,
   h.pending, h.free, h.life, h.flash⟩

theorem State.keeps_waits (h : r.Keeps κ s) (v65 : SMap (Option Wait)) (h65 : SMap.wf (fun _ => none) s.waits = true → SMap.wf (fun _ => none) v65 = true) :
    r.Keeps κ { s with waits := v65 } :=
  ⟨fun c => let c := h.canon c; ⟨c.seed, c.flash, c.buf, c.ctx, c.tmem, c.tpriv, c.vnode, c.regs, c.applied, c.fns, c.msix, c.pba, c.vnodes, c.queues, c.chains, c.threads, c.sources, c.furrows, c.xfers, c.chans, c.ports, c.ops, c.ophGen, c.ophUse, c.endedAt, c.txns, c.slots, h65 c.waits, c.recov, c.inbox, c.fbLast⟩,
   h.pending, h.free, h.life, h.flash⟩

theorem State.keeps_warnTiming (h : r.Keeps κ s) (v7 : Bool) :
    r.Keeps κ { s with warnTiming := v7 } :=
  ⟨fun c => let c := h.canon c; ⟨c.seed, c.flash, c.buf, c.ctx, c.tmem, c.tpriv, c.vnode, c.regs, c.applied, c.fns, c.msix, c.pba, c.vnodes, c.queues, c.chains, c.threads, c.sources, c.furrows, c.xfers, c.chans, c.ports, c.ops, c.ophGen, c.ophUse, c.endedAt, c.txns, c.slots, c.waits, c.recov, c.inbox, c.fbLast⟩,
   h.pending, h.free, h.life, h.flash⟩

theorem State.keeps_xfers (h : r.Keeps κ s) (v53 : SMap (Option Xfer)) (h53 : SMap.wf (fun _ => none) s.xfers = true → SMap.wf (fun _ => none) v53 = true) :
    r.Keeps κ { s with xfers := v53 } :=
  ⟨fun c => let c := h.canon c; ⟨c.seed, c.flash, c.buf, c.ctx, c.tmem, c.tpriv, c.vnode, c.regs, c.applied, c.fns, c.msix, c.pba, c.vnodes, c.queues, c.chains, c.threads, c.sources, c.furrows, h53 c.xfers, c.chans, c.ports, c.ops, c.ophGen, c.ophUse, c.endedAt, c.txns, c.slots, c.waits, c.recov, c.inbox, c.fbLast⟩,
   h.pending, h.free, h.life, h.flash⟩

theorem State.keeps_buf_threads (h : r.Keeps κ s) (v36 : Mem) (v48 : SMap Thread) (h36 : Memory.wf s.buf = true → Memory.wf v36 = true) (h48 : SMap.wf (fun _ => {}) s.threads = true → SMap.wf (fun _ => {}) v48 = true) :
    r.Keeps κ { s with buf := v36, threads := v48 } :=
  ⟨fun c => let c := h.canon c; ⟨c.seed, c.flash, h36 c.buf, c.ctx, c.tmem, c.tpriv, c.vnode, c.regs, c.applied, c.fns, c.msix, c.pba, c.vnodes, c.queues, c.chains, h48 c.threads, c.sources, c.furrows, c.xfers, c.chans, c.ports, c.ops, c.ophGen, c.ophUse, c.endedAt, c.txns, c.slots, c.waits, c.recov, c.inbox, c.fbLast⟩,
   h.pending, h.free, h.life, h.flash⟩

theorem State.keeps_ctx_cached (h : r.Keeps κ s) (v37 : Mem) (v42 : List Nat) (h37 : Memory.wf s.ctx = true → Memory.wf v37 = true) :
    r.Keeps κ { s with ctx := v37, cached := v42 } :=
  ⟨fun c => let c := h.canon c; ⟨c.seed, c.flash, c.buf, h37 c.ctx, c.tmem, c.tpriv, c.vnode, c.regs, c.applied, c.fns, c.msix, c.pba, c.vnodes, c.queues, c.chains, c.threads, c.sources, c.furrows, c.xfers, c.chans, c.ports, c.ops, c.ophGen, c.ophUse, c.endedAt, c.txns, c.slots, c.waits, c.recov, c.inbox, c.fbLast⟩,
   h.pending, h.free, h.life, h.flash⟩

theorem State.keeps_dack_dackWait (h : r.Keeps κ s) (v15 : Byte) (v17 : Byte) :
    r.Keeps κ { s with dack := v15, dackWait := v17 } :=
  ⟨fun c => let c := h.canon c; ⟨c.seed, c.flash, c.buf, c.ctx, c.tmem, c.tpriv, c.vnode, c.regs, c.applied, c.fns, c.msix, c.pba, c.vnodes, c.queues, c.chains, c.threads, c.sources, c.furrows, c.xfers, c.chans, c.ports, c.ops, c.ophGen, c.ophUse, c.endedAt, c.txns, c.slots, c.waits, c.recov, c.inbox, c.fbLast⟩,
   h.pending, h.free, h.life, h.flash⟩

theorem State.keeps_dreq_dackWait (h : r.Keeps κ s) (v16 : Byte) (v17 : Byte) :
    r.Keeps κ { s with dreq := v16, dackWait := v17 } :=
  ⟨fun c => let c := h.canon c; ⟨c.seed, c.flash, c.buf, c.ctx, c.tmem, c.tpriv, c.vnode, c.regs, c.applied, c.fns, c.msix, c.pba, c.vnodes, c.queues, c.chains, c.threads, c.sources, c.furrows, c.xfers, c.chans, c.ports, c.ops, c.ophGen, c.ophUse, c.endedAt, c.txns, c.slots, c.waits, c.recov, c.inbox, c.fbLast⟩,
   h.pending, h.free, h.life, h.flash⟩

theorem State.keeps_errA_errB (h : r.Keeps κ s) (v10 : Bool) (v11 : Bool) :
    r.Keeps κ { s with errA := v10, errB := v11 } :=
  ⟨fun c => let c := h.canon c; ⟨c.seed, c.flash, c.buf, c.ctx, c.tmem, c.tpriv, c.vnode, c.regs, c.applied, c.fns, c.msix, c.pba, c.vnodes, c.queues, c.chains, c.threads, c.sources, c.furrows, c.xfers, c.chans, c.ports, c.ops, c.ophGen, c.ophUse, c.endedAt, c.txns, c.slots, c.waits, c.recov, c.inbox, c.fbLast⟩,
   h.pending, h.free, h.life, h.flash⟩

theorem State.keeps_hostOut_reads (h : r.Keeps κ s) (v27 : List Tlp) (v28 : List ReadReq) :
    r.Keeps κ { s with hostOut := v27, reads := v28 } :=
  ⟨fun c => let c := h.canon c; ⟨c.seed, c.flash, c.buf, c.ctx, c.tmem, c.tpriv, c.vnode, c.regs, c.applied, c.fns, c.msix, c.pba, c.vnodes, c.queues, c.chains, c.threads, c.sources, c.furrows, c.xfers, c.chans, c.ports, c.ops, c.ophGen, c.ophUse, c.endedAt, c.txns, c.slots, c.waits, c.recov, c.inbox, c.fbLast⟩,
   h.pending, h.free, h.life, h.flash⟩

theorem State.keeps_jpend_errs (h : r.Keeps κ s) (v69 : List JRec) (v81 : List CwErr) :
    r.Keeps κ { s with jpend := v69, errs := v81 } :=
  ⟨fun c => let c := h.canon c; ⟨c.seed, c.flash, c.buf, c.ctx, c.tmem, c.tpriv, c.vnode, c.regs, c.applied, c.fns, c.msix, c.pba, c.vnodes, c.queues, c.chains, c.threads, c.sources, c.furrows, c.xfers, c.chans, c.ports, c.ops, c.ophGen, c.ophUse, c.endedAt, c.txns, c.slots, c.waits, c.recov, c.inbox, c.fbLast⟩,
   h.pending, h.free, h.life, h.flash⟩

theorem State.keeps_jpend_owed (h : r.Keeps κ s) (v69 : List JRec) (v72 : List JEff) :
    r.Keeps κ { s with jpend := v69, owed := v72 } :=
  ⟨fun c => let c := h.canon c; ⟨c.seed, c.flash, c.buf, c.ctx, c.tmem, c.tpriv, c.vnode, c.regs, c.applied, c.fns, c.msix, c.pba, c.vnodes, c.queues, c.chains, c.threads, c.sources, c.furrows, c.xfers, c.chans, c.ports, c.ops, c.ophGen, c.ophUse, c.endedAt, c.txns, c.slots, c.waits, c.recov, c.inbox, c.fbLast⟩,
   h.pending, h.free, h.life, h.flash⟩

theorem State.keeps_jpend_pair (h : r.Keeps κ s) (v69 : List JRec) (v84 : Pair) :
    r.Keeps κ { s with jpend := v69, pair := v84 } :=
  ⟨fun c => let c := h.canon c; ⟨c.seed, c.flash, c.buf, c.ctx, c.tmem, c.tpriv, c.vnode, c.regs, c.applied, c.fns, c.msix, c.pba, c.vnodes, c.queues, c.chains, c.threads, c.sources, c.furrows, c.xfers, c.chans, c.ports, c.ops, c.ophGen, c.ophUse, c.endedAt, c.txns, c.slots, c.waits, c.recov, c.inbox, c.fbLast⟩,
   h.pending, h.free, h.life, h.flash⟩

theorem State.keeps_jslots_ckStart (h : r.Keeps κ s) (v70 : List JSlot) (v74 : Nat) :
    r.Keeps κ { s with jslots := v70, ckStart := v74 } :=
  ⟨fun c => let c := h.canon c; ⟨c.seed, c.flash, c.buf, c.ctx, c.tmem, c.tpriv, c.vnode, c.regs, c.applied, c.fns, c.msix, c.pba, c.vnodes, c.queues, c.chains, c.threads, c.sources, c.furrows, c.xfers, c.chans, c.ports, c.ops, c.ophGen, c.ophUse, c.endedAt, c.txns, c.slots, c.waits, c.recov, c.inbox, c.fbLast⟩,
   h.pending, h.free, h.life, h.flash⟩

theorem State.keeps_jslots_jpos (h : r.Keeps κ s) (v70 : List JSlot) (v71 : Nat) :
    r.Keeps κ { s with jslots := v70, jpos := v71 } :=
  ⟨fun c => let c := h.canon c; ⟨c.seed, c.flash, c.buf, c.ctx, c.tmem, c.tpriv, c.vnode, c.regs, c.applied, c.fns, c.msix, c.pba, c.vnodes, c.queues, c.chains, c.threads, c.sources, c.furrows, c.xfers, c.chans, c.ports, c.ops, c.ophGen, c.ophUse, c.endedAt, c.txns, c.slots, c.waits, c.recov, c.inbox, c.fbLast⟩,
   h.pending, h.free, h.life, h.flash⟩

theorem State.keeps_jtagIr_bscan (h : r.Keeps κ s) (v85 : Byte) (v86 : Byte) :
    r.Keeps κ { s with jtagIr := v85, bscan := v86 } :=
  ⟨fun c => let c := h.canon c; ⟨c.seed, c.flash, c.buf, c.ctx, c.tmem, c.tpriv, c.vnode, c.regs, c.applied, c.fns, c.msix, c.pba, c.vnodes, c.queues, c.chains, c.threads, c.sources, c.furrows, c.xfers, c.chans, c.ports, c.ops, c.ophGen, c.ophUse, c.endedAt, c.txns, c.slots, c.waits, c.recov, c.inbox, c.fbLast⟩,
   h.pending, h.free, h.life, h.flash⟩

theorem State.keeps_msix_pba (h : r.Keeps κ s) (v25 : SMap MsixEntry) (v26 : SMap Bool) (h25 : SMap.wf (fun _ => {}) s.msix = true → SMap.wf (fun _ => {}) v25 = true) (h26 : SMap.wf (fun _ => false) s.pba = true → SMap.wf (fun _ => false) v26 = true) :
    r.Keeps κ { s with msix := v25, pba := v26 } :=
  ⟨fun c => let c := h.canon c; ⟨c.seed, c.flash, c.buf, c.ctx, c.tmem, c.tpriv, c.vnode, c.regs, c.applied, c.fns, h25 c.msix, h26 c.pba, c.vnodes, c.queues, c.chains, c.threads, c.sources, c.furrows, c.xfers, c.chans, c.ports, c.ops, c.ophGen, c.ophUse, c.endedAt, c.txns, c.slots, c.waits, c.recov, c.inbox, c.fbLast⟩,
   h.pending, h.free, h.life, h.flash⟩

theorem State.keeps_nextXfer_stamp (h : r.Keeps κ s) (v54 : Nat) (v55 : Nat) :
    r.Keeps κ { s with nextXfer := v54, stamp := v55 } :=
  ⟨fun c => let c := h.canon c; ⟨c.seed, c.flash, c.buf, c.ctx, c.tmem, c.tpriv, c.vnode, c.regs, c.applied, c.fns, c.msix, c.pba, c.vnodes, c.queues, c.chains, c.threads, c.sources, c.furrows, c.xfers, c.chans, c.ports, c.ops, c.ophGen, c.ophUse, c.endedAt, c.txns, c.slots, c.waits, c.recov, c.inbox, c.fbLast⟩,
   h.pending, h.free, h.life, h.flash⟩

theorem State.keeps_ophUse_endedAt (h : r.Keeps κ s) (v61 : SMap (Nat × Nat)) (v62 : SMap Nat) (h61 : SMap.wf (fun _ => (0, 0)) s.ophUse = true → SMap.wf (fun _ => (0, 0)) v61 = true) (h62 : SMap.wf (fun _ => 0) s.endedAt = true → SMap.wf (fun _ => 0) v62 = true) :
    r.Keeps κ { s with ophUse := v61, endedAt := v62 } :=
  ⟨fun c => let c := h.canon c; ⟨c.seed, c.flash, c.buf, c.ctx, c.tmem, c.tpriv, c.vnode, c.regs, c.applied, c.fns, c.msix, c.pba, c.vnodes, c.queues, c.chains, c.threads, c.sources, c.furrows, c.xfers, c.chans, c.ports, c.ops, c.ophGen, h61 c.ophUse, h62 c.endedAt, c.txns, c.slots, c.waits, c.recov, c.inbox, c.fbLast⟩,
   h.pending, h.free, h.life, h.flash⟩

theorem State.keeps_ops_resq (h : r.Keeps κ s) (v58 : SMap (Option NOp)) (v66 : List ResReq) (h58 : SMap.wf (fun _ => none) s.ops = true → SMap.wf (fun _ => none) v58 = true) :
    r.Keeps κ { s with ops := v58, resq := v66 } :=
  ⟨fun c => let c := h.canon c; ⟨c.seed, c.flash, c.buf, c.ctx, c.tmem, c.tpriv, c.vnode, c.regs, c.applied, c.fns, c.msix, c.pba, c.vnodes, c.queues, c.chains, c.threads, c.sources, c.furrows, c.xfers, c.chans, c.ports, h58 c.ops, c.ophGen, c.ophUse, c.endedAt, c.txns, c.slots, c.waits, c.recov, c.inbox, c.fbLast⟩,
   h.pending, h.free, h.life, h.flash⟩

theorem State.keeps_ptmOpen_ptmFails (h : r.Keeps κ s) (v20 : Bool) (v21 : Nat) :
    r.Keeps κ { s with ptmOpen := v20, ptmFails := v21 } :=
  ⟨fun c => let c := h.canon c; ⟨c.seed, c.flash, c.buf, c.ctx, c.tmem, c.tpriv, c.vnode, c.regs, c.applied, c.fns, c.msix, c.pba, c.vnodes, c.queues, c.chains, c.threads, c.sources, c.furrows, c.xfers, c.chans, c.ports, c.ops, c.ophGen, c.ophUse, c.endedAt, c.txns, c.slots, c.waits, c.recov, c.inbox, c.fbLast⟩,
   h.pending, h.free, h.life, h.flash⟩

theorem State.keeps_rakeRR_claimTag (h : r.Keeps κ s) (v49 : Nat) (v50 : Nat) :
    r.Keeps κ { s with rakeRR := v49, claimTag := v50 } :=
  ⟨fun c => let c := h.canon c; ⟨c.seed, c.flash, c.buf, c.ctx, c.tmem, c.tpriv, c.vnode, c.regs, c.applied, c.fns, c.msix, c.pba, c.vnodes, c.queues, c.chains, c.threads, c.sources, c.furrows, c.xfers, c.chans, c.ports, c.ops, c.ophGen, c.ophUse, c.endedAt, c.txns, c.slots, c.waits, c.recov, c.inbox, c.fbLast⟩,
   h.pending, h.free, h.life, h.flash⟩

theorem State.keeps_reads_fab (h : r.Keeps κ s) (v28 : List ReadReq) (v30 : List FPkt) :
    r.Keeps κ { s with reads := v28, fab := v30 } :=
  ⟨fun c => let c := h.canon c; ⟨c.seed, c.flash, c.buf, c.ctx, c.tmem, c.tpriv, c.vnode, c.regs, c.applied, c.fns, c.msix, c.pba, c.vnodes, c.queues, c.chains, c.threads, c.sources, c.furrows, c.xfers, c.chans, c.ports, c.ops, c.ophGen, c.ophUse, c.endedAt, c.txns, c.slots, c.waits, c.recov, c.inbox, c.fbLast⟩,
   h.pending, h.free, h.life, h.flash⟩

theorem State.keeps_refclk_slowInternal (h : r.Keeps κ s) (v5 : Bool) (v9 : Bool) :
    r.Keeps κ { s with refclk := v5, slowInternal := v9 } :=
  ⟨fun c => let c := h.canon c; ⟨c.seed, c.flash, c.buf, c.ctx, c.tmem, c.tpriv, c.vnode, c.regs, c.applied, c.fns, c.msix, c.pba, c.vnodes, c.queues, c.chains, c.threads, c.sources, c.furrows, c.xfers, c.chans, c.ports, c.ops, c.ophGen, c.ophUse, c.endedAt, c.txns, c.slots, c.waits, c.recov, c.inbox, c.fbLast⟩,
   h.pending, h.free, h.life, h.flash⟩

theorem State.keeps_reply_smbAddr (h : r.Keeps κ s) (v32 : Reply) (v33 : Word) :
    r.Keeps κ { s with reply := v32, smbAddr := v33 } :=
  ⟨fun c => let c := h.canon c; ⟨c.seed, c.flash, c.buf, c.ctx, c.tmem, c.tpriv, c.vnode, c.regs, c.applied, c.fns, c.msix, c.pba, c.vnodes, c.queues, c.chains, c.threads, c.sources, c.furrows, c.xfers, c.chans, c.ports, c.ops, c.ophGen, c.ophUse, c.endedAt, c.txns, c.slots, c.waits, c.recov, c.inbox, c.fbLast⟩,
   h.pending, h.free, h.life, h.flash⟩

theorem State.keeps_seed_errs (h : r.Keeps κ s) (v34 : Mem) (v81 : List CwErr) (h34 : Memory.wf s.seed = true → Memory.wf v34 = true) :
    r.Keeps κ { s with seed := v34, errs := v81 } :=
  ⟨fun c => let c := h.canon c; ⟨h34 c.seed, c.flash, c.buf, c.ctx, c.tmem, c.tpriv, c.vnode, c.regs, c.applied, c.fns, c.msix, c.pba, c.vnodes, c.queues, c.chains, c.threads, c.sources, c.furrows, c.xfers, c.chans, c.ports, c.ops, c.ophGen, c.ophUse, c.endedAt, c.txns, c.slots, c.waits, c.recov, c.inbox, c.fbLast⟩,
   h.pending, h.free, h.life, h.flash⟩

theorem State.keeps_seed_jpend (h : r.Keeps κ s) (v34 : Mem) (v69 : List JRec) (h34 : Memory.wf s.seed = true → Memory.wf v34 = true) :
    r.Keeps κ { s with seed := v34, jpend := v69 } :=
  ⟨fun c => let c := h.canon c; ⟨h34 c.seed, c.flash, c.buf, c.ctx, c.tmem, c.tpriv, c.vnode, c.regs, c.applied, c.fns, c.msix, c.pba, c.vnodes, c.queues, c.chains, c.threads, c.sources, c.furrows, c.xfers, c.chans, c.ports, c.ops, c.ophGen, c.ophUse, c.endedAt, c.txns, c.slots, c.waits, c.recov, c.inbox, c.fbLast⟩,
   h.pending, h.free, h.life, h.flash⟩

theorem State.keeps_time_rate (h : r.Keeps κ s) (v18 : Nat) (v19 : Int) :
    r.Keeps κ { s with time := v18, rate := v19 } :=
  ⟨fun c => let c := h.canon c; ⟨c.seed, c.flash, c.buf, c.ctx, c.tmem, c.tpriv, c.vnode, c.regs, c.applied, c.fns, c.msix, c.pba, c.vnodes, c.queues, c.chains, c.threads, c.sources, c.furrows, c.xfers, c.chans, c.ports, c.ops, c.ophGen, c.ophUse, c.endedAt, c.txns, c.slots, c.waits, c.recov, c.inbox, c.fbLast⟩,
   h.pending, h.free, h.life, h.flash⟩

theorem State.keeps_tmem_tpriv (h : r.Keeps κ s) (v38 : Mem) (v39 : Mem) (h38 : Memory.wf s.tmem = true → Memory.wf v38 = true) (h39 : Memory.wf s.tpriv = true → Memory.wf v39 = true) :
    r.Keeps κ { s with tmem := v38, tpriv := v39 } :=
  ⟨fun c => let c := h.canon c; ⟨c.seed, c.flash, c.buf, c.ctx, h38 c.tmem, h39 c.tpriv, c.vnode, c.regs, c.applied, c.fns, c.msix, c.pba, c.vnodes, c.queues, c.chains, c.threads, c.sources, c.furrows, c.xfers, c.chans, c.ports, c.ops, c.ophGen, c.ophUse, c.endedAt, c.txns, c.slots, c.waits, c.recov, c.inbox, c.fbLast⟩,
   h.pending, h.free, h.life, h.flash⟩

theorem State.keeps_upd_bgCheck (h : r.Keeps κ s) (v79 : Upd) (v80 : Bool) :
    r.Keeps κ { s with upd := v79, bgCheck := v80 } :=
  ⟨fun c => let c := h.canon c; ⟨c.seed, c.flash, c.buf, c.ctx, c.tmem, c.tpriv, c.vnode, c.regs, c.applied, c.fns, c.msix, c.pba, c.vnodes, c.queues, c.chains, c.threads, c.sources, c.furrows, c.xfers, c.chans, c.ports, c.ops, c.ophGen, c.ophUse, c.endedAt, c.txns, c.slots, c.waits, c.recov, c.inbox, c.fbLast⟩,
   h.pending, h.free, h.life, h.flash⟩

theorem State.keeps_vnode_vnodes (h : r.Keeps κ s) (v40 : Mem) (v41 : SMap VNode) (h40 : Memory.wf s.vnode = true → Memory.wf v40 = true) (h41 : SMap.wf (fun _ => {}) s.vnodes = true → SMap.wf (fun _ => {}) v41 = true) :
    r.Keeps κ { s with vnode := v40, vnodes := v41 } :=
  ⟨fun c => let c := h.canon c; ⟨c.seed, c.flash, c.buf, c.ctx, c.tmem, c.tpriv, h40 c.vnode, c.regs, c.applied, c.fns, c.msix, c.pba, h41 c.vnodes, c.queues, c.chains, c.threads, c.sources, c.furrows, c.xfers, c.chans, c.ports, c.ops, c.ophGen, c.ophUse, c.endedAt, c.txns, c.slots, c.waits, c.recov, c.inbox, c.fbLast⟩,
   h.pending, h.free, h.life, h.flash⟩

theorem State.keeps_vstage_vover (h : r.Keeps κ s) (v77 : List (Nat × Nat)) (v78 : Bool) :
    r.Keeps κ { s with vstage := v77, vover := v78 } :=
  ⟨fun c => let c := h.canon c; ⟨c.seed, c.flash, c.buf, c.ctx, c.tmem, c.tpriv, c.vnode, c.regs, c.applied, c.fns, c.msix, c.pba, c.vnodes, c.queues, c.chains, c.threads, c.sources, c.furrows, c.xfers, c.chans, c.ports, c.ops, c.ophGen, c.ophUse, c.endedAt, c.txns, c.slots, c.waits, c.recov, c.inbox, c.fbLast⟩,
   h.pending, h.free, h.life, h.flash⟩

theorem State.keeps_warnLow_warnTiming (h : r.Keeps κ s) (v6 : Bool) (v7 : Bool) :
    r.Keeps κ { s with warnLow := v6, warnTiming := v7 } :=
  ⟨fun c => let c := h.canon c; ⟨c.seed, c.flash, c.buf, c.ctx, c.tmem, c.tpriv, c.vnode, c.regs, c.applied, c.fns, c.msix, c.pba, c.vnodes, c.queues, c.chains, c.threads, c.sources, c.furrows, c.xfers, c.chans, c.ports, c.ops, c.ophGen, c.ophUse, c.endedAt, c.txns, c.slots, c.waits, c.recov, c.inbox, c.fbLast⟩,
   h.pending, h.free, h.life, h.flash⟩

theorem State.keeps_ctx_cached_dirtyWait (h : r.Keeps κ s) (v37 : Mem) (v42 : List Nat) (v44 : List Nat) (h37 : Memory.wf s.ctx = true → Memory.wf v37 = true) :
    r.Keeps κ { s with ctx := v37, cached := v42, dirtyWait := v44 } :=
  ⟨fun c => let c := h.canon c; ⟨c.seed, c.flash, c.buf, h37 c.ctx, c.tmem, c.tpriv, c.vnode, c.regs, c.applied, c.fns, c.msix, c.pba, c.vnodes, c.queues, c.chains, c.threads, c.sources, c.furrows, c.xfers, c.chans, c.ports, c.ops, c.ophGen, c.ophUse, c.endedAt, c.txns, c.slots, c.waits, c.recov, c.inbox, c.fbLast⟩,
   h.pending, h.free, h.life, h.flash⟩

theorem State.keeps_rate_ptmOpen_ptmFails (h : r.Keeps κ s) (v19 : Int) (v20 : Bool) (v21 : Nat) :
    r.Keeps κ { s with rate := v19, ptmOpen := v20, ptmFails := v21 } :=
  ⟨fun c => let c := h.canon c; ⟨c.seed, c.flash, c.buf, c.ctx, c.tmem, c.tpriv, c.vnode, c.regs, c.applied, c.fns, c.msix, c.pba, c.vnodes, c.queues, c.chains, c.threads, c.sources, c.furrows, c.xfers, c.chans, c.ports, c.ops, c.ophGen, c.ophUse, c.endedAt, c.txns, c.slots, c.waits, c.recov, c.inbox, c.fbLast⟩,
   h.pending, h.free, h.life, h.flash⟩

theorem State.keeps_reads_readWait_fab (h : r.Keeps κ s) (v28 : List ReadReq) (v29 : List FPkt) (v30 : List FPkt) :
    r.Keeps κ { s with reads := v28, readWait := v29, fab := v30 } :=
  ⟨fun c => let c := h.canon c; ⟨c.seed, c.flash, c.buf, c.ctx, c.tmem, c.tpriv, c.vnode, c.regs, c.applied, c.fns, c.msix, c.pba, c.vnodes, c.queues, c.chains, c.threads, c.sources, c.furrows, c.xfers, c.chans, c.ports, c.ops, c.ophGen, c.ophUse, c.endedAt, c.txns, c.slots, c.waits, c.recov, c.inbox, c.fbLast⟩,
   h.pending, h.free, h.life, h.flash⟩

theorem State.keeps_ctx_cached_loading_errs (h : r.Keeps κ s) (v37 : Mem) (v42 : List Nat) (v45 : List Nat) (v81 : List CwErr) (h37 : Memory.wf s.ctx = true → Memory.wf v37 = true) :
    r.Keeps κ { s with ctx := v37, cached := v42, loading := v45, errs := v81 } :=
  ⟨fun c => let c := h.canon c; ⟨c.seed, c.flash, c.buf, h37 c.ctx, c.tmem, c.tpriv, c.vnode, c.regs, c.applied, c.fns, c.msix, c.pba, c.vnodes, c.queues, c.chains, c.threads, c.sources, c.furrows, c.xfers, c.chans, c.ports, c.ops, c.ophGen, c.ophUse, c.endedAt, c.txns, c.slots, c.waits, c.recov, c.inbox, c.fbLast⟩,
   h.pending, h.free, h.life, h.flash⟩

theorem State.keeps_life_hostReady_warnTiming_dack_bscan (h : r.Keeps κ s) (v0 : Life) (v2 : Bool) (v7 : Bool) (v15 : Byte) (v86 : Byte) (hl : κ.life = false) :
    r.Keeps κ { s with life := v0, hostReady := v2, warnTiming := v7, dack := v15, bscan := v86 } :=
  ⟨fun c => let c := h.canon c; ⟨c.seed, c.flash, c.buf, c.ctx, c.tmem, c.tpriv, c.vnode, c.regs, c.applied, c.fns, c.msix, c.pba, c.vnodes, c.queues, c.chains, c.threads, c.sources, c.furrows, c.xfers, c.chans, c.ports, c.ops, c.ophGen, c.ophUse, c.endedAt, c.txns, c.slots, c.waits, c.recov, c.inbox, c.fbLast⟩,
   h.pending, h.free, (fun e => by simp [hl] at e), h.flash⟩

theorem State.keeps_regs_ctx_cached_dirty_dirtyWait_loading (h : r.Keeps κ s) (v22 : SMap Word) (v37 : Mem) (v42 : List Nat) (v43 : List Nat) (v44 : List Nat) (v45 : List Nat) (h22 : SMap.wf regReset s.regs = true → SMap.wf regReset v22 = true) (h37 : Memory.wf s.ctx = true → Memory.wf v37 = true) :
    r.Keeps κ { s with regs := v22, ctx := v37, cached := v42, dirty := v43, dirtyWait := v44, loading := v45 } :=
  ⟨fun c => let c := h.canon c; ⟨c.seed, c.flash, c.buf, h37 c.ctx, c.tmem, c.tpriv, c.vnode, h22 c.regs, c.applied, c.fns, c.msix, c.pba, c.vnodes, c.queues, c.chains, c.threads, c.sources, c.furrows, c.xfers, c.chans, c.ports, c.ops, c.ophGen, c.ophUse, c.endedAt, c.txns, c.slots, c.waits, c.recov, c.inbox, c.fbLast⟩,
   h.pending, h.free, h.life, h.flash⟩

theorem State.keeps_time_queues_txns_recov_jslots_jpos_vstage (h : r.Keeps κ s) (v18 : Nat) (v46 : SMap Queue) (v63 : SMap Txn) (v67 : SMap Nat) (v70 : List JSlot) (v71 : Nat) (v77 : List (Nat × Nat)) (h46 : SMap.wf (fun _ => {}) s.queues = true → SMap.wf (fun _ => {}) v46 = true) (h63 : SMap.wf (fun _ => {}) s.txns = true → SMap.wf (fun _ => {}) v63 = true) (h67 : SMap.wf (fun _ => 0) s.recov = true → SMap.wf (fun _ => 0) v67 = true) :
    r.Keeps κ { s with time := v18, queues := v46, txns := v63, recov := v67, jslots := v70, jpos := v71, vstage := v77 } :=
  ⟨fun c => let c := h.canon c; ⟨c.seed, c.flash, c.buf, c.ctx, c.tmem, c.tpriv, c.vnode, c.regs, c.applied, c.fns, c.msix, c.pba, c.vnodes, h46 c.queues, c.chains, c.threads, c.sources, c.furrows, c.xfers, c.chans, c.ports, c.ops, c.ophGen, c.ophUse, c.endedAt, h63 c.txns, c.slots, c.waits, h67 c.recov, c.inbox, c.fbLast⟩,
   h.pending, h.free, h.life, h.flash⟩

theorem State.keeps_queues_chains_txns_recov_jslots_jpos_ckStart_vstage_vover (h : r.Keeps κ s) (v46 : SMap Queue) (v47 : SMap Chain) (v63 : SMap Txn) (v67 : SMap Nat) (v70 : List JSlot) (v71 : Nat) (v74 : Nat) (v77 : List (Nat × Nat)) (v78 : Bool) (h46 : SMap.wf (fun _ => {}) s.queues = true → SMap.wf (fun _ => {}) v46 = true) (h47 : SMap.wf (fun _ => {}) s.chains = true → SMap.wf (fun _ => {}) v47 = true) (h63 : SMap.wf (fun _ => {}) s.txns = true → SMap.wf (fun _ => {}) v63 = true) (h67 : SMap.wf (fun _ => 0) s.recov = true → SMap.wf (fun _ => 0) v67 = true) :
    r.Keeps κ { s with queues := v46, chains := v47, txns := v63, recov := v67, jslots := v70, jpos := v71, ckStart := v74, vstage := v77, vover := v78 } :=
  ⟨fun c => let c := h.canon c; ⟨c.seed, c.flash, c.buf, c.ctx, c.tmem, c.tpriv, c.vnode, c.regs, c.applied, c.fns, c.msix, c.pba, c.vnodes, h46 c.queues, h47 c.chains, c.threads, c.sources, c.furrows, c.xfers, c.chans, c.ports, c.ops, c.ophGen, c.ophUse, c.endedAt, h63 c.txns, c.slots, c.waits, h67 c.recov, c.inbox, c.fbLast⟩,
   h.pending, h.free, h.life, h.flash⟩

theorem State.keeps_cached_chains_xfers_chans_ops_inbox_slots_waits_resq_jpend_owed_autoWait (h : r.Keeps κ s) (v42 : List Nat) (v47 : SMap Chain) (v53 : SMap (Option Xfer)) (v56 : SMap Chan) (v58 : SMap (Option NOp)) (v59 : SMap (List InFlit)) (v64 : SMap Holder) (v65 : SMap (Option Wait)) (v66 : List ResReq) (v69 : List JRec) (v72 : List JEff) (v73 : List AutoReq) (h47 : SMap.wf (fun _ => {}) s.chains = true → SMap.wf (fun _ => {}) v47 = true) (h53 : SMap.wf (fun _ => none) s.xfers = true → SMap.wf (fun _ => none) v53 = true) (h56 : SMap.wf (fun _ => {}) s.chans = true → SMap.wf (fun _ => {}) v56 = true) (h58 : SMap.wf (fun _ => none) s.ops = true → SMap.wf (fun _ => none) v58 = true) (h59 : SMap.wf (fun _ => []) s.inbox = true → SMap.wf (fun _ => []) v59 = true) (h64 : SMap.wf (fun _ => .none) s.slots = true → SMap.wf (fun _ => .none) v64 = true) (h65 : SMap.wf (fun _ => none) s.waits = true → SMap.wf (fun _ => none) v65 = true) :
    r.Keeps κ { s with cached := v42, chains := v47, xfers := v53, chans := v56, ops := v58, inbox := v59, slots := v64, waits := v65, resq := v66, jpend := v69, owed := v72, autoWait := v73 } :=
  ⟨fun c => let c := h.canon c; ⟨c.seed, c.flash, c.buf, c.ctx, c.tmem, c.tpriv, c.vnode, c.regs, c.applied, c.fns, c.msix, c.pba, c.vnodes, c.queues, h47 c.chains, c.threads, c.sources, c.furrows, h53 c.xfers, h56 c.chans, c.ports, h58 c.ops, c.ophGen, c.ophUse, c.endedAt, c.txns, h64 c.slots, h65 c.waits, c.recov, h59 c.inbox, c.fbLast⟩,
   h.pending, h.free, h.life, h.flash⟩

end Sys2Proof.Machine
end

