-- ==== Sys2Proof/Laws/KOps.lean ====
section
/-! SUPPORT. What the changes of state in Machine/Ops.lean keep. -/

namespace Sys2Proof.Machine

variable {κ : Kept} {ρ : State}

theorem State.setReg_keeps (s : State) (off : Nat) (w : Word) (hκ : ρ.Keeps κ s) :
    ρ.Keeps κ (State.setReg s off w) := by
  unfold State.setReg
  repeat' first
    | intro _
    | with_reducible assumption
    | with_reducible apply SMap.set_wf
    | dsimp only
    | split
    | with_reducible apply State.keeps_regs

theorem State.wf_keeps (s : State) (off lo w x : Nat) (hκ : ρ.Keeps κ s) :
    ρ.Keeps κ (State.wf s off lo w x) := by
  unfold State.wf
  repeat' first
    | intro _
    | with_reducible assumption
    | with_reducible apply State.setReg_keeps

theorem State.wb_keeps (s : State) (off k : Nat) (b : Bool) (hκ : ρ.Keeps κ s) :
    ρ.Keeps κ (State.wb s off k b) := by
  unfold State.wb
  repeat' first
    | intro _
    | with_reducible assumption
    | with_reducible apply State.wf_keeps

theorem State.setApp_keeps (s : State) (off : Nat) (w : Word) (hκ : ρ.Keeps κ s) :
    ρ.Keeps κ (State.setApp s off w) := by
  unfold State.setApp
  repeat' first
    | intro _
    | with_reducible assumption
    | with_reducible apply SMap.set_wf
    | dsimp only
    | split
    | with_reducible apply State.keeps_applied

theorem State.setStatus_keeps (s : State) (off mask : Nat) (hκ : ρ.Keeps κ s) :
    ρ.Keeps κ (State.setStatus s off mask) := by
  unfold State.setStatus
  repeat' first
    | intro _
    | with_reducible assumption
    | with_reducible apply State.setReg_keeps
    | with_reducible apply State.keeps_ite

theorem State.setBit_keeps (s : State) (off k : Nat) (hκ : ρ.Keeps κ s) :
    ρ.Keeps κ (State.setBit s off k) := by
  unfold State.setBit
  repeat' first
    | intro _
    | with_reducible assumption
    | with_reducible apply State.setStatus_keeps

theorem State.set64_keeps (s : State) (off v : Nat) (hκ : ρ.Keeps κ s) :
    ρ.Keeps κ (State.set64 s off v) := by
  unfold State.set64
  repeat' first
    | intro _
    | with_reducible assumption
    | with_reducible apply State.setReg_keeps

theorem State.bump_keeps (s : State) (off : Nat) (n : Nat := 1) (hκ : ρ.Keeps κ s) :
    ρ.Keeps κ (State.bump s off n) := by
  unfold State.bump
  repeat' first
    | intro _
    | with_reducible assumption
    | with_reducible apply State.set64_keeps

theorem State.bumpSat_keeps (s : State) (off : Nat) (n : Nat := 1) (hκ : ρ.Keeps κ s) :
    ρ.Keeps κ (State.bumpSat s off n) := by
  unfold State.bumpSat
  repeat' first
    | intro _
    | with_reducible assumption
    | with_reducible apply State.setReg_keeps

theorem State.setQueue_keeps (s : State) (k : Nat) (v : Queue) (hκ : ρ.Keeps κ s) :
    ρ.Keeps κ (State.setQueue s k v) := by
  unfold State.setQueue
  repeat' first
    | intro _
    | with_reducible assumption
    | with_reducible apply SMap.set_wf
    | dsimp only
    | split
    | with_reducible apply State.keeps_queues

theorem State.modQueue_keeps (s : State) (k : Nat) (f : Queue → Queue) (hκ : ρ.Keeps κ s) :
    ρ.Keeps κ (State.modQueue s k f) := by
  unfold State.modQueue
  repeat' first
    | intro _
    | with_reducible assumption
    | with_reducible apply State.setQueue_keeps

theorem State.setChain_keeps (s : State) (k : Nat) (v : Chain) (hκ : ρ.Keeps κ s) :
    ρ.Keeps κ (State.setChain s k v) := by
  unfold State.setChain
  repeat' first
    | intro _
    | with_reducible assumption
    | with_reducible apply SMap.set_wf
    | dsimp only
    | split
    | with_reducible apply State.keeps_chains

theorem State.modChain_keeps (s : State) (k : Nat) (f : Chain → Chain) (hκ : ρ.Keeps κ s) :
    ρ.Keeps κ (State.modChain s k f) := by
  unfold State.modChain
  repeat' first
    | intro _
    | with_reducible assumption
    | with_reducible apply State.setChain_keeps

theorem State.setThread_keeps (s : State) (k : Nat) (v : Thread) (hκ : ρ.Keeps κ s) :
    ρ.Keeps κ (State.setThread s k v) := by
  unfold State.setThread
  repeat' first
    | intro _
    | with_reducible assumption
    | with_reducible apply SMap.set_wf
    | dsimp only
    | split
    | with_reducible apply State.keeps_threads

theorem State.modThread_keeps (s : State) (k : Nat) (f : Thread → Thread) (hκ : ρ.Keeps κ s) :
    ρ.Keeps κ (State.modThread s k f) := by
  unfold State.modThread
  repeat' first
    | intro _
    | with_reducible assumption
    | with_reducible apply State.setThread_keeps

theorem State.setSrc_keeps (s : State) (k : Nat) (v : Src) (hκ : ρ.Keeps κ s) :
    ρ.Keeps κ (State.setSrc s k v) := by
  unfold State.setSrc
  repeat' first
    | intro _
    | with_reducible assumption
    | with_reducible apply SMap.set_wf
    | dsimp only
    | split
    | with_reducible apply State.keeps_sources

theorem State.modSrc_keeps (s : State) (k : Nat) (f : Src → Src) (hκ : ρ.Keeps κ s) :
    ρ.Keeps κ (State.modSrc s k f) := by
  unfold State.modSrc
  repeat' first
    | intro _
    | with_reducible assumption
    | with_reducible apply State.setSrc_keeps

theorem State.setFurrow_keeps (s : State) (k : Nat) (v : Furrow) (hκ : ρ.Keeps κ s) :
    ρ.Keeps κ (State.setFurrow s k v) := by
  unfold State.setFurrow
  repeat' first
    | intro _
    | with_reducible assumption
    | with_reducible apply SMap.set_wf
    | dsimp only
    | split
    | with_reducible apply State.keeps_furrows

theorem State.modFurrow_keeps (s : State) (k : Nat) (f : Furrow → Furrow) (hκ : ρ.Keeps κ s) :
    ρ.Keeps κ (State.modFurrow s k f) := by
  unfold State.modFurrow
  repeat' first
    | intro _
    | with_reducible assumption
    | with_reducible apply State.setFurrow_keeps

theorem State.setXfer_keeps (s : State) (k : Nat) (v : (Option Xfer)) (hκ : ρ.Keeps κ s) :
    ρ.Keeps κ (State.setXfer s k v) := by
  unfold State.setXfer
  repeat' first
    | intro _
    | with_reducible assumption
    | with_reducible apply SMap.set_wf
    | dsimp only
    | split
    | with_reducible apply State.keeps_xfers

theorem State.setChan_keeps (s : State) (k : Nat) (v : Chan) (hκ : ρ.Keeps κ s) :
    ρ.Keeps κ (State.setChan s k v) := by
  unfold State.setChan
  repeat' first
    | intro _
    | with_reducible assumption
    | with_reducible apply SMap.set_wf
    | dsimp only
    | split
    | with_reducible apply State.keeps_chans

theorem State.modChan_keeps (s : State) (k : Nat) (f : Chan → Chan) (hκ : ρ.Keeps κ s) :
    ρ.Keeps κ (State.modChan s k f) := by
  unfold State.modChan
  repeat' first
    | intro _
    | with_reducible assumption
    | with_reducible apply State.setChan_keeps

theorem State.setPort_keeps (s : State) (k : Nat) (v : Port) (hκ : ρ.Keeps κ s) :
    ρ.Keeps κ (State.setPort s k v) := by
  unfold State.setPort
  repeat' first
    | intro _
    | with_reducible assumption
    | with_reducible apply SMap.set_wf
    | dsimp only
    | split
    | with_reducible apply State.keeps_ports

theorem State.modPort_keeps (s : State) (k : Nat) (f : Port → Port) (hκ : ρ.Keeps κ s) :
    ρ.Keeps κ (State.modPort s k f) := by
  unfold State.modPort
  repeat' first
    | intro _
    | with_reducible assumption
    | with_reducible apply State.setPort_keeps

theorem State.setOp_keeps (s : State) (k : Nat) (v : (Option NOp)) (hκ : ρ.Keeps κ s) :
    ρ.Keeps κ (State.setOp s k v) := by
  unfold State.setOp
  repeat' first
    | intro _
    | with_reducible assumption
    | with_reducible apply SMap.set_wf
    | dsimp only
    | split
    | with_reducible apply State.keeps_ops

theorem State.setTxn_keeps (s : State) (k : Nat) (v : Txn) (hκ : ρ.Keeps κ s) :
    ρ.Keeps κ (State.setTxn s k v) := by
  unfold State.setTxn
  repeat' first
    | intro _
    | with_reducible assumption
    | with_reducible apply SMap.set_wf
    | dsimp only
    | split
    | with_reducible apply State.keeps_txns

theorem State.modTxn_keeps (s : State) (k : Nat) (f : Txn → Txn) (hκ : ρ.Keeps κ s) :
    ρ.Keeps κ (State.modTxn s k f) := by
  unfold State.modTxn
  repeat' first
    | intro _
    | with_reducible assumption
    | with_reducible apply State.setTxn_keeps

theorem State.setHolder_keeps (s : State) (k : Nat) (v : Holder) (hκ : ρ.Keeps κ s) :
    ρ.Keeps κ (State.setHolder s k v) := by
  unfold State.setHolder
  repeat' first
    | intro _
    | with_reducible assumption
    | with_reducible apply SMap.set_wf
    | dsimp only
    | split
    | with_reducible apply State.keeps_slots

theorem State.setWait_keeps (s : State) (k : Nat) (v : (Option Wait)) (hκ : ρ.Keeps κ s) :
    ρ.Keeps κ (State.setWait s k v) := by
  unfold State.setWait
  repeat' first
    | intro _
    | with_reducible assumption
    | with_reducible apply SMap.set_wf
    | dsimp only
    | split
    | with_reducible apply State.keeps_waits

theorem State.setFnc_keeps (s : State) (k : Nat) (v : FnCfg) (hκ : ρ.Keeps κ s) :
    ρ.Keeps κ (State.setFnc s k v) := by
  unfold State.setFnc
  repeat' first
    | intro _
    | with_reducible assumption
    | with_reducible apply SMap.set_wf
    | dsimp only
    | split
    | with_reducible apply State.keeps_fns

theorem State.modFnc_keeps (s : State) (k : Nat) (f : FnCfg → FnCfg) (hκ : ρ.Keeps κ s) :
    ρ.Keeps κ (State.modFnc s k f) := by
  unfold State.modFnc
  repeat' first
    | intro _
    | with_reducible assumption
    | with_reducible apply State.setFnc_keeps

theorem State.setVec_keeps (s : State) (k : Nat) (v : MsixEntry) (hκ : ρ.Keeps κ s) :
    ρ.Keeps κ (State.setVec s k v) := by
  unfold State.setVec
  repeat' first
    | intro _
    | with_reducible assumption
    | with_reducible apply SMap.set_wf
    | dsimp only
    | split
    | with_reducible apply State.keeps_msix

theorem State.modVec_keeps (s : State) (k : Nat) (f : MsixEntry → MsixEntry) (hκ : ρ.Keeps κ s) :
    ρ.Keeps κ (State.modVec s k f) := by
  unfold State.modVec
  repeat' first
    | intro _
    | with_reducible assumption
    | with_reducible apply State.setVec_keeps

theorem State.setPbit_keeps (s : State) (k : Nat) (v : Bool) (hκ : ρ.Keeps κ s) :
    ρ.Keeps κ (State.setPbit s k v) := by
  unfold State.setPbit
  repeat' first
    | intro _
    | with_reducible assumption
    | with_reducible apply SMap.set_wf
    | dsimp only
    | split
    | with_reducible apply State.keeps_pba

theorem State.tick_keeps (s : State) (hκ : ρ.Keeps κ s) :
    ρ.Keeps κ (State.tick s) := by
  exact State.keeps_freeCtr hκ _ (Nat.le_succ _)

theorem State.owe_keeps (s : State) (d : Due) (hκ : ρ.Keeps κ s) :
    ρ.Keeps κ (State.owe s d) := by
  unfold State.owe
  repeat' first
    | intro _
    | with_reducible assumption
    | dsimp only
    | split
    | with_reducible apply State.keeps_due

theorem State.metErr_keeps (s : State) (r : MemRegion) (idx w : Nat) (hκ : ρ.Keeps κ s) :
    ρ.Keeps κ (State.metErr s r idx w) := by
  unfold State.metErr
  repeat' first
    | intro _
    | with_reducible assumption
    | with_reducible apply State.owe_keeps
    | with_reducible apply State.keeps_ite

theorem State.cwClear_keeps (s : State) (r : MemRegion) (idx : Nat) (hκ : ρ.Keeps κ s) :
    ρ.Keeps κ (State.cwClear s r idx) := by
  unfold State.cwClear
  repeat' first
    | intro _
    | with_reducible assumption
    | with_reducible apply Mem.filter_wf
    | with_reducible apply SMap.filter_wf
    | dsimp only
    | split
    | with_reducible apply State.keeps_errs

theorem State.cwPoison_keeps (s : State) (r : MemRegion) (idx : Nat) (hκ : ρ.Keeps κ s) :
    ρ.Keeps κ (State.cwPoison s r idx) := by
  unfold State.cwPoison
  repeat' first
    | intro _
    | with_reducible assumption
    | with_reducible apply State.keeps_ite
    | with_reducible apply okeeps_ite
    | dsimp only
    | split
    | with_reducible apply State.keeps_errs

theorem State.cwStore_keeps (r : MemRegion) (idx : Nat → Nat) (wr : Nat → Bytes → State → State) (a : Nat) (b : Bytes) (s : State)
    (hκ : ρ.Keeps κ s) (hw : ∀ a b s, ρ.Keeps κ s → ρ.Keeps κ (wr a b s)) : ρ.Keeps κ (State.cwStore r idx wr a b s) := by
  unfold State.cwStore
  refine State.keeps_ite (hw _ _ _ hκ) (State.keeps_fold (fun s p h => ?_) _ hκ)
  dsimp only
  exact State.keeps_ite (hw _ _ _ h) (State.keeps_ite (State.cwClear_keeps _ _ _ (hw _ _ _ h))
    (State.keeps_ite (State.metErr_keeps _ _ _ _ (State.cwClear_keeps _ _ _ (hw _ _ _ h)))
      (State.metErr_keeps _ _ _ _ (State.cwPoison_keeps _ _ _ h))))

theorem State.bufPut_keeps (s : State) (a : Nat) (b : Bytes) (hκ : ρ.Keeps κ s) :
    ρ.Keeps κ (State.bufPut s a b) := by
  unfold State.bufPut
  repeat' first
    | intro _
    | with_reducible assumption
    | with_reducible apply State.cwStore_keeps
    | with_reducible apply Mem.wrN_wf
    | dsimp only
    | split
    | with_reducible apply State.keeps_buf

theorem State.tmemPut_keeps (s : State) (a : Nat) (b : Bytes) (hκ : ρ.Keeps κ s) :
    ρ.Keeps κ (State.tmemPut s a b) := by
  unfold State.tmemPut
  repeat' first
    | intro _
    | with_reducible assumption
    | with_reducible apply State.cwStore_keeps
    | with_reducible apply Mem.wrN_wf
    | dsimp only
    | split
    | with_reducible apply State.keeps_tmem

theorem State.addErr_keeps (s : State) (region : MemRegion) (idx burst : Nat) (hκ : ρ.Keeps κ s) :
    ρ.Keeps κ (State.addErr s region idx burst) := by
  unfold State.addErr
  repeat' first
    | intro _
    | with_reducible assumption
    | dsimp only
    | split
    | with_reducible apply State.keeps_errs

theorem State.injDone_keeps (s : State) (hκ : ρ.Keeps κ s) :
    ρ.Keeps κ (State.injDone s) := by
  unfold State.injDone
  repeat' first
    | intro _
    | with_reducible assumption
    | with_reducible apply State.wb_keeps
    | with_reducible apply State.setBit_keeps

theorem State.useCtx_keeps (s : State) (sc : Nat) (hκ : ρ.Keeps κ s) :
    ρ.Keeps κ (State.useCtx s sc) := by
  unfold State.useCtx
  repeat' first
    | intro _
    | with_reducible assumption
    | dsimp only
    | split
    | with_reducible apply State.keeps_cached

theorem State.touch_keeps (s : State) (sc : Nat) (hκ : ρ.Keeps κ s) :
    ρ.Keeps κ (State.touch s sc) := by
  unfold State.touch
  repeat' first
    | intro _
    | with_reducible assumption
    | with_reducible apply State.wf_keeps
    | with_reducible apply State.useCtx_keeps
    | with_reducible apply State.keeps_ite
    | with_reducible apply okeeps_ite
    | dsimp only
    | split
    | with_reducible apply State.keeps_dirty
    | with_reducible apply State.keeps_dirtyWait

theorem State.cxRaw_keeps (s : State) (sc off : Nat) (b : Bytes) (hκ : ρ.Keeps κ s) :
    ρ.Keeps κ (State.cxRaw s sc off b) := by
  unfold State.cxRaw
  repeat' first
    | intro _
    | with_reducible assumption
    | with_reducible apply State.touch_keeps
    | with_reducible apply Mem.wrN_wf
    | dsimp only
    | split
    | with_reducible apply State.keeps_ctx

theorem State.cxPut_keeps (s : State) (sc off : Nat) (b : Bytes) (hκ : ρ.Keeps κ s) :
    ρ.Keeps κ (State.cxPut s sc off b) := by
  unfold State.cxPut
  repeat' first
    | intro _
    | with_reducible assumption
    | with_reducible apply State.cwStore_keeps
    | with_reducible apply State.touch_keeps
    | with_reducible apply Mem.wrN_wf
    | dsimp only
    | split
    | with_reducible apply State.keeps_ctx

theorem State.cxSet_keeps (s : State) (sc off n v : Nat) (hκ : ρ.Keeps κ s) :
    ρ.Keeps κ (State.cxSet s sc off n v) := by
  unfold State.cxSet
  repeat' first
    | intro _
    | with_reducible assumption
    | with_reducible apply State.cxPut_keeps

theorem State.setCxFlag_keeps (s : State) (sc k : Nat) (b : Bool) (hκ : ρ.Keeps κ s) :
    ρ.Keeps κ (State.setCxFlag s sc k b) := by
  unfold State.setCxFlag
  repeat' first
    | intro _
    | with_reducible assumption
    | with_reducible apply State.cxSet_keeps

theorem State.setScState_keeps (s : State) (sc st : Nat) (hκ : ρ.Keeps κ s) :
    ρ.Keeps κ (State.setScState s sc st) := by
  unfold State.setScState
  repeat' first
    | intro _
    | with_reducible assumption
    | with_reducible apply State.cxSet_keeps

end Sys2Proof.Machine
end

