-- ==== Sys2Proof/Laws/KSwitch.lean ====
section
/-! SUPPORT. What the changes of state in Machine/Switch.lean keep. -/

namespace Sys2Proof.Machine

variable {κ : Kept} {ρ : State}

theorem State.dropTx_keeps (s : State) (p : Nat) (t : Flit → Bool) (hκ : ρ.Keeps κ s) :
    ρ.Keeps κ (State.dropTx s p t) := by
  unfold State.dropTx
  repeat' first
    | intro _
    | with_reducible assumption
    | with_reducible apply State.modPort_keeps
    | with_reducible apply Mem.filter_wf
    | with_reducible apply SMap.filter_wf
    | dsimp only
    | split
    | with_reducible apply State.keeps_fab

theorem State.setFbWait_keeps (s : State) (o r v : Nat) (hκ : ρ.Keeps κ s) :
    ρ.Keeps κ (State.setFbWait s o r v) := by
  unfold State.setFbWait
  repeat' first
    | intro _
    | with_reducible assumption
    | with_reducible apply State.wf_keeps
    | with_reducible apply State.keeps_ite

theorem State.fabDecide_keeps (s : State) (o : Nat) (e : List Nat) (w : Nat) (forced : Bool) (hκ : ρ.Keeps κ s) :
    ρ.Keeps κ (State.fabDecide s o e w forced) := by
  unfold State.fabDecide
  repeat' first
    | intro _
    | with_reducible assumption
    | with_reducible apply State.bump_keeps
    | with_reducible apply State.modFurrow_keeps
    | with_reducible apply State.setFbWait_keeps
    | with_reducible apply State.keeps_ite
    | with_reducible apply okeeps_ite
    | with_reducible apply State.keeps_fold
    | with_reducible apply SMap.set_wf
    | dsimp only
    | split
    | with_reducible apply State.keeps_fbLast

theorem State.dropPkts_keeps (s : State) (t n : Nat) (hκ : ρ.Keeps κ s) :
    ρ.Keeps κ (State.dropPkts s t n) := by
  unfold State.dropPkts
  repeat' first
    | intro _
    | with_reducible assumption
    | with_reducible apply State.setBit_keeps
    | with_reducible apply State.bumpSat_keeps
    | with_reducible apply State.keeps_ite

theorem State.furrowPass_keeps (s : State) (f : Nat) (hκ : ρ.Keeps κ s) : ρ.Keeps κ (State.furrowPass s f).1 := by
  unfold State.furrowPass
  repeat' first
    | intro _
    | with_reducible assumption
    | with_reducible apply State.setBit_keeps
    | with_reducible apply State.bump_keeps
    | with_reducible apply State.bumpSat_keeps
    | with_reducible apply State.metErr_keeps
    | with_reducible apply State.injDone_keeps
    | with_reducible apply State.keeps_ite
    | with_reducible apply State.keeps_elim
    | with_reducible apply State.keeps_fold
    | with_reducible apply SMap.set_wf
    | with_reducible apply Mem.filter_wf
    | with_reducible apply SMap.filter_wf
    | with_reducible apply Mem.wrN_wf
    | with_reducible apply Mem.setLe_wf
    | with_reducible apply Mem.drop_wf
    | with_reducible apply Mem.copyRange_wf
    | dsimp only
    | split

theorem State.hostIn_keeps (s : State) (err : RdErr) (hκ : ρ.Keeps κ s) : ρ.Keeps κ (State.hostIn s err).1 := by
  unfold State.hostIn
  repeat' first
    | intro _
    | with_reducible assumption
    | with_reducible apply State.setBit_keeps
    | with_reducible apply State.bump_keeps
    | with_reducible apply State.furrowPass_keeps
    | with_reducible apply State.keeps_ite
    | with_reducible apply State.keeps_elim
    | with_reducible apply State.keeps_fold
    | with_reducible apply SMap.set_wf
    | with_reducible apply Mem.filter_wf
    | with_reducible apply SMap.filter_wf
    | with_reducible apply Mem.wrN_wf
    | with_reducible apply Mem.setLe_wf
    | with_reducible apply Mem.drop_wf
    | with_reducible apply Mem.copyRange_wf
    | dsimp only
    | split

theorem State.tlpOut_keeps (s : State) (t : Tlp) (r : Option ReadReq) (hκ : ρ.Keeps κ s) :
    ρ.Keeps κ (State.tlpOut s t r) := by
  unfold State.tlpOut
  repeat' first
    | intro _
    | with_reducible assumption
    | with_reducible apply State.furrowPass_keeps
    | with_reducible apply State.keeps_ite
    | with_reducible apply okeeps_ite
    | dsimp only
    | split
    | refine State.Keeps.of_pair ?_ (by assumption)
    | with_reducible apply State.keeps_hostOut_reads

theorem State.flitOut_keeps (s : State) (p : Nat) (f : Flit) (hκ : ρ.Keeps κ s) :
    ρ.Keeps κ (State.flitOut s p f) := by
  unfold State.flitOut
  repeat' first
    | intro _
    | with_reducible assumption
    | with_reducible apply State.modPort_keeps
    | with_reducible apply State.injDone_keeps
    | with_reducible apply State.keeps_ite

theorem State.pktIn_keeps (s : State) (t : Nat) (bd : Binding) (p : Pkt) (hκ : ρ.Keeps κ s) :
    ρ.Keeps κ (State.pktIn s t bd p) := by
  unfold State.pktIn
  repeat' first
    | intro _
    | with_reducible assumption
    | with_reducible apply State.bumpSat_keeps
    | with_reducible apply State.modThread_keeps
    | with_reducible apply State.metErr_keeps
    | with_reducible apply State.injDone_keeps
    | with_reducible apply State.dropPkts_keeps
    | with_reducible apply State.keeps_ite

theorem State.arrived_keeps (s : State) (k : FPkt) (hκ : ρ.Keeps κ s) :
    ρ.Keeps κ (State.arrived s k) := by
  unfold State.arrived
  repeat' first
    | intro _
    | with_reducible assumption
    | with_reducible apply State.tlpOut_keeps
    | with_reducible apply State.flitOut_keeps
    | with_reducible apply State.pktIn_keeps
    | dsimp only
    | split

theorem State.fabRun_keeps (o : Nat) : ∀ (n : Nat) (s : State) (_ : ρ.Keeps κ s),
    ρ.Keeps κ (State.fabRun o n s) := by
  intro n
  induction n with
  | zero =>
    intro s h
    unfold State.fabRun
    repeat' first
      | intro _
      | with_reducible assumption
  | succ n ih =>
    intro s h
    unfold State.fabRun
    repeat' first
      | intro _
      | with_reducible assumption
      | with_reducible apply ih
      | with_reducible apply State.fabDecide_keeps
      | with_reducible apply State.arrived_keeps
      | with_reducible apply State.moved_keeps
      | with_reducible apply State.keeps_ite
      | with_reducible apply State.keeps_elim
      | with_reducible apply State.keeps_fold
      | with_reducible apply SMap.set_wf
      | with_reducible apply Mem.filter_wf
      | with_reducible apply SMap.filter_wf
      | with_reducible apply Mem.wrN_wf
      | with_reducible apply Mem.setLe_wf
      | with_reducible apply Mem.drop_wf
      | with_reducible apply Mem.copyRange_wf
      | dsimp only
      | (split <;> try cases ‹_ + 1 = Nat.succ _›)
      | with_reducible apply State.keeps_fab

theorem State.fabTo_keeps (s : State) (o : Nat) (hκ : ρ.Keeps κ s) :
    ρ.Keeps κ (State.fabTo s o) := by
  unfold State.fabTo
  repeat' first
    | intro _
    | with_reducible assumption
    | with_reducible apply State.fabRun_keeps

theorem State.fabAll_keeps (s : State) (hκ : ρ.Keeps κ s) :
    ρ.Keeps κ (State.fabAll s) := by
  unfold State.fabAll
  repeat' first
    | intro _
    | with_reducible assumption
    | with_reducible apply State.fabTo_keeps
    | with_reducible apply State.keeps_ite
    | with_reducible apply okeeps_ite
    | with_reducible apply State.keeps_fold

theorem State.offer_keeps (s : State) (k : FPkt) (hκ : ρ.Keeps κ s) :
    ρ.Keeps κ (State.offer s k) := by
  unfold State.offer
  repeat' first
    | intro _
    | with_reducible assumption
    | with_reducible apply State.fabTo_keeps
    | dsimp only
    | split
    | with_reducible apply State.keeps_fab

theorem State.queueFlit_keeps (s : State) (p : Nat) (f : Flit) (src : Nat := 11) (x : Option Nat := none) (hκ : ρ.Keeps κ s) :
    ρ.Keeps κ (State.queueFlit s p f src x) := by
  unfold State.queueFlit
  repeat' first
    | intro _
    | with_reducible assumption
    | with_reducible apply State.offer_keeps

theorem State.pushPkt_keeps (s : State) (t : Nat) (p : Pkt) (src : Nat) (x : Option Nat := none) (hκ : ρ.Keeps κ s) :
    ρ.Keeps κ (State.pushPkt s t p src x) := by
  unfold State.pushPkt
  repeat' first
    | intro _
    | with_reducible assumption
    | with_reducible apply State.offer_keeps

theorem State.hostWrite_keeps (s : State) (fn addr : Nat) (b : Bytes) (data : Bool := false) (src : Nat := 11) (x : Option Nat := none) (hκ : ρ.Keeps κ s) :
    ρ.Keeps κ (State.hostWrite s fn addr b data src x) := by
  unfold State.hostWrite
  repeat' first
    | intro _
    | with_reducible assumption
    | with_reducible apply State.offer_keeps

theorem State.hostRead_keeps (s : State) (fn addr len : Nat) (why : ReadFor) (data : Bool := false) (src : Nat := 11) (hκ : ρ.Keeps κ s) :
    ρ.Keeps κ (State.hostRead s fn addr len why data src) := by
  unfold State.hostRead
  repeat' first
    | intro _
    | with_reducible assumption
    | with_reducible apply State.offer_keeps
    | with_reducible apply State.keeps_ite
    | with_reducible apply okeeps_ite
    | dsimp only
    | split
    | with_reducible apply State.keeps_readWait

theorem State.readGo_keeps  : ∀ (n : Nat) (s : State) (_ : ρ.Keeps κ s),
    ρ.Keeps κ (State.readGo  n s) := by
  intro n
  induction n with
  | zero =>
    intro s h
    unfold State.readGo
    repeat' first
      | intro _
      | with_reducible assumption
  | succ n ih =>
    intro s h
    unfold State.readGo
    repeat' first
      | intro _
      | with_reducible assumption
      | with_reducible apply ih
      | with_reducible apply State.offer_keeps
      | with_reducible apply State.keeps_ite
      | with_reducible apply State.keeps_elim
      | with_reducible apply State.keeps_fold
      | with_reducible apply SMap.set_wf
      | with_reducible apply Mem.filter_wf
      | with_reducible apply SMap.filter_wf
      | with_reducible apply Mem.wrN_wf
      | with_reducible apply Mem.setLe_wf
      | with_reducible apply Mem.drop_wf
      | with_reducible apply Mem.copyRange_wf
      | dsimp only
      | (split <;> try cases ‹_ + 1 = Nat.succ _›)
      | with_reducible apply State.keeps_readWait

theorem State.message_keeps (s : State) (fn vec : Nat) (pr : Bool := false) (hκ : ρ.Keeps κ s) :
    ρ.Keeps κ (State.message s fn vec pr) := by
  unfold State.message
  repeat' first
    | intro _
    | with_reducible assumption
    | with_reducible apply State.bump_keeps
    | with_reducible apply State.setPbit_keeps
    | with_reducible apply State.hostWrite_keeps
    | with_reducible apply State.keeps_ite

theorem State.sendPending_keeps (s : State) (fn vec : Nat) (hκ : ρ.Keeps κ s) :
    ρ.Keeps κ (State.sendPending s fn vec) := by
  unfold State.sendPending
  repeat' first
    | intro _
    | with_reducible assumption
    | with_reducible apply State.bump_keeps
    | with_reducible apply State.setPbit_keeps
    | with_reducible apply State.hostWrite_keeps
    | with_reducible apply State.keeps_ite

theorem State.sendPendings_keeps (s : State) (fn : Nat) (hκ : ρ.Keeps κ s) :
    ρ.Keeps κ (State.sendPendings s fn) := by
  unfold State.sendPendings
  repeat' first
    | intro _
    | with_reducible assumption
    | with_reducible apply State.sendPending_keeps
    | with_reducible apply State.keeps_ite
    | with_reducible apply okeeps_ite
    | with_reducible apply State.keeps_fold

end Sys2Proof.Machine
end

