-- ==== Sys2Proof/Laws/KFaults.lean ====
section
/-! SUPPORT. What the changes of state in Machine/Faults.lean keep. -/

namespace Sys2Proof.Machine

variable {κ : Kept} {ρ : State}

theorem State.setSrcSt_keeps (s : State) (k st : Nat) (hκ : ρ.Keeps κ s) :
    ρ.Keeps κ (State.setSrcSt s k st) := by
  unfold State.setSrcSt
  repeat' first
    | intro _
    | with_reducible assumption
    | with_reducible apply State.wf_keeps
    | with_reducible apply State.modSrc_keeps
    | with_reducible apply State.keeps_ite
    | with_reducible apply okeeps_ite
    | dsimp only
    | split
    | with_reducible apply State.keeps_stamp

theorem State.srcNow_keeps (s : State) (k : Nat) (hκ : ρ.Keeps κ s) :
    ρ.Keeps κ (State.srcNow s k) := by
  unfold State.srcNow
  repeat' first
    | intro _
    | with_reducible assumption
    | with_reducible apply State.modSrc_keeps

theorem State.merged_keeps (s : State) (hκ : ρ.Keeps κ s) :
    ρ.Keeps κ (State.merged s) := by
  unfold State.merged
  repeat' first
    | intro _
    | with_reducible assumption
    | with_reducible apply State.setBit_keeps
    | with_reducible apply State.bump_keeps

theorem State.srcMsg_keeps (s : State) (k : Nat) (hκ : ρ.Keeps κ s) :
    ρ.Keeps κ (State.srcMsg s k) := by
  unfold State.srcMsg
  repeat' first
    | intro _
    | with_reducible assumption
    | with_reducible apply State.message_keeps
    | with_reducible apply State.keeps_ite

theorem State.srcEvent_keeps (s : State) (k : Nat) (hκ : ρ.Keeps κ s) :
    ρ.Keeps κ (State.srcEvent s k) := by
  unfold State.srcEvent
  repeat' first
    | intro _
    | with_reducible assumption
    | with_reducible apply State.setSrcSt_keeps
    | with_reducible apply State.srcNow_keeps
    | with_reducible apply State.merged_keeps
    | with_reducible apply State.srcMsg_keeps
    | with_reducible apply State.keeps_ite
    | with_reducible apply okeeps_ite
    | dsimp only
    | split

theorem State.srcRecord_keeps (s : State) (k : Nat) (b : Bool) (hκ : ρ.Keeps κ s) :
    ρ.Keeps κ (State.srcRecord s k b) := by
  unfold State.srcRecord
  repeat' first
    | intro _
    | with_reducible assumption
    | with_reducible apply Mem.setLe_wf
    | dsimp only
    | split
    | with_reducible apply State.keeps_tpriv

theorem State.srcLevel_keeps (s : State) (k : Nat) (b : Bool) (hκ : ρ.Keeps κ s) :
    ρ.Keeps κ (State.srcLevel s k b) := by
  unfold State.srcLevel
  repeat' first
    | intro _
    | with_reducible assumption
    | with_reducible apply State.modSrc_keeps
    | with_reducible apply State.setSrcSt_keeps
    | with_reducible apply State.srcMsg_keeps
    | with_reducible apply State.srcRecord_keeps
    | with_reducible apply State.keeps_ite
    | with_reducible apply okeeps_ite
    | dsimp only
    | split

theorem State.record_keeps (s : State) (n : Nat) (hκ : ρ.Keeps κ s) :
    ρ.Keeps κ (State.record s n) := by
  unfold State.record
  repeat' first
    | intro _
    | with_reducible assumption
    | with_reducible apply State.setReg_keeps
    | with_reducible apply State.setBit_keeps
    | with_reducible apply State.set64_keeps
    | with_reducible apply State.message_keeps
    | with_reducible apply State.keeps_ite

theorem State.linkDown_keeps (s : State) (p : Nat) (hκ : ρ.Keeps κ s) :
    ρ.Keeps κ (State.linkDown s p) := by
  unfold State.linkDown
  repeat' first
    | intro _
    | with_reducible assumption
    | with_reducible apply State.wf_keeps
    | with_reducible apply State.modPort_keeps
    | with_reducible apply State.dropTx_keeps
    | with_reducible apply State.keeps_ite
    | with_reducible apply okeeps_ite
    | with_reducible apply Mem.filter_wf
    | with_reducible apply SMap.filter_wf
    | with_reducible apply Mem.drop_wf
    | dsimp only
    | split
    | with_reducible apply State.keeps_inbox

theorem State.linkUp_keeps (s : State) (hκ : ρ.Keeps κ s) :
    ρ.Keeps κ (State.linkUp s) := by
  unfold State.linkUp
  repeat' first
    | intro _
    | with_reducible assumption
    | with_reducible apply State.setReg_keeps
    | with_reducible apply State.tick_keeps
    | with_reducible apply State.keeps_ite
    | dsimp only

theorem State.lbStop_keeps (s : State) (i : Nat) (hκ : ρ.Keeps κ s) :
    ρ.Keeps κ (State.lbStop s i) := by
  unfold State.lbStop
  repeat' first
    | intro _
    | with_reducible assumption
    | with_reducible apply State.linkUp_keeps
    | with_reducible apply State.wf_keeps
    | with_reducible apply State.setBit_keeps
    | with_reducible apply State.keeps_ite
    | with_reducible apply okeeps_ite
    | with_reducible apply SMap.set_wf
    | with_reducible apply Mem.drop_wf
    | dsimp only
    | split
    | with_reducible apply State.keeps_vnode_vnodes

theorem State.enterSafe_keeps (s : State) (n : Nat) (hκ : ρ.Keeps κ s) :
    ρ.Keeps κ (State.enterSafe s n) := by
  unfold State.enterSafe
  repeat' first
    | intro _
    | with_reducible assumption
    | with_reducible apply State.setReg_keeps
    | with_reducible apply State.wb_keeps
    | with_reducible apply State.set64_keeps
    | with_reducible apply State.linkDown_keeps
    | with_reducible apply State.lbStop_keeps
    | with_reducible apply State.keeps_ite
    | with_reducible apply okeeps_ite
    | with_reducible apply State.keeps_fold

end Sys2Proof.Machine
end

