-- ==== Sys2Proof/Laws/KJournal.lean ====
section
/-! SUPPORT. What the changes of state in Machine/Journal.lean keep. -/

namespace Sys2Proof.Machine

variable {κ : Kept} {ρ : State}

theorem State.mirrorGo_keeps (copy : Bool) : ∀ (n : Nat) (v1 : List (Nat × Bytes)) (s : State) (_ : ρ.Keeps κ s),
    ρ.Keeps κ (State.mirrorGo copy n v1 s) := by
  intro n
  induction n with
  | zero =>
    intro v1 s h
    unfold State.mirrorGo
    repeat' first
      | intro _
      | with_reducible assumption
  | succ n ih =>
    intro v1 s h
    unfold State.mirrorGo
    repeat' first
      | intro _
      | with_reducible assumption
      | with_reducible apply ih
      | with_reducible apply State.wf_keeps
      | with_reducible apply State.bump_keeps
      | with_reducible apply State.queueFlit_keeps
      | with_reducible apply State.mirror_keeps
      | with_reducible apply State.keeps_ite
      | with_reducible apply State.keeps_elim
      | with_reducible apply State.keeps_fold
      | with_reducible apply SMap.set_wf
      | with_reducible apply Mem.filter_wf
      | with_reducible apply SMap.filter_wf
      | with_reducible apply Mem.wrN_wf
      | with_reducible apply Mem.setLe_wf
      | with_reducible apply Mem.drop_wf
      | with_reducible apply Mem.copyRange_wf
      | dsimp only
      | (split <;> try cases ‹_ + 1 = Nat.succ _›)
      | with_reducible apply State.keeps_pair

theorem State.mirror_keeps (s : State) (bs : List (Nat × Bytes)) (hκ : ρ.Keeps κ s) :
    ρ.Keeps κ (State.mirror s bs) := by
  unfold State.mirror
  repeat' first
    | intro _
    | with_reducible assumption
    | with_reducible apply State.mirrorGo_keeps
    | with_reducible apply State.keeps_ite

theorem State.seedWr_keeps (s : State) (a : Nat) (b : Bytes) (hκ : ρ.Keeps κ s) :
    ρ.Keeps κ (State.seedWr s a b) := by
  unfold State.seedWr
  repeat' first
    | intro _
    | with_reducible assumption
    | with_reducible apply State.mirror_keeps
    | with_reducible apply State.keeps_ite
    | with_reducible apply okeeps_ite
    | with_reducible apply Mem.wrN_wf
    | dsimp only
    | split
    | with_reducible apply State.keeps_seed

theorem State.seedPut_keeps (s : State) (a : Nat) (b : Bytes) (hκ : ρ.Keeps κ s) :
    ρ.Keeps κ (State.seedPut s a b) := by
  unfold State.seedPut
  repeat' first
    | intro _
    | with_reducible assumption
    | with_reducible apply State.cwStore_keeps
    | with_reducible apply State.addErr_keeps
    | with_reducible apply State.injDone_keeps
    | with_reducible apply State.seedWr_keeps
    | with_reducible apply State.keeps_ite
    | with_reducible apply okeeps_ite
    | dsimp only
    | split

theorem State.ntPut_keeps (s : State) (node off : Nat) (b : Bytes) (hκ : ρ.Keeps κ s) :
    ρ.Keeps κ (State.ntPut s node off b) := by
  unfold State.ntPut
  repeat' first
    | intro _
    | with_reducible assumption
    | with_reducible apply State.cwStore_keeps
    | with_reducible apply State.mirror_keeps
    | with_reducible apply State.keeps_ite
    | with_reducible apply okeeps_ite
    | with_reducible apply Mem.wrN_wf
    | dsimp only
    | split
    | with_reducible apply State.keeps_seed

theorem State.ntSet_keeps (s : State) (node off n v : Nat) (hκ : ρ.Keeps κ s) :
    ρ.Keeps κ (State.ntSet s node off n v) := by
  unfold State.ntSet
  repeat' first
    | intro _
    | with_reducible assumption
    | with_reducible apply State.ntPut_keeps

theorem State.jCounts_keeps (s : State) (hκ : ρ.Keeps κ s) :
    ρ.Keeps κ (State.jCounts s) := by
  unfold State.jCounts
  repeat' first
    | intro _
    | with_reducible assumption
    | with_reducible apply State.wf_keeps

theorem State.jAssign1_keeps (s : State) (r : JRec) (hκ : ρ.Keeps κ s) : ρ.Keeps κ (State.jAssign1 s r).1 := by
  unfold State.jAssign1
  repeat' first
    | intro _
    | with_reducible assumption
    | with_reducible apply State.set64_keeps
    | with_reducible apply State.bump_keeps
    | with_reducible apply State.mirror_keeps
    | with_reducible apply State.jCounts_keeps
    | with_reducible apply State.keeps_ite
    | with_reducible apply State.keeps_elim
    | with_reducible apply State.keeps_fold
    | with_reducible apply SMap.set_wf
    | with_reducible apply Mem.filter_wf
    | with_reducible apply SMap.filter_wf
    | with_reducible apply Mem.wrN_wf
    | with_reducible apply Mem.setLe_wf
    | with_reducible apply Mem.drop_wf
    | with_reducible apply Mem.copyRange_wf
    | dsimp only
    | split
    | with_reducible apply State.keeps_jslots_jpos

theorem State.jAssign_keeps  : ∀ (n : List JRec) (v1 : List JRec) (s : State) (_ : ρ.Keeps κ s),
    ρ.Keeps κ (State.jAssign  n v1 s) := by
  intro n
  induction n with
  | nil =>
    intro v1 s h
    unfold State.jAssign
    repeat' first
      | intro _
      | with_reducible assumption
      | with_reducible apply State.setBit_keeps
      | with_reducible apply State.slot_keeps
      | with_reducible apply State.jAssign1_keeps
      | with_reducible apply State.keeps_ite
      | with_reducible apply State.keeps_elim
      | with_reducible apply State.keeps_fold
      | with_reducible apply SMap.set_wf
      | with_reducible apply Mem.filter_wf
      | with_reducible apply SMap.filter_wf
      | with_reducible apply Mem.wrN_wf
      | with_reducible apply Mem.setLe_wf
      | with_reducible apply Mem.drop_wf
      | with_reducible apply Mem.copyRange_wf
      | dsimp only
      | refine State.Keeps.of_pair ?_ (by assumption)
      | with_reducible apply State.keeps_jpend
  | cons x n ih =>
    intro v1 s h
    unfold State.jAssign
    repeat' first
      | intro _
      | with_reducible assumption
      | with_reducible apply ih
      | with_reducible apply State.setBit_keeps
      | with_reducible apply State.slot_keeps
      | with_reducible apply State.jAssign1_keeps
      | with_reducible apply State.keeps_ite
      | with_reducible apply State.keeps_elim
      | with_reducible apply State.keeps_fold
      | with_reducible apply SMap.set_wf
      | with_reducible apply Mem.filter_wf
      | with_reducible apply SMap.filter_wf
      | with_reducible apply Mem.wrN_wf
      | with_reducible apply Mem.setLe_wf
      | with_reducible apply Mem.drop_wf
      | with_reducible apply Mem.copyRange_wf
      | dsimp only
      | refine State.Keeps.of_pair ?_ (by assumption)
      | with_reducible apply State.keeps_jpend

theorem State.jIssue_keeps (s : State) (rtype : Nat) (body : Bytes) (eff : JEff) (hκ : ρ.Keeps κ s) :
    ρ.Keeps κ (State.jIssue s rtype body eff) := by
  unfold State.jIssue
  repeat' first
    | intro _
    | with_reducible assumption
    | with_reducible apply State.jAssign_keeps
    | with_reducible apply State.keeps_ite

theorem State.jReclaim_keeps (s : State) (start : Nat) (openTx : List (Nat × Nat)) (hκ : ρ.Keeps κ s) :
    ρ.Keeps κ (State.jReclaim s start openTx) := by
  unfold State.jReclaim
  repeat' first
    | intro _
    | with_reducible assumption
    | with_reducible apply State.jCounts_keeps
    | with_reducible apply Mem.filter_wf
    | with_reducible apply SMap.filter_wf
    | dsimp only
    | split
    | with_reducible apply State.keeps_jslots_ckStart

theorem State.queueHome_keeps (s : State) (q : Nat) (hκ : ρ.Keeps κ s) :
    ρ.Keeps κ (State.queueHome s q) := by
  unfold State.queueHome
  repeat' first
    | intro _
    | with_reducible assumption
    | with_reducible apply State.seedPut_keeps

end Sys2Proof.Machine
end

