-- ==== Sys2Proof/Laws/KRing.lean ====
section
/-! SUPPORT. What the changes of state in Machine/Ring.lean keep. -/

namespace Sys2Proof.Machine

variable {κ : Kept} {ρ : State}

theorem State.setNtFlag_keeps (s : State) (node k : Nat) (b : Bool) (hκ : ρ.Keeps κ s) :
    ρ.Keeps κ (State.setNtFlag s node k b) := by
  unfold State.setNtFlag
  repeat' first
    | intro _
    | with_reducible assumption
    | with_reducible apply State.ntSet_keeps

theorem State.countAbsent_keeps (s : State) (node : Nat) (hκ : ρ.Keeps κ s) :
    ρ.Keeps κ (State.countAbsent s node) := by
  unfold State.countAbsent
  repeat' first
    | intro _
    | with_reducible assumption
    | with_reducible apply State.ntSet_keeps

theorem State.setInbox_keeps (s : State) (key : Nat) (l : List InFlit) (hκ : ρ.Keeps κ s) :
    ρ.Keeps κ (State.setInbox s key l) := by
  unfold State.setInbox
  repeat' first
    | intro _
    | with_reducible assumption
    | with_reducible apply SMap.set_wf
    | dsimp only
    | split
    | with_reducible apply State.keeps_inbox

theorem State.freeFlits_keeps (s : State) (p : Nat) (l : List InFlit) (hκ : ρ.Keeps κ s) :
    ρ.Keeps κ (State.freeFlits s p l) := by
  unfold State.freeFlits
  repeat' first
    | intro _
    | with_reducible assumption
    | with_reducible apply State.modPort_keeps
    | with_reducible apply State.keeps_ite
    | with_reducible apply okeeps_ite
    | with_reducible apply State.keeps_fold

theorem State.inboxTake_keeps (s : State) (key n : Nat) (hκ : ρ.Keeps κ s) : ρ.Keeps κ (State.inboxTake s key n).1 := by
  unfold State.inboxTake
  repeat' first
    | intro _
    | with_reducible assumption
    | with_reducible apply State.modFurrow_keeps
    | with_reducible apply State.setInbox_keeps
    | with_reducible apply State.freeFlits_keeps

theorem State.inboxDrop_keeps (s : State) (key : Nat) (hκ : ρ.Keeps κ s) :
    ρ.Keeps κ (State.inboxDrop s key) := by
  unfold State.inboxDrop
  repeat' first
    | intro _
    | with_reducible assumption
    | with_reducible apply State.setInbox_keeps
    | with_reducible apply State.freeFlits_keeps
    | with_reducible apply State.keeps_ite

theorem State.openEx_keeps (s : State) (oph : Nat) (o : NOp) (hκ : ρ.Keeps κ s) :
    ρ.Keeps κ (State.openEx s oph o) := by
  unfold State.openEx
  repeat' first
    | intro _
    | with_reducible assumption
    | with_reducible apply State.modPort_keeps
    | with_reducible apply State.setOp_keeps
    | with_reducible apply SMap.set_wf
    | dsimp only
    | split
    | with_reducible apply State.keeps_ophGen

theorem State.closeEx_keeps (s : State) (key : Nat) (hκ : ρ.Keeps κ s) :
    ρ.Keeps κ (State.closeEx s key) := by
  unfold State.closeEx
  repeat' first
    | intro _
    | with_reducible assumption
    | with_reducible apply State.setOp_keeps
    | with_reducible apply SMap.set_wf
    | dsimp only
    | split
    | with_reducible apply State.keeps_ophUse_endedAt

theorem State.modOp_keeps (s : State) (key : Nat) (f : NOp → NOp) (hκ : ρ.Keeps κ s) :
    ρ.Keeps κ (State.modOp s key f) := by
  unfold State.modOp
  repeat' first
    | intro _
    | with_reducible assumption
    | with_reducible apply State.setOp_keeps
    | dsimp only
    | split

theorem State.sendNode_keeps (s : State) (node : Nat) (b : FlitBody) (src : Nat := 11) (hκ : ρ.Keeps κ s) :
    ρ.Keeps κ (State.sendNode s node b src) := by
  unfold State.sendNode
  repeat' first
    | intro _
    | with_reducible assumption
    | with_reducible apply State.queueFlit_keeps

theorem State.sendCmd_keeps (s : State) (key : Nat) (c : CmdF) (await : Bool) (hκ : ρ.Keeps κ s) :
    ρ.Keeps κ (State.sendCmd s key c await) := by
  unfold State.sendCmd
  repeat' first
    | intro _
    | with_reducible assumption
    | with_reducible apply State.queueFlit_keeps
    | with_reducible apply State.modOp_keeps
    | with_reducible apply State.keeps_ite
    | with_reducible apply okeeps_ite
    | dsimp only
    | split

theorem State.awaitEnd_keeps (s : State) (key : Nat) (hκ : ρ.Keeps κ s) :
    ρ.Keeps κ (State.awaitEnd s key) := by
  unfold State.awaitEnd
  repeat' first
    | intro _
    | with_reducible assumption
    | with_reducible apply State.modOp_keeps

theorem State.openOp_keeps (s : State) (oph node : Nat) (o : NOp) (c : CmdF) (hκ : ρ.Keeps κ s) :
    ρ.Keeps κ (State.openOp s oph node o c) := by
  unfold State.openOp
  repeat' first
    | intro _
    | with_reducible assumption
    | with_reducible apply State.openEx_keeps
    | with_reducible apply State.sendCmd_keeps

theorem State.sendFetch_keeps (s : State) (key n : Nat) (hκ : ρ.Keeps κ s) :
    ρ.Keeps κ (State.sendFetch s key n) := by
  unfold State.sendFetch
  repeat' first
    | intro _
    | with_reducible assumption
    | with_reducible apply State.modOp_keeps
    | with_reducible apply State.sendCmd_keeps
    | dsimp only
    | split

theorem State.sendEnd_keeps (s : State) (key : Nat) (hκ : ρ.Keeps κ s) : ρ.Keeps κ (State.sendEnd s key).1 := by
  unfold State.sendEnd
  repeat' first
    | intro _
    | with_reducible assumption
    | with_reducible apply State.modOp_keeps
    | with_reducible apply State.sendCmd_keeps
    | with_reducible apply State.awaitEnd_keeps
    | with_reducible apply State.keeps_ite
    | with_reducible apply State.keeps_elim
    | with_reducible apply State.keeps_fold
    | with_reducible apply SMap.set_wf
    | with_reducible apply Mem.filter_wf
    | with_reducible apply SMap.filter_wf
    | with_reducible apply Mem.wrN_wf
    | with_reducible apply Mem.setLe_wf
    | with_reducible apply Mem.drop_wf
    | with_reducible apply Mem.copyRange_wf
    | dsimp only
    | split

theorem State.endOp_keeps (s : State) (key : Nat) (hκ : ρ.Keeps κ s) : ρ.Keeps κ (State.endOp s key).1 := by
  unfold State.endOp
  repeat' first
    | intro _
    | with_reducible assumption
    | with_reducible apply State.dropTx_keeps
    | with_reducible apply State.closeEx_keeps
    | with_reducible apply State.sendEnd_keeps
    | with_reducible apply State.keeps_ite
    | with_reducible apply State.keeps_elim
    | with_reducible apply State.keeps_fold
    | with_reducible apply SMap.set_wf
    | with_reducible apply Mem.filter_wf
    | with_reducible apply SMap.filter_wf
    | with_reducible apply Mem.wrN_wf
    | with_reducible apply Mem.setLe_wf
    | with_reducible apply Mem.drop_wf
    | with_reducible apply Mem.copyRange_wf
    | dsimp only
    | split

theorem State.endShort_keeps (s : State) (o : Option Nat) (hκ : ρ.Keeps κ s) :
    ρ.Keeps κ (State.endShort s o) := by
  unfold State.endShort
  repeat' first
    | intro _
    | with_reducible assumption
    | with_reducible apply State.sendEnd_keeps
    | with_reducible apply State.keeps_ite
    | with_reducible apply okeeps_ite
    | dsimp only
    | split

theorem State.sendData_keeps (key : Nat) (last : Bool) (src : Nat) (x : Option Nat) : ∀ (n : Nat) (v1 : Bytes) (s : State) (_ : ρ.Keeps κ s),
    ρ.Keeps κ (State.sendData key last src x n v1 s) := by
  intro n
  induction n with
  | zero =>
    intro v1 s h
    unfold State.sendData
    repeat' first
      | intro _
      | with_reducible assumption
  | succ n ih =>
    intro v1 s h
    unfold State.sendData
    repeat' first
      | intro _
      | with_reducible assumption
      | with_reducible apply ih
      | with_reducible apply State.queueFlit_keeps
      | with_reducible apply State.modOp_keeps
      | with_reducible apply State.awaitEnd_keeps
      | with_reducible apply State.stage_keeps
      | with_reducible apply State.keeps_ite
      | with_reducible apply State.keeps_elim
      | with_reducible apply State.keeps_fold
      | with_reducible apply SMap.set_wf
      | with_reducible apply Mem.filter_wf
      | with_reducible apply SMap.filter_wf
      | with_reducible apply Mem.wrN_wf
      | with_reducible apply Mem.setLe_wf
      | with_reducible apply Mem.drop_wf
      | with_reducible apply Mem.copyRange_wf
      | dsimp only
      | (split <;> try cases ‹_ + 1 = Nat.succ _›)

theorem State.opData_keeps (s : State) (key : Nat) (b : Bytes) (last : Bool) (src : Nat := 11) (x : Option Nat := none) (hκ : ρ.Keeps κ s) :
    ρ.Keeps κ (State.opData s key b last src x) := by
  unfold State.opData
  repeat' first
    | intro _
    | with_reducible assumption
    | with_reducible apply State.sendData_keeps

theorem State.resGo_keeps  : ∀ (n : List ResReq) (v1 : List ResReq) (s : State) (_ : ρ.Keeps κ s),
    ρ.Keeps κ (State.resGo  n v1 s) := by
  intro n
  induction n with
  | nil =>
    intro v1 s h
    unfold State.resGo
    repeat' first
      | intro _
      | with_reducible assumption
      | with_reducible apply State.openEx_keeps
      | with_reducible apply State.sendCmd_keeps
      | with_reducible apply State.keeps_ite
      | with_reducible apply State.keeps_elim
      | with_reducible apply State.keeps_fold
      | with_reducible apply SMap.set_wf
      | with_reducible apply Mem.filter_wf
      | with_reducible apply SMap.filter_wf
      | with_reducible apply Mem.wrN_wf
      | with_reducible apply Mem.setLe_wf
      | with_reducible apply Mem.drop_wf
      | with_reducible apply Mem.copyRange_wf
      | dsimp only
      | with_reducible apply State.keeps_resq
  | cons x n ih =>
    intro v1 s h
    unfold State.resGo
    repeat' first
      | intro _
      | with_reducible assumption
      | with_reducible apply ih
      | with_reducible apply State.openEx_keeps
      | with_reducible apply State.sendCmd_keeps
      | with_reducible apply State.keeps_ite
      | with_reducible apply State.keeps_elim
      | with_reducible apply State.keeps_fold
      | with_reducible apply SMap.set_wf
      | with_reducible apply Mem.filter_wf
      | with_reducible apply SMap.filter_wf
      | with_reducible apply Mem.wrN_wf
      | with_reducible apply Mem.setLe_wf
      | with_reducible apply Mem.drop_wf
      | with_reducible apply Mem.copyRange_wf
      | dsimp only
      | (split <;> try cases ‹_ :: _ = _ :: _›)

theorem State.resRun_keeps (s : State) (hκ : ρ.Keeps κ s) :
    ρ.Keeps κ (State.resRun s) := by
  unfold State.resRun
  repeat' first
    | intro _
    | with_reducible assumption
    | with_reducible apply State.resGo_keeps

theorem State.resAsk_keeps (s : State) (r : ResReq) (hκ : ρ.Keeps κ s) :
    ρ.Keeps κ (State.resAsk s r) := by
  unfold State.resAsk
  repeat' first
    | intro _
    | with_reducible assumption
    | with_reducible apply State.resRun_keeps
    | dsimp only
    | split
    | with_reducible apply State.keeps_resq

theorem State.firstRelease_keeps (s : State) (node : Nat) (hκ : ρ.Keeps κ s) :
    ρ.Keeps κ (State.firstRelease s node) := by
  unfold State.firstRelease
  repeat' first
    | intro _
    | with_reducible assumption
    | with_reducible apply State.resAsk_keeps
    | with_reducible apply State.keeps_ite
    | with_reducible apply okeeps_ite
    | dsimp only
    | split
    | with_reducible apply State.keeps_relNeeded

end Sys2Proof.Machine
end

