-- ==== Sys2Proof/Laws/KOperands.lean ====
section
/-! SUPPORT. What the changes of state in Machine/Operands.lean keep. -/

namespace Sys2Proof.Machine

variable {κ : Kept} {ρ : State}

theorem MRes.go_keeps {m : MRes} {k : Bytes → TRes} (h : MRes.Keeps κ ρ m) (hk : ∀ b, TRes.Keeps κ ρ (k b)) :
    TRes.Keeps κ ρ (m.go k) := by
  cases m
  · exact hk _
  · exact True.intro
  · exact h
  · exact True.intro
  · exact True.intro

theorem State.winOpen_keeps (s : State) (node a n : Nat) (o : NOp) (code : Nat) (hκ : ρ.Keeps κ s) (p : State × Nat)
    (e : s.winOpen node a n o code = some p) : ρ.Keeps κ p.1 := by
  unfold State.winOpen at e
  split at e
  · cases e
  · rw [Option.map_eq_some_iff] at e
    obtain ⟨oph, _, rfl⟩ := e
    exact State.openOp_keeps _ _ _ _ _ (State.firstRelease_keeps _ _ hκ)

theorem State.winLoad_keeps (s : State) (t : Nat) (th : Thread) (ea n sp a node : Nat) (hκ : ρ.Keeps κ s) :
    MRes.Keeps κ ρ (State.winLoad s t th ea n sp a node) := by
  unfold State.winLoad
  extract_lets w put
  have hp : ∀ s w, ρ.Keeps κ s → MRes.Keeps κ ρ (put s w) := fun s w h => State.modThread_keeps _ _ _ h
  clear_value put
  refine mkeeps_ite mkeeps_stall (mkeeps_ite (hp _ _ (State.hostRead_keeps _ _ _ _ _ _ _ hκ)) (mkeeps_ite (hp _ _ hκ) ?_))
  split
  · rename_i e; exact hp _ _ (State.winOpen_keeps _ _ _ _ _ _ hκ _ e)
  · exact mkeeps_stall

theorem State.winStore_keeps (s : State) (t : Nat) (th : Thread) (b : Bytes) (sp a node : Nat) (hκ : ρ.Keeps κ s) :
    TRes.Keeps κ ρ (State.winStore s t th b sp a node) := by
  unfold State.winStore
  refine tkeeps_ite tkeeps_stall (tkeeps_ite (State.hostWrite_keeps _ _ _ _ _ _ _ hκ) (tkeeps_ite (State.bufPut_keeps _ _ _ hκ) ?_))
  split
  · rename_i e; exact State.opData_keeps _ _ _ _ _ _ (State.winOpen_keeps _ _ _ _ _ _ hκ _ e)
  · exact tkeeps_stall

theorem State.rdCw_keeps (s : State) (r : MemRegion) (idx : Nat) (b : Bytes) (hκ : ρ.Keeps κ s) :
    MRes.Keeps κ ρ (State.rdCw s r idx b) := by
  unfold State.rdCw
  repeat' first
    | intro _
    | with_reducible assumption
    | with_reducible apply State.keeps_ite
    | with_reducible apply okeeps_ite
    | with_reducible apply mkeeps_ite
    | with_reducible apply mkeeps_hold
    | with_reducible apply mkeeps_val
    | with_reducible apply mkeeps_trap
    | with_reducible apply mkeeps_stall
    | with_reducible apply mkeeps_lost

theorem State.engRd_keeps (s : State) (x : TArg) (ea n al : Nat) (hκ : ρ.Keeps κ s) :
    MRes.Keeps κ ρ (State.engRd s x ea n al) := by
  unfold State.engRd
  repeat' first
    | intro _
    | with_reducible assumption
    | with_reducible apply State.winLoad_keeps
    | with_reducible apply State.rdCw_keeps
    | with_reducible apply State.keeps_ite
    | with_reducible apply okeeps_ite
    | with_reducible apply mkeeps_ite
    | with_reducible apply mkeeps_hold
    | with_reducible apply mkeeps_val
    | with_reducible apply mkeeps_trap
    | with_reducible apply mkeeps_stall
    | with_reducible apply mkeeps_lost
    | dsimp only
    | split

theorem State.engWr_keeps (s : State) (x : TArg) (ea : Nat) (b : Bytes) (al : Nat) (hκ : ρ.Keeps κ s) :
    TRes.Keeps κ ρ (State.engWr s x ea b al) := by
  unfold State.engWr
  repeat' first
    | intro _
    | with_reducible assumption
    | with_reducible apply State.setThread_keeps
    | with_reducible apply State.tmemPut_keeps
    | with_reducible apply State.cxPut_keeps
    | with_reducible apply State.winStore_keeps
    | with_reducible apply tkeeps_ite
    | with_reducible apply State.keeps_ite
    | with_reducible apply tkeeps_done
    | with_reducible apply tkeeps_hold
    | with_reducible apply tkeeps_trapAt
    | with_reducible apply tkeeps_trap
    | with_reducible apply tkeeps_stall
    | with_reducible apply tkeeps_lost
    | with_reducible apply Mem.wrN_wf
    | dsimp only
    | split
    | with_reducible apply State.keeps_dirty
    | with_reducible apply State.keeps_tpriv

theorem State.windowRead_keeps (s : State) (t : Nat) (ea : Option Nat) (hκ : ρ.Keeps κ s) :
    ρ.Keeps κ (State.windowRead s t ea) := by
  unfold State.windowRead
  repeat' first
    | intro _
    | with_reducible assumption
    | with_reducible apply State.modThread_keeps
    | with_reducible apply State.keeps_ite

theorem State.noted_keeps (before s : State) (x : TArg) (ea : Option Nat) (hκ : ρ.Keeps κ s) :
    ρ.Keeps κ (State.noted before s x ea) := by
  unfold State.noted
  extract_lets s1
  have h1 : ρ.Keeps κ s1 := State.windowRead_keeps _ _ _ hκ
  clear_value s1
  refine State.keeps_ite h1 ?_
  split
  · exact State.keeps_ite (State.metErr_keeps _ _ _ _ h1) h1
  · exact h1

theorem State.operand_keeps (s : State) (x : TArg) (n : Nat) (k : Nat → TRes) (h : ρ.Keeps κ s)
    (hk : ∀ v, TRes.Keeps κ ρ (k v)) : TRes.Keeps κ ρ (s.operand x n k) := by
  unfold State.operand
  split
  · exact hk _
  · exact MRes.go_keeps (State.engRd_keeps _ _ _ _ _ h) fun b => hk _

theorem State.operandLow_keeps (s : State) (x : TArg) (n : Nat) (k : Nat → TRes) (h : ρ.Keeps κ s)
    (hk : ∀ v, TRes.Keeps κ ρ (k v)) : TRes.Keeps κ ρ (s.operandLow x n k) := by
  unfold State.operandLow
  split
  · exact State.operand_keeps _ _ _ _ h fun v => hk _
  · exact State.operand_keeps _ _ _ _ h hk

theorem State.storeOp_keeps (s : State) (x : TArg) (b : Bytes) (al : Nat) (hκ : ρ.Keeps κ s) :
    TRes.Keeps κ ρ (State.storeOp s x b al) := by
  unfold State.storeOp
  repeat' first
    | intro _
    | with_reducible assumption
    | with_reducible apply State.engWr_keeps
    | with_reducible apply tkeeps_done
    | with_reducible apply tkeeps_hold
    | with_reducible apply tkeeps_trapAt
    | with_reducible apply tkeeps_trap
    | with_reducible apply tkeeps_stall
    | with_reducible apply tkeeps_lost
    | dsimp only
    | split

theorem State.engRdMany_keeps (s : State) (x : TArg) (n : Nat) (h : ρ.Keeps κ s) : ∀ (k ea : Nat),
    MRes.Keeps κ ρ (s.engRdMany x ea n k) := by
  intro k
  induction k with
  | zero => intro ea; exact True.intro
  | succ k ih =>
    intro ea
    have h1 := State.engRd_keeps s x (ea / 65536 * 65536 + ea % 65536) n n h
    have h2 := ih (ea / 65536 * 65536 + (ea + n) % 65536)
    simp only [State.engRdMany]
    split
    · split
      · exact True.intro
      · exact h2
    · exact h1

theorem State.engWrMany_keeps (x : TArg) (n : Nat) : ∀ (k : Nat) (s : State) (ea : Nat) (b : Bytes) (_ : ρ.Keeps κ s),
    TRes.Keeps κ ρ (s.engWrMany x ea n b k) := by
  intro k
  induction k with
  | zero => intro s ea b h; exact h
  | succ k ih =>
    intro s ea b h
    have h1 := State.engWr_keeps s x ea (b.take n) n h
    simp only [State.engWrMany]
    split
    · rename_i t e; rw [e] at h1; exact ih _ _ _ h1
    · exact h1

theorem State.fpOperand_keeps (s : State) (x : TArg) (k : Nat) (f : Bytes → TRes) (h : ρ.Keeps κ s)
    (hf : ∀ b, TRes.Keeps κ ρ (f b)) : TRes.Keeps κ ρ (s.fpOperand x k f) := by
  unfold State.fpOperand
  dsimp only
  split
  · exact True.intro
  · exact MRes.go_keeps (State.engRdMany_keeps _ _ _ h _ _) hf

end Sys2Proof.Machine
end

