-- ==== Sys2Proof/Laws/KCq.lean ====
section
/-! SUPPORT. What the changes of state in Machine/Cq.lean keep. -/

namespace Sys2Proof.Machine

variable {κ : Kept} {ρ : State}

theorem State.setRsv_keeps (s : State) (q n : Nat) (hκ : ρ.Keeps κ s) :
    ρ.Keeps κ (State.setRsv s q n) := by
  unfold State.setRsv
  repeat' first
    | intro _
    | with_reducible assumption
    | with_reducible apply State.wf_keeps

theorem State.cqSignal_keeps (s : State) (q : Nat) (hκ : ρ.Keeps κ s) :
    ρ.Keeps κ (State.cqSignal s q) := by
  unfold State.cqSignal
  repeat' first
    | intro _
    | with_reducible assumption
    | with_reducible apply State.wf_keeps
    | with_reducible apply State.setBit_keeps
    | with_reducible apply State.modQueue_keeps
    | with_reducible apply State.message_keeps
    | with_reducible apply State.keeps_ite

theorem State.cqPosted_keeps (s : State) (q : Nat) (hκ : ρ.Keeps κ s) :
    ρ.Keeps κ (State.cqPosted s q) := by
  unfold State.cqPosted
  repeat' first
    | intro _
    | with_reducible assumption
    | with_reducible apply State.wf_keeps
    | with_reducible apply State.modQueue_keeps
    | with_reducible apply State.cqSignal_keeps
    | with_reducible apply State.keeps_ite

theorem State.cqWrite_keeps (s : State) (q pos : Nat) (e : Bytes) (hκ : ρ.Keeps κ s) :
    ρ.Keeps κ (State.cqWrite s q pos e) := by
  unfold State.cqWrite
  repeat' first
    | intro _
    | with_reducible assumption
    | with_reducible apply State.hostWrite_keeps
    | with_reducible apply State.cqPosted_keeps
    | with_reducible apply State.keeps_ite

theorem State.cqTake_keeps (s : State) (q : Nat) (e : Bytes) (hκ : ρ.Keeps κ s) : ρ.Keeps κ (State.cqTake s q e).1 := by
  unfold State.cqTake
  repeat' first
    | intro _
    | with_reducible assumption
    | with_reducible apply State.setQueue_keeps

theorem State.postEntry_keeps (s : State) (q : Nat) (e : Bytes) (owner chgseq : Nat) (sq sc : Option Nat) (reply : Bool) (hκ : ρ.Keeps κ s) :
    ρ.Keeps κ (State.postEntry s q e owner chgseq sq sc reply) := by
  unfold State.postEntry
  repeat' first
    | intro _
    | with_reducible assumption
    | with_reducible apply State.jIssue_keeps
    | with_reducible apply State.cqTake_keeps
    | with_reducible apply State.keeps_ite
    | with_reducible apply okeeps_ite
    | dsimp only
    | split
    | refine State.Keeps.of_pair ?_ (by assumption)
    | with_reducible apply State.keeps_owed

theorem State.postReply_keeps (s : State) (q sc bits reason tag : Nat) (from_ : Option (Nat × Nat × Nat × Nat) := none) (hκ : ρ.Keeps κ s) :
    ρ.Keeps κ (State.postReply s q sc bits reason tag from_) := by
  unfold State.postReply
  repeat' first
    | intro _
    | with_reducible assumption
    | with_reducible apply State.postEntry_keeps

theorem State.holdStatus_keeps (s : State) (sc q : Nat) (hκ : ρ.Keeps κ s) :
    ρ.Keeps κ (State.holdStatus s sc q) := by
  unfold State.holdStatus
  repeat' first
    | intro _
    | with_reducible assumption
    | with_reducible apply State.wf_keeps
    | with_reducible apply State.setBit_keeps
    | with_reducible apply State.setQueue_keeps
    | with_reducible apply State.cxSet_keeps
    | with_reducible apply State.setCxFlag_keeps
    | dsimp only
    | split

theorem State.postHeld_keeps (s : State) (sc q : Nat) (hκ : ρ.Keeps κ s) :
    ρ.Keeps κ (State.postHeld s sc q) := by
  unfold State.postHeld
  repeat' first
    | intro _
    | with_reducible assumption
    | with_reducible apply State.postEntry_keeps

theorem State.postStatus_keeps (s : State) (sc : Nat) (hκ : ρ.Keeps κ s) :
    ρ.Keeps κ (State.postStatus s sc) := by
  unfold State.postStatus
  repeat' first
    | intro _
    | with_reducible assumption
    | with_reducible apply State.holdStatus_keeps
    | with_reducible apply State.postHeld_keeps
    | with_reducible apply State.keeps_ite

theorem State.unhold_keeps (s : State) (sc q : Nat) (hκ : ρ.Keeps κ s) :
    ρ.Keeps κ (State.unhold s sc q) := by
  unfold State.unhold
  repeat' first
    | intro _
    | with_reducible assumption
    | with_reducible apply State.wf_keeps
    | with_reducible apply State.setQueue_keeps
    | with_reducible apply State.cxSet_keeps
    | with_reducible apply State.setCxFlag_keeps

theorem State.forgetQueue_keeps (s : State) (q : Nat) (hκ : ρ.Keeps κ s) :
    ρ.Keeps κ (State.forgetQueue s q) := by
  unfold State.forgetQueue
  repeat' first
    | intro _
    | with_reducible assumption
    | dsimp only
    | split
    | with_reducible apply State.keeps_jpend_owed

end Sys2Proof.Machine
end

