-- ==== Sys2Proof/Laws/KMovers.lean ====
section
/-! SUPPORT. What the changes of state in Machine/Movers.lean keep. -/

namespace Sys2Proof.Machine

variable {κ : Kept} {ρ : State}

theorem State.modXfer_keeps (s : State) (x : Nat) (f : Xfer → Xfer) (hκ : ρ.Keeps κ s) :
    ρ.Keeps κ (State.modXfer s x f) := by
  unfold State.modXfer
  repeat' first
    | intro _
    | with_reducible assumption
    | with_reducible apply State.setXfer_keeps
    | dsimp only
    | split

theorem State.newXfer_keeps (s : State) (v : Xfer) (hκ : ρ.Keeps κ s) : ρ.Keeps κ (State.newXfer s v).1 := by
  unfold State.newXfer
  repeat' first
    | intro _
    | with_reducible assumption
    | with_reducible apply State.setXfer_keeps
    | with_reducible apply State.keeps_ite
    | with_reducible apply State.keeps_elim
    | with_reducible apply State.keeps_fold
    | with_reducible apply SMap.set_wf
    | with_reducible apply Mem.filter_wf
    | with_reducible apply SMap.filter_wf
    | with_reducible apply Mem.wrN_wf
    | with_reducible apply Mem.setLe_wf
    | with_reducible apply Mem.drop_wf
    | with_reducible apply Mem.copyRange_wf
    | dsimp only
    | split
    | with_reducible apply State.keeps_nextXfer_stamp

theorem State.slotMark_keeps (s : State) (v : Xfer) (b k : Nat) (on : Bool) (hκ : ρ.Keeps κ s) :
    ρ.Keeps κ (State.slotMark s v b k on) := by
  unfold State.slotMark
  repeat' first
    | intro _
    | with_reducible assumption
    | with_reducible apply State.wf_keeps
    | with_reducible apply State.wb_keeps
    | with_reducible apply State.keeps_ite
    | with_reducible apply okeeps_ite
    | dsimp only
    | split

theorem State.unbind_keeps (s : State) (x : Nat) (hκ : ρ.Keeps κ s) :
    ρ.Keeps κ (State.unbind s x) := by
  unfold State.unbind
  repeat' first
    | intro _
    | with_reducible assumption
    | with_reducible apply State.setXfer_keeps
    | with_reducible apply State.slotMark_keeps
    | with_reducible apply State.slot_keeps
    | dsimp only
    | split

theorem State.endXfer_keeps (s : State) (x code : Nat) (info : Nat := 0xFFFFFFFF) (ns : Byte := 0) (hκ : ρ.Keeps κ s) :
    ρ.Keeps κ (State.endXfer s x code info ns) := by
  unfold State.endXfer
  repeat' first
    | intro _
    | with_reducible assumption
    | with_reducible apply State.setXfer_keeps
    | with_reducible apply State.modChan_keeps
    | with_reducible apply State.unbind_keeps
    | with_reducible apply State.endOp_keeps
    | with_reducible apply State.keeps_ite
    | with_reducible apply okeeps_ite
    | with_reducible apply State.keeps_fold
    | with_reducible apply Mem.filter_wf
    | with_reducible apply SMap.filter_wf
    | dsimp only
    | split

theorem State.putPkt_keeps (s : State) (x : Nat) (v : Xfer) (b : Bytes) (last : Bool) (hκ : ρ.Keeps κ s) :
    ρ.Keeps κ (State.putPkt s x v b last) := by
  unfold State.putPkt
  repeat' first
    | intro _
    | with_reducible assumption
    | with_reducible apply State.modChain_keeps
    | with_reducible apply State.pushPkt_keeps
    | with_reducible apply State.modXfer_keeps
    | with_reducible apply State.keeps_ite
    | with_reducible apply okeeps_ite
    | with_reducible apply State.keeps_getD
    | with_reducible apply Mem.drop_wf
    | dsimp only
    | split

theorem State.putRun_keeps (s : State) (x : Nat) (v : Xfer) (sp a : Nat) (b : Bytes) (last : Bool) (h : ρ.Keeps κ s) :
    ρ.Keeps κ (State.putRun s x v sp a b last).1 := by
  unfold State.putRun
  split
  · exact State.hostWrite_keeps _ _ _ _ _ _ _ h
  · split
    · exact State.bufPut_keeps _ _ _ h
    · split
      · exact State.keeps_elim h fun k => State.opData_keeps _ _ _ _ _ _ h
      · split
        · exact State.putPkt_keeps _ _ _ _ _ h
        · exact h

theorem State.showDone_keeps (s : State) (v : Xfer) (n : Nat) (hκ : ρ.Keeps κ s) :
    ρ.Keeps κ (State.showDone s v n) := by
  unfold State.showDone
  repeat' first
    | intro _
    | with_reducible assumption
    | with_reducible apply State.setReg_keeps
    | dsimp only
    | split

theorem State.writeOut_keeps (x : Nat) : ∀ (n : Nat) (s : State) (_ : ρ.Keeps κ s),
    ρ.Keeps κ (State.writeOut x n s) := by
  intro n
  induction n with
  | zero =>
    intro s h
    unfold State.writeOut
    repeat' first
      | intro _
      | with_reducible assumption
  | succ n ih =>
    intro s h
    unfold State.writeOut
    repeat' first
      | intro _
      | with_reducible assumption
      | with_reducible apply ih
      | with_reducible apply State.modXfer_keeps
      | with_reducible apply State.endXfer_keeps
      | with_reducible apply State.putPkt_keeps
      | with_reducible apply State.showDone_keeps
      | with_reducible apply fin_keeps
      | with_reducible apply State.slot_keeps
      | with_reducible apply State.putRun_keeps
      | with_reducible apply State.keeps_ite
      | with_reducible apply State.keeps_elim
      | with_reducible apply State.keeps_fold
      | with_reducible apply SMap.set_wf
      | with_reducible apply Mem.filter_wf
      | with_reducible apply SMap.filter_wf
      | with_reducible apply Mem.wrN_wf
      | with_reducible apply Mem.setLe_wf
      | with_reducible apply Mem.drop_wf
      | with_reducible apply Mem.copyRange_wf
      | dsimp only
      | (split <;> try cases ‹_ + 1 = Nat.succ _›)

theorem State.compareOut_keeps (s : State) (x : Nat) (hκ : ρ.Keeps κ s) :
    ρ.Keeps κ (State.compareOut s x) := by
  unfold State.compareOut
  repeat' first
    | intro _
    | with_reducible assumption
    | with_reducible apply State.setXfer_keeps
    | with_reducible apply State.endXfer_keeps
    | with_reducible apply State.showDone_keeps
    | with_reducible apply State.slot_keeps
    | with_reducible apply State.keeps_ite
    | with_reducible apply okeeps_ite
    | with_reducible apply Mem.drop_wf
    | dsimp only
    | split

theorem State.stage_keeps (s : State) (x : Nat) (second : Bool) (hκ : ρ.Keeps κ s) :
    ρ.Keeps κ (State.stage s x second) := by
  unfold State.stage
  repeat' first
    | intro _
    | with_reducible assumption
    | with_reducible apply State.setXfer_keeps
    | with_reducible apply State.slot_keeps
    | with_reducible apply State.inboxTake_keeps
    | with_reducible apply State.keeps_ite
    | with_reducible apply okeeps_ite
    | with_reducible apply State.keeps_getD
    | with_reducible apply State.keeps_elim
    | dsimp only
    | split

theorem State.opOver_keeps (s : State) (key : Nat) (hκ : ρ.Keeps κ s) :
    ρ.Keeps κ (State.opOver s key) := by
  unfold State.opOver
  repeat' first
    | intro _
    | with_reducible assumption
    | with_reducible apply State.setXfer_keeps
    | with_reducible apply State.keeps_ite
    | with_reducible apply okeeps_ite
    | with_reducible apply State.keeps_fold
    | dsimp only
    | split

theorem State.readData_keeps (s : State) (x : Nat) (v : Xfer) (second : Bool) (sp a left room : Nat) (hκ : ρ.Keeps κ s) :
    ρ.Keeps κ (State.readData s x v second sp a left room) := by
  unfold State.readData
  repeat' first
    | intro _
    | with_reducible assumption
    | with_reducible apply State.setXfer_keeps
    | with_reducible apply State.hostRead_keeps
    | with_reducible apply State.sendFetch_keeps
    | with_reducible apply State.endXfer_keeps
    | with_reducible apply State.keeps_ite
    | with_reducible apply okeeps_ite
    | dsimp only
    | split

theorem State.readEntry_keeps (s : State) (x : Nat) (v : Xfer) (hκ : ρ.Keeps κ s) :
    ρ.Keeps κ (State.readEntry s x v) := by
  unfold State.readEntry
  repeat' first
    | intro _
    | with_reducible assumption
    | with_reducible apply State.setXfer_keeps
    | with_reducible apply State.hostRead_keeps
    | with_reducible apply State.endXfer_keeps
    | with_reducible apply State.keeps_ite

theorem State.issueReads_keeps (s : State) (x : Nat) (hκ : ρ.Keeps κ s) :
    ρ.Keeps κ (State.issueReads s x) := by
  unfold State.issueReads
  repeat' first
    | intro _
    | with_reducible assumption
    | with_reducible apply State.readData_keeps
    | with_reducible apply State.readEntry_keeps
    | with_reducible apply State.slot_keeps
    | with_reducible apply State.keeps_ite
    | with_reducible apply okeeps_ite
    | dsimp only
    | split

theorem State.checkDone_keeps (s : State) (x : Nat) (hκ : ρ.Keeps κ s) :
    ρ.Keeps κ (State.checkDone s x) := by
  unfold State.checkDone
  repeat' first
    | intro _
    | with_reducible assumption
    | with_reducible apply State.endXfer_keeps
    | with_reducible apply State.keeps_ite
    | with_reducible apply okeeps_ite
    | dsimp only
    | split

theorem State.pump1_keeps (s : State) (x : Nat) (hκ : ρ.Keeps κ s) :
    ρ.Keeps κ (State.pump1 s x) := by
  unfold State.pump1
  repeat' first
    | intro _
    | with_reducible assumption
    | with_reducible apply State.compareOut_keeps
    | with_reducible apply State.stage_keeps
    | with_reducible apply State.issueReads_keeps
    | with_reducible apply State.checkDone_keeps
    | with_reducible apply State.writeOut_keeps

theorem State.pump_keeps (s : State) (x : Nat) (hκ : ρ.Keeps κ s) :
    ρ.Keeps κ (State.pump s x) := by
  unfold State.pump
  repeat' first
    | intro _
    | with_reducible assumption
    | with_reducible apply State.pump1_keeps
    | with_reducible apply State.keeps_ite
    | with_reducible apply okeeps_ite
    | with_reducible apply State.keeps_elim
    | dsimp only
    | split

theorem State.pumpAll_keeps (s : State) (hκ : ρ.Keeps κ s) :
    ρ.Keeps κ (State.pumpAll s) := by
  unfold State.pumpAll
  repeat' first
    | intro _
    | with_reducible assumption
    | with_reducible apply State.pump_keeps
    | with_reducible apply State.keeps_fold

theorem State.bindXfer_keeps (s : State) (x b k : Nat) (hκ : ρ.Keeps κ s) :
    ρ.Keeps κ (State.bindXfer s x b k) := by
  unfold State.bindXfer
  repeat' first
    | intro _
    | with_reducible assumption
    | with_reducible apply State.setXfer_keeps
    | with_reducible apply State.slotMark_keeps
    | with_reducible apply State.pump_keeps
    | dsimp only
    | split
    | with_reducible apply State.keeps_stamp

theorem State.bindNext_keeps (s : State) (h : Bool) (hκ : ρ.Keeps κ s) :
    ρ.Keeps κ (State.bindNext s h) := by
  unfold State.bindNext
  repeat' first
    | intro _
    | with_reducible assumption
    | with_reducible apply State.bindXfer_keeps
    | dsimp only
    | split

theorem State.evictDone_keeps (s : State) (x : Nat) (hκ : ρ.Keeps κ s) :
    ρ.Keeps κ (State.evictDone s x) := by
  unfold State.evictDone
  repeat' first
    | intro _
    | with_reducible assumption
    | with_reducible apply State.setBit_keeps
    | with_reducible apply State.setXfer_keeps
    | with_reducible apply State.unbind_keeps
    | with_reducible apply State.bindNext_keeps
    | with_reducible apply State.writeOut_keeps
    | with_reducible apply State.keeps_ite
    | with_reducible apply okeeps_ite
    | dsimp only
    | split

theorem State.dropXfer_keeps (s : State) (x : Nat) (hκ : ρ.Keeps κ s) :
    ρ.Keeps κ (State.dropXfer s x) := by
  unfold State.dropXfer
  repeat' first
    | intro _
    | with_reducible assumption
    | with_reducible apply State.setXfer_keeps
    | with_reducible apply State.unbind_keeps
    | with_reducible apply State.keeps_ite
    | with_reducible apply okeeps_ite
    | dsimp only
    | split

theorem State.abortXfer_keeps (s : State) (x : Nat) (hκ : ρ.Keeps κ s) :
    ρ.Keeps κ (State.abortXfer s x) := by
  unfold State.abortXfer
  repeat' first
    | intro _
    | with_reducible assumption
    | with_reducible apply State.endXfer_keeps
    | with_reducible apply State.dropXfer_keeps

theorem State.ticks_keeps (s : State) (n : Nat) (hκ : ρ.Keeps κ s) :
    ρ.Keeps κ (State.ticks s n) := by
  exact State.keeps_freeCtr hκ _ (Nat.le_add_right _ _)

theorem State.freeWrites_keeps (s : State) (fn : Nat) (hκ : ρ.Keeps κ s) :
    ρ.Keeps κ (State.freeWrites s fn) := by
  unfold State.freeWrites
  repeat' first
    | intro _
    | with_reducible assumption
    | with_reducible apply State.tick_keeps
    | with_reducible apply State.bufPut_keeps
    | with_reducible apply State.hostWrite_keeps
    | with_reducible apply State.ticks_keeps
    | with_reducible apply State.keeps_ite

theorem State.arrive_keeps (s : State) (x : Nat) (second : Bool) (b : Bytes) (hκ : ρ.Keeps κ s) :
    ρ.Keeps κ (State.arrive s x second b) := by
  unfold State.arrive
  repeat' first
    | intro _
    | with_reducible assumption
    | with_reducible apply State.setXfer_keeps
    | with_reducible apply State.tick_keeps
    | with_reducible apply State.endXfer_keeps
    | with_reducible apply State.pump_keeps
    | with_reducible apply State.freeWrites_keeps
    | with_reducible apply State.gotEntry_keeps
    | with_reducible apply State.keeps_ite
    | with_reducible apply okeeps_ite
    | dsimp only
    | split

end Sys2Proof.Machine
end

