-- ==== Sys2Proof/Laws/KGraft.lean ====
section
/-! SUPPORT. What the changes of state in Machine/Graft.lean keep. -/

namespace Sys2Proof.Machine

variable {κ : Kept} {ρ : State}

theorem State.latch_keeps (s : State) (t k : Nat) (hκ : ρ.Keeps κ s) :
    ρ.Keeps κ (State.latch s t k) := by
  unfold State.latch
  repeat' first
    | intro _
    | with_reducible assumption
    | with_reducible apply State.modThread_keeps

theorem State.latchSc_keeps (s : State) (sc k : Nat) (hκ : ρ.Keeps κ s) :
    ρ.Keeps κ (State.latchSc s sc k) := by
  unfold State.latchSc
  repeat' first
    | intro _
    | with_reducible assumption
    | with_reducible apply State.latch_keeps
    | with_reducible apply State.keeps_elim

theorem State.wdState_keeps (s : State) (hκ : ρ.Keeps κ s) :
    ρ.Keeps κ (State.wdState s) := by
  unfold State.wdState
  repeat' first
    | intro _
    | with_reducible assumption
    | with_reducible apply State.setReg_keeps

theorem State.reserveGo_keeps (sc : Nat) : ∀ (n : List Nat) (s : State) (_ : ρ.Keeps κ s),
    ρ.Keeps κ (State.reserveGo sc n s) := by
  intro n
  induction n with
  | nil =>
    intro s h
    unfold State.reserveGo
    repeat' first
      | intro _
      | with_reducible assumption
      | with_reducible apply State.setBit_keeps
      | with_reducible apply State.modChain_keeps
      | with_reducible apply State.setHolder_keeps
      | with_reducible apply State.setWait_keeps
      | with_reducible apply State.resAsk_keeps
  | cons x n ih =>
    intro s h
    unfold State.reserveGo
    repeat' first
      | intro _
      | with_reducible assumption
      | with_reducible apply ih
      | with_reducible apply State.setBit_keeps
      | with_reducible apply State.modChain_keeps
      | with_reducible apply State.setHolder_keeps
      | with_reducible apply State.setWait_keeps
      | with_reducible apply State.resAsk_keeps
      | with_reducible apply State.wdState_keeps
      | with_reducible apply State.answer_keeps
      | with_reducible apply State.keeps_ite

theorem State.grantSlot_keeps (s : State) (key : Nat) (hκ : ρ.Keeps κ s) :
    ρ.Keeps κ (State.grantSlot s key) := by
  unfold State.grantSlot
  repeat' first
    | intro _
    | with_reducible assumption
    | with_reducible apply State.setWait_keeps
    | with_reducible apply State.latchSc_keeps
    | with_reducible apply State.wdState_keeps
    | with_reducible apply State.reserveGo_keeps
    | dsimp only
    | split

theorem State.releaseSlots_keeps (s : State) (p : Nat → Holder → Bool) (owner : NOwner := .unowned) (hκ : ρ.Keeps κ s) :
    ρ.Keeps κ (State.releaseSlots s p owner) := by
  unfold State.releaseSlots
  repeat' first
    | intro _
    | with_reducible assumption
    | with_reducible apply State.setHolder_keeps
    | with_reducible apply State.resAsk_keeps
    | with_reducible apply State.wdState_keeps
    | with_reducible apply State.grantSlot_keeps
    | with_reducible apply State.keeps_ite
    | with_reducible apply okeeps_ite
    | with_reducible apply State.keeps_fold

theorem State.unwait_keeps (s : State) (sc : Nat) (hκ : ρ.Keeps κ s) :
    ρ.Keeps κ (State.unwait s sc) := by
  unfold State.unwait
  repeat' first
    | intro _
    | with_reducible assumption
    | with_reducible apply State.setWait_keeps
    | with_reducible apply State.latchSc_keeps
    | with_reducible apply State.wdState_keeps
    | with_reducible apply State.keeps_ite

theorem State.grOpen_keeps (s : State) (hκ : ρ.Keeps κ s) :
    ρ.Keeps κ (State.grOpen s) := by
  unfold State.grOpen
  repeat' first
    | intro _
    | with_reducible assumption
    | with_reducible apply State.setReg_keeps

theorem State.openGroup_keeps (s : State) (sc x : Nat) (hκ : ρ.Keeps κ s) :
    ρ.Keeps κ (State.openGroup s sc x) := by
  unfold State.openGroup
  repeat' first
    | intro _
    | with_reducible assumption
    | with_reducible apply State.setReg_keeps
    | with_reducible apply State.setTxn_keeps
    | with_reducible apply State.cxSet_keeps
    | with_reducible apply State.setCxFlag_keeps
    | with_reducible apply State.grOpen_keeps

theorem State.joinTx_keeps (s : State) (x node : Nat) (hκ : ρ.Keeps κ s) :
    ρ.Keeps κ (State.joinTx s x node) := by
  unfold State.joinTx
  repeat' first
    | intro _
    | with_reducible assumption
    | with_reducible apply State.modTxn_keeps
    | with_reducible apply State.jIssue_keeps

theorem State.modMember_keeps (s : State) (x node : Nat) (f : Member → Member) (hκ : ρ.Keeps κ s) :
    ρ.Keeps κ (State.modMember s x node f) := by
  unfold State.modMember
  repeat' first
    | intro _
    | with_reducible assumption
    | with_reducible apply State.modTxn_keeps

theorem State.sendDecision_keeps (s : State) (x node : Nat) (hκ : ρ.Keeps κ s) :
    ρ.Keeps κ (State.sendDecision s x node) := by
  unfold State.sendDecision
  repeat' first
    | intro _
    | with_reducible assumption
    | with_reducible apply State.sendNode_keeps
    | with_reducible apply State.modMember_keeps
    | with_reducible apply State.keeps_ite

theorem State.tellMembers_keeps (s : State) (x : Nat) (hκ : ρ.Keeps κ s) :
    ρ.Keeps κ (State.tellMembers s x) := by
  unfold State.tellMembers
  repeat' first
    | intro _
    | with_reducible assumption
    | with_reducible apply State.sendDecision_keeps
    | with_reducible apply State.keeps_fold

theorem State.tryDone_keeps (s : State) (x : Nat) (hκ : ρ.Keeps κ s) :
    ρ.Keeps κ (State.tryDone s x) := by
  unfold State.tryDone
  repeat' first
    | intro _
    | with_reducible assumption
    | with_reducible apply State.modTxn_keeps
    | with_reducible apply State.jIssue_keeps
    | with_reducible apply State.keeps_ite

theorem State.outcome_keeps (s : State) (x node result : Nat) (hκ : ρ.Keeps κ s) :
    ρ.Keeps κ (State.outcome s x node result) := by
  unfold State.outcome
  repeat' first
    | intro _
    | with_reducible assumption
    | with_reducible apply State.bump_keeps
    | with_reducible apply State.modTxn_keeps
    | with_reducible apply State.latch_keeps
    | with_reducible apply State.answered_keeps
    | with_reducible apply State.keeps_getD
    | with_reducible apply Mem.wrN_wf
    | dsimp only
    | split
    | with_reducible apply State.keeps_tpriv

theorem State.txidOutcome_keeps (s : State) (sc : Nat) (hκ : ρ.Keeps κ s) :
    ρ.Keeps κ (State.txidOutcome s sc) := by
  unfold State.txidOutcome
  repeat' first
    | intro _
    | with_reducible assumption
    | with_reducible apply State.bump_keeps
    | with_reducible apply State.tick_keeps
    | with_reducible apply State.latch_keeps
    | with_reducible apply Mem.wrN_wf
    | dsimp only
    | split
    | with_reducible apply State.keeps_tpriv

theorem State.abortTx_keeps (s : State) (x cause : Nat) (node : Nat := 0) (result : Nat := 0) (hκ : ρ.Keeps κ s) :
    ρ.Keeps κ (State.abortTx s x cause node result) := by
  unfold State.abortTx
  repeat' first
    | intro _
    | with_reducible assumption
    | with_reducible apply State.modTxn_keeps
    | with_reducible apply State.setCxFlag_keeps
    | with_reducible apply State.releaseSlots_keeps
    | with_reducible apply State.grOpen_keeps
    | with_reducible apply State.tellMembers_keeps
    | with_reducible apply State.tryDone_keeps
    | with_reducible apply State.outcome_keeps
    | with_reducible apply State.keeps_ite

theorem State.decideTx_keeps (s : State) (x : Nat) (hκ : ρ.Keeps κ s) :
    ρ.Keeps κ (State.decideTx s x) := by
  unfold State.decideTx
  repeat' first
    | intro _
    | with_reducible assumption
    | with_reducible apply State.modTxn_keeps
    | with_reducible apply State.jIssue_keeps

end Sys2Proof.Machine
end

