-- ==== Sys2Proof/Laws/KChains.lean ====
section
/-! SUPPORT. What the changes of state in Machine/Chains.lean keep. -/

namespace Sys2Proof.Machine

variable {κ : Kept} {ρ : State}

theorem State.teStat_keeps (s : State) (g : Nat) (hκ : ρ.Keeps κ s) :
    ρ.Keeps κ (State.teStat s g) := by
  unfold State.teStat
  repeat' first
    | intro _
    | with_reducible assumption
    | with_reducible apply State.wf_keeps
    | with_reducible apply State.wb_keeps

theorem State.leaveOp_keeps (s : State) (o : Option Nat) (hκ : ρ.Keeps κ s) :
    ρ.Keeps κ (State.leaveOp s o) := by
  unfold State.leaveOp
  repeat' first
    | intro _
    | with_reducible assumption
    | with_reducible apply State.modOp_keeps
    | with_reducible apply State.sendEnd_keeps
    | dsimp only
    | split

theorem State.freeThreadOf_keeps (s : State) (t : Nat) (hκ : ρ.Keeps κ s) :
    ρ.Keeps κ (State.freeThreadOf s t) := by
  unfold State.freeThreadOf
  repeat' first
    | intro _
    | with_reducible assumption
    | with_reducible apply State.modThread_keeps
    | with_reducible apply State.dropPkts_keeps
    | with_reducible apply State.teStat_keeps
    | with_reducible apply State.leaveOp_keeps

theorem State.dispPut_keeps (s : State) (t a done code : Nat) (hκ : ρ.Keeps κ s) :
    ρ.Keeps κ (State.dispPut s t a done code) := by
  unfold State.dispPut
  repeat' first
    | intro _
    | with_reducible assumption
    | with_reducible apply State.tmemPut_keeps
    | with_reducible apply State.cxPut_keeps
    | with_reducible apply State.keeps_ite
    | with_reducible apply okeeps_ite
    | with_reducible apply Mem.wrN_wf
    | with_reducible apply Mem.drop_wf
    | dsimp only
    | split
    | with_reducible apply State.keeps_tpriv

theorem State.abortDisps_keeps (s : State) (t : Nat) (hκ : ρ.Keeps κ s) :
    ρ.Keeps κ (State.abortDisps s t) := by
  unfold State.abortDisps
  repeat' first
    | intro _
    | with_reducible assumption
    | with_reducible apply State.modThread_keeps
    | with_reducible apply State.abortXfer_keeps
    | with_reducible apply State.latch_keeps
    | with_reducible apply State.dispPut_keeps
    | with_reducible apply State.keeps_ite
    | with_reducible apply okeeps_ite
    | with_reducible apply State.keeps_getD
    | with_reducible apply State.keeps_fold
    | dsimp only
    | split

theorem State.freeSc_keeps (s : State) (sc : Nat) (hκ : ρ.Keeps κ s) :
    ρ.Keeps κ (State.freeSc s sc) := by
  unfold State.freeSc
  repeat' first
    | intro _
    | with_reducible assumption
    | with_reducible apply State.freeThreadOf_keeps
    | with_reducible apply State.abortDisps_keeps
    | dsimp only
    | split

theorem State.saveThread_keeps (s : State) (sc t : Nat) (hκ : ρ.Keeps κ s) :
    ρ.Keeps κ (State.saveThread s sc t) := by
  unfold State.saveThread
  repeat' first
    | intro _
    | with_reducible assumption
    | with_reducible apply State.cxPut_keeps

theorem State.loadThread_keeps (s : State) (sc t prio : Nat) (hκ : ρ.Keeps κ s) :
    ρ.Keeps κ (State.loadThread s sc t prio) := by
  unfold State.loadThread
  repeat' first
    | intro _
    | with_reducible assumption
    | with_reducible apply State.modThread_keeps

theorem State.saveList_keeps (s : State) (sc : Nat) (v : Xfer) (hκ : ρ.Keeps κ s) :
    ρ.Keeps κ (State.saveList s sc v) := by
  unfold State.saveList
  repeat' first
    | intro _
    | with_reducible assumption
    | with_reducible apply State.cxPut_keeps
    | with_reducible apply State.keeps_ite

theorem State.notice_keeps (s : State) (sc : Nat) (hκ : ρ.Keeps κ s) :
    ρ.Keeps κ (State.notice s sc) := by
  unfold State.notice
  repeat' first
    | intro _
    | with_reducible assumption
    | with_reducible apply State.ticks_keeps
    | with_reducible apply State.latch_keeps
    | with_reducible apply Mem.wrN_wf
    | dsimp only
    | split
    | with_reducible apply State.keeps_tpriv

theorem State.stopXfer0_keeps (s : State) (sc : Nat) (hκ : ρ.Keeps κ s) :
    ρ.Keeps κ (State.stopXfer0 s sc) := by
  unfold State.stopXfer0
  repeat' first
    | intro _
    | with_reducible assumption
    | with_reducible apply State.modChain_keeps
    | with_reducible apply State.abortXfer_keeps
    | with_reducible apply State.saveList_keeps
    | dsimp only
    | split

theorem State.stopFwd_keeps (s : State) (sc : Nat) (hκ : ρ.Keeps κ s) :
    ρ.Keeps κ (State.stopFwd s sc) := by
  unfold State.stopFwd
  repeat' first
    | intro _
    | with_reducible assumption
    | with_reducible apply State.modChain_keeps
    | with_reducible apply State.abortXfer_keeps
    | with_reducible apply State.saveList_keeps
    | dsimp only
    | split

theorem State.stopXfer_keeps (s : State) (sc : Nat) (hκ : ρ.Keeps κ s) :
    ρ.Keeps κ (State.stopXfer s sc) := by
  unfold State.stopXfer
  repeat' first
    | intro _
    | with_reducible assumption
    | with_reducible apply State.stopXfer0_keeps
    | with_reducible apply State.stopFwd_keeps

theorem State.unreserve_keeps (s : State) (sc : Nat) (hκ : ρ.Keeps κ s) :
    ρ.Keeps κ (State.unreserve s sc) := by
  unfold State.unreserve
  refine State.keeps_ops_resq (State.unwait_keeps _ _ hκ) _ _ fun w => SMap.mapVal_wf _ (fun k x h e => h ?_) w
  simpa using e

theorem State.fenceChain_keeps (s : State) (sc : Nat) (hκ : ρ.Keeps κ s) :
    ρ.Keeps κ (State.fenceChain s sc) := by
  unfold State.fenceChain
  repeat' first
    | intro _
    | with_reducible assumption
    | with_reducible apply State.setChain_keeps
    | with_reducible apply State.leaveOp_keeps
    | with_reducible apply State.freeSc_keeps
    | with_reducible apply State.stopXfer_keeps
    | with_reducible apply State.unreserve_keeps

theorem State.fixStatus_keeps (s : State) (sc : Nat) (e : EndCond) (hκ : ρ.Keeps κ s) :
    ρ.Keeps κ (State.fixStatus s sc e) := by
  unfold State.fixStatus
  repeat' first
    | intro _
    | with_reducible assumption
    | with_reducible apply State.setChain_keeps
    | with_reducible apply State.modChain_keeps
    | with_reducible apply State.cxPut_keeps
    | with_reducible apply State.cxSet_keeps
    | with_reducible apply State.setCxFlag_keeps
    | with_reducible apply State.jIssue_keeps
    | with_reducible apply State.abortTx_keeps
    | with_reducible apply State.leaveOp_keeps
    | with_reducible apply State.freeSc_keeps
    | with_reducible apply State.unreserve_keeps
    | with_reducible apply State.fenceChain_keeps
    | with_reducible apply State.keeps_ite
    | with_reducible apply okeeps_ite
    | with_reducible apply State.keeps_getD
    | dsimp only
    | split

theorem State.endChain_keeps (s : State) (sc : Nat) (e : EndCond) (hκ : ρ.Keeps κ s) :
    ρ.Keeps κ (State.endChain s sc e) := by
  unfold State.endChain
  repeat' first
    | intro _
    | with_reducible assumption
    | with_reducible apply State.stopXfer_keeps
    | with_reducible apply State.fixStatus_keeps

theorem State.endAbsent_keeps (s : State) (sc node : Nat) (hκ : ρ.Keeps κ s) :
    ρ.Keeps κ (State.endAbsent s sc node) := by
  unfold State.endAbsent
  repeat' first
    | intro _
    | with_reducible assumption
    | with_reducible apply State.countAbsent_keeps
    | with_reducible apply State.endChain_keeps

theorem State.endRefused_keeps (s : State) (sc code node : Nat) (hκ : ρ.Keeps κ s) :
    ρ.Keeps κ (State.endRefused s sc code node) := by
  unfold State.endRefused
  repeat' first
    | intro _
    | with_reducible assumption
    | with_reducible apply State.endChain_keeps

theorem State.endFree_keeps (s : State) (sc : Nat) (hκ : ρ.Keeps κ s) :
    ρ.Keeps κ (State.endFree s sc) := by
  unfold State.endFree
  repeat' first
    | intro _
    | with_reducible assumption
    | with_reducible apply State.modChain_keeps
    | with_reducible apply State.tick_keeps
    | with_reducible apply State.ticks_keeps
    | with_reducible apply State.freeWrites_keeps
    | with_reducible apply State.endChain_keeps

theorem State.endAborted_keeps (s : State) (sc : Nat) (hκ : ρ.Keeps κ s) :
    ρ.Keeps κ (State.endAborted s sc) := by
  unfold State.endAborted
  repeat' first
    | intro _
    | with_reducible assumption
    | with_reducible apply State.endChain_keeps

theorem State.readWord_keeps (s : State) (sc space addr : Nat) (why : ReadFor) (ph : Phase) (hκ : ρ.Keeps κ s) :
    ρ.Keeps κ (State.readWord s sc space addr why ph) := by
  unfold State.readWord
  repeat' first
    | intro _
    | with_reducible assumption
    | with_reducible apply State.modChain_keeps
    | with_reducible apply State.hostRead_keeps
    | with_reducible apply State.endChain_keeps
    | with_reducible apply State.keeps_ite

theorem State.progress_keeps (s : State) (sc addr space : Nat) (hκ : ρ.Keeps κ s) :
    ρ.Keeps κ (State.progress s sc addr space) := by
  unfold State.progress
  repeat' first
    | intro _
    | with_reducible assumption
    | with_reducible apply State.cxSet_keeps
    | with_reducible apply State.postEntry_keeps
    | with_reducible apply State.keeps_ite

theorem State.becomeCurrent_keeps (s : State) (sc space addr : Nat) (w : Bytes) (hκ : ρ.Keeps κ s) :
    ρ.Keeps κ (State.becomeCurrent s sc space addr w) := by
  unfold State.becomeCurrent
  repeat' first
    | intro _
    | with_reducible assumption
    | with_reducible apply State.modChain_keeps
    | with_reducible apply State.cxPut_keeps
    | with_reducible apply State.endFree_keeps
    | with_reducible apply State.progress_keeps
    | with_reducible apply State.keeps_ite

theorem State.fetchNext_keeps (s : State) (sc space addr : Nat) (hκ : ρ.Keeps κ s) :
    ρ.Keeps κ (State.fetchNext s sc space addr) := by
  unfold State.fetchNext
  repeat' first
    | intro _
    | with_reducible assumption
    | with_reducible apply State.setChain_keeps
    | with_reducible apply State.modChain_keeps
    | with_reducible apply State.cxPut_keeps
    | with_reducible apply State.readWord_keeps
    | with_reducible apply State.becomeCurrent_keeps
    | with_reducible apply State.keeps_ite
    | with_reducible apply okeeps_ite
    | dsimp only
    | split

theorem State.reread_keeps (s : State) (sc : Nat) (hκ : ρ.Keeps κ s) :
    ρ.Keeps κ (State.reread s sc) := by
  unfold State.reread
  repeat' first
    | intro _
    | with_reducible assumption
    | with_reducible apply State.readWord_keeps

theorem State.suspend_keeps (s : State) (sc : Nat) (hκ : ρ.Keeps κ s) :
    ρ.Keeps κ (State.suspend s sc) := by
  unfold State.suspend
  repeat' first
    | intro _
    | with_reducible assumption
    | with_reducible apply State.modChain_keeps
    | with_reducible apply State.setScState_keeps
    | with_reducible apply State.freeSc_keeps
    | with_reducible apply State.saveThread_keeps
    | dsimp only
    | split

theorem State.wordNext_keeps (s : State) (sc : Nat) (hκ : ρ.Keeps κ s) :
    ρ.Keeps κ (State.wordNext s sc) := by
  unfold State.wordNext
  repeat' first
    | intro _
    | with_reducible assumption
    | with_reducible apply State.setChain_keeps
    | with_reducible apply State.fixStatus_keeps
    | with_reducible apply State.fetchNext_keeps
    | with_reducible apply State.keeps_ite

theorem State.wordEnd_keeps (s : State) (sc : Nat) (hκ : ρ.Keeps κ s) :
    ρ.Keeps κ (State.wordEnd s sc) := by
  unfold State.wordEnd
  repeat' first
    | intro _
    | with_reducible assumption
    | with_reducible apply State.modChain_keeps
    | with_reducible apply State.setCxFlag_keeps
    | with_reducible apply State.reread_keeps
    | with_reducible apply State.suspend_keeps
    | with_reducible apply State.wordNext_keeps
    | with_reducible apply State.keeps_ite

theorem State.endData_keeps (s : State) (sc : Nat) (e : EndCond) (hκ : ρ.Keeps κ s) :
    ρ.Keeps κ (State.endData s sc e) := by
  unfold State.endData
  repeat' first
    | intro _
    | with_reducible assumption
    | with_reducible apply State.modChain_keeps
    | with_reducible apply State.tick_keeps
    | with_reducible apply State.countAbsent_keeps
    | with_reducible apply State.abortTx_keeps
    | with_reducible apply State.endChain_keeps
    | with_reducible apply State.endAborted_keeps
    | with_reducible apply State.keeps_ite
    | with_reducible apply okeeps_ite
    | with_reducible apply State.keeps_elim
    | dsimp only
    | split

theorem State.advance_keeps (s : State) (sc : Nat) (hκ : ρ.Keeps κ s) :
    ρ.Keeps κ (State.advance s sc) := by
  unfold State.advance
  repeat' first
    | intro _
    | with_reducible assumption
    | with_reducible apply State.modChain_keeps
    | with_reducible apply State.endShort_keeps
    | with_reducible apply State.wordEnd_keeps
    | with_reducible apply State.endData_keeps
    | with_reducible apply State.keeps_ite
    | with_reducible apply okeeps_ite
    | with_reducible apply State.keeps_elim
    | dsimp only
    | split

theorem State.moveFailed_keeps (s : State) (sc code info : Nat) (ns : Byte) (de : Option Bool := none) (hκ : ρ.Keeps κ s) :
    ρ.Keeps κ (State.moveFailed s sc code info ns de) := by
  unfold State.moveFailed
  repeat' first
    | intro _
    | with_reducible assumption
    | with_reducible apply State.endChain_keeps
    | with_reducible apply State.endAbsent_keeps
    | dsimp only
    | split

theorem State.moved_keeps (s : State) (sc x : Nat) (hκ : ρ.Keeps κ s) :
    ρ.Keeps κ (State.moved s sc x) := by
  unfold State.moved
  repeat' first
    | intro _
    | with_reducible assumption
    | with_reducible apply State.modChain_keeps
    | with_reducible apply State.cxPut_keeps
    | with_reducible apply State.dropXfer_keeps
    | with_reducible apply State.saveList_keeps
    | with_reducible apply State.advance_keeps
    | with_reducible apply State.moveFailed_keeps
    | with_reducible apply State.keeps_getD
    | with_reducible apply Mem.drop_wf
    | dsimp only
    | split

theorem State.startData_keeps (s : State) (sc : Nat) (hκ : ρ.Keeps κ s) :
    ρ.Keeps κ (State.startData s sc) := by
  unfold State.startData
  repeat' first
    | intro _
    | with_reducible assumption
    | with_reducible apply State.modChain_keeps
    | with_reducible apply State.cxPut_keeps
    | with_reducible apply State.newXfer_keeps

theorem State.zeroData_keeps (s : State) (o : Option Nat) (hκ : ρ.Keeps κ s) :
    ρ.Keeps κ (State.zeroData s o) := by
  unfold State.zeroData
  repeat' first
    | intro _
    | with_reducible assumption
    | with_reducible apply State.opData_keeps
    | with_reducible apply State.keeps_ite
    | with_reducible apply okeeps_ite
    | dsimp only
    | split

theorem State.goData_keeps (s : State) (sc : Nat) (hκ : ρ.Keeps κ s) :
    ρ.Keeps κ (State.goData s sc) := by
  unfold State.goData
  repeat' first
    | intro _
    | with_reducible assumption
    | with_reducible apply State.modChain_keeps
    | with_reducible apply State.wordEnd_keeps
    | with_reducible apply State.advance_keeps
    | with_reducible apply State.startData_keeps
    | with_reducible apply State.zeroData_keeps
    | with_reducible apply State.keeps_ite

theorem State.openSecond_keeps (s : State) (sc : Nat) (hκ : ρ.Keeps κ s) :
    ρ.Keeps κ (State.openSecond s sc) := by
  unfold State.openSecond
  repeat' first
    | intro _
    | with_reducible assumption
    | with_reducible apply State.modChain_keeps
    | with_reducible apply State.openOp_keeps
    | with_reducible apply State.firstRelease_keeps
    | with_reducible apply State.goData_keeps
    | with_reducible apply State.keeps_ite
    | with_reducible apply okeeps_ite
    | dsimp only
    | split

theorem State.openWord_keeps (s : State) (sc : Nat) (hκ : ρ.Keeps κ s) :
    ρ.Keeps κ (State.openWord s sc) := by
  unfold State.openWord
  repeat' first
    | intro _
    | with_reducible assumption
    | with_reducible apply State.modChain_keeps
    | with_reducible apply State.openOp_keeps
    | with_reducible apply State.firstRelease_keeps
    | with_reducible apply State.endAbsent_keeps
    | with_reducible apply State.openSecond_keeps
    | with_reducible apply State.newXfer_keeps
    | with_reducible apply State.keeps_ite
    | with_reducible apply okeeps_ite
    | with_reducible apply State.keeps_elim
    | dsimp only
    | split

theorem State.joinWord_keeps (s : State) (sc x : Nat) (hκ : ρ.Keeps κ s) :
    ρ.Keeps κ (State.joinWord s sc x) := by
  unfold State.joinWord
  repeat' first
    | intro _
    | with_reducible assumption
    | with_reducible apply State.modChain_keeps
    | with_reducible apply State.joinTx_keeps
    | with_reducible apply State.abortTx_keeps
    | with_reducible apply State.endAborted_keeps
    | with_reducible apply State.openWord_keeps
    | with_reducible apply State.keeps_ite

theorem State.stageWord_keeps (s : State) (sc : Nat) (hκ : ρ.Keeps κ s) :
    ρ.Keeps κ (State.stageWord s sc) := by
  unfold State.stageWord
  repeat' first
    | intro _
    | with_reducible assumption
    | with_reducible apply State.setBit_keeps
    | with_reducible apply State.modChain_keeps
    | with_reducible apply State.openGroup_keeps
    | with_reducible apply State.txidOutcome_keeps
    | with_reducible apply State.endAborted_keeps
    | with_reducible apply State.joinWord_keeps
    | with_reducible apply State.keeps_ite
    | with_reducible apply okeeps_ite
    | dsimp only
    | split

theorem State.turnedAway_keeps (s : State) (sc : Nat) (ns : List (Nat × Nat)) (hκ : ρ.Keeps κ s) (τ : State)
    (hτ : s.turnedAway sc ns = some τ) : ρ.Keeps κ τ := by
  revert τ
  unfold State.turnedAway
  split
  · exact State.opt_some (State.endRefused_keeps _ _ _ _ hκ)
  · refine State.opt_ite (State.opt_some (State.endChain_keeps _ _ _ hκ))
      (State.opt_ite (State.opt_some (State.modChain_keeps _ _ _ hκ)) ?_)
    split
    · exact State.opt_some (State.keeps_ite (State.endRefused_keeps _ _ _ _ hκ) (State.endAbsent_keeps _ _ _ hκ))
    · intro τ e
      rw [Option.map_eq_some_iff] at e
      obtain ⟨n, _, rfl⟩ := e
      exact State.endAbsent_keeps _ _ _ hκ

theorem State.dataWord_keeps (s : State) (sc : Nat) (hκ : ρ.Keeps κ s) :
    ρ.Keeps κ (State.dataWord s sc) := by
  unfold State.dataWord
  repeat' first
    | intro _
    | with_reducible assumption
    | with_reducible apply State.cxPut_keeps
    | with_reducible apply State.goData_keeps
    | with_reducible apply State.openSecond_keeps
    | with_reducible apply State.openWord_keeps
    | with_reducible apply State.stageWord_keeps
    | with_reducible apply State.keeps_ite
    | with_reducible apply okeeps_ite
    | with_reducible apply State.keeps_getD
    | dsimp only
    | split
    | refine State.Keeps.of_some (State.turnedAway_keeps _ _ _ ?_) (by assumption)

theorem State.haltOps_keeps (s : State) (sc : Nat) (hκ : ρ.Keeps κ s) :
    ρ.Keeps κ (State.haltOps s sc) := by
  unfold State.haltOps
  repeat' first
    | intro _
    | with_reducible assumption
    | with_reducible apply State.modChain_keeps
    | with_reducible apply State.fixStatus_keeps
    | with_reducible apply State.endOp_keeps
    | with_reducible apply State.keeps_ite
    | with_reducible apply okeeps_ite
    | dsimp only
    | split

theorem State.haltChain_keeps (s : State) (sc : Nat) (clear : Bool) (hκ : ρ.Keeps κ s) :
    ρ.Keeps κ (State.haltChain s sc clear) := by
  unfold State.haltChain
  repeat' first
    | intro _
    | with_reducible assumption
    | with_reducible apply State.modChain_keeps
    | with_reducible apply State.setCxFlag_keeps
    | with_reducible apply State.releaseSlots_keeps
    | with_reducible apply State.abortTx_keeps
    | with_reducible apply State.abortDisps_keeps
    | with_reducible apply State.stopXfer_keeps
    | with_reducible apply State.unreserve_keeps
    | with_reducible apply State.fixStatus_keeps
    | with_reducible apply State.haltOps_keeps
    | with_reducible apply State.keeps_ite
    | with_reducible apply okeeps_ite
    | with_reducible apply State.keeps_elim
    | dsimp only
    | split

end Sys2Proof.Machine
end

