-- ==== Sys2Proof/Laws/KRequests.lean ====
section
/-! SUPPORT. What the changes of state in Machine/Requests.lean keep. -/

namespace Sys2Proof.Machine

variable {κ : Kept} {ρ : State}

theorem State.place_keeps (s : State) (sc : Nat) (hκ : ρ.Keeps κ s) (τ : State) (hτ : State.place s sc = some τ) : ρ.Keeps κ τ := by
  unfold State.place at hτ
  try dsimp only at hτ
  repeat' split at hτ
  all_goals cases hτ
  all_goals
    repeat' first
      | intro _
      | with_reducible assumption
      | with_reducible apply State.wf_keeps
      | with_reducible apply State.cxSet_keeps

theorem State.enterFenced_keeps (s : State) (sc cause : Nat) (hκ : ρ.Keeps κ s) :
    ρ.Keeps κ (State.enterFenced s sc cause) := by
  unfold State.enterFenced
  repeat' first
    | intro _
    | with_reducible assumption
    | with_reducible apply State.setChain_keeps
    | with_reducible apply State.jIssue_keeps
    | with_reducible apply State.unhold_keeps
    | with_reducible apply State.keeps_ite
    | with_reducible apply okeeps_ite
    | dsimp only
    | split
    | with_reducible apply State.keeps_jpend_owed

theorem State.retag_keeps (s : State) (a b : ReadFor) (hκ : ρ.Keeps κ s) :
    ρ.Keeps κ (State.retag s a b) := by
  unfold State.retag
  repeat' first
    | intro _
    | with_reducible assumption
    | with_reducible apply State.keeps_ite
    | with_reducible apply okeeps_ite
    | dsimp only
    | split
    | with_reducible apply State.keeps_reads_readWait_fab

theorem State.readFirst_keeps (s : State) (r : StartReq) (p : Option Pre) (hκ : ρ.Keeps κ s) :
    ρ.Keeps κ (State.readFirst s r p) := by
  unfold State.readFirst
  repeat' first
    | intro _
    | with_reducible assumption
    | with_reducible apply State.modChain_keeps
    | with_reducible apply State.hostRead_keeps
    | with_reducible apply State.retag_keeps
    | with_reducible apply State.keeps_ite
    | with_reducible apply okeeps_ite
    | dsimp only
    | split

theorem State.acceptStart_keeps (s : State) (r : StartReq) (w : Option Pre := none) (hκ : ρ.Keeps κ s) :
    ρ.Keeps κ (State.acceptStart s r w) := by
  unfold State.acceptStart
  repeat' first
    | intro _
    | with_reducible assumption
    | with_reducible apply State.setChain_keeps
    | with_reducible apply State.cxPut_keeps
    | with_reducible apply State.cxSet_keeps
    | with_reducible apply State.setScState_keeps
    | with_reducible apply State.jIssue_keeps
    | with_reducible apply State.enterFenced_keeps
    | with_reducible apply State.readFirst_keeps
    | with_reducible apply State.keeps_ite
    | with_reducible apply okeeps_ite
    | with_reducible apply State.keeps_getD
    | dsimp only
    | split
    | refine State.Keeps.of_some (State.place_keeps _ _ ?_) (by assumption)

theorem State.bindThread_keeps (s : State) (sc t : Nat) (hκ : ρ.Keeps κ s) :
    ρ.Keeps κ (State.bindThread s sc t) := by
  unfold State.bindThread
  repeat' first
    | intro _
    | with_reducible assumption
    | with_reducible apply State.setChain_keeps
    | with_reducible apply State.modChain_keeps
    | with_reducible apply State.modThread_keeps
    | with_reducible apply State.cxPut_keeps
    | with_reducible apply State.setScState_keeps
    | with_reducible apply State.teStat_keeps
    | with_reducible apply State.loadThread_keeps
    | with_reducible apply State.endChain_keeps
    | with_reducible apply State.fetchNext_keeps
    | with_reducible apply State.reread_keeps
    | with_reducible apply State.keeps_ite
    | with_reducible apply okeeps_ite
    | dsimp only
    | split

theorem State.readEntries_keeps (s : State) (q : Nat) (hκ : ρ.Keeps κ s) :
    ρ.Keeps κ (State.readEntries s q) := by
  unfold State.readEntries
  repeat' first
    | intro _
    | with_reducible assumption
    | with_reducible apply State.modQueue_keeps
    | with_reducible apply State.hostRead_keeps
    | with_reducible apply State.keeps_ite

theorem State.takeHead_keeps (s : State) (q : Nat) (hκ : ρ.Keeps κ s) : ρ.Keeps κ (State.takeHead s q).1 := by
  unfold State.takeHead
  repeat' first
    | intro _
    | with_reducible assumption
    | with_reducible apply State.wf_keeps
    | with_reducible apply State.setApp_keeps
    | with_reducible apply State.setQueue_keeps
    | with_reducible apply State.keeps_ite

theorem State.publish_keeps (s : State) (q head : Nat) (hκ : ρ.Keeps κ s) :
    ρ.Keeps κ (State.publish s q head) := by
  unfold State.publish
  repeat' first
    | intro _
    | with_reducible assumption
    | with_reducible apply State.jIssue_keeps

theorem State.reserveReply_keeps (s : State) (q : Nat) (hκ : ρ.Keeps κ s) :
    ρ.Keeps κ (State.reserveReply s q) := by
  unfold State.reserveReply
  repeat' first
    | intro _
    | with_reducible assumption
    | with_reducible apply State.setRsv_keeps

theorem State.replyNow_keeps (s : State) (q sc bits reason tag : Nat) (hκ : ρ.Keeps κ s) :
    ρ.Keeps κ (State.replyNow s q sc bits reason tag) := by
  unfold State.replyNow
  repeat' first
    | intro _
    | with_reducible assumption
    | with_reducible apply State.postReply_keeps

theorem State.writeHome_keeps (s : State) (sc : Nat) (hκ : ρ.Keeps κ s) :
    ρ.Keeps κ (State.writeHome s sc) := by
  unfold State.writeHome
  repeat' first
    | intro _
    | with_reducible assumption
    | with_reducible apply State.wf_keeps
    | with_reducible apply State.seedPut_keeps
    | dsimp only
    | split
    | with_reducible apply State.keeps_ctx
    | with_reducible apply State.keeps_dirty

theorem State.evict_keeps (s : State) (k : Nat) (hκ : ρ.Keeps κ s) :
    ρ.Keeps κ (State.evict s k) := by
  unfold State.evict
  repeat' first
    | intro _
    | with_reducible assumption
    | with_reducible apply State.writeHome_keeps
    | with_reducible apply State.keeps_ite
    | with_reducible apply okeeps_ite
    | with_reducible apply Mem.drop_wf
    | dsimp only
    | split
    | with_reducible apply State.keeps_ctx_cached_dirtyWait

theorem State.loadCtx_keeps (s : State) (sc : Nat) (hκ : ρ.Keeps κ s) : ρ.Keeps κ (State.loadCtx s sc).1 := by
  unfold State.loadCtx
  repeat' first
    | intro _
    | with_reducible assumption
    | with_reducible apply State.evict_keeps
    | with_reducible apply State.keeps_ite
    | with_reducible apply State.keeps_elim
    | with_reducible apply State.keeps_fold
    | with_reducible apply SMap.set_wf
    | with_reducible apply Mem.filter_wf
    | with_reducible apply SMap.filter_wf
    | with_reducible apply Mem.wrN_wf
    | with_reducible apply Mem.setLe_wf
    | with_reducible apply Mem.drop_wf
    | with_reducible apply Mem.copyRange_wf
    | dsimp only
    | split
    | with_reducible apply State.keeps_cached
    | with_reducible apply State.keeps_loading

theorem State.trimCache_keeps (s : State) (hκ : ρ.Keeps κ s) :
    ρ.Keeps κ (State.trimCache s) := by
  unfold State.trimCache
  repeat' first
    | intro _
    | with_reducible assumption
    | with_reducible apply State.evict_keeps
    | with_reducible apply State.keeps_ite
    | with_reducible apply okeeps_ite
    | with_reducible apply State.keeps_fold

theorem State.autoTake_keeps (s : State) (r : AutoReq) (hκ : ρ.Keeps κ s) :
    ρ.Keeps κ (State.autoTake s r) := by
  unfold State.autoTake
  repeat' first
    | intro _
    | with_reducible assumption
    | with_reducible apply State.wb_keeps
    | with_reducible apply State.cxSet_keeps
    | with_reducible apply State.setCxFlag_keeps
    | with_reducible apply State.acceptStart_keeps
    | with_reducible apply State.keeps_ite

theorem State.autoGo_keeps  : ∀ (n : List AutoReq) (s : State) (_ : ρ.Keeps κ s),
    ρ.Keeps κ (State.autoGo  n s) := by
  intro n
  induction n with
  | nil =>
    intro s h
    unfold State.autoGo
    repeat' first
      | intro _
      | with_reducible assumption
  | cons x n ih =>
    intro s h
    unfold State.autoGo
    repeat' first
      | intro _
      | with_reducible assumption
      | with_reducible apply ih
      | with_reducible apply State.trimCache_keeps
      | with_reducible apply State.autoTake_keeps
      | with_reducible apply State.keeps_ite
      | with_reducible apply State.keeps_elim
      | with_reducible apply State.keeps_fold
      | with_reducible apply SMap.set_wf
      | with_reducible apply Mem.filter_wf
      | with_reducible apply SMap.filter_wf
      | with_reducible apply Mem.wrN_wf
      | with_reducible apply Mem.setLe_wf
      | with_reducible apply Mem.drop_wf
      | with_reducible apply Mem.copyRange_wf
      | dsimp only
      | with_reducible apply State.keeps_autoWait

end Sys2Proof.Machine
end

