-- ==== Sys2Proof/Laws/KLink.lean ====
section
/-! SUPPORT. What the changes of state in Machine/Link.lean keep. -/

namespace Sys2Proof.Machine

variable {κ : Kept} {ρ : State}

theorem State.beginTraining_keeps (s : State) (p : Nat) (lanes : BitVec 4) (nrz : Bool) (hκ : ρ.Keeps κ s) :
    ρ.Keeps κ (State.beginTraining s p lanes nrz) := by
  unfold State.beginTraining
  repeat' first
    | intro _
    | with_reducible assumption
    | with_reducible apply State.wf_keeps
    | with_reducible apply State.modPort_keeps

theorem State.broadcastCredit_keeps (s : State) (p : Nat) (c : CreditF) (hκ : ρ.Keeps κ s) :
    ρ.Keeps κ (State.broadcastCredit s p c) := by
  unfold State.broadcastCredit
  repeat' first
    | intro _
    | with_reducible assumption
    | with_reducible apply State.modPort_keeps

theorem State.plannedRetrain_keeps (s : State) (p : Nat) (lanes : BitVec 4) (nrz : Bool) (hκ : ρ.Keeps κ s) :
    ρ.Keeps κ (State.plannedRetrain s p lanes nrz) := by
  unfold State.plannedRetrain
  repeat' first
    | intro _
    | with_reducible assumption
    | with_reducible apply State.wf_keeps
    | with_reducible apply State.modPort_keeps
    | with_reducible apply State.broadcastCredit_keeps

theorem State.unplannedRetrain_keeps (s : State) (p : Nat) (hκ : ρ.Keeps κ s) :
    ρ.Keeps κ (State.unplannedRetrain s p) := by
  unfold State.unplannedRetrain
  repeat' first
    | intro _
    | with_reducible assumption
    | with_reducible apply State.setBit_keeps
    | with_reducible apply State.modPort_keeps
    | with_reducible apply State.beginTraining_keeps

theorem State.trainPort_keeps (s : State) (p : Nat) (hκ : ρ.Keeps κ s) :
    ρ.Keeps κ (State.trainPort s p) := by
  unfold State.trainPort
  repeat' first
    | intro _
    | with_reducible assumption
    | with_reducible apply State.modPort_keeps
    | with_reducible apply State.beginTraining_keeps
    | with_reducible apply State.plannedRetrain_keeps
    | with_reducible apply State.keeps_ite
    | with_reducible apply okeeps_ite
    | dsimp only
    | split

theorem State.stagedLost_keeps (s : State) (sc : Nat) (o : NOp) (hκ : ρ.Keeps κ s) :
    ρ.Keeps κ (State.stagedLost s sc o) := by
  unfold State.stagedLost
  repeat' first
    | with_reducible assumption
    | with_reducible apply State.modChain_keeps
    | with_reducible apply State.abortTx_keeps
    | split

theorem State.opLost_keeps (s : State) (key : Nat) (hκ : ρ.Keeps κ s) :
    ρ.Keeps κ (State.opLost s key) := by
  unfold State.opLost
  repeat' first
    | intro _
    | with_reducible assumption
    | with_reducible apply State.stagedLost_keeps
    | with_reducible apply State.modChain_keeps
    | with_reducible apply State.modThread_keeps
    | with_reducible apply State.modChan_keeps
    | with_reducible apply State.countAbsent_keeps
    | with_reducible apply State.inboxDrop_keeps
    | with_reducible apply State.closeEx_keeps
    | with_reducible apply State.winLoad_keeps
    | with_reducible apply State.winStore_keeps
    | with_reducible apply State.endXfer_keeps
    | with_reducible apply State.endAbsent_keeps
    | with_reducible apply State.keeps_ite
    | with_reducible apply okeeps_ite
    | with_reducible apply State.keeps_getD
    | with_reducible apply Mem.drop_wf
    | dsimp only
    | split

theorem State.chainDown_keeps (s : State) (p sc : Nat) (hκ : ρ.Keeps κ s) :
    ρ.Keeps κ (State.chainDown s p sc) := by
  unfold State.chainDown
  repeat' first
    | intro _
    | with_reducible assumption
    | with_reducible apply State.endAbsent_keeps
    | with_reducible apply State.opLost_keeps
    | with_reducible apply State.paceNode_keeps
    | with_reducible apply State.keeps_ite
    | with_reducible apply okeeps_ite
    | with_reducible apply State.keeps_fold

theorem State.portDown_keeps (s : State) (p : Nat) (hκ : ρ.Keeps κ s) :
    ρ.Keeps κ (State.portDown s p) := by
  unfold State.portDown
  repeat' first
    | intro _
    | with_reducible assumption
    | with_reducible apply State.linkDown_keeps
    | with_reducible apply State.opLost_keeps
    | with_reducible apply State.chainDown_keeps
    | with_reducible apply State.paceNode_keeps
    | with_reducible apply State.keeps_ite
    | with_reducible apply okeeps_ite
    | with_reducible apply State.keeps_fold

end Sys2Proof.Machine
end

