-- ==== Sys2Proof/Laws/KPruner.lean ====
section
/-! SUPPORT. What the changes of state in Machine/Pruner.lean keep. -/

namespace Sys2Proof.Machine

variable {κ : Kept} {ρ : State}

theorem State.endService_keeps (s : State) (k : Nat) (defer hold : Bool) (hκ : ρ.Keeps κ s) :
    ρ.Keeps κ (State.endService s k defer hold) := by
  unfold State.endService
  repeat' first
    | intro _
    | with_reducible assumption
    | with_reducible apply State.setBit_keeps
    | with_reducible apply State.bump_keeps
    | with_reducible apply State.modSrc_keeps
    | with_reducible apply State.setSrcSt_keeps
    | with_reducible apply State.keeps_ite

theorem State.stopThread_keeps (s : State) (t : Nat) (hκ : ρ.Keeps κ s) :
    ρ.Keeps κ (State.stopThread s t) := by
  unfold State.stopThread
  repeat' first
    | intro _
    | with_reducible assumption
    | with_reducible apply State.modThread_keeps
    | with_reducible apply State.freeThreadOf_keeps
    | with_reducible apply State.endService_keeps
    | dsimp only
    | split

theorem State.withdrawChain_keeps (s : State) (sc : Nat) (hκ : ρ.Keeps κ s) :
    ρ.Keeps κ (State.withdrawChain s sc) := by
  unfold State.withdrawChain
  repeat' first
    | intro _
    | with_reducible assumption
    | with_reducible apply State.modChain_keeps
    | with_reducible apply State.abortTx_keeps
    | with_reducible apply State.stopXfer_keeps
    | with_reducible apply State.unreserve_keeps
    | with_reducible apply State.fixStatus_keeps
    | with_reducible apply State.haltOps_keeps
    | with_reducible apply State.keeps_ite
    | with_reducible apply okeeps_ite
    | dsimp only
    | split

theorem State.withdrawHalf_keeps (s : State) (h : Nat) (hκ : ρ.Keeps κ s) :
    ρ.Keeps κ (State.withdrawHalf s h) := by
  unfold State.withdrawHalf
  repeat' first
    | intro _
    | with_reducible assumption
    | with_reducible apply State.endXfer_keeps
    | with_reducible apply State.slot_keeps
    | with_reducible apply State.keeps_ite
    | with_reducible apply okeeps_ite
    | with_reducible apply State.keeps_fold
    | dsimp only
    | split

theorem State.fenceTg_keeps (s : State) (g : Nat) (hκ : ρ.Keeps κ s) :
    ρ.Keeps κ (State.fenceTg s g) := by
  unfold State.fenceTg
  repeat' first
    | intro _
    | with_reducible assumption
    | with_reducible apply State.wb_keeps
    | with_reducible apply State.modChain_keeps
    | with_reducible apply State.abortTx_keeps
    | with_reducible apply State.fenceChain_keeps
    | with_reducible apply State.enterFenced_keeps
    | with_reducible apply State.stopThread_keeps
    | with_reducible apply State.keeps_ite
    | with_reducible apply okeeps_ite
    | with_reducible apply State.keeps_fold
    | dsimp only
    | split
    | refine State.Keeps.of_some (State.place_keeps _ _ ?_) (by assumption)

theorem State.fenceBw_keeps (s : State) (h : Nat) (hκ : ρ.Keeps κ s) :
    ρ.Keeps κ (State.fenceBw s h) := by
  unfold State.fenceBw
  repeat' first
    | intro _
    | with_reducible assumption
    | with_reducible apply State.wb_keeps
    | with_reducible apply State.withdrawHalf_keeps

theorem State.fenceKp_keeps (s : State) (p : Nat) (hκ : ρ.Keeps κ s) :
    ρ.Keeps κ (State.fenceKp s p) := by
  unfold State.fenceKp
  repeat' first
    | intro _
    | with_reducible assumption
    | with_reducible apply State.wb_keeps
    | with_reducible apply State.modChain_keeps
    | with_reducible apply State.lbStop_keeps
    | with_reducible apply State.abortTx_keeps
    | with_reducible apply State.endAborted_keeps
    | with_reducible apply State.portDown_keeps
    | with_reducible apply State.keeps_ite
    | with_reducible apply okeeps_ite
    | with_reducible apply State.keeps_fold
    | dsimp only
    | split

theorem State.fenceLane_keeps (s : State) (p l : Nat) (hκ : ρ.Keeps κ s) :
    ρ.Keeps κ (State.fenceLane s p l) := by
  unfold State.fenceLane
  repeat' first
    | intro _
    | with_reducible assumption
    | with_reducible apply State.wb_keeps
    | with_reducible apply State.modPort_keeps
    | with_reducible apply State.plannedRetrain_keeps
    | with_reducible apply State.fenceKp_keeps
    | with_reducible apply State.keeps_ite
    | with_reducible apply okeeps_ite
    | dsimp only
    | split

theorem State.fence_keeps (s : State) (n : Nat) (lane : Option Nat) (hκ : ρ.Keeps κ s) :
    ρ.Keeps κ (State.fence s n lane) := by
  unfold State.fence
  repeat' first
    | intro _
    | with_reducible assumption
    | with_reducible apply State.wb_keeps
    | with_reducible apply State.linkDown_keeps
    | with_reducible apply State.lbStop_keeps
    | with_reducible apply State.enterSafe_keeps
    | with_reducible apply State.fenceTg_keeps
    | with_reducible apply State.fenceBw_keeps
    | with_reducible apply State.fenceKp_keeps
    | with_reducible apply State.fenceLane_keeps
    | with_reducible apply State.keeps_ite
    | with_reducible apply okeeps_ite
    | with_reducible apply State.keeps_fold
    | dsimp only
    | split

theorem State.report_keeps (s : State) (n : Nat) (lane : Option Nat := none) (hκ : ρ.Keeps κ s) :
    ρ.Keeps κ (State.report s n lane) := by
  unfold State.report
  repeat' first
    | intro _
    | with_reducible assumption
    | with_reducible apply State.wb_keeps
    | with_reducible apply State.record_keeps
    | with_reducible apply State.enterSafe_keeps
    | with_reducible apply State.fence_keeps
    | with_reducible apply State.keeps_ite
    | with_reducible apply okeeps_ite
    | dsimp only
    | split

theorem State.setCond_keeps (s : State) (n : Nat) (b : Bool) (hκ : ρ.Keeps κ s) :
    ρ.Keeps κ (State.setCond s n b) := by
  unfold State.setCond
  repeat' first
    | intro _
    | with_reducible assumption
    | with_reducible apply State.report_keeps
    | with_reducible apply State.keeps_ite
    | with_reducible apply okeeps_ite
    | dsimp only
    | split
    | with_reducible apply State.keeps_conds

end Sys2Proof.Machine
end

