-- ==== Sys2Proof/Laws/KDma.lean ====
section
/-! SUPPORT. What the changes of state in Machine/Dma.lean keep. -/

namespace Sys2Proof.Machine

variable {κ : Kept} {ρ : State}

theorem State.chShow_keeps (s : State) (c : Nat) (hκ : ρ.Keeps κ s) :
    ρ.Keeps κ (State.chShow s c) := by
  unfold State.chShow
  repeat' first
    | intro _
    | with_reducible assumption
    | with_reducible apply State.wf_keeps
    | with_reducible apply State.keeps_ite

theorem State.chStop_keeps (s : State) (c : Nat) (hκ : ρ.Keeps κ s) :
    ρ.Keeps κ (State.chStop s c) := by
  unfold State.chStop
  repeat' first
    | intro _
    | with_reducible assumption
    | with_reducible apply State.wf_keeps
    | with_reducible apply State.modChan_keeps

theorem State.chCode_keeps (s : State) (c code : Nat) (hκ : ρ.Keeps κ s) :
    ρ.Keeps κ (State.chCode s c code) := by
  unfold State.chCode
  repeat' first
    | intro _
    | with_reducible assumption
    | with_reducible apply State.modChan_keeps

theorem State.dscOpen_keeps (s : State) (node : Nat) (read : Bool) (sub n : Nat) (owner : NOwner) (hκ : ρ.Keeps κ s)
    (p : State × Nat) (e : s.dscOpen node read sub n owner = some p) : ρ.Keeps κ p.1 := by
  unfold State.dscOpen at e
  rw [Option.map_eq_some_iff] at e
  obtain ⟨oph, _, rfl⟩ := e
  exact State.openOp_keeps _ _ _ _ _ hκ

theorem State.dscBegin_keeps (s : State) (c : Nat) (hκ : ρ.Keeps κ s) :
    ρ.Keeps κ (State.dscBegin s c) := by
  unfold State.dscBegin
  repeat' first
    | intro _
    | with_reducible assumption
    | with_reducible apply State.modChan_keeps
    | with_reducible apply State.countAbsent_keeps
    | with_reducible apply State.chCode_keeps
    | with_reducible apply State.newXfer_keeps
    | with_reducible apply State.keeps_ite
    | with_reducible apply okeeps_ite
    | dsimp only
    | split

theorem State.dscOpenOps_keeps (s : State) (c : Nat) (hκ : ρ.Keeps κ s) :
    ρ.Keeps κ (State.dscOpenOps s c) := by
  unfold State.dscOpenOps
  extract_lets q e op ns
  split
  · exact hκ
  · refine State.keeps_ite hκ (State.keeps_ite (by apply State.endXfer_keeps; exact State.chCode_keeps _ _ _ hκ) ?_)
    split
    · apply State.endXfer_keeps; exact State.chCode_keeps _ _ _ (State.countAbsent_keeps _ _ hκ)
    · refine State.keeps_ite hκ ?_
      extract_lets a b
      have h1 : ρ.Keeps κ (ns.foldl (fun s n => s.firstRelease n.1) s) := State.keeps_fold (fun _ _ h => State.firstRelease_keeps _ _ h) _ hκ
      have ha : ∀ p, a = some p → ρ.Keeps κ p.1 := by
        intro p hp
        simp only [a] at hp
        split at hp
        · rw [Option.map_eq_some_iff] at hp
          obtain ⟨r, hr, rfl⟩ := hp
          exact State.dscOpen_keeps _ _ _ _ _ _ h1 _ hr
        · cases hp; exact h1
      have hb : ∀ p, b = some p → ρ.Keeps κ p.1 := by
        intro p hp
        simp only [b] at hp
        rw [Option.bind_eq_some_iff] at hp
        obtain ⟨r, hr, hp⟩ := hp
        split at hp
        · rw [Option.map_eq_some_iff] at hp
          obtain ⟨t, ht, rfl⟩ := hp
          exact State.dscOpen_keeps _ _ _ _ _ _ (ha _ hr) _ ht
        · cases hp; exact ha _ hr
      clear_value a b
      split
      · exact h1
      · have h2 := hb _ rfl
        exact State.pump_keeps _ _ (State.modChan_keeps _ _ _ (State.modXfer_keeps _ _ _ h2))

theorem State.dscGo_keeps (s : State) (c : Nat) (hκ : ρ.Keeps κ s) :
    ρ.Keeps κ (State.dscGo s c) := by
  unfold State.dscGo
  repeat' first
    | intro _
    | with_reducible assumption
    | with_reducible apply State.modChan_keeps
    | with_reducible apply State.dscBegin_keeps
    | with_reducible apply State.dscOpenOps_keeps
    | with_reducible apply State.keeps_ite

theorem State.dscTake_keeps (s : State) (c : Nat) (e : Bytes) (hκ : ρ.Keeps κ s) :
    ρ.Keeps κ (State.dscTake s c e) := by
  unfold State.dscTake
  repeat' first
    | intro _
    | with_reducible assumption
    | with_reducible apply State.setReg_keeps
    | with_reducible apply State.wf_keeps
    | with_reducible apply State.modChan_keeps
    | with_reducible apply State.tick_keeps
    | with_reducible apply State.freeWrites_keeps
    | with_reducible apply State.publish_keeps
    | with_reducible apply State.reserveReply_keeps
    | with_reducible apply State.chShow_keeps
    | with_reducible apply State.chCode_keeps
    | with_reducible apply State.dscBegin_keeps
    | with_reducible apply State.takeHead_keeps
    | with_reducible apply State.keeps_ite
    | with_reducible apply okeeps_ite
    | dsimp only
    | split

theorem State.dscRun_keeps (s : State) (c op : Nat) (hκ : ρ.Keeps κ s) :
    ρ.Keeps κ (State.dscRun s c op) := by
  unfold State.dscRun
  repeat' first
    | intro _
    | with_reducible assumption
    | with_reducible apply State.dscTake_keeps
    | dsimp only
    | split

theorem State.pend_keeps (s : State) (c n : Nat) (hκ : ρ.Keeps κ s) :
    ρ.Keeps κ (State.pend s c n) := by
  unfold State.pend
  repeat' first
    | intro _
    | with_reducible assumption
    | with_reducible apply State.wf_keeps
    | with_reducible apply State.setBit_keeps
    | with_reducible apply State.keeps_ite

theorem State.dackUp_keeps (s : State) (c : Nat) (hκ : ρ.Keeps κ s) :
    ρ.Keeps κ (State.dackUp s c) := by
  unfold State.dackUp
  repeat' first
    | intro _
    | with_reducible assumption
    | dsimp only
    | split
    | with_reducible apply State.keeps_dack

theorem State.dackDown_keeps (s : State) (c : Nat) (hκ : ρ.Keeps κ s) :
    ρ.Keeps κ (State.dackDown s c) := by
  unfold State.dackDown
  repeat' first
    | intro _
    | with_reducible assumption
    | dsimp only
    | split
    | with_reducible apply State.keeps_dack_dackWait

theorem State.paceShow_keeps (s : State) (c x : Nat) (v : Xfer) (hκ : ρ.Keeps κ s) :
    ρ.Keeps κ (State.paceShow s c x v) := by
  unfold State.paceShow
  repeat' first
    | intro _
    | with_reducible assumption
    | with_reducible apply State.setXfer_keeps
    | with_reducible apply State.dackUp_keeps
    | with_reducible apply State.dackDown_keeps
    | with_reducible apply State.keeps_ite

theorem State.bursts_keeps (c : Nat) : ∀ (n : Nat) (s : State) (_ : ρ.Keeps κ s),
    ρ.Keeps κ (State.bursts c n s) := by
  intro n
  induction n with
  | zero =>
    intro s h
    unfold State.bursts
    repeat' first
      | intro _
      | with_reducible assumption
  | succ n ih =>
    intro s h
    unfold State.bursts
    repeat' first
      | intro _
      | with_reducible assumption
      | with_reducible apply ih
      | with_reducible apply State.wf_keeps
      | with_reducible apply State.setXfer_keeps
      | with_reducible apply State.pump_keeps
      | with_reducible apply State.paceShow_keeps
      | with_reducible apply State.slot_keeps
      | with_reducible apply State.keeps_ite
      | with_reducible apply State.keeps_elim
      | with_reducible apply State.keeps_fold
      | with_reducible apply SMap.set_wf
      | with_reducible apply Mem.filter_wf
      | with_reducible apply SMap.filter_wf
      | with_reducible apply Mem.wrN_wf
      | with_reducible apply Mem.setLe_wf
      | with_reducible apply Mem.drop_wf
      | with_reducible apply Mem.copyRange_wf
      | dsimp only
      | (split <;> try cases ‹_ + 1 = Nat.succ _›)

theorem State.pace_keeps (s : State) (c : Nat) (hκ : ρ.Keeps κ s) :
    ρ.Keeps κ (State.pace s c) := by
  unfold State.pace
  repeat' first
    | intro _
    | with_reducible assumption
    | with_reducible apply State.bursts_keeps

theorem State.dscRecordPut_keeps (s : State) (c code done ns : Nat) (hκ : ρ.Keeps κ s) :
    ρ.Keeps κ (State.dscRecordPut s c code done ns) := by
  unfold State.dscRecordPut
  repeat' first
    | intro _
    | with_reducible assumption
    | with_reducible apply State.bufPut_keeps
    | with_reducible apply State.hostWrite_keeps
    | with_reducible apply State.keeps_ite

theorem State.dscFinish_keeps (s : State) (c code done ns : Nat) (hκ : ρ.Keeps κ s) :
    ρ.Keeps κ (State.dscFinish s c code done ns) := by
  unfold State.dscFinish
  repeat' first
    | intro _
    | with_reducible assumption
    | with_reducible apply State.setReg_keeps
    | with_reducible apply State.wb_keeps
    | with_reducible apply State.setBit_keeps
    | with_reducible apply State.bump_keeps
    | with_reducible apply State.setChan_keeps
    | with_reducible apply State.setRsv_keeps
    | with_reducible apply State.postEntry_keeps
    | with_reducible apply State.modXfer_keeps
    | with_reducible apply State.dropXfer_keeps
    | with_reducible apply State.leaveOp_keeps
    | with_reducible apply State.chShow_keeps
    | with_reducible apply State.chStop_keeps
    | with_reducible apply State.dscRecordPut_keeps
    | with_reducible apply State.keeps_ite
    | with_reducible apply okeeps_ite
    | with_reducible apply Mem.drop_wf
    | dsimp only
    | split

theorem State.chHalt_keeps (s : State) (c : Nat) (hκ : ρ.Keeps κ s) :
    ρ.Keeps κ (State.chHalt s c) := by
  unfold State.chHalt
  repeat' first
    | intro _
    | with_reducible assumption
    | with_reducible apply State.wb_keeps
    | with_reducible apply State.modChan_keeps
    | with_reducible apply State.chShow_keeps
    | with_reducible apply State.chStop_keeps
    | with_reducible apply State.keeps_ite

theorem State.chAbort_keeps (s : State) (c : Nat) (hκ : ρ.Keeps κ s) :
    ρ.Keeps κ (State.chAbort s c) := by
  unfold State.chAbort
  repeat' first
    | intro _
    | with_reducible assumption
    | with_reducible apply State.wb_keeps
    | with_reducible apply State.modChan_keeps
    | with_reducible apply State.endXfer_keeps
    | with_reducible apply State.chShow_keeps
    | with_reducible apply State.chStop_keeps
    | with_reducible apply State.chCode_keeps
    | with_reducible apply State.keeps_ite
    | with_reducible apply okeeps_ite
    | dsimp only
    | split

end Sys2Proof.Machine
end

