-- ==== Sys2Proof/Laws/KWake.lean ====
section
/-! SUPPORT. What the changes of state in Machine/Wake.lean keep. -/

namespace Sys2Proof.Machine

variable {κ : Kept} {ρ : State}

theorem State.persist_keeps (s : State) (hκ : ρ.Keeps κ s) :
    ρ.Keeps κ (State.persist s) := by
  unfold State.persist
  repeat' first
    | intro _
    | with_reducible assumption
    | with_reducible apply State.report_keeps
    | with_reducible apply State.keeps_ite
    | with_reducible apply okeeps_ite
    | with_reducible apply State.keeps_fold

theorem State.startProgress_keeps (s : State) (hκ : ρ.Keeps κ s) :
    ρ.Keeps κ (State.startProgress s) := by
  unfold State.startProgress
  repeat' first
    | intro _
    | with_reducible assumption
    | with_reducible apply State.wf_keeps
    | with_reducible apply State.tick_keeps
    | with_reducible apply State.report_keeps
    | with_reducible apply State.keeps_ite

theorem State.put_keeps (s : State) (a : Nat) (b : Bytes) (hκ : ρ.Keeps κ s) :
    ρ.Keeps κ (State.put s a b) := by
  unfold State.put
  repeat' first
    | intro _
    | with_reducible assumption
    | with_reducible apply State.cwStore_keeps
    | with_reducible apply Mem.wrN_wf
    | dsimp only
    | split
    | with_reducible apply State.keeps_seed

theorem State.twStat_keeps (s : State) (k : Nat) (hκ : ρ.Keeps κ s) :
    ρ.Keeps κ (State.twStat s k) := by
  unfold State.twStat
  repeat' first
    | intro _
    | with_reducible assumption
    | with_reducible apply State.setBit_keeps
    | with_reducible apply State.report_keeps
    | with_reducible apply State.keeps_ite

theorem State.pairPut_keeps (s : State) (role : Nat) (hκ : ρ.Keeps κ s) :
    ρ.Keeps κ (State.pairPut s role) := by
  unfold State.pairPut
  repeat' first
    | intro _
    | with_reducible assumption
    | with_reducible apply State.put_keeps

theorem State.soloGo_keeps (s : State) (hκ : ρ.Keeps κ s) :
    ρ.Keeps κ (State.soloGo s) := by
  unfold State.soloGo
  repeat' first
    | intro _
    | with_reducible assumption
    | with_reducible apply State.setReg_keeps
    | with_reducible apply State.modPort_keeps
    | with_reducible apply State.pairPut_keeps
    | with_reducible apply State.keeps_ite
    | with_reducible apply okeeps_ite
    | with_reducible apply State.keeps_fold
    | dsimp only
    | split
    | with_reducible apply State.keeps_pair

theorem State.heartbeatLost_keeps (s : State) (hκ : ρ.Keeps κ s) :
    ρ.Keeps κ (State.heartbeatLost s) := by
  unfold State.heartbeatLost
  repeat' first
    | intro _
    | with_reducible assumption
    | with_reducible apply State.wb_keeps
    | with_reducible apply State.bump_keeps
    | with_reducible apply State.twStat_keeps
    | with_reducible apply State.soloGo_keeps
    | with_reducible apply State.keeps_ite
    | dsimp only
    | split
    | with_reducible apply State.keeps_pair

theorem State.heartbeatGo_keeps (s : State) (hκ : ρ.Keeps κ s) :
    ρ.Keeps κ (State.heartbeatGo s) := by
  unfold State.heartbeatGo
  repeat' first
    | with_reducible assumption
    | with_reducible apply State.heartbeatLost_keeps
    | with_reducible apply State.keeps_ite
    | intro _

theorem State.settle_keeps (s : State) (hκ : ρ.Keeps κ s) :
    ρ.Keeps κ (State.settle s) := by
  unfold State.settle
  repeat' first
    | intro _
    | with_reducible assumption
    | with_reducible apply State.wb_keeps
    | with_reducible apply State.srcLevel_keeps
    | with_reducible apply State.persist_keeps
    | with_reducible apply State.startProgress_keeps
    | with_reducible apply State.heartbeatGo_keeps
    | with_reducible apply State.keeps_ite
    | with_reducible apply okeeps_ite
    | with_reducible apply State.keeps_fold
    | dsimp only
    | split
    | with_reducible apply State.keeps_errA_errB

theorem State.clearNow_keeps (s : State) (sc : Nat) (h : HaltReq) (hκ : ρ.Keeps κ s) :
    ρ.Keeps κ (State.clearNow s sc h) := by
  unfold State.clearNow
  repeat' first
    | intro _
    | with_reducible assumption
    | with_reducible apply State.jIssue_keeps

theorem State.aer_keeps (s : State) (fn k : Nat) (hκ : ρ.Keeps κ s) :
    ρ.Keeps κ (State.aer s fn k) := by
  unfold State.aer
  repeat' first
    | intro _
    | with_reducible assumption
    | with_reducible apply State.modFnc_keeps

theorem State.readOver_keeps (s : State) (why : ReadFor) (hκ : ρ.Keeps κ s) :
    ρ.Keeps κ (State.readOver s why) := by
  unfold State.readOver
  repeat' first
    | intro _
    | with_reducible assumption
    | with_reducible apply Mem.filter_wf
    | with_reducible apply SMap.filter_wf
    | dsimp only
    | split
    | with_reducible apply State.keeps_reads

theorem State.readDrop_keeps (s : State) (p : ReadFor → Bool) (hκ : ρ.Keeps κ s) :
    ρ.Keeps κ (State.readDrop s p) := by
  unfold State.readDrop
  repeat' first
    | intro _
    | with_reducible assumption
    | with_reducible apply State.keeps_elim
    | with_reducible apply Mem.filter_wf
    | with_reducible apply SMap.filter_wf
    | dsimp only
    | split
    | with_reducible apply State.keeps_reads_readWait_fab

theorem State.dropPrefetch_keeps (s : State) (q : Nat) (hκ : ρ.Keeps κ s) :
    ρ.Keeps κ (State.dropPrefetch s q) := by
  unfold State.dropPrefetch
  repeat' first
    | intro _
    | with_reducible assumption
    | with_reducible apply State.modQueue_keeps
    | with_reducible apply State.readDrop_keeps

theorem State.stopQueue_keeps (s : State) (q : Nat) (hκ : ρ.Keeps κ s) :
    ρ.Keeps κ (State.stopQueue s q) := by
  unfold State.stopQueue
  repeat' first
    | intro _
    | with_reducible assumption
    | with_reducible apply State.setBit_keeps
    | with_reducible apply State.modQueue_keeps
    | with_reducible apply State.message_keeps
    | with_reducible apply State.keeps_ite

theorem State.ctxLost_keeps (s : State) (sc : Nat) (hκ : ρ.Keeps κ s) :
    ρ.Keeps κ (State.ctxLost s sc) := by
  unfold State.ctxLost
  repeat' first
    | intro _
    | with_reducible assumption
    | with_reducible apply State.abortTx_keeps
    | with_reducible apply State.fenceChain_keeps
    | with_reducible apply State.enterFenced_keeps
    | with_reducible apply State.keeps_ite
    | with_reducible apply okeeps_ite
    | dsimp only
    | split

theorem State.faultEffect_keeps (s : State) (n unit : Nat) (hκ : ρ.Keeps κ s) :
    ρ.Keeps κ (State.faultEffect s n unit) := by
  unfold State.faultEffect
  repeat' first
    | intro _
    | with_reducible assumption
    | with_reducible apply State.modChain_keeps
    | with_reducible apply State.endXfer_keeps
    | with_reducible apply State.aer_keeps
    | with_reducible apply State.dropPrefetch_keeps
    | with_reducible apply State.stopQueue_keeps
    | with_reducible apply State.ctxLost_keeps
    | with_reducible apply State.keeps_ite
    | with_reducible apply okeeps_ite
    | with_reducible apply Mem.drop_wf
    | dsimp only
    | split

theorem State.dueGo_keeps  : ∀ (n : Nat) (s : State) (_ : ρ.Keeps κ s),
    ρ.Keeps κ (State.dueGo  n s) := by
  intro n
  induction n with
  | zero =>
    intro s h
    unfold State.dueGo
    repeat' first
      | intro _
      | with_reducible assumption
  | succ n ih =>
    intro s h
    unfold State.dueGo
    repeat' first
      | intro _
      | with_reducible assumption
      | with_reducible apply ih
      | with_reducible apply State.endChain_keeps
      | with_reducible apply State.report_keeps
      | with_reducible apply State.faultEffect_keeps
      | with_reducible apply State.keeps_ite
      | with_reducible apply State.keeps_elim
      | with_reducible apply State.keeps_fold
      | with_reducible apply SMap.set_wf
      | with_reducible apply Mem.filter_wf
      | with_reducible apply SMap.filter_wf
      | with_reducible apply Mem.wrN_wf
      | with_reducible apply Mem.setLe_wf
      | with_reducible apply Mem.drop_wf
      | with_reducible apply Mem.copyRange_wf
      | dsimp only
      | (split <;> try cases ‹_ + 1 = Nat.succ _›)
      | with_reducible apply State.keeps_due

theorem State.haltReply_keeps (s : State) (sc : Nat) (h : HaltReq) (hκ : ρ.Keeps κ s) :
    ρ.Keeps κ (State.haltReply s sc h) := by
  unfold State.haltReply
  repeat' first
    | intro _
    | with_reducible assumption
    | with_reducible apply State.postReply_keeps
    | with_reducible apply State.keeps_ite

theorem State.haltReplies_keeps (s : State) (sc : Nat) (hs : List HaltReq) (hκ : ρ.Keeps κ s) :
    ρ.Keeps κ (State.haltReplies s sc hs) := by
  unfold State.haltReplies
  repeat' first
    | intro _
    | with_reducible assumption
    | with_reducible apply State.haltReply_keeps
    | with_reducible apply State.keeps_fold

theorem State.pubHead_keeps (s : State) (q head cnt : Nat) (hκ : ρ.Keeps κ s) :
    ρ.Keeps κ (State.pubHead s q head cnt) := by
  unfold State.pubHead
  repeat' first
    | intro _
    | with_reducible assumption
    | with_reducible apply State.setReg_keeps
    | with_reducible apply State.set64_keeps

theorem State.writeEntry_keeps (s : State) (q : Nat) (e : Bytes) (pos cnt : Nat) (sq : Option Nat) (reply : Bool) (hκ : ρ.Keeps κ s) :
    ρ.Keeps κ (State.writeEntry s q e pos cnt sq reply) := by
  unfold State.writeEntry
  repeat' first
    | intro _
    | with_reducible assumption
    | with_reducible apply State.setReg_keeps
    | with_reducible apply State.set64_keeps
    | with_reducible apply State.setRsv_keeps
    | with_reducible apply State.cqWrite_keeps
    | with_reducible apply State.keeps_ite

theorem State.statusPosted_keeps (s : State) (sc : Nat) (hκ : ρ.Keeps κ s) :
    ρ.Keeps κ (State.statusPosted s sc) := by
  unfold State.statusPosted
  repeat' first
    | intro _
    | with_reducible assumption
    | with_reducible apply State.setChain_keeps
    | with_reducible apply State.setScState_keeps
    | with_reducible apply State.clearNow_keeps
    | with_reducible apply State.haltReplies_keeps
    | with_reducible apply State.keeps_ite
    | with_reducible apply okeeps_ite
    | with_reducible apply Mem.filter_wf
    | with_reducible apply SMap.filter_wf
    | dsimp only
    | split

theorem State.payOne_keeps (s : State) (e : JEff) (hκ : ρ.Keeps κ s) : ρ.Keeps κ (State.payOne s e) := by
  unfold State.payOne
  split
  · dsimp only
    split
    · exact State.statusPosted_keeps _ _ (State.writeEntry_keeps _ _ _ _ _ _ _ hκ)
    · exact State.writeEntry_keeps _ _ _ _ _ _ _ hκ
  · exact State.postEntry_keeps _ _ _ _ _ _ _ _ hκ
  · exact hκ

set_option maxRecDepth 20000 in
theorem State.payOwedGo_succ (n : Nat) (s : State) : State.payOwedGo (n + 1) s = (match s.owed.find? fun e => s.payable e with
    | some e => State.payOwedGo n ({ s with owed := s.owed.erase e }.payOne e) | none => s) := rfl

theorem State.payOwedGo_keeps : ∀ (n : Nat) (s : State) (_ : ρ.Keeps κ s), ρ.Keeps κ (State.payOwedGo n s) := by
  intro n
  induction n with
  | zero => intro s h; exact h
  | succ n ih =>
    intro s h
    rw [State.payOwedGo_succ]
    split
    · exact ih _ (State.payOne_keeps _ _ (State.keeps_owed h _))
    · exact h

theorem State.payOwed_keeps (s : State) (hκ : ρ.Keeps κ s) :
    ρ.Keeps κ (State.payOwed s) := by
  unfold State.payOwed
  repeat' first
    | intro _
    | with_reducible assumption
    | with_reducible apply State.payOwedGo_keeps

theorem State.owes_keeps (s : State) (e : JEff) (hκ : ρ.Keeps κ s) :
    ρ.Keeps κ (State.owes s e) := by
  unfold State.owes
  repeat' first
    | intro _
    | with_reducible assumption
    | with_reducible apply State.payOwed_keeps
    | dsimp only
    | split
    | with_reducible apply State.keeps_owed

theorem State.orphaned_keeps (s : State) (x : Nat) (hκ : ρ.Keeps κ s) :
    ρ.Keeps κ (State.orphaned s x) := by
  unfold State.orphaned
  repeat' first
    | intro _
    | with_reducible assumption
    | with_reducible apply State.setXfer_keeps
    | with_reducible apply State.unbind_keeps
    | with_reducible apply State.dropXfer_keeps
    | with_reducible apply State.keeps_ite
    | with_reducible apply okeeps_ite
    | with_reducible apply Mem.drop_wf
    | dsimp only
    | split

theorem State.inboxTidy_keeps (s : State) (hκ : ρ.Keeps κ s) :
    ρ.Keeps κ (State.inboxTidy s) := by
  unfold State.inboxTidy
  repeat' first
    | intro _
    | with_reducible assumption
    | with_reducible apply State.inboxDrop_keeps
    | with_reducible apply State.keeps_ite
    | with_reducible apply okeeps_ite
    | with_reducible apply State.keeps_elim
    | with_reducible apply State.keeps_fold

theorem State.xfersGo_keeps (s : State) (hκ : ρ.Keeps κ s) :
    ρ.Keeps κ (State.xfersGo s) := by
  unfold State.xfersGo
  repeat' first
    | intro _
    | with_reducible assumption
    | with_reducible apply State.pumpAll_keeps
    | with_reducible apply State.evictDone_keeps
    | with_reducible apply State.orphaned_keeps
    | with_reducible apply State.inboxTidy_keeps
    | with_reducible apply State.keeps_ite
    | with_reducible apply okeeps_ite
    | with_reducible apply State.keeps_elim
    | with_reducible apply State.keeps_fold

theorem State.fenced2_keeps (s : State) (sc : Nat) (hκ : ρ.Keeps κ s) :
    ρ.Keeps κ (State.fenced2 s sc) := by
  unfold State.fenced2
  repeat' first
    | intro _
    | with_reducible assumption
    | with_reducible apply State.setChain_keeps
    | with_reducible apply State.releaseSlots_keeps
    | with_reducible apply State.enterFenced_keeps
    | with_reducible apply State.clearNow_keeps
    | with_reducible apply State.keeps_ite

theorem State.answerLost_keeps (s : State) (sc : Nat) (hκ : ρ.Keeps κ s) :
    ρ.Keeps κ (State.answerLost s sc) := by
  unfold State.answerLost
  repeat' first
    | intro _
    | with_reducible assumption
    | with_reducible apply State.endAbsent_keeps
    | with_reducible apply State.endRefused_keeps
    | with_reducible apply State.keeps_ite
    | with_reducible apply okeeps_ite
    | with_reducible apply Mem.filter_wf
    | with_reducible apply SMap.filter_wf
    | dsimp only
    | split
    | with_reducible apply State.keeps_resq

set_option maxRecDepth 20000 in
theorem State.txidGo_succ (n : Nat) (s : State) : State.txidGo (n + 1) s =
    (match s.freeTxid, s.oldestIn .txidWait with | some _, some sc => State.txidGo n (s.stageWord sc) | _, _ => s) := rfl

theorem State.txidGo_keeps : ∀ (n : Nat) (s : State) (_ : ρ.Keeps κ s), ρ.Keeps κ (State.txidGo n s) := by
  intro n
  induction n with
  | zero => intro s h; exact h
  | succ n ih =>
    intro s h
    rw [State.txidGo_succ]
    split
    · exact ih _ (State.stageWord_keeps _ _ h)
    · exact h

theorem State.checkpoint_keeps (s : State) (start : Nat) (hκ : ρ.Keeps κ s) :
    ρ.Keeps κ (State.checkpoint s start) := by
  unfold State.checkpoint
  repeat' first
    | intro _
    | with_reducible assumption
    | with_reducible apply State.setReg_keeps
    | with_reducible apply State.bump_keeps
    | with_reducible apply State.seedPut_keeps
    | with_reducible apply State.jReclaim_keeps
    | with_reducible apply State.queueHome_keeps
    | with_reducible apply State.writeHome_keeps
    | with_reducible apply State.keeps_elim
    | with_reducible apply State.keeps_fold
    | dsimp only
    | split
    | with_reducible apply State.keeps_ckFrom
    | with_reducible apply State.keeps_dirty
    | with_reducible apply State.keeps_dirtyWait

theorem State.checkpointGo_keeps (s : State) (hκ : ρ.Keeps κ s) :
    ρ.Keeps κ (State.checkpointGo s) := by
  unfold State.checkpointGo
  repeat' first
    | intro _
    | with_reducible assumption
    | with_reducible apply State.checkpoint_keeps
    | with_reducible apply State.keeps_ite
    | with_reducible apply okeeps_ite
    | dsimp only
    | split

theorem State.wake_keeps (s : State) (hκ : ρ.Keeps κ s) :
    ρ.Keeps κ (State.wake s) := by
  unfold State.wake
  repeat' first
    | intro _
    | with_reducible assumption
    | with_reducible apply State.fabAll_keeps
    | with_reducible apply State.resRun_keeps
    | with_reducible apply State.dataWord_keeps
    | with_reducible apply State.readEntries_keeps
    | with_reducible apply State.trimCache_keeps
    | with_reducible apply State.dscGo_keeps
    | with_reducible apply State.pace_keeps
    | with_reducible apply State.payOwed_keeps
    | with_reducible apply State.xfersGo_keeps
    | with_reducible apply State.fenced2_keeps
    | with_reducible apply State.answerLost_keeps
    | with_reducible apply State.checkpointGo_keeps
    | with_reducible apply State.answer_keeps
    | with_reducible apply State.slot_keeps
    | with_reducible apply State.jAssign_keeps
    | with_reducible apply State.reserveGo_keeps
    | with_reducible apply State.txidGo_keeps
    | with_reducible apply State.readGo_keeps
    | with_reducible apply State.autoGo_keeps
    | with_reducible apply State.keeps_ite
    | with_reducible apply okeeps_ite
    | with_reducible apply State.keeps_fold

theorem State.finish_keeps (s : State) (hκ : ρ.Keeps κ s) :
    ρ.Keeps κ (State.finish s) := by
  unfold State.finish
  repeat' first
    | intro _
    | with_reducible assumption
    | with_reducible apply State.settle_keeps
    | with_reducible apply State.wake_keeps
    | with_reducible apply State.dueGo_keeps

theorem fin_keeps (s : State) (hκ : ρ.Keeps κ s) :
    OKeeps κ ρ (fin s) := by
  unfold fin
  repeat' first
    | intro _
    | with_reducible assumption
    | with_reducible apply State.finish_keeps
    | with_reducible apply okeeps_next

end Sys2Proof.Machine
end

