-- ==== Sys2Proof/Laws/KDurable.lean ====
section
/-! SUPPORT. What the changes of state in Machine/Durable.lean keep. -/

namespace Sys2Proof.Machine

variable {κ : Kept} {ρ : State}

theorem State.wipeCtx_keeps (s : State) (sc home : Nat) (hκ : ρ.Keeps κ s) :
    ρ.Keeps κ (State.wipeCtx s sc home) := by
  unfold State.wipeCtx
  repeat' first
    | intro _
    | with_reducible assumption
    | with_reducible apply State.cxPut_keeps

theorem State.cleared_keeps (s : State) (sc : Nat) (h : HaltReq) (hκ : ρ.Keeps κ s) :
    ρ.Keeps κ (State.cleared s sc h) := by
  unfold State.cleared
  repeat' first
    | intro _
    | with_reducible assumption
    | with_reducible apply State.setChain_keeps
    | with_reducible apply State.setCxFlag_keeps
    | with_reducible apply State.setScState_keeps
    | with_reducible apply State.acceptStart_keeps
    | with_reducible apply State.haltReply_keeps
    | with_reducible apply State.wipeCtx_keeps
    | with_reducible apply State.keeps_ite

theorem State.modified_keeps (s : State) (sc : Nat) (e : Bytes) (q : Nat) (hκ : ρ.Keeps κ s) :
    ρ.Keeps κ (State.modified s sc e q) := by
  unfold State.modified
  repeat' first
    | intro _
    | with_reducible assumption
    | with_reducible apply State.cxSet_keeps
    | with_reducible apply State.setCxFlag_keeps
    | with_reducible apply State.postReply_keeps
    | with_reducible apply State.keeps_ite

theorem State.endCommit_keeps (s : State) (x : Nat) (hκ : ρ.Keeps κ s) :
    ρ.Keeps κ (State.endCommit s x) := by
  unfold State.endCommit
  repeat' first
    | intro _
    | with_reducible assumption
    | with_reducible apply State.setCxFlag_keeps
    | with_reducible apply State.countAbsent_keeps
    | with_reducible apply State.outcome_keeps
    | with_reducible apply State.fixStatus_keeps
    | with_reducible apply State.endChain_keeps
    | with_reducible apply State.wordEnd_keeps
    | with_reducible apply State.answered_keeps
    | with_reducible apply State.keeps_ite
    | with_reducible apply okeeps_ite
    | with_reducible apply State.keeps_elim
    | dsimp only
    | split

theorem State.txDone_keeps (s : State) (x : Nat) (hκ : ρ.Keeps κ s) :
    ρ.Keeps κ (State.txDone s x) := by
  unfold State.txDone
  repeat' first
    | intro _
    | with_reducible assumption
    | with_reducible apply State.setTxn_keeps
    | with_reducible apply State.releaseSlots_keeps
    | with_reducible apply State.grOpen_keeps
    | with_reducible apply State.endCommit_keeps

theorem State.joined_keeps (s : State) (x : Nat) (nodes : List Nat) (hκ : ρ.Keeps κ s) :
    ρ.Keeps κ (State.joined s x nodes) := by
  unfold State.joined
  repeat' first
    | intro _
    | with_reducible assumption
    | with_reducible apply State.modTxn_keeps
    | with_reducible apply State.openWord_keeps
    | with_reducible apply State.keeps_ite

theorem State.queueSeq_keeps (s : State) (q jseq : Nat) (hκ : ρ.Keeps κ s) :
    ρ.Keeps κ (State.queueSeq s q jseq) := by
  unfold State.queueSeq
  repeat' first
    | intro _
    | with_reducible assumption
    | with_reducible apply State.modQueue_keeps

theorem State.applyEff_keeps (s : State) (jseq : Nat) (e : JEff) (hκ : ρ.Keeps κ s) :
    ρ.Keeps κ (State.applyEff s jseq e) := by
  unfold State.applyEff
  repeat' first
    | intro _
    | with_reducible assumption
    | with_reducible apply State.setReg_keeps
    | with_reducible apply State.wf_keeps
    | with_reducible apply State.bump_keeps
    | with_reducible apply State.modTxn_keeps
    | with_reducible apply State.cxRaw_keeps
    | with_reducible apply State.cxSet_keeps
    | with_reducible apply State.setScState_keeps
    | with_reducible apply State.postStatus_keeps
    | with_reducible apply State.grOpen_keeps
    | with_reducible apply State.tellMembers_keeps
    | with_reducible apply State.clearNow_keeps
    | with_reducible apply State.pubHead_keeps
    | with_reducible apply State.owes_keeps
    | with_reducible apply State.cleared_keeps
    | with_reducible apply State.modified_keeps
    | with_reducible apply State.txDone_keeps
    | with_reducible apply State.joined_keeps
    | with_reducible apply State.queueSeq_keeps
    | with_reducible apply State.keeps_ite
    | with_reducible apply okeeps_ite
    | dsimp only
    | split
    | with_reducible apply State.keeps_vstage

theorem State.drainDurable_keeps  : ∀ (n : Nat) (s : State) (_ : ρ.Keeps κ s),
    ρ.Keeps κ (State.drainDurable  n s) := by
  intro n
  induction n with
  | zero =>
    intro s h
    unfold State.drainDurable
    repeat' first
      | intro _
      | with_reducible assumption
  | succ n ih =>
    intro s h
    unfold State.drainDurable
    repeat' first
      | intro _
      | with_reducible assumption
      | with_reducible apply ih
      | with_reducible apply State.applyEff_keeps
      | with_reducible apply State.keeps_ite
      | with_reducible apply State.keeps_elim
      | with_reducible apply State.keeps_fold
      | with_reducible apply SMap.set_wf
      | with_reducible apply Mem.filter_wf
      | with_reducible apply SMap.filter_wf
      | with_reducible apply Mem.wrN_wf
      | with_reducible apply Mem.setLe_wf
      | with_reducible apply Mem.drop_wf
      | with_reducible apply Mem.copyRange_wf
      | dsimp only
      | (split <;> try cases ‹_ + 1 = Nat.succ _›)
      | with_reducible apply State.keeps_jpend

theorem State.confirmNext_keeps (s : State) (hκ : ρ.Keeps κ s) :
    ρ.Keeps κ (State.confirmNext s) := by
  unfold State.confirmNext
  repeat' first
    | intro _
    | with_reducible assumption
    | with_reducible apply State.cwClear_keeps
    | with_reducible apply State.slot_keeps
    | with_reducible apply State.keeps_ite
    | with_reducible apply okeeps_ite
    | with_reducible apply State.keeps_getD
    | with_reducible apply Mem.wrN_wf
    | dsimp only
    | split
    | with_reducible apply State.keeps_seed_jpend

theorem execJournalRecordDurable_keeps (s : State) (hκ : ρ.Keeps κ s) :
    OKeeps κ ρ (execJournalRecordDurable s) := by
  unfold execJournalRecordDurable
  repeat' first
    | intro _
    | with_reducible assumption
    | with_reducible apply fin_keeps
    | with_reducible apply State.confirmNext_keeps
    | with_reducible apply State.drainDurable_keeps
    | with_reducible apply State.keeps_ite
    | with_reducible apply okeeps_ite
    | with_reducible apply okeeps_next
    | with_reducible apply Mem.drop_wf
    | dsimp only
    | split
    | with_reducible apply State.keeps_jpend

end Sys2Proof.Machine
end

