-- ==== Sys2Proof/Laws/KAccess.lean ====
section
/-! SUPPORT. What the changes of state in Machine/Access.lean keep. -/

namespace Sys2Proof.Machine

variable {κ : Kept} {ρ : State}

theorem State.unserved_keeps (s : State) (who : Req) (hκ : ρ.Keeps κ s) :
    ρ.Keeps κ (State.unserved s who) := by
  unfold State.unserved
  repeat' first
    | intro _
    | with_reducible assumption
    | with_reducible apply State.aer_keeps
    | with_reducible apply State.keeps_ite
    | with_reducible apply okeeps_ite
    | dsimp only
    | split

theorem State.discards_keeps (s : State) (who : Req) (form : ReqForm) (hκ : ρ.Keeps κ s) (τ : State)
    (hτ : s.discards who form = some τ) : ρ.Keeps κ τ := by
  revert τ
  unfold State.discards
  split
  · exact State.opt_some (State.aer_keeps _ _ _ (State.bump_keeps _ _ _ (State.setBit_keeps _ _ _ hκ)))
  · exact State.opt_ite (State.opt_some (State.aer_keeps _ _ _ (State.bump_keeps _ _ _ (State.setBit_keeps _ _ _ hκ)))) State.opt_none
  · exact State.opt_none

theorem State.replyUr_keeps (s : State) (hκ : ρ.Keeps κ s) :
    ρ.Keeps κ (State.replyUr s) := by
  unfold State.replyUr
  repeat' first
    | intro _
    | with_reducible assumption
    | with_reducible apply State.bump_keeps
    | dsimp only
    | split
    | with_reducible apply State.keeps_reply

theorem regGo_keeps (s : State) (who : Req) (off : Nat) (k : State → State) (hκ : ρ.Keeps κ s)
    (hk : ∀ s, ρ.Keeps κ s → ρ.Keeps κ (k s)) : OKeeps κ ρ (regGo s who off k) := by
  unfold regGo
  repeat' first
    | intro _
    | with_reducible assumption
    | with_reducible apply hk
    | with_reducible apply okeeps_ite
    | with_reducible apply okeeps_next
    | with_reducible apply fin_keeps
    | with_reducible apply State.unserved_keeps

theorem regGuarded_keeps (s : State) (who : Req) (k : State → State) (hκ : ρ.Keeps κ s)
    (hk : ∀ s, ρ.Keeps κ s → ρ.Keeps κ (k s)) : OKeeps κ ρ (regGuarded s who k) := by
  unfold regGuarded
  repeat' first
    | intro _
    | with_reducible assumption
    | with_reducible apply hk
    | with_reducible apply okeeps_ite
    | with_reducible apply okeeps_next
    | with_reducible apply fin_keeps
    | with_reducible apply State.unserved_keeps

theorem State.softWrite_keeps (s : State) (who : Req) (off : Nat) (v : Word) (hκ : ρ.Keeps κ s) :
    ρ.Keeps κ (State.softWrite s who off v) := by
  unfold State.softWrite
  repeat' first
    | intro _
    | with_reducible assumption
    | with_reducible apply State.setReg_keeps
    | with_reducible apply State.wb_keeps
    | with_reducible apply State.setApp_keeps
    | with_reducible apply State.queueHome_keeps
    | with_reducible apply State.keeps_ite
    | with_reducible apply okeeps_ite
    | dsimp only
    | split

theorem State.applyGroups_keeps (s : State) (groups : Nat) (hκ : ρ.Keeps κ s) :
    ρ.Keeps κ (State.applyGroups s groups) := by
  unfold State.applyGroups
  repeat' first
    | intro _
    | with_reducible assumption
    | with_reducible apply State.setReg_keeps
    | with_reducible apply State.setApp_keeps
    | with_reducible apply State.keeps_ite
    | with_reducible apply okeeps_ite
    | with_reducible apply State.keeps_fold
    | dsimp only
    | split

end Sys2Proof.Machine
end

