-- ==== Sys2Proof/Laws/KQueueCmds.lean ====
section
/-! SUPPORT. What the changes of state in Machine/QueueCmds.lean keep. -/

namespace Sys2Proof.Machine

variable {κ : Kept} {ρ : State}

theorem State.bell_keeps (s : State) (q v : Nat) (hκ : ρ.Keeps κ s) :
    ρ.Keeps κ (State.bell s q v) := by
  unfold State.bell
  repeat' first
    | intro _
    | with_reducible assumption
    | with_reducible apply State.setReg_keeps
    | with_reducible apply State.modQueue_keeps
    | with_reducible apply State.tick_keeps
    | with_reducible apply State.keeps_ite

theorem State.doorbell_keeps (s : State) (fn q off len v : Nat) (hκ : ρ.Keeps κ s) :
    ρ.Keeps κ (State.doorbell s fn q off len v) := by
  unfold State.doorbell
  repeat' first
    | intro _
    | with_reducible assumption
    | with_reducible apply State.bell_keeps
    | with_reducible apply State.keeps_ite

theorem execDoorbell_keeps (fn q off len : Nat) (v : Word) (s : State) (hκ : ρ.Keeps κ s) :
    OKeeps κ ρ (execDoorbell fn q off len v s) := by
  unfold execDoorbell
  repeat' first
    | intro _
    | with_reducible assumption
    | with_reducible apply fin_keeps
    | with_reducible apply State.unserved_keeps
    | with_reducible apply State.doorbell_keeps
    | with_reducible apply State.keeps_ite
    | with_reducible apply okeeps_ite
    | with_reducible apply okeeps_next

theorem State.readError_keeps (s : State) (fn : Nat) (e : RdErr) (hκ : ρ.Keeps κ s) :
    ρ.Keeps κ (State.readError s fn e) := by
  unfold State.readError
  repeat' first
    | intro _
    | with_reducible assumption
    | with_reducible apply State.setBit_keeps
    | with_reducible apply State.bump_keeps
    | with_reducible apply State.aer_keeps
    | dsimp only
    | split

theorem State.pollMiss_keeps (s : State) (q : Nat) (hκ : ρ.Keeps κ s) :
    ρ.Keeps κ (State.pollMiss s q) := by
  unfold State.pollMiss
  repeat' first
    | intro _
    | with_reducible assumption
    | with_reducible apply State.wf_keeps
    | with_reducible apply State.modQueue_keeps
    | with_reducible apply State.keeps_ite

theorem execPollRead_keeps (q : Nat) (s : State) (hκ : ρ.Keeps κ s) :
    OKeeps κ ρ (execPollRead q s) := by
  unfold execPollRead
  repeat' first
    | intro _
    | with_reducible assumption
    | with_reducible apply State.modQueue_keeps
    | with_reducible apply fin_keeps
    | with_reducible apply State.keeps_ite
    | with_reducible apply okeeps_ite
    | with_reducible apply okeeps_next

theorem State.chipWords_keeps (s : State) (fn a : Nat) (hκ : ρ.Keeps κ s) : ρ.Keeps κ (State.chipWords s fn a).1 := by
  unfold State.chipWords
  repeat' first
    | intro _
    | with_reducible assumption
    | with_reducible apply State.metErr_keeps
    | with_reducible apply State.keeps_ite
    | with_reducible apply State.keeps_elim
    | with_reducible apply State.keeps_fold
    | with_reducible apply SMap.set_wf
    | with_reducible apply Mem.filter_wf
    | with_reducible apply SMap.filter_wf
    | with_reducible apply Mem.wrN_wf
    | with_reducible apply Mem.setLe_wf
    | with_reducible apply Mem.drop_wf
    | with_reducible apply Mem.copyRange_wf
    | dsimp only
    | split

theorem State.keepEntry_keeps (s : State) (q pos : Nat) (e : Bytes) (taken : Bool) (hκ : ρ.Keeps κ s) :
    ρ.Keeps κ (State.keepEntry s q pos e taken) := by
  unfold State.keepEntry
  repeat' first
    | intro _
    | with_reducible assumption
    | with_reducible apply State.modQueue_keeps
    | with_reducible apply State.hostRead_keeps
    | with_reducible apply State.chipWords_keeps
    | with_reducible apply State.keeps_ite

theorem State.gotEntry_keeps (s : State) (q : Nat) (e : Bytes) (hκ : ρ.Keeps κ s) :
    ρ.Keeps κ (State.gotEntry s q e) := by
  unfold State.gotEntry
  repeat' first
    | intro _
    | with_reducible assumption
    | with_reducible apply State.setBit_keeps
    | with_reducible apply State.setQueue_keeps
    | with_reducible apply State.modQueue_keeps
    | with_reducible apply State.injDone_keeps
    | with_reducible apply State.report_keeps
    | with_reducible apply State.readOver_keeps
    | with_reducible apply State.pollMiss_keeps
    | with_reducible apply State.keepEntry_keeps
    | with_reducible apply State.keeps_ite

theorem State.entryFailed_keeps (s : State) (q : Nat) (err : RdErr) (hκ : ρ.Keeps κ s) :
    ρ.Keeps κ (State.entryFailed s q err) := by
  unfold State.entryFailed
  repeat' first
    | intro _
    | with_reducible assumption
    | with_reducible apply State.setBit_keeps
    | with_reducible apply State.modQueue_keeps
    | with_reducible apply State.readOver_keeps
    | with_reducible apply State.readError_keeps
    | with_reducible apply State.pollMiss_keeps
    | with_reducible apply State.keeps_ite

theorem execEntryReadDone_keeps (q : Nat) (e : Bytes) (s : State) (hκ : ρ.Keeps κ s) :
    OKeeps κ ρ (execEntryReadDone q e s) := by
  unfold execEntryReadDone
  repeat' first
    | intro _
    | with_reducible assumption
    | with_reducible apply fin_keeps
    | with_reducible apply State.gotEntry_keeps
    | with_reducible apply State.entryFailed_keeps
    | with_reducible apply State.hostIn_keeps
    | with_reducible apply State.keeps_ite
    | with_reducible apply okeeps_ite
    | with_reducible apply okeeps_next

theorem execEntryReadError_keeps (q : Nat) (err : RdErr) (s : State) (hκ : ρ.Keeps κ s) :
    OKeeps κ ρ (execEntryReadError q err s) := by
  unfold execEntryReadError
  repeat' first
    | intro _
    | with_reducible assumption
    | with_reducible apply fin_keeps
    | with_reducible apply State.entryFailed_keeps
    | with_reducible apply State.hostIn_keeps
    | with_reducible apply State.keeps_ite
    | with_reducible apply okeeps_ite
    | with_reducible apply okeeps_next

theorem execEntryRereadTimer_keeps (q : Nat) (s : State) (hκ : ρ.Keeps κ s) :
    OKeeps κ ρ (execEntryRereadTimer q s) := by
  unfold execEntryRereadTimer
  repeat' first
    | intro _
    | with_reducible assumption
    | with_reducible apply State.modQueue_keeps
    | with_reducible apply fin_keeps
    | with_reducible apply State.keeps_ite
    | with_reducible apply okeeps_ite
    | with_reducible apply okeeps_next

theorem execDbLagReread_keeps (q : Nat) (s : State) (hκ : ρ.Keeps κ s) :
    OKeeps κ ρ (execDbLagReread q s) := by
  unfold execDbLagReread
  repeat' first
    | intro _
    | with_reducible assumption
    | with_reducible apply State.modQueue_keeps
    | with_reducible apply fin_keeps
    | with_reducible apply State.keeps_ite
    | with_reducible apply okeeps_ite
    | with_reducible apply okeeps_next

theorem State.enableQueue_keeps (s : State) (q : Nat) (v : Word) (who : Req) (hκ : ρ.Keeps κ s) :
    ρ.Keeps κ (State.enableQueue s q v who) := by
  unfold State.enableQueue
  repeat' first
    | intro _
    | with_reducible assumption
    | with_reducible apply State.setReg_keeps
    | with_reducible apply State.wf_keeps
    | with_reducible apply State.wb_keeps
    | with_reducible apply State.setBit_keeps
    | with_reducible apply State.set64_keeps
    | with_reducible apply State.setQueue_keeps
    | with_reducible apply State.queueHome_keeps
    | with_reducible apply State.softWrite_keeps
    | with_reducible apply State.keeps_ite

theorem execQueueEnable_keeps (who : Req) (q : Nat) (v : Word) (s : State) (hκ : ρ.Keeps κ s) :
    OKeeps κ ρ (execQueueEnable who q v s) := by
  unfold execQueueEnable
  repeat' first
    | intro _
    | with_reducible assumption
    | with_reducible apply regGo_keeps
    | with_reducible apply State.enableQueue_keeps
    | with_reducible apply State.keeps_ite
    | with_reducible apply okeeps_ite
    | with_reducible apply okeeps_next

theorem State.cqOff_keeps (s : State) (q : Nat) (hκ : ρ.Keeps κ s) :
    ρ.Keeps κ (State.cqOff s q) := by
  unfold State.cqOff
  repeat' first
    | intro _
    | with_reducible assumption
    | with_reducible apply State.wf_keeps
    | with_reducible apply State.wb_keeps
    | with_reducible apply State.modQueue_keeps
    | with_reducible apply State.queueHome_keeps
    | with_reducible apply State.forgetQueue_keeps

theorem State.disableQueue_keeps (s : State) (q : Nat) (v : Word) (who : Req) (hκ : ρ.Keeps κ s) :
    ρ.Keeps κ (State.disableQueue s q v who) := by
  unfold State.disableQueue
  repeat' first
    | intro _
    | with_reducible assumption
    | with_reducible apply State.setBit_keeps
    | with_reducible apply State.modQueue_keeps
    | with_reducible apply State.dropPrefetch_keeps
    | with_reducible apply State.softWrite_keeps
    | with_reducible apply State.cqOff_keeps
    | with_reducible apply State.keeps_ite

theorem execQueueDisable_keeps (who : Req) (q : Nat) (v : Word) (s : State) (hκ : ρ.Keeps κ s) :
    OKeeps κ ρ (execQueueDisable who q v s) := by
  unfold execQueueDisable
  repeat' first
    | intro _
    | with_reducible assumption
    | with_reducible apply regGo_keeps
    | with_reducible apply State.disableQueue_keeps
    | with_reducible apply State.keeps_ite
    | with_reducible apply okeeps_ite
    | with_reducible apply okeeps_next

theorem State.tqCfgWrite_keeps (s : State) (q : Nat) (v : Word) (who : Req) (hκ : ρ.Keeps κ s) :
    ρ.Keeps κ (State.tqCfgWrite s q v who) := by
  unfold State.tqCfgWrite
  repeat' first
    | intro _
    | with_reducible assumption
    | with_reducible apply State.enableQueue_keeps
    | with_reducible apply State.disableQueue_keeps
    | with_reducible apply State.keeps_ite

theorem execQueueDisableDone_keeps (q : Nat) (s : State) (hκ : ρ.Keeps κ s) :
    OKeeps κ ρ (execQueueDisableDone q s) := by
  unfold execQueueDisableDone
  repeat' first
    | intro _
    | with_reducible assumption
    | with_reducible apply State.wb_keeps
    | with_reducible apply State.setApp_keeps
    | with_reducible apply State.modQueue_keeps
    | with_reducible apply State.queueHome_keeps
    | with_reducible apply fin_keeps
    | with_reducible apply State.keeps_ite
    | with_reducible apply okeeps_ite
    | with_reducible apply okeeps_next

theorem execHeldStatusPost_keeps (q : Nat) (s : State) (hκ : ρ.Keeps κ s) :
    OKeeps κ ρ (execHeldStatusPost q s) := by
  unfold execHeldStatusPost
  repeat' first
    | intro _
    | with_reducible assumption
    | with_reducible apply State.postHeld_keeps
    | with_reducible apply State.unhold_keeps
    | with_reducible apply fin_keeps
    | with_reducible apply State.keeps_ite
    | with_reducible apply okeeps_ite
    | with_reducible apply okeeps_next
    | dsimp only
    | split

end Sys2Proof.Machine
end

