-- ==== Sys2Proof/Laws/KRequestCmds.lean ====
section
/-! SUPPORT. What the changes of state in Machine/RequestCmds.lean keep. -/

namespace Sys2Proof.Machine

variable {κ : Kept} {ρ : State}

theorem State.takeReply_keeps (s : State) (q : Nat) (hκ : ρ.Keeps κ s) :
    ρ.Keeps κ (State.takeReply s q) := by
  unfold State.takeReply
  repeat' first
    | intro _
    | with_reducible assumption
    | with_reducible apply State.publish_keeps
    | with_reducible apply State.reserveReply_keeps
    | with_reducible apply State.takeHead_keeps

theorem State.takeSilent_keeps (s : State) (q : Nat) (hκ : ρ.Keeps κ s) :
    ρ.Keeps κ (State.takeSilent s q) := by
  unfold State.takeSilent
  repeat' first
    | intro _
    | with_reducible assumption
    | with_reducible apply State.publish_keeps
    | with_reducible apply State.takeHead_keeps

theorem State.reject_keeps (s : State) (q sc reason : Nat) (e : Bytes) (hκ : ρ.Keeps κ s) :
    ρ.Keeps κ (State.reject s q sc reason e) := by
  unfold State.reject
  repeat' first
    | intro _
    | with_reducible assumption
    | with_reducible apply State.postReply_keeps
    | with_reducible apply State.takeReply_keeps

theorem State.answer_keeps (s : State) (q sc reason : Nat) (e : Bytes) (hκ : ρ.Keeps κ s) :
    ρ.Keeps κ (State.answer s q sc reason e) := by
  unfold State.answer
  repeat' first
    | intro _
    | with_reducible assumption
    | with_reducible apply State.postReply_keeps
    | with_reducible apply State.takeReply_keeps

theorem State.oweHalt_keeps (s : State) (sc : Nat) (h : HaltReq) (hκ : ρ.Keeps κ s) :
    ρ.Keeps κ (State.oweHalt s sc h) := by
  unfold State.oweHalt
  repeat' first
    | intro _
    | with_reducible assumption
    | with_reducible apply State.modChain_keeps

theorem State.notStarted_keeps (s : State) (sc : Nat) (hκ : ρ.Keeps κ s) :
    ρ.Keeps κ (State.notStarted s sc) := by
  unfold State.notStarted
  repeat' first
    | intro _
    | with_reducible assumption
    | with_reducible apply State.fixStatus_keeps

theorem State.clearSc_keeps (s : State) (sc : Nat) (h : HaltReq) (hκ : ρ.Keeps κ s) :
    ρ.Keeps κ (State.clearSc s sc h) := by
  unfold State.clearSc
  repeat' first
    | intro _
    | with_reducible assumption
    | with_reducible apply State.setCxFlag_keeps
    | with_reducible apply State.setScState_keeps
    | with_reducible apply State.unhold_keeps
    | with_reducible apply State.releaseSlots_keeps
    | with_reducible apply State.notice_keeps
    | with_reducible apply State.haltChain_keeps
    | with_reducible apply State.clearNow_keeps
    | with_reducible apply State.oweHalt_keeps
    | with_reducible apply State.notStarted_keeps
    | with_reducible apply State.keeps_ite

theorem State.dropAhead_keeps (s : State) (q : Nat) (hκ : ρ.Keeps κ s) :
    ρ.Keeps κ (State.dropAhead s q) := by
  unfold State.dropAhead
  repeat' first
    | intro _
    | with_reducible assumption
    | with_reducible apply State.readDrop_keeps

theorem State.reqStart_keeps (s : State) (q sc : Nat) (e : Bytes) (hκ : ρ.Keeps κ s) :
    ρ.Keeps κ (State.reqStart s q sc e) := by
  unfold State.reqStart
  repeat' first
    | intro _
    | with_reducible assumption
    | with_reducible apply State.acceptStart_keeps
    | with_reducible apply State.reject_keeps
    | with_reducible apply State.dropAhead_keeps
    | with_reducible apply State.takeHead_keeps
    | with_reducible apply Mem.drop_wf
    | dsimp only
    | split

theorem State.reqHalt_keeps (s : State) (q sc : Nat) (e : Bytes) (hκ : ρ.Keeps κ s) :
    ρ.Keeps κ (State.reqHalt s q sc e) := by
  unfold State.reqHalt
  repeat' first
    | intro _
    | with_reducible assumption
    | with_reducible apply State.setScState_keeps
    | with_reducible apply State.notice_keeps
    | with_reducible apply State.haltChain_keeps
    | with_reducible apply State.takeReply_keeps
    | with_reducible apply State.reject_keeps
    | with_reducible apply State.answer_keeps
    | with_reducible apply State.oweHalt_keeps
    | with_reducible apply State.notStarted_keeps
    | dsimp only
    | split

theorem State.reqClear_keeps (s : State) (q sc : Nat) (e : Bytes) (hκ : ρ.Keeps κ s) :
    ρ.Keeps κ (State.reqClear s q sc e) := by
  unfold State.reqClear
  repeat' first
    | intro _
    | with_reducible assumption
    | with_reducible apply State.setCxFlag_keeps
    | with_reducible apply State.clearNow_keeps
    | with_reducible apply State.takeReply_keeps
    | with_reducible apply State.reject_keeps
    | with_reducible apply State.answer_keeps
    | with_reducible apply State.clearSc_keeps
    | with_reducible apply State.keeps_ite
    | with_reducible apply okeeps_ite
    | dsimp only
    | split

theorem State.reqResume_keeps (s : State) (q sc : Nat) (e : Bytes) (hκ : ρ.Keeps κ s) :
    ρ.Keeps κ (State.reqResume s q sc e) := by
  unfold State.reqResume
  repeat' first
    | intro _
    | with_reducible assumption
    | with_reducible apply State.modChain_keeps
    | with_reducible apply State.setCxFlag_keeps
    | with_reducible apply State.setScState_keeps
    | with_reducible apply State.notice_keeps
    | with_reducible apply State.takeSilent_keeps
    | with_reducible apply State.reject_keeps
    | dsimp only
    | split

theorem State.reqModify_keeps (s : State) (q sc : Nat) (e : Bytes) (hκ : ρ.Keeps κ s) :
    ρ.Keeps κ (State.reqModify s q sc e) := by
  unfold State.reqModify
  repeat' first
    | intro _
    | with_reducible assumption
    | with_reducible apply State.jIssue_keeps
    | with_reducible apply State.modified_keeps
    | with_reducible apply State.takeReply_keeps
    | with_reducible apply State.reject_keeps
    | with_reducible apply Mem.drop_wf
    | dsimp only
    | split

theorem State.reqRelease_keeps (s : State) (q sc : Nat) (e : Bytes) (hκ : ρ.Keeps κ s) :
    ρ.Keeps κ (State.reqRelease s q sc e) := by
  unfold State.reqRelease
  repeat' first
    | intro _
    | with_reducible assumption
    | with_reducible apply State.releaseSlots_keeps
    | with_reducible apply State.reject_keeps
    | with_reducible apply State.answer_keeps
    | with_reducible apply State.keeps_ite
    | with_reducible apply okeeps_ite
    | dsimp only
    | split

theorem State.runReq_keeps (s : State) (q : Nat) (e : Bytes) (hκ : ρ.Keeps κ s) :
    ρ.Keeps κ (State.runReq s q e) := by
  unfold State.runReq
  repeat' first
    | intro _
    | with_reducible assumption
    | with_reducible apply State.metErr_keeps
    | with_reducible apply State.useCtx_keeps
    | with_reducible apply State.reject_keeps
    | with_reducible apply State.reqStart_keeps
    | with_reducible apply State.reqHalt_keeps
    | with_reducible apply State.reqClear_keeps
    | with_reducible apply State.reqResume_keeps
    | with_reducible apply State.reqModify_keeps
    | with_reducible apply State.reqRelease_keeps
    | with_reducible apply State.keeps_ite
    | with_reducible apply okeeps_ite
    | dsimp only
    | split

theorem State.doReq_keeps (s : State) (q : Nat) (e : Bytes) (hκ : ρ.Keeps κ s) :
    ρ.Keeps κ (State.doReq s q e) := by
  unfold State.doReq
  repeat' first
    | intro _
    | with_reducible assumption
    | with_reducible apply State.setBit_keeps
    | with_reducible apply State.modQueue_keeps
    | with_reducible apply State.reject_keeps
    | with_reducible apply State.dropAhead_keeps
    | with_reducible apply State.runReq_keeps
    | with_reducible apply State.loadCtx_keeps
    | with_reducible apply State.keeps_ite

theorem takeReq_keeps (s : State) (q : Nat) (p : Nat → Bool) (hκ : ρ.Keeps κ s) :
    OKeeps κ ρ (takeReq s q p) := by
  unfold takeReq
  repeat' first
    | intro _
    | with_reducible assumption
    | with_reducible apply fin_keeps
    | with_reducible apply State.doReq_keeps
    | with_reducible apply okeeps_next
    | dsimp only
    | split

theorem execSqStart_keeps (q : Nat) (s : State) (hκ : ρ.Keeps κ s) :
    OKeeps κ ρ (execSqStart q s) := by
  unfold execSqStart
  repeat' first
    | intro _
    | with_reducible assumption
    | with_reducible apply takeReq_keeps

theorem execSqHalt_keeps (q : Nat) (s : State) (hκ : ρ.Keeps κ s) :
    OKeeps κ ρ (execSqHalt q s) := by
  unfold execSqHalt
  repeat' first
    | intro _
    | with_reducible assumption
    | with_reducible apply takeReq_keeps

theorem execSqClear_keeps (q : Nat) (s : State) (hκ : ρ.Keeps κ s) :
    OKeeps κ ρ (execSqClear q s) := by
  unfold execSqClear
  repeat' first
    | intro _
    | with_reducible assumption
    | with_reducible apply takeReq_keeps

theorem execSqResume_keeps (q : Nat) (s : State) (hκ : ρ.Keeps κ s) :
    OKeeps κ ρ (execSqResume q s) := by
  unfold execSqResume
  repeat' first
    | intro _
    | with_reducible assumption
    | with_reducible apply takeReq_keeps

theorem execSqRelease_keeps (q : Nat) (s : State) (hκ : ρ.Keeps κ s) :
    OKeeps κ ρ (execSqRelease q s) := by
  unfold execSqRelease
  repeat' first
    | intro _
    | with_reducible assumption
    | with_reducible apply takeReq_keeps

theorem execSqModify_keeps (q : Nat) (s : State) (hκ : ρ.Keeps κ s) :
    OKeeps κ ρ (execSqModify q s) := by
  unfold execSqModify
  repeat' first
    | intro _
    | with_reducible assumption
    | with_reducible apply takeReq_keeps

theorem execSqReservedOpcode_keeps (q : Nat) (s : State) (hκ : ρ.Keeps κ s) :
    OKeeps κ ρ (execSqReservedOpcode q s) := by
  unfold execSqReservedOpcode
  repeat' first
    | intro _
    | with_reducible assumption
    | with_reducible apply takeReq_keeps

theorem execContextWriteBackDone_keeps (sc : Nat) (s : State) (hκ : ρ.Keeps κ s) :
    OKeeps κ ρ (execContextWriteBackDone sc s) := by
  unfold execContextWriteBackDone
  repeat' first
    | intro _
    | with_reducible assumption
    | with_reducible apply State.metErr_keeps
    | with_reducible apply State.touch_keeps
    | with_reducible apply State.writeHome_keeps
    | with_reducible apply fin_keeps
    | with_reducible apply State.keeps_ite
    | with_reducible apply okeeps_ite
    | with_reducible apply okeeps_next
    | dsimp only
    | split
    | with_reducible apply State.keeps_dirty
    | with_reducible apply State.keeps_dirtyWait

theorem State.loadHome_keeps (s : State) (sc : Nat) (hκ : ρ.Keeps κ s) :
    ρ.Keeps κ (State.loadHome s sc) := by
  unfold State.loadHome
  extract_lets s1 s2 s3 s4
  have h2 : ρ.Keeps κ s2 := State.keeps_ctx_cached (State.keeps_errs hκ _) _ _ fun w => Mem.wrN_wf _ _ (Mem.copyRange_wf _ _ _ _ w)
  have h3 : ρ.Keeps κ s3 := by
    simp only [s3]
    split
    · exact State.injDone_keeps _ (State.addErr_keeps _ _ _ _ h2)
    · exact h2
  clear_value s3
  exact State.keeps_ite (State.enterFenced_keeps _ _ _ (State.report_keeps _ _ _ h3))
    (State.metErr_keeps _ _ _ _ (State.metErr_keeps _ _ _ _ h3))

theorem execContextLoadDone_keeps (sc : Nat) (s : State) (hκ : ρ.Keeps κ s) :
    OKeeps κ ρ (execContextLoadDone sc s) := by
  unfold execContextLoadDone
  repeat' first
    | intro _
    | with_reducible assumption
    | with_reducible apply fin_keeps
    | with_reducible apply State.doReq_keeps
    | with_reducible apply State.loadHome_keeps
    | with_reducible apply State.keeps_ite
    | with_reducible apply okeeps_ite
    | with_reducible apply State.keeps_fold
    | with_reducible apply okeeps_next
    | dsimp only
    | split
    | with_reducible apply State.keeps_cached
    | with_reducible apply State.keeps_loading

theorem execThreadBind_keeps (sc : Nat) (s : State) (hκ : ρ.Keeps κ s) :
    OKeeps κ ρ (execThreadBind sc s) := by
  unfold execThreadBind
  repeat' first
    | intro _
    | with_reducible assumption
    | with_reducible apply State.metErr_keeps
    | with_reducible apply State.bindThread_keeps
    | with_reducible apply fin_keeps
    | with_reducible apply State.keeps_ite
    | with_reducible apply okeeps_ite
    | with_reducible apply okeeps_next
    | dsimp only
    | split

theorem execMigrationEpochEnd_keeps (busy : List Nat) (s : State) (hκ : ρ.Keeps κ s) :
    OKeeps κ ρ (execMigrationEpochEnd busy s) := by
  unfold execMigrationEpochEnd
  repeat' first
    | intro _
    | with_reducible assumption
    | with_reducible apply State.setReg_keeps
    | with_reducible apply fin_keeps
    | with_reducible apply State.keeps_ite
    | with_reducible apply okeeps_ite
    | with_reducible apply State.keeps_getD
    | with_reducible apply State.keeps_fold
    | with_reducible apply okeeps_next

theorem State.drainWrite_keeps (s : State) (g : Nat) (v : Word) (hκ : ρ.Keeps κ s) :
    ρ.Keeps κ (State.drainWrite s g v) := by
  unfold State.drainWrite
  repeat' first
    | intro _
    | with_reducible assumption
    | with_reducible apply State.wb_keeps
    | with_reducible apply State.teStat_keeps

theorem execTeDrain_keeps (who : Req) (g : Nat) (v : Word) (s : State) (hκ : ρ.Keeps κ s) :
    OKeeps κ ρ (execTeDrain who g v s) := by
  unfold execTeDrain
  repeat' first
    | intro _
    | with_reducible assumption
    | with_reducible apply regGuarded_keeps
    | with_reducible apply State.drainWrite_keeps
    | with_reducible apply State.keeps_ite
    | with_reducible apply okeeps_ite
    | with_reducible apply okeeps_next

end Sys2Proof.Machine
end

