-- ==== Sys2Proof/Laws/KChainCmds.lean ====
section
/-! SUPPORT. What the changes of state in Machine/ChainCmds.lean keep. -/

namespace Sys2Proof.Machine

variable {κ : Kept} {ρ : State}

theorem State.gotWords_keeps (s : State) (sc : Nat) (b : Bytes) (hκ : ρ.Keeps κ s) :
    ρ.Keeps κ (State.gotWords s sc b) := by
  unfold State.gotWords
  repeat' first
    | intro _
    | with_reducible assumption
    | with_reducible apply State.setChain_keeps
    | with_reducible apply State.becomeCurrent_keeps
    | with_reducible apply State.keeps_ite

theorem State.wordsFailed_keeps (s : State) (sc : Nat) (err : RdErr) (hκ : ρ.Keeps κ s) :
    ρ.Keeps κ (State.wordsFailed s sc err) := by
  unfold State.wordsFailed
  repeat' first
    | intro _
    | with_reducible assumption
    | with_reducible apply State.modChain_keeps
    | with_reducible apply State.endChain_keeps
    | with_reducible apply State.readError_keeps
    | with_reducible apply State.keeps_ite

theorem State.chipRead_keeps (s : State) (sc a n : Nat) (err : RdErr) (k : State → State) (hκ : ρ.Keeps κ s)
    (hk : ∀ s, ρ.Keeps κ s → ρ.Keeps κ (k s)) : ρ.Keeps κ (s.chipRead sc a n err k) := by
  unfold State.chipRead
  extract_lets w s1
  have h1 : ρ.Keeps κ s1 := State.metErr_keeps _ _ _ _ hκ
  exact State.keeps_ite (State.endChain_keeps _ _ _ h1) (hk _ h1)

theorem State.gotAhead_keeps (s : State) (q pos : Nat) (w : Bytes) (err : RdErr) (hκ : ρ.Keeps κ s) :
    ρ.Keeps κ (State.gotAhead s q pos w err) := by
  unfold State.gotAhead
  repeat' first
    | intro _
    | with_reducible assumption
    | with_reducible apply State.setQueue_keeps
    | with_reducible apply State.readOver_keeps
    | with_reducible apply State.readError_keeps

theorem execWordFetchDone_keeps (sc : Nat) (w : Bytes) (err : RdErr) (s : State) (hκ : ρ.Keeps κ s) :
    OKeeps κ ρ (execWordFetchDone sc w err s) := by
  unfold execWordFetchDone
  repeat' first
    | intro _
    | with_reducible assumption
    | with_reducible apply State.readOver_keeps
    | with_reducible apply fin_keeps
    | with_reducible apply State.gotWords_keeps
    | with_reducible apply State.wordsFailed_keeps
    | with_reducible apply State.chipRead_keeps
    | with_reducible apply State.gotAhead_keeps
    | with_reducible apply State.hostIn_keeps
    | with_reducible apply State.keeps_ite
    | with_reducible apply okeeps_ite
    | with_reducible apply okeeps_next
    | dsimp only
    | split

theorem wordData_keeps (s : State) (sc : Nat) (p : Nat → Bool) (hκ : ρ.Keeps κ s) :
    OKeeps κ ρ (wordData s sc p) := by
  unfold wordData
  repeat' first
    | intro _
    | with_reducible assumption
    | with_reducible apply State.dataWord_keeps
    | with_reducible apply fin_keeps
    | with_reducible apply State.keeps_ite
    | with_reducible apply okeeps_ite
    | with_reducible apply okeeps_next

theorem wordPlain_keeps (s : State) (sc code : Nat) (k : State → State) (hκ : ρ.Keeps κ s)
    (hk : ∀ s, ρ.Keeps κ s → ρ.Keeps κ (k s)) : OKeeps κ ρ (wordPlain s sc code k) := by
  unfold wordPlain
  repeat' first
    | intro _
    | with_reducible assumption
    | with_reducible apply hk
    | with_reducible apply okeeps_ite
    | with_reducible apply okeeps_next
    | with_reducible apply State.modChain_keeps
    | with_reducible apply fin_keeps

theorem execCwWrite_keeps (sc : Nat) (s : State) (hκ : ρ.Keeps κ s) :
    OKeeps κ ρ (execCwWrite sc s) := by
  unfold execCwWrite
  repeat' first
    | intro _
    | with_reducible assumption
    | with_reducible apply wordData_keeps

theorem execCwRead_keeps (sc : Nat) (s : State) (hκ : ρ.Keeps κ s) :
    OKeeps κ ρ (execCwRead sc s) := by
  unfold execCwRead
  repeat' first
    | intro _
    | with_reducible assumption
    | with_reducible apply wordData_keeps

theorem execCwControl_keeps (sc : Nat) (s : State) (hκ : ρ.Keeps κ s) :
    OKeeps κ ρ (execCwControl sc s) := by
  unfold execCwControl
  repeat' first
    | intro _
    | with_reducible assumption
    | with_reducible apply wordData_keeps

theorem execCwSense_keeps (sc : Nat) (s : State) (hκ : ρ.Keeps κ s) :
    OKeeps κ ρ (execCwSense sc s) := by
  unfold execCwSense
  repeat' first
    | intro _
    | with_reducible assumption
    | with_reducible apply wordData_keeps

theorem execCwNodeSpecific_keeps (sc : Nat) (s : State) (hκ : ρ.Keeps κ s) :
    OKeeps κ ρ (execCwNodeSpecific sc s) := by
  unfold execCwNodeSpecific
  repeat' first
    | intro _
    | with_reducible assumption
    | with_reducible apply wordData_keeps

theorem execCwNop_keeps (sc : Nat) (s : State) (hκ : ρ.Keeps κ s) :
    OKeeps κ ρ (execCwNop sc s) := by
  unfold execCwNop
  repeat' first
    | intro _
    | with_reducible assumption
    | with_reducible apply State.wordEnd_keeps
    | with_reducible apply wordPlain_keeps

theorem execCwBranch_keeps (sc : Nat) (s : State) (hκ : ρ.Keeps κ s) :
    OKeeps κ ρ (execCwBranch sc s) := by
  unfold execCwBranch
  repeat' first
    | intro _
    | with_reducible assumption
    | with_reducible apply State.fetchNext_keeps
    | with_reducible apply wordPlain_keeps

theorem State.nodeRefused_keeps (s : State) (sc cls : Nat) (hκ : ρ.Keeps κ s) (τ : State) (hτ : State.nodeRefused s sc cls = some τ) : ρ.Keeps κ τ := by
  unfold State.nodeRefused at hτ
  try dsimp only at hτ
  repeat' split at hτ
  all_goals cases hτ
  all_goals
    repeat' first
      | intro _
      | with_reducible assumption
      | with_reducible apply State.endChain_keeps
      | with_reducible apply State.endAbsent_keeps
      | with_reducible apply State.endRefused_keeps

theorem State.reserveWord_keeps (s : State) (sc : Nat) (hκ : ρ.Keeps κ s) :
    ρ.Keeps κ (State.reserveWord s sc) := by
  unfold State.reserveWord
  repeat' first
    | intro _
    | with_reducible assumption
    | with_reducible apply State.modChain_keeps
    | with_reducible apply State.firstRelease_keeps
    | with_reducible apply State.reserveGo_keeps
    | dsimp only
    | split
    | refine State.Keeps.of_some (State.nodeRefused_keeps _ _ _ ?_) (by assumption)

theorem execCwReserve_keeps (sc : Nat) (s : State) (hκ : ρ.Keeps κ s) :
    OKeeps κ ρ (execCwReserve sc s) := by
  unfold execCwReserve
  repeat' first
    | intro _
    | with_reducible assumption
    | with_reducible apply wordPlain_keeps
    | with_reducible apply State.reserveWord_keeps

theorem State.releaseWord_keeps (s : State) (sc : Nat) (hκ : ρ.Keeps κ s) :
    ρ.Keeps κ (State.releaseWord s sc) := by
  unfold State.releaseWord
  repeat' first
    | intro _
    | with_reducible assumption
    | with_reducible apply State.modChain_keeps
    | with_reducible apply State.firstRelease_keeps
    | with_reducible apply State.releaseSlots_keeps
    | with_reducible apply State.wordEnd_keeps
    | with_reducible apply State.answer_keeps
    | with_reducible apply State.keeps_ite
    | with_reducible apply okeeps_ite
    | dsimp only
    | split
    | refine State.Keeps.of_some (State.nodeRefused_keeps _ _ _ ?_) (by assumption)

theorem execCwRelease_keeps (sc : Nat) (s : State) (hκ : ρ.Keeps κ s) :
    OKeeps κ ρ (execCwRelease sc s) := by
  unfold execCwRelease
  repeat' first
    | intro _
    | with_reducible assumption
    | with_reducible apply wordPlain_keeps
    | with_reducible apply State.releaseWord_keeps

theorem State.setPace_keeps (s : State) (sc base : Nat) (hκ : ρ.Keeps κ s) :
    ρ.Keeps κ (State.setPace s sc base) := by
  unfold State.setPace
  repeat' first
    | intro _
    | with_reducible assumption
    | with_reducible apply State.modChain_keeps
    | with_reducible apply State.cxSet_keeps

theorem State.overrun_keeps (s : State) (sc : Nat) (hκ : ρ.Keeps κ s) :
    ρ.Keeps κ (State.overrun s sc) := by
  unfold State.overrun
  repeat' first
    | with_reducible assumption
    | with_reducible apply State.cxSet_keeps
    | with_reducible apply State.wordEnd_keeps
    | with_reducible apply State.setPace_keeps

theorem State.paceTimer_keeps (s : State) (sc : Nat) (hκ : ρ.Keeps κ s) :
    ρ.Keeps κ (State.paceTimer s sc) := by
  unfold State.paceTimer
  repeat' first
    | intro _
    | with_reducible assumption
    | with_reducible apply State.modChain_keeps
    | with_reducible apply State.overrun_keeps
    | with_reducible apply State.keeps_ite

theorem State.paceNode_keeps (s : State) (sc : Nat) (hκ : ρ.Keeps κ s) :
    ρ.Keeps κ (State.paceNode s sc) := by
  unfold State.paceNode
  repeat' first
    | intro _
    | with_reducible assumption
    | with_reducible apply State.modChain_keeps
    | with_reducible apply State.cxSet_keeps
    | with_reducible apply State.wordEnd_keeps
    | with_reducible apply State.keeps_ite
    | with_reducible apply okeeps_ite
    | dsimp only
    | split
    | refine State.Keeps.of_some (State.nodeRefused_keeps _ _ _ ?_) (by assumption)

theorem execCwWaitPace_keeps (sc : Nat) (s : State) (hκ : ρ.Keeps κ s) :
    OKeeps κ ρ (execCwWaitPace sc s) := by
  unfold execCwWaitPace
  repeat' first
    | intro _
    | with_reducible assumption
    | with_reducible apply wordPlain_keeps
    | with_reducible apply State.paceTimer_keeps
    | with_reducible apply State.paceNode_keeps
    | with_reducible apply State.keeps_ite

theorem State.markWord_keeps (s : State) (sc : Nat) (hκ : ρ.Keeps κ s) :
    ρ.Keeps κ (State.markWord s sc) := by
  unfold State.markWord
  repeat' first
    | intro _
    | with_reducible assumption
    | with_reducible apply State.bufPut_keeps
    | with_reducible apply State.hostWrite_keeps
    | with_reducible apply State.endChain_keeps
    | with_reducible apply State.wordEnd_keeps
    | with_reducible apply State.keeps_ite

theorem execCwMark_keeps (sc : Nat) (s : State) (hκ : ρ.Keeps κ s) :
    OKeeps κ ρ (execCwMark sc s) := by
  unfold execCwMark
  repeat' first
    | intro _
    | with_reducible assumption
    | with_reducible apply wordPlain_keeps
    | with_reducible apply State.markWord_keeps

theorem execCwEndGroup_keeps (sc : Nat) (s : State) (hκ : ρ.Keeps κ s) :
    OKeeps κ ρ (execCwEndGroup sc s) := by
  unfold execCwEndGroup
  repeat' first
    | intro _
    | with_reducible assumption
    | with_reducible apply State.modChain_keeps
    | with_reducible apply State.decideTx_keeps
    | with_reducible apply State.wordEnd_keeps
    | with_reducible apply wordPlain_keeps
    | with_reducible apply okeeps_next
    | dsimp only
    | split

theorem State.reflag_keeps (s : State) (sc fl : Nat) (hκ : ρ.Keeps κ s) :
    ρ.Keeps κ (State.reflag s sc fl) := by
  unfold State.reflag
  repeat' first
    | intro _
    | with_reducible assumption
    | with_reducible apply State.cxSet_keeps
    | with_reducible apply State.endFree_keeps
    | with_reducible apply State.wordEnd_keeps
    | with_reducible apply State.keeps_ite

theorem execSuspendRereadDone_keeps (sc : Nat) (flags : Byte) (err : RdErr) (s : State) (hκ : ρ.Keeps κ s) :
    OKeeps κ ρ (execSuspendRereadDone sc flags err s) := by
  unfold execSuspendRereadDone
  repeat' first
    | intro _
    | with_reducible assumption
    | with_reducible apply State.endChain_keeps
    | with_reducible apply State.reread_keeps
    | with_reducible apply State.readOver_keeps
    | with_reducible apply fin_keeps
    | with_reducible apply State.readError_keeps
    | with_reducible apply State.chipRead_keeps
    | with_reducible apply State.reflag_keeps
    | with_reducible apply State.hostIn_keeps
    | with_reducible apply State.keeps_ite
    | with_reducible apply okeeps_ite
    | with_reducible apply okeeps_next

theorem execHaltTimeout_keeps (sc : Nat) (s : State) (hκ : ρ.Keeps κ s) :
    OKeeps κ ρ (execHaltTimeout sc s) := by
  unfold execHaltTimeout
  repeat' first
    | intro _
    | with_reducible assumption
    | with_reducible apply State.fixStatus_keeps
    | with_reducible apply fin_keeps
    | with_reducible apply State.keeps_ite
    | with_reducible apply okeeps_ite
    | with_reducible apply okeeps_next

theorem execPaceTimeout_keeps (sc : Nat) (s : State) (hκ : ρ.Keeps κ s) :
    OKeeps κ ρ (execPaceTimeout sc s) := by
  unfold execPaceTimeout
  repeat' first
    | intro _
    | with_reducible assumption
    | with_reducible apply State.endChain_keeps
    | with_reducible apply fin_keeps
    | with_reducible apply State.paceNode_keeps
    | with_reducible apply State.keeps_ite
    | with_reducible apply okeeps_ite
    | with_reducible apply okeeps_next

theorem State.reachTime_keeps (s : State) (ns : Nat) (hκ : ρ.Keeps κ s) :
    ρ.Keeps κ (State.reachTime s ns) := by
  unfold State.reachTime
  repeat' first
    | intro _
    | with_reducible assumption
    | dsimp only
    | split
    | with_reducible apply State.keeps_time

theorem execPaceTimerExpiry_keeps (sc : Nat) (s : State) (hκ : ρ.Keeps κ s) :
    OKeeps κ ρ (execPaceTimerExpiry sc s) := by
  unfold execPaceTimerExpiry
  repeat' first
    | intro _
    | with_reducible assumption
    | with_reducible apply State.wordEnd_keeps
    | with_reducible apply fin_keeps
    | with_reducible apply State.setPace_keeps
    | with_reducible apply State.paceTimer_keeps
    | with_reducible apply State.reachTime_keeps
    | with_reducible apply State.keeps_ite
    | with_reducible apply okeeps_ite
    | with_reducible apply okeeps_next

end Sys2Proof.Machine
end

