-- ==== Sys2Proof/Laws/KTillerCore.lean ====
section
/-! SUPPORT. What the changes of state in Machine/TillerCore.lean keep. -/

namespace Sys2Proof.Machine

variable {κ : Kept} {ρ : State}

theorem State.pcPast_keeps (s : State) (t n : Nat) (hκ : ρ.Keeps κ s) :
    ρ.Keeps κ (State.pcPast s t n) := by
  unfold State.pcPast
  repeat' first
    | intro _
    | with_reducible assumption
    | with_reducible apply State.modThread_keeps

theorem State.removePkt_keeps (s : State) (t k : Nat) (hκ : ρ.Keeps κ s) :
    ρ.Keeps κ (State.removePkt s t k) := by
  unfold State.removePkt
  repeat' first
    | intro _
    | with_reducible assumption
    | with_reducible apply State.setBit_keeps
    | with_reducible apply State.modThread_keeps
    | with_reducible apply State.report_keeps

theorem State.badPkt_keeps (s : State) (t cause info : Nat) (hκ : ρ.Keeps κ s) :
    ρ.Keeps κ (State.badPkt s t cause info) := by
  unfold State.badPkt
  repeat' first
    | intro _
    | with_reducible assumption
    | with_reducible apply State.removePkt_keeps
    | with_reducible apply State.keeps_ite

theorem State.doTrap_keeps (s : State) (t cause info size step : Nat) (hκ : ρ.Keeps κ s) :
    ρ.Keeps κ (State.doTrap s t cause info size step) := by
  unfold State.doTrap
  repeat' first
    | intro _
    | with_reducible assumption
    | with_reducible apply State.setThread_keeps
    | with_reducible apply State.modThread_keeps
    | with_reducible apply State.owe_keeps
    | with_reducible apply State.report_keeps
    | with_reducible apply State.keeps_ite
    | with_reducible apply okeeps_ite
    | with_reducible apply State.keeps_elim
    | with_reducible apply Mem.wrN_wf
    | dsimp only
    | split
    | with_reducible apply State.keeps_tpriv

theorem State.serveEnd_keeps (s : State) (t : Nat) (defer : Bool) (hκ : ρ.Keeps κ s) :
    ρ.Keeps κ (State.serveEnd s t defer) := by
  unfold State.serveEnd
  repeat' first
    | intro _
    | with_reducible assumption
    | with_reducible apply State.freeThreadOf_keeps
    | with_reducible apply State.endService_keeps
    | dsimp only
    | split

theorem State.defaultHandler_keeps (s : State) (t : Nat) (hκ : ρ.Keeps κ s) :
    ρ.Keeps κ (State.defaultHandler s t) := by
  unfold State.defaultHandler
  repeat' first
    | intro _
    | with_reducible assumption
    | with_reducible apply State.owes_keeps
    | with_reducible apply State.serveEnd_keeps
    | with_reducible apply State.cqTake_keeps
    | with_reducible apply State.keeps_ite

theorem State.nodeHandler_keeps (s : State) (t entry : Nat) (hκ : ρ.Keeps κ s) :
    ρ.Keeps κ (State.nodeHandler s t entry) := by
  unfold State.nodeHandler
  repeat' first
    | intro _
    | with_reducible assumption
    | with_reducible apply State.modThread_keeps

theorem State.firstIssue_keeps (s : State) (t : Nat) (hκ : ρ.Keeps κ s) :
    ρ.Keeps κ (State.firstIssue s t) := by
  unfold State.firstIssue
  repeat' first
    | intro _
    | with_reducible assumption
    | with_reducible apply State.setBit_keeps
    | with_reducible apply State.bump_keeps
    | with_reducible apply State.modThread_keeps
    | with_reducible apply State.defaultHandler_keeps
    | with_reducible apply State.nodeHandler_keeps
    | with_reducible apply State.keeps_ite

theorem State.winClear_keeps (s : State) (t : Nat) (hκ : ρ.Keeps κ s) :
    ρ.Keeps κ (State.winClear s t) := by
  unfold State.winClear
  repeat' first
    | intro _
    | with_reducible assumption
    | with_reducible apply State.modThread_keeps
    | with_reducible apply State.keeps_ite

theorem tEnd_keeps (unit : Bool) (s : State) (hκ : ρ.Keeps κ s) :
    OKeeps κ ρ (tEnd unit s) := by
  unfold tEnd
  repeat' first
    | intro _
    | with_reducible assumption
    | with_reducible apply fin_keeps
    | with_reducible apply State.keeps_ite
    | with_reducible apply okeeps_ite
    | with_reducible apply okeeps_next

theorem tExec_keeps (ins : Instr) (i : TInfo) (t : Nat) (f : TForm) (s : State) (hκ : ρ.Keeps κ s)
    (hb : ∀ s x, ρ.Keeps κ s → TRes.Keeps κ ρ (i.body s x)) : OKeeps κ ρ (tExec ins i t f s) := by
  unfold tExec
  extract_lets th
  refine okeeps_ite (tEnd_keeps _ _ (State.pcPast_keeps _ _ _ hκ)) (okeeps_ite (tEnd_keeps _ _ hκ) ?_)
  split
  · exact fin_keeps _ (State.doTrap_keeps _ _ _ _ _ _ hκ)
  · have h1 := hb (s.pcPast t (opSize f)) { t, f } (State.pcPast_keeps _ _ _ hκ)
    split <;> rename_i e <;> rw [e] at h1
    · exact tEnd_keeps _ _ (State.winClear_keeps _ _ (State.noted_keeps _ _ _ _ h1))
    · exact fin_keeps _ (State.doTrap_keeps _ _ _ _ _ _ (State.winClear_keeps _ _ (State.badPkt_keeps _ _ _ _ hκ)))
    · exact fin_keeps _ (State.doTrap_keeps _ _ _ _ _ _ (State.modThread_keeps _ _ _ (State.winClear_keeps _ _ h1)))
    · exact fin_keeps _ (State.modThread_keeps _ _ _ h1)
    · exact tEnd_keeps _ _ hκ
    · exact fin_keeps _ (State.metErr_keeps _ _ _ _ hκ)

theorem tRun_keeps (ins : Instr) (i : TInfo) (t : Nat) (f : TForm) (s : State) (hκ : ρ.Keeps κ s)
    (hb : ∀ s x, ρ.Keeps κ s → TRes.Keeps κ ρ (i.body s x)) : OKeeps κ ρ (tRun ins i t f s) := by
  unfold tRun
  refine okeeps_ite hκ ?_
  extract_lets s0 w s1
  have h1 : ρ.Keeps κ s1 := State.metErr_keeps _ _ _ _ (State.firstIssue_keeps _ _ hκ)
  exact okeeps_ite (fin_keeps _ h1) (tExec_keeps _ _ _ _ _ h1 hb)

theorem TArg.upd_keeps (x : TArg) (s : State) (f : Thread → Thread) (hκ : ρ.Keeps κ s) :
    TRes.Keeps κ ρ (TArg.upd x s f) := by
  unfold TArg.upd
  repeat' first
    | intro _
    | with_reducible assumption
    | with_reducible apply State.modThread_keeps
    | with_reducible apply tkeeps_done

end Sys2Proof.Machine
end

