-- ==== Sys2Proof/Laws/KTillerInt.lean ====
section
/-! SUPPORT. What the changes of state in Machine/TillerInt.lean keep. -/

namespace Sys2Proof.Machine

variable {κ : Kept} {ρ : State}

theorem aluOp_keeps (k : Byte → Word → Nat → Word × Byte) (s : State) (x : TArg) (hκ : ρ.Keeps κ s) :
    TRes.Keeps κ ρ (aluOp k s x) := by
  unfold aluOp
  repeat' first
    | intro _
    | with_reducible assumption
    | with_reducible apply State.operand_keeps
    | with_reducible apply TArg.upd_keeps

theorem flagOp_keeps (k : Byte → Word → Nat → Byte) (s : State) (x : TArg) (hκ : ρ.Keeps κ s) :
    TRes.Keeps κ ρ (flagOp k s x) := by
  unfold flagOp
  repeat' first
    | intro _
    | with_reducible assumption
    | with_reducible apply State.operand_keeps
    | with_reducible apply TArg.upd_keeps

theorem loadA_keeps (n : Nat) (s : State) (x : TArg) (hκ : ρ.Keeps κ s) :
    TRes.Keeps κ ρ (loadA n s x) := by
  unfold loadA
  repeat' first
    | intro _
    | with_reducible assumption
    | with_reducible apply State.operand_keeps
    | with_reducible apply TArg.upd_keeps

theorem unaOp_keeps (k : Byte → Word → Word × Byte) (s : State) (x : TArg) (hκ : ρ.Keeps κ s) :
    TRes.Keeps κ ρ (unaOp k s x) := by
  unfold unaOp
  repeat' first
    | intro _
    | with_reducible assumption
    | with_reducible apply TArg.upd_keeps

theorem bodyMov_keeps (s : State) (x : TArg) (hκ : ρ.Keeps κ s) :
    TRes.Keeps κ ρ (bodyMov s x) := by
  unfold bodyMov
  repeat' first
    | intro _
    | with_reducible assumption
    | with_reducible apply State.setThread_keeps
    | with_reducible apply tkeeps_done
    | with_reducible apply tkeeps_hold
    | with_reducible apply tkeeps_trapAt
    | with_reducible apply tkeeps_trap
    | with_reducible apply tkeeps_stall
    | with_reducible apply tkeeps_lost
    | dsimp only
    | split

theorem bodyXchg_keeps (s : State) (x : TArg) (hκ : ρ.Keeps κ s) :
    TRes.Keeps κ ρ (bodyXchg s x) := by
  unfold bodyXchg
  refine State.operand_keeps _ _ _ _ hκ fun v => ?_
  have h1 := State.storeOp_keeps s x (natLE 4 (s.thread x.t).a.toNat) 4 hκ
  split
  · rename_i e; rw [e] at h1; exact TArg.upd_keeps _ _ _ h1
  · exact h1

theorem bodyPset_keeps (s : State) (x : TArg) (hκ : ρ.Keeps κ s) :
    TRes.Keeps κ ρ (bodyPset s x) := by
  unfold bodyPset
  repeat' first
    | intro _
    | with_reducible assumption
    | with_reducible apply TArg.upd_keeps

theorem plogOp_keeps (k : Bool → Bool → Bool) (s : State) (x : TArg) (hκ : ρ.Keeps κ s) :
    TRes.Keeps κ ρ (plogOp k s x) := by
  unfold plogOp
  repeat' first
    | intro _
    | with_reducible assumption
    | with_reducible apply TArg.upd_keeps

theorem infoNop_keeps (s : State) (x : TArg) (hκ : ρ.Keeps κ s) : TRes.Keeps κ ρ (infoNop.body s x) := by
  unfold infoNop
  repeat' first
    | intro _
    | with_reducible assumption
    | with_reducible apply tkeeps_done

theorem execNop_keeps (t : Nat) (f : TForm) (s : State) (hκ : ρ.Keeps κ s) :
    OKeeps κ ρ (execNop t f s) := by
  exact tRun_keeps _ _ _ _ _ hκ fun s x h => infoNop_keeps s x h

theorem infoMov_keeps (s : State) (x : TArg) (hκ : ρ.Keeps κ s) : TRes.Keeps κ ρ (infoMov.body s x) := by
  unfold infoMov
  repeat' first
    | intro _
    | with_reducible assumption
    | with_reducible apply bodyMov_keeps

theorem execMov_keeps (t : Nat) (f : TForm) (s : State) (hκ : ρ.Keeps κ s) :
    OKeeps κ ρ (execMov t f s) := by
  exact tRun_keeps _ _ _ _ _ hκ fun s x h => infoMov_keeps s x h

theorem infoLda_keeps (s : State) (x : TArg) (hκ : ρ.Keeps κ s) : TRes.Keeps κ ρ (infoLda.body s x) := by
  unfold infoLda
  repeat' first
    | intro _
    | with_reducible assumption
    | with_reducible apply loadA_keeps

theorem execLda_keeps (t : Nat) (f : TForm) (s : State) (hκ : ρ.Keeps κ s) :
    OKeeps κ ρ (execLda t f s) := by
  exact tRun_keeps _ _ _ _ _ hκ fun s x h => infoLda_keeps s x h

theorem infoLdah_keeps (s : State) (x : TArg) (hκ : ρ.Keeps κ s) : TRes.Keeps κ ρ (infoLdah.body s x) := by
  unfold infoLdah
  repeat' first
    | intro _
    | with_reducible assumption
    | with_reducible apply TArg.upd_keeps

theorem execLdah_keeps (t : Nat) (f : TForm) (s : State) (hκ : ρ.Keeps κ s) :
    OKeeps κ ρ (execLdah t f s) := by
  exact tRun_keeps _ _ _ _ _ hκ fun s x h => infoLdah_keeps s x h

theorem infoLdb_keeps (s : State) (x : TArg) (hκ : ρ.Keeps κ s) : TRes.Keeps κ ρ (infoLdb.body s x) := by
  unfold infoLdb
  repeat' first
    | intro _
    | with_reducible assumption
    | with_reducible apply loadA_keeps

theorem execLdb_keeps (t : Nat) (f : TForm) (s : State) (hκ : ρ.Keeps κ s) :
    OKeeps κ ρ (execLdb t f s) := by
  exact tRun_keeps _ _ _ _ _ hκ fun s x h => infoLdb_keeps s x h

theorem infoLdh_keeps (s : State) (x : TArg) (hκ : ρ.Keeps κ s) : TRes.Keeps κ ρ (infoLdh.body s x) := by
  unfold infoLdh
  repeat' first
    | intro _
    | with_reducible assumption
    | with_reducible apply loadA_keeps

theorem execLdh_keeps (t : Nat) (f : TForm) (s : State) (hκ : ρ.Keeps κ s) :
    OKeeps κ ρ (execLdh t f s) := by
  exact tRun_keeps _ _ _ _ _ hκ fun s x h => infoLdh_keeps s x h

theorem infoSta_keeps (s : State) (x : TArg) (hκ : ρ.Keeps κ s) : TRes.Keeps κ ρ (infoSta.body s x) := by
  unfold infoSta
  repeat' first
    | intro _
    | with_reducible assumption
    | with_reducible apply State.storeOp_keeps

theorem execSta_keeps (t : Nat) (f : TForm) (s : State) (hκ : ρ.Keeps κ s) :
    OKeeps κ ρ (execSta t f s) := by
  exact tRun_keeps _ _ _ _ _ hκ fun s x h => infoSta_keeps s x h

theorem infoStb_keeps (s : State) (x : TArg) (hκ : ρ.Keeps κ s) : TRes.Keeps κ ρ (infoStb.body s x) := by
  unfold infoStb
  repeat' first
    | intro _
    | with_reducible assumption
    | with_reducible apply State.storeOp_keeps

theorem execStb_keeps (t : Nat) (f : TForm) (s : State) (hκ : ρ.Keeps κ s) :
    OKeeps κ ρ (execStb t f s) := by
  exact tRun_keeps _ _ _ _ _ hκ fun s x h => infoStb_keeps s x h

theorem infoSth_keeps (s : State) (x : TArg) (hκ : ρ.Keeps κ s) : TRes.Keeps κ ρ (infoSth.body s x) := by
  unfold infoSth
  repeat' first
    | intro _
    | with_reducible assumption
    | with_reducible apply State.storeOp_keeps

theorem execSth_keeps (t : Nat) (f : TForm) (s : State) (hκ : ρ.Keeps κ s) :
    OKeeps κ ρ (execSth t f s) := by
  exact tRun_keeps _ _ _ _ _ hκ fun s x h => infoSth_keeps s x h

theorem infoLdx_keeps (s : State) (x : TArg) (hκ : ρ.Keeps κ s) : TRes.Keeps κ ρ (infoLdx.body s x) := by
  unfold infoLdx
  repeat' first
    | intro _
    | with_reducible assumption
    | with_reducible apply State.operandLow_keeps
    | with_reducible apply TArg.upd_keeps

theorem execLdx_keeps (t : Nat) (f : TForm) (s : State) (hκ : ρ.Keeps κ s) :
    OKeeps κ ρ (execLdx t f s) := by
  exact tRun_keeps _ _ _ _ _ hκ fun s x h => infoLdx_keeps s x h

theorem infoLdy_keeps (s : State) (x : TArg) (hκ : ρ.Keeps κ s) : TRes.Keeps κ ρ (infoLdy.body s x) := by
  unfold infoLdy
  repeat' first
    | intro _
    | with_reducible assumption
    | with_reducible apply State.operandLow_keeps
    | with_reducible apply TArg.upd_keeps

theorem execLdy_keeps (t : Nat) (f : TForm) (s : State) (hκ : ρ.Keeps κ s) :
    OKeeps κ ρ (execLdy t f s) := by
  exact tRun_keeps _ _ _ _ _ hκ fun s x h => infoLdy_keeps s x h

theorem infoStx_keeps (s : State) (x : TArg) (hκ : ρ.Keeps κ s) : TRes.Keeps κ ρ (infoStx.body s x) := by
  unfold infoStx
  repeat' first
    | intro _
    | with_reducible assumption
    | with_reducible apply State.storeOp_keeps

theorem execStx_keeps (t : Nat) (f : TForm) (s : State) (hκ : ρ.Keeps κ s) :
    OKeeps κ ρ (execStx t f s) := by
  exact tRun_keeps _ _ _ _ _ hκ fun s x h => infoStx_keeps s x h

theorem infoSty_keeps (s : State) (x : TArg) (hκ : ρ.Keeps κ s) : TRes.Keeps κ ρ (infoSty.body s x) := by
  unfold infoSty
  repeat' first
    | intro _
    | with_reducible assumption
    | with_reducible apply State.storeOp_keeps

theorem execSty_keeps (t : Nat) (f : TForm) (s : State) (hκ : ρ.Keeps κ s) :
    OKeeps κ ρ (execSty t f s) := by
  exact tRun_keeps _ _ _ _ _ hκ fun s x h => infoSty_keeps s x h

theorem infoXchg_keeps (s : State) (x : TArg) (hκ : ρ.Keeps κ s) : TRes.Keeps κ ρ (infoXchg.body s x) := by
  unfold infoXchg
  repeat' first
    | intro _
    | with_reducible assumption
    | with_reducible apply bodyXchg_keeps

theorem execXchg_keeps (t : Nat) (f : TForm) (s : State) (hκ : ρ.Keeps κ s) :
    OKeeps κ ρ (execXchg t f s) := by
  exact tRun_keeps _ _ _ _ _ hκ fun s x h => infoXchg_keeps s x h

theorem infoLdbk_keeps (s : State) (x : TArg) (hκ : ρ.Keeps κ s) : TRes.Keeps κ ρ (infoLdbk.body s x) := by
  unfold infoLdbk
  repeat' first
    | intro _
    | with_reducible assumption
    | with_reducible apply TArg.upd_keeps

theorem execLdbk_keeps (t : Nat) (f : TForm) (s : State) (hκ : ρ.Keeps κ s) :
    OKeeps κ ρ (execLdbk t f s) := by
  exact tRun_keeps _ _ _ _ _ hκ fun s x h => infoLdbk_keeps s x h

theorem infoAdd_keeps (s : State) (x : TArg) (hκ : ρ.Keeps κ s) : TRes.Keeps κ ρ (infoAdd.body s x) := by
  unfold infoAdd
  repeat' first
    | intro _
    | with_reducible assumption
    | with_reducible apply aluOp_keeps

theorem execAdd_keeps (t : Nat) (f : TForm) (s : State) (hκ : ρ.Keeps κ s) :
    OKeeps κ ρ (execAdd t f s) := by
  exact tRun_keeps _ _ _ _ _ hκ fun s x h => infoAdd_keeps s x h

theorem infoAdc_keeps (s : State) (x : TArg) (hκ : ρ.Keeps κ s) : TRes.Keeps κ ρ (infoAdc.body s x) := by
  unfold infoAdc
  repeat' first
    | intro _
    | with_reducible assumption
    | with_reducible apply aluOp_keeps

theorem execAdc_keeps (t : Nat) (f : TForm) (s : State) (hκ : ρ.Keeps κ s) :
    OKeeps κ ρ (execAdc t f s) := by
  exact tRun_keeps _ _ _ _ _ hκ fun s x h => infoAdc_keeps s x h

theorem infoSub_keeps (s : State) (x : TArg) (hκ : ρ.Keeps κ s) : TRes.Keeps κ ρ (infoSub.body s x) := by
  unfold infoSub
  repeat' first
    | intro _
    | with_reducible assumption
    | with_reducible apply aluOp_keeps

theorem execSub_keeps (t : Nat) (f : TForm) (s : State) (hκ : ρ.Keeps κ s) :
    OKeeps κ ρ (execSub t f s) := by
  exact tRun_keeps _ _ _ _ _ hκ fun s x h => infoSub_keeps s x h

theorem infoSbc_keeps (s : State) (x : TArg) (hκ : ρ.Keeps κ s) : TRes.Keeps κ ρ (infoSbc.body s x) := by
  unfold infoSbc
  repeat' first
    | intro _
    | with_reducible assumption
    | with_reducible apply aluOp_keeps

theorem execSbc_keeps (t : Nat) (f : TForm) (s : State) (hκ : ρ.Keeps κ s) :
    OKeeps κ ρ (execSbc t f s) := by
  exact tRun_keeps _ _ _ _ _ hκ fun s x h => infoSbc_keeps s x h

theorem infoCmp_keeps (s : State) (x : TArg) (hκ : ρ.Keeps κ s) : TRes.Keeps κ ρ (infoCmp.body s x) := by
  unfold infoCmp
  repeat' first
    | intro _
    | with_reducible assumption
    | with_reducible apply flagOp_keeps

theorem execCmp_keeps (t : Nat) (f : TForm) (s : State) (hκ : ρ.Keeps κ s) :
    OKeeps κ ρ (execCmp t f s) := by
  exact tRun_keeps _ _ _ _ _ hκ fun s x h => infoCmp_keeps s x h

theorem infoAnd_keeps (s : State) (x : TArg) (hκ : ρ.Keeps κ s) : TRes.Keeps κ ρ (infoAnd.body s x) := by
  unfold infoAnd
  repeat' first
    | intro _
    | with_reducible assumption
    | with_reducible apply aluOp_keeps

theorem execAnd_keeps (t : Nat) (f : TForm) (s : State) (hκ : ρ.Keeps κ s) :
    OKeeps κ ρ (execAnd t f s) := by
  exact tRun_keeps _ _ _ _ _ hκ fun s x h => infoAnd_keeps s x h

theorem infoOr_keeps (s : State) (x : TArg) (hκ : ρ.Keeps κ s) : TRes.Keeps κ ρ (infoOr.body s x) := by
  unfold infoOr
  repeat' first
    | intro _
    | with_reducible assumption
    | with_reducible apply aluOp_keeps

theorem execOr_keeps (t : Nat) (f : TForm) (s : State) (hκ : ρ.Keeps κ s) :
    OKeeps κ ρ (execOr t f s) := by
  exact tRun_keeps _ _ _ _ _ hκ fun s x h => infoOr_keeps s x h

theorem infoXor_keeps (s : State) (x : TArg) (hκ : ρ.Keeps κ s) : TRes.Keeps κ ρ (infoXor.body s x) := by
  unfold infoXor
  repeat' first
    | intro _
    | with_reducible assumption
    | with_reducible apply aluOp_keeps

theorem execXor_keeps (t : Nat) (f : TForm) (s : State) (hκ : ρ.Keeps κ s) :
    OKeeps κ ρ (execXor t f s) := by
  exact tRun_keeps _ _ _ _ _ hκ fun s x h => infoXor_keeps s x h

theorem infoBit_keeps (s : State) (x : TArg) (hκ : ρ.Keeps κ s) : TRes.Keeps κ ρ (infoBit.body s x) := by
  unfold infoBit
  repeat' first
    | intro _
    | with_reducible assumption
    | with_reducible apply flagOp_keeps

theorem execBit_keeps (t : Nat) (f : TForm) (s : State) (hκ : ρ.Keeps κ s) :
    OKeeps κ ρ (execBit t f s) := by
  exact tRun_keeps _ _ _ _ _ hκ fun s x h => infoBit_keeps s x h

theorem infoCpx_keeps (s : State) (x : TArg) (hκ : ρ.Keeps κ s) : TRes.Keeps κ ρ (infoCpx.body s x) := by
  unfold infoCpx
  repeat' first
    | intro _
    | with_reducible assumption
    | with_reducible apply State.operandLow_keeps
    | with_reducible apply TArg.upd_keeps

theorem execCpx_keeps (t : Nat) (f : TForm) (s : State) (hκ : ρ.Keeps κ s) :
    OKeeps κ ρ (execCpx t f s) := by
  exact tRun_keeps _ _ _ _ _ hκ fun s x h => infoCpx_keeps s x h

theorem infoCpy_keeps (s : State) (x : TArg) (hκ : ρ.Keeps κ s) : TRes.Keeps κ ρ (infoCpy.body s x) := by
  unfold infoCpy
  repeat' first
    | intro _
    | with_reducible assumption
    | with_reducible apply State.operandLow_keeps
    | with_reducible apply TArg.upd_keeps

theorem execCpy_keeps (t : Nat) (f : TForm) (s : State) (hκ : ρ.Keeps κ s) :
    OKeeps κ ρ (execCpy t f s) := by
  exact tRun_keeps _ _ _ _ _ hκ fun s x h => infoCpy_keeps s x h

theorem infoShl_keeps (s : State) (x : TArg) (hκ : ρ.Keeps κ s) : TRes.Keeps κ ρ (infoShl.body s x) := by
  unfold infoShl
  repeat' first
    | intro _
    | with_reducible assumption
    | with_reducible apply aluOp_keeps

theorem execShl_keeps (t : Nat) (f : TForm) (s : State) (hκ : ρ.Keeps κ s) :
    OKeeps κ ρ (execShl t f s) := by
  exact tRun_keeps _ _ _ _ _ hκ fun s x h => infoShl_keeps s x h

theorem infoShr_keeps (s : State) (x : TArg) (hκ : ρ.Keeps κ s) : TRes.Keeps κ ρ (infoShr.body s x) := by
  unfold infoShr
  repeat' first
    | intro _
    | with_reducible assumption
    | with_reducible apply aluOp_keeps

theorem execShr_keeps (t : Nat) (f : TForm) (s : State) (hκ : ρ.Keeps κ s) :
    OKeeps κ ρ (execShr t f s) := by
  exact tRun_keeps _ _ _ _ _ hκ fun s x h => infoShr_keeps s x h

theorem infoSar_keeps (s : State) (x : TArg) (hκ : ρ.Keeps κ s) : TRes.Keeps κ ρ (infoSar.body s x) := by
  unfold infoSar
  repeat' first
    | intro _
    | with_reducible assumption
    | with_reducible apply aluOp_keeps

theorem execSar_keeps (t : Nat) (f : TForm) (s : State) (hκ : ρ.Keeps κ s) :
    OKeeps κ ρ (execSar t f s) := by
  exact tRun_keeps _ _ _ _ _ hκ fun s x h => infoSar_keeps s x h

theorem infoRol_keeps (s : State) (x : TArg) (hκ : ρ.Keeps κ s) : TRes.Keeps κ ρ (infoRol.body s x) := by
  unfold infoRol
  repeat' first
    | intro _
    | with_reducible assumption
    | with_reducible apply aluOp_keeps

theorem execRol_keeps (t : Nat) (f : TForm) (s : State) (hκ : ρ.Keeps κ s) :
    OKeeps κ ρ (execRol t f s) := by
  exact tRun_keeps _ _ _ _ _ hκ fun s x h => infoRol_keeps s x h

theorem infoRor_keeps (s : State) (x : TArg) (hκ : ρ.Keeps κ s) : TRes.Keeps κ ρ (infoRor.body s x) := by
  unfold infoRor
  repeat' first
    | intro _
    | with_reducible assumption
    | with_reducible apply aluOp_keeps

theorem execRor_keeps (t : Nat) (f : TForm) (s : State) (hκ : ρ.Keeps κ s) :
    OKeeps κ ρ (execRor t f s) := by
  exact tRun_keeps _ _ _ _ _ hκ fun s x h => infoRor_keeps s x h

theorem infoAdx_keeps (s : State) (x : TArg) (hκ : ρ.Keeps κ s) : TRes.Keeps κ ρ (infoAdx.body s x) := by
  unfold infoAdx
  repeat' first
    | intro _
    | with_reducible assumption
    | with_reducible apply TArg.upd_keeps

theorem execAdx_keeps (t : Nat) (f : TForm) (s : State) (hκ : ρ.Keeps κ s) :
    OKeeps κ ρ (execAdx t f s) := by
  exact tRun_keeps _ _ _ _ _ hκ fun s x h => infoAdx_keeps s x h

theorem infoAdy_keeps (s : State) (x : TArg) (hκ : ρ.Keeps κ s) : TRes.Keeps κ ρ (infoAdy.body s x) := by
  unfold infoAdy
  repeat' first
    | intro _
    | with_reducible assumption
    | with_reducible apply TArg.upd_keeps

theorem execAdy_keeps (t : Nat) (f : TForm) (s : State) (hκ : ρ.Keeps κ s) :
    OKeeps κ ρ (execAdy t f s) := by
  exact tRun_keeps _ _ _ _ _ hκ fun s x h => infoAdy_keeps s x h

theorem infoUnaNeg_keeps (s : State) (x : TArg) (hκ : ρ.Keeps κ s) : TRes.Keeps κ ρ (infoUnaNeg.body s x) := by
  unfold infoUnaNeg
  repeat' first
    | intro _
    | with_reducible assumption
    | with_reducible apply unaOp_keeps

theorem execUnaNeg_keeps (t : Nat) (f : TForm) (s : State) (hκ : ρ.Keeps κ s) :
    OKeeps κ ρ (execUnaNeg t f s) := by
  exact tRun_keeps _ _ _ _ _ hκ fun s x h => infoUnaNeg_keeps s x h

theorem infoUnaNot_keeps (s : State) (x : TArg) (hκ : ρ.Keeps κ s) : TRes.Keeps κ ρ (infoUnaNot.body s x) := by
  unfold infoUnaNot
  repeat' first
    | intro _
    | with_reducible assumption
    | with_reducible apply unaOp_keeps

theorem execUnaNot_keeps (t : Nat) (f : TForm) (s : State) (hκ : ρ.Keeps κ s) :
    OKeeps κ ρ (execUnaNot t f s) := by
  exact tRun_keeps _ _ _ _ _ hκ fun s x h => infoUnaNot_keeps s x h

theorem infoUnaInc_keeps (s : State) (x : TArg) (hκ : ρ.Keeps κ s) : TRes.Keeps κ ρ (infoUnaInc.body s x) := by
  unfold infoUnaInc
  repeat' first
    | intro _
    | with_reducible assumption
    | with_reducible apply unaOp_keeps

theorem execUnaInc_keeps (t : Nat) (f : TForm) (s : State) (hκ : ρ.Keeps κ s) :
    OKeeps κ ρ (execUnaInc t f s) := by
  exact tRun_keeps _ _ _ _ _ hκ fun s x h => infoUnaInc_keeps s x h

theorem infoUnaDec_keeps (s : State) (x : TArg) (hκ : ρ.Keeps κ s) : TRes.Keeps κ ρ (infoUnaDec.body s x) := by
  unfold infoUnaDec
  repeat' first
    | intro _
    | with_reducible assumption
    | with_reducible apply unaOp_keeps

theorem execUnaDec_keeps (t : Nat) (f : TForm) (s : State) (hκ : ρ.Keeps κ s) :
    OKeeps κ ρ (execUnaDec t f s) := by
  exact tRun_keeps _ _ _ _ _ hκ fun s x h => infoUnaDec_keeps s x h

theorem infoUnaSxb_keeps (s : State) (x : TArg) (hκ : ρ.Keeps κ s) : TRes.Keeps κ ρ (infoUnaSxb.body s x) := by
  unfold infoUnaSxb
  repeat' first
    | intro _
    | with_reducible assumption
    | with_reducible apply unaOp_keeps

theorem execUnaSxb_keeps (t : Nat) (f : TForm) (s : State) (hκ : ρ.Keeps κ s) :
    OKeeps κ ρ (execUnaSxb t f s) := by
  exact tRun_keeps _ _ _ _ _ hκ fun s x h => infoUnaSxb_keeps s x h

theorem infoUnaSxh_keeps (s : State) (x : TArg) (hκ : ρ.Keeps κ s) : TRes.Keeps κ ρ (infoUnaSxh.body s x) := by
  unfold infoUnaSxh
  repeat' first
    | intro _
    | with_reducible assumption
    | with_reducible apply unaOp_keeps

theorem execUnaSxh_keeps (t : Nat) (f : TForm) (s : State) (hκ : ρ.Keeps κ s) :
    OKeeps κ ρ (execUnaSxh t f s) := by
  exact tRun_keeps _ _ _ _ _ hκ fun s x h => infoUnaSxh_keeps s x h

theorem infoUnaZxb_keeps (s : State) (x : TArg) (hκ : ρ.Keeps κ s) : TRes.Keeps κ ρ (infoUnaZxb.body s x) := by
  unfold infoUnaZxb
  repeat' first
    | intro _
    | with_reducible assumption
    | with_reducible apply unaOp_keeps

theorem execUnaZxb_keeps (t : Nat) (f : TForm) (s : State) (hκ : ρ.Keeps κ s) :
    OKeeps κ ρ (execUnaZxb t f s) := by
  exact tRun_keeps _ _ _ _ _ hκ fun s x h => infoUnaZxb_keeps s x h

theorem infoUnaZxh_keeps (s : State) (x : TArg) (hκ : ρ.Keeps κ s) : TRes.Keeps κ ρ (infoUnaZxh.body s x) := by
  unfold infoUnaZxh
  repeat' first
    | intro _
    | with_reducible assumption
    | with_reducible apply unaOp_keeps

theorem execUnaZxh_keeps (t : Nat) (f : TForm) (s : State) (hκ : ρ.Keeps κ s) :
    OKeeps κ ρ (execUnaZxh t f s) := by
  exact tRun_keeps _ _ _ _ _ hκ fun s x h => infoUnaZxh_keeps s x h

theorem infoPset_keeps (s : State) (x : TArg) (hκ : ρ.Keeps κ s) : TRes.Keeps κ ρ (infoPset.body s x) := by
  unfold infoPset
  repeat' first
    | intro _
    | with_reducible assumption
    | with_reducible apply bodyPset_keeps

theorem execPset_keeps (t : Nat) (f : TForm) (s : State) (hκ : ρ.Keeps κ s) :
    OKeeps κ ρ (execPset t f s) := by
  exact tRun_keeps _ _ _ _ _ hκ fun s x h => infoPset_keeps s x h

theorem infoPlogAnd_keeps (s : State) (x : TArg) (hκ : ρ.Keeps κ s) : TRes.Keeps κ ρ (infoPlogAnd.body s x) := by
  unfold infoPlogAnd
  repeat' first
    | intro _
    | with_reducible assumption
    | with_reducible apply plogOp_keeps

theorem execPlogAnd_keeps (t : Nat) (f : TForm) (s : State) (hκ : ρ.Keeps κ s) :
    OKeeps κ ρ (execPlogAnd t f s) := by
  exact tRun_keeps _ _ _ _ _ hκ fun s x h => infoPlogAnd_keeps s x h

theorem infoPlogOr_keeps (s : State) (x : TArg) (hκ : ρ.Keeps κ s) : TRes.Keeps κ ρ (infoPlogOr.body s x) := by
  unfold infoPlogOr
  repeat' first
    | intro _
    | with_reducible assumption
    | with_reducible apply plogOp_keeps

theorem execPlogOr_keeps (t : Nat) (f : TForm) (s : State) (hκ : ρ.Keeps κ s) :
    OKeeps κ ρ (execPlogOr t f s) := by
  exact tRun_keeps _ _ _ _ _ hκ fun s x h => infoPlogOr_keeps s x h

theorem infoPlogXor_keeps (s : State) (x : TArg) (hκ : ρ.Keeps κ s) : TRes.Keeps κ ρ (infoPlogXor.body s x) := by
  unfold infoPlogXor
  repeat' first
    | intro _
    | with_reducible assumption
    | with_reducible apply plogOp_keeps

theorem execPlogXor_keeps (t : Nat) (f : TForm) (s : State) (hκ : ρ.Keeps κ s) :
    OKeeps κ ρ (execPlogXor t f s) := by
  exact tRun_keeps _ _ _ _ _ hκ fun s x h => infoPlogXor_keeps s x h

theorem infoPlogAndNot_keeps (s : State) (x : TArg) (hκ : ρ.Keeps κ s) : TRes.Keeps κ ρ (infoPlogAndNot.body s x) := by
  unfold infoPlogAndNot
  repeat' first
    | intro _
    | with_reducible assumption
    | with_reducible apply plogOp_keeps

theorem execPlogAndNot_keeps (t : Nat) (f : TForm) (s : State) (hκ : ρ.Keeps κ s) :
    OKeeps κ ρ (execPlogAndNot t f s) := by
  exact tRun_keeps _ _ _ _ _ hκ fun s x h => infoPlogAndNot_keeps s x h

end Sys2Proof.Machine
end

