-- ==== Sys2Proof/Laws/KTillerMul.lean ====
section
/-! SUPPORT. What the changes of state in Machine/TillerMul.lean keep. -/

namespace Sys2Proof.Machine

variable {κ : Kept} {ρ : State}

theorem mulOp_keeps (signed : Bool) (k : Word → Word → BitVec 64) (s : State) (x : TArg) (hκ : ρ.Keeps κ s) :
    TRes.Keeps κ ρ (mulOp signed k s x) := by
  unfold mulOp
  repeat' first
    | intro _
    | with_reducible assumption
    | with_reducible apply State.operand_keeps
    | with_reducible apply TArg.upd_keeps

theorem infoMul_keeps (s : State) (x : TArg) (hκ : ρ.Keeps κ s) : TRes.Keeps κ ρ (infoMul.body s x) := by
  unfold infoMul
  repeat' first
    | intro _
    | with_reducible assumption
    | with_reducible apply mulOp_keeps

theorem execMul_keeps (t : Nat) (f : TForm) (s : State) (hκ : ρ.Keeps κ s) :
    OKeeps κ ρ (execMul t f s) := by
  exact tRun_keeps _ _ _ _ _ hκ fun s x h => infoMul_keeps s x h

theorem infoMuls_keeps (s : State) (x : TArg) (hκ : ρ.Keeps κ s) : TRes.Keeps κ ρ (infoMuls.body s x) := by
  unfold infoMuls
  repeat' first
    | intro _
    | with_reducible assumption
    | with_reducible apply mulOp_keeps

theorem execMuls_keeps (t : Nat) (f : TForm) (s : State) (hκ : ρ.Keeps κ s) :
    OKeeps κ ρ (execMuls t f s) := by
  exact tRun_keeps _ _ _ _ _ hκ fun s x h => infoMuls_keeps s x h

theorem execProductReady_keeps (t : Nat) (s : State) (hκ : ρ.Keeps κ s) :
    OKeeps κ ρ (execProductReady t s) := by
  unfold execProductReady
  repeat' first
    | intro _
    | with_reducible assumption
    | with_reducible apply State.modThread_keeps
    | with_reducible apply State.keeps_ite
    | with_reducible apply okeeps_ite
    | with_reducible apply okeeps_next
    | dsimp only
    | split

theorem divSetup_keeps (signed : Bool) (s : State) (x : TArg) (hκ : ρ.Keeps κ s) :
    TRes.Keeps κ ρ (divSetup signed s x) := by
  unfold divSetup
  repeat' first
    | intro _
    | with_reducible assumption
    | with_reducible apply State.operand_keeps
    | with_reducible apply TArg.upd_keeps

theorem infoDsetup_keeps (s : State) (x : TArg) (hκ : ρ.Keeps κ s) : TRes.Keeps κ ρ (infoDsetup.body s x) := by
  unfold infoDsetup
  repeat' first
    | intro _
    | with_reducible assumption
    | with_reducible apply divSetup_keeps

theorem execDsetup_keeps (t : Nat) (f : TForm) (s : State) (hκ : ρ.Keeps κ s) :
    OKeeps κ ρ (execDsetup t f s) := by
  exact tRun_keeps _ _ _ _ _ hκ fun s x h => infoDsetup_keeps s x h

theorem infoDsetups_keeps (s : State) (x : TArg) (hκ : ρ.Keeps κ s) : TRes.Keeps κ ρ (infoDsetups.body s x) := by
  unfold infoDsetups
  repeat' first
    | intro _
    | with_reducible assumption
    | with_reducible apply divSetup_keeps

theorem execDsetups_keeps (t : Nat) (f : TForm) (s : State) (hκ : ρ.Keeps κ s) :
    OKeeps κ ρ (execDsetups t f s) := by
  exact tRun_keeps _ _ _ _ _ hκ fun s x h => infoDsetups_keeps s x h

theorem infoDstep_keeps (s : State) (x : TArg) (hκ : ρ.Keeps κ s) : TRes.Keeps κ ρ (infoDstep.body s x) := by
  unfold infoDstep
  repeat' first
    | intro _
    | with_reducible assumption
    | with_reducible apply TArg.upd_keeps

theorem execDstep_keeps (t : Nat) (f : TForm) (s : State) (hκ : ρ.Keeps κ s) :
    OKeeps κ ρ (execDstep t f s) := by
  exact tRun_keeps _ _ _ _ _ hκ fun s x h => infoDstep_keeps s x h

end Sys2Proof.Machine
end

