-- ==== Sys2Proof/Laws/KTillerFp.lean ====
section
/-! SUPPORT. What the changes of state in Machine/TillerFp.lean keep. -/

namespace Sys2Proof.Machine

variable {κ : Kept} {ρ : State}

theorem fpFlags_keeps (s : State) (x : TArg) (trap flags : Nat) (k : Thread → Thread) (hκ : ρ.Keeps κ s) :
    TRes.Keeps κ ρ (fpFlags s x trap flags k) := by
  unfold fpFlags
  repeat' first
    | intro _
    | with_reducible assumption
    | with_reducible apply TArg.upd_keeps
    | with_reducible apply tkeeps_ite
    | with_reducible apply State.keeps_ite
    | with_reducible apply tkeeps_done
    | with_reducible apply tkeeps_hold
    | with_reducible apply tkeeps_trapAt
    | with_reducible apply tkeeps_trap

theorem fpPut_keeps (s : State) (x : TArg) (r : FRes) (hκ : ρ.Keeps κ s) :
    TRes.Keeps κ ρ (fpPut s x r) := by
  unfold fpPut
  repeat' first
    | intro _
    | with_reducible assumption
    | with_reducible apply fpFlags_keeps

theorem fpBin_keeps (k : Bool → Nat → Nat → Nat → FRes) (s : State) (x : TArg) (hκ : ρ.Keeps κ s) :
    TRes.Keeps κ ρ (fpBin k s x) := by
  unfold fpBin
  repeat' first
    | intro _
    | with_reducible assumption
    | with_reducible apply State.fpOperand_keeps
    | with_reducible apply fpPut_keeps

theorem fpSign_keeps (k : Bool → Nat → Nat) (s : State) (x : TArg) (hκ : ρ.Keeps κ s) :
    TRes.Keeps κ ρ (fpSign k s x) := by
  unfold fpSign
  repeat' first
    | intro _
    | with_reducible assumption
    | with_reducible apply TArg.upd_keeps

theorem bodyFld_keeps (s : State) (x : TArg) (hκ : ρ.Keeps κ s) :
    TRes.Keeps κ ρ (bodyFld s x) := by
  unfold bodyFld
  repeat' first
    | intro _
    | with_reducible assumption
    | with_reducible apply State.fpOperand_keeps
    | with_reducible apply TArg.upd_keeps

theorem bodyFst_keeps (s : State) (x : TArg) (hκ : ρ.Keeps κ s) :
    TRes.Keeps κ ρ (bodyFst s x) := by
  unfold bodyFst
  repeat' first
    | intro _
    | with_reducible assumption
    | with_reducible apply State.storeOp_keeps

theorem bodyFma_keeps (s : State) (x : TArg) (hκ : ρ.Keeps κ s) :
    TRes.Keeps κ ρ (bodyFma s x) := by
  unfold bodyFma
  repeat' first
    | intro _
    | with_reducible assumption
    | with_reducible apply State.fpOperand_keeps
    | with_reducible apply fpPut_keeps

theorem bodyFmaa_keeps (s : State) (x : TArg) (hκ : ρ.Keeps κ s) :
    TRes.Keeps κ ρ (bodyFmaa s x) := by
  unfold bodyFmaa
  repeat' first
    | intro _
    | with_reducible assumption
    | with_reducible apply State.fpOperand_keeps
    | with_reducible apply fpPut_keeps

theorem bodyFcmp_keeps (s : State) (x : TArg) (hκ : ρ.Keeps κ s) :
    TRes.Keeps κ ρ (bodyFcmp s x) := by
  unfold bodyFcmp
  repeat' first
    | intro _
    | with_reducible assumption
    | with_reducible apply State.fpOperand_keeps
    | with_reducible apply fpFlags_keeps

theorem bodyFcvti_keeps (s : State) (x : TArg) (hκ : ρ.Keeps κ s) :
    TRes.Keeps κ ρ (bodyFcvti s x) := by
  unfold bodyFcvti
  repeat' first
    | intro _
    | with_reducible assumption
    | with_reducible apply fpFlags_keeps

theorem infoFld_keeps (s : State) (x : TArg) (hκ : ρ.Keeps κ s) : TRes.Keeps κ ρ (infoFld.body s x) := by
  unfold infoFld
  repeat' first
    | intro _
    | with_reducible assumption
    | with_reducible apply bodyFld_keeps

theorem execFld_keeps (t : Nat) (f : TForm) (s : State) (hκ : ρ.Keeps κ s) :
    OKeeps κ ρ (execFld t f s) := by
  exact tRun_keeps _ _ _ _ _ hκ fun s x h => infoFld_keeps s x h

theorem infoFst_keeps (s : State) (x : TArg) (hκ : ρ.Keeps κ s) : TRes.Keeps κ ρ (infoFst.body s x) := by
  unfold infoFst
  repeat' first
    | intro _
    | with_reducible assumption
    | with_reducible apply bodyFst_keeps

theorem execFst_keeps (t : Nat) (f : TForm) (s : State) (hκ : ρ.Keeps κ s) :
    OKeeps κ ρ (execFst t f s) := by
  exact tRun_keeps _ _ _ _ _ hκ fun s x h => infoFst_keeps s x h

theorem infoFadd_keeps (s : State) (x : TArg) (hκ : ρ.Keeps κ s) : TRes.Keeps κ ρ (infoFadd.body s x) := by
  unfold infoFadd
  repeat' first
    | intro _
    | with_reducible assumption
    | with_reducible apply fpBin_keeps

theorem execFadd_keeps (t : Nat) (f : TForm) (s : State) (hκ : ρ.Keeps κ s) :
    OKeeps κ ρ (execFadd t f s) := by
  exact tRun_keeps _ _ _ _ _ hκ fun s x h => infoFadd_keeps s x h

theorem infoFsub_keeps (s : State) (x : TArg) (hκ : ρ.Keeps κ s) : TRes.Keeps κ ρ (infoFsub.body s x) := by
  unfold infoFsub
  repeat' first
    | intro _
    | with_reducible assumption
    | with_reducible apply fpBin_keeps

theorem execFsub_keeps (t : Nat) (f : TForm) (s : State) (hκ : ρ.Keeps κ s) :
    OKeeps κ ρ (execFsub t f s) := by
  exact tRun_keeps _ _ _ _ _ hκ fun s x h => infoFsub_keeps s x h

theorem infoFmul_keeps (s : State) (x : TArg) (hκ : ρ.Keeps κ s) : TRes.Keeps κ ρ (infoFmul.body s x) := by
  unfold infoFmul
  repeat' first
    | intro _
    | with_reducible assumption
    | with_reducible apply fpBin_keeps

theorem execFmul_keeps (t : Nat) (f : TForm) (s : State) (hκ : ρ.Keeps κ s) :
    OKeeps κ ρ (execFmul t f s) := by
  exact tRun_keeps _ _ _ _ _ hκ fun s x h => infoFmul_keeps s x h

theorem infoFdiv_keeps (s : State) (x : TArg) (hκ : ρ.Keeps κ s) : TRes.Keeps κ ρ (infoFdiv.body s x) := by
  unfold infoFdiv
  repeat' first
    | intro _
    | with_reducible assumption
    | with_reducible apply fpBin_keeps

theorem execFdiv_keeps (t : Nat) (f : TForm) (s : State) (hκ : ρ.Keeps κ s) :
    OKeeps κ ρ (execFdiv t f s) := by
  exact tRun_keeps _ _ _ _ _ hκ fun s x h => infoFdiv_keeps s x h

theorem infoFma_keeps (s : State) (x : TArg) (hκ : ρ.Keeps κ s) : TRes.Keeps κ ρ (infoFma.body s x) := by
  unfold infoFma
  repeat' first
    | intro _
    | with_reducible assumption
    | with_reducible apply bodyFma_keeps

theorem execFma_keeps (t : Nat) (f : TForm) (s : State) (hκ : ρ.Keeps κ s) :
    OKeeps κ ρ (execFma t f s) := by
  exact tRun_keeps _ _ _ _ _ hκ fun s x h => infoFma_keeps s x h

theorem infoFmaa_keeps (s : State) (x : TArg) (hκ : ρ.Keeps κ s) : TRes.Keeps κ ρ (infoFmaa.body s x) := by
  unfold infoFmaa
  repeat' first
    | intro _
    | with_reducible assumption
    | with_reducible apply bodyFmaa_keeps

theorem execFmaa_keeps (t : Nat) (f : TForm) (s : State) (hκ : ρ.Keeps κ s) :
    OKeeps κ ρ (execFmaa t f s) := by
  exact tRun_keeps _ _ _ _ _ hκ fun s x h => infoFmaa_keeps s x h

theorem infoFcmp_keeps (s : State) (x : TArg) (hκ : ρ.Keeps κ s) : TRes.Keeps κ ρ (infoFcmp.body s x) := by
  unfold infoFcmp
  repeat' first
    | intro _
    | with_reducible assumption
    | with_reducible apply bodyFcmp_keeps

theorem execFcmp_keeps (t : Nat) (f : TForm) (s : State) (hκ : ρ.Keeps κ s) :
    OKeeps κ ρ (execFcmp t f s) := by
  exact tRun_keeps _ _ _ _ _ hκ fun s x h => infoFcmp_keeps s x h

theorem infoFsqrt_keeps (s : State) (x : TArg) (hκ : ρ.Keeps κ s) : TRes.Keeps κ ρ (infoFsqrt.body s x) := by
  unfold infoFsqrt
  repeat' first
    | intro _
    | with_reducible assumption
    | with_reducible apply fpPut_keeps

theorem execFsqrt_keeps (t : Nat) (f : TForm) (s : State) (hκ : ρ.Keeps κ s) :
    OKeeps κ ρ (execFsqrt t f s) := by
  exact tRun_keeps _ _ _ _ _ hκ fun s x h => infoFsqrt_keeps s x h

theorem infoFcvti_keeps (s : State) (x : TArg) (hκ : ρ.Keeps κ s) : TRes.Keeps κ ρ (infoFcvti.body s x) := by
  unfold infoFcvti
  repeat' first
    | intro _
    | with_reducible assumption
    | with_reducible apply bodyFcvti_keeps

theorem execFcvti_keeps (t : Nat) (f : TForm) (s : State) (hκ : ρ.Keeps κ s) :
    OKeeps κ ρ (execFcvti t f s) := by
  exact tRun_keeps _ _ _ _ _ hκ fun s x h => infoFcvti_keeps s x h

theorem infoFcvtf_keeps (s : State) (x : TArg) (hκ : ρ.Keeps κ s) : TRes.Keeps κ ρ (infoFcvtf.body s x) := by
  unfold infoFcvtf
  repeat' first
    | intro _
    | with_reducible assumption
    | with_reducible apply fpPut_keeps

theorem execFcvtf_keeps (t : Nat) (f : TForm) (s : State) (hκ : ρ.Keeps κ s) :
    OKeeps κ ρ (execFcvtf t f s) := by
  exact tRun_keeps _ _ _ _ _ hκ fun s x h => infoFcvtf_keeps s x h

theorem infoFneg_keeps (s : State) (x : TArg) (hκ : ρ.Keeps κ s) : TRes.Keeps κ ρ (infoFneg.body s x) := by
  unfold infoFneg
  repeat' first
    | intro _
    | with_reducible assumption
    | with_reducible apply fpSign_keeps

theorem execFneg_keeps (t : Nat) (f : TForm) (s : State) (hκ : ρ.Keeps κ s) :
    OKeeps κ ρ (execFneg t f s) := by
  exact tRun_keeps _ _ _ _ _ hκ fun s x h => infoFneg_keeps s x h

theorem infoFabs_keeps (s : State) (x : TArg) (hκ : ρ.Keeps κ s) : TRes.Keeps κ ρ (infoFabs.body s x) := by
  unfold infoFabs
  repeat' first
    | intro _
    | with_reducible assumption
    | with_reducible apply fpSign_keeps

theorem execFabs_keeps (t : Nat) (f : TForm) (s : State) (hκ : ρ.Keeps κ s) :
    OKeeps κ ρ (execFabs t f s) := by
  exact tRun_keeps _ _ _ _ _ hκ fun s x h => infoFabs_keeps s x h

theorem infoRcpe_keeps (s : State) (x : TArg) (hκ : ρ.Keeps κ s) : TRes.Keeps κ ρ (infoRcpe.body s x) := by
  unfold infoRcpe
  repeat' first
    | intro _
    | with_reducible assumption
    | with_reducible apply State.fpOperand_keeps
    | with_reducible apply TArg.upd_keeps

theorem execRcpe_keeps (t : Nat) (f : TForm) (s : State) (hκ : ρ.Keeps κ s) :
    OKeeps κ ρ (execRcpe t f s) := by
  exact tRun_keeps _ _ _ _ _ hκ fun s x h => infoRcpe_keeps s x h

end Sys2Proof.Machine
end

