-- ==== Sys2Proof/Laws/KTillerFlow.lean ====
section
/-! SUPPORT. What the changes of state in Machine/TillerFlow.lean keep. -/

namespace Sys2Proof.Machine

variable {κ : Kept} {ρ : State}

theorem bodyDbnz_keeps (s : State) (x : TArg) (hκ : ρ.Keeps κ s) :
    TRes.Keeps κ ρ (bodyDbnz s x) := by
  unfold bodyDbnz
  repeat' first
    | intro _
    | with_reducible assumption
    | with_reducible apply TArg.upd_keeps

theorem State.push_keeps (s : State) (x : TArg) (b : Bytes) (hκ : ρ.Keeps κ s) : TRes.Keeps κ ρ (State.push s x b) := by
  unfold State.push
  extract_lets h a
  refine tkeeps_ite hκ ?_
  have h1 := State.engWr_keeps s x a b 4 hκ
  split
  · rename_i e; rw [e] at h1; exact TArg.upd_keeps _ _ _ h1
  · exact hκ
  · exact h1

theorem State.pushAll_keeps (x : TArg) : ∀ (l : List Bytes) (s : State) (_ : ρ.Keeps κ s),
    TRes.Keeps κ ρ (State.pushAll x l s) := by
  intro l
  induction l with
  | nil => intro s h; exact h
  | cons b l ih =>
    intro s h
    have h1 := State.push_keeps s x b h
    simp only [State.pushAll]
    split
    · rename_i e; rw [e] at h1; exact ih _ h1
    · exact h1

theorem State.pop_keeps (s : State) (x : TArg) (n : Nat) (k : State → Nat → TRes) (hκ : ρ.Keeps κ s)
    (hk : ∀ s v, ρ.Keeps κ s → TRes.Keeps κ ρ (k s v)) : TRes.Keeps κ ρ (s.pop x n k) := by
  unfold State.pop
  extract_lets a
  refine tkeeps_ite hκ ?_
  have h1 := State.engRd_keeps s x a n 4 hκ
  split
  · exact hk _ _ (State.modThread_keeps _ _ _ hκ)
  · exact hκ
  · rename_i e; rw [e] at h1; exact h1
  · exact tkeeps_stall
  · exact tkeeps_lost _ _

theorem callTo_keeps (target mask : Nat) (s : State) (x : TArg) (hκ : ρ.Keeps κ s) :
    TRes.Keeps κ ρ (callTo target mask s x) := by
  unfold callTo
  dsimp only
  refine tkeeps_ite (tkeeps_trap _ _) ?_
  generalize hg : State.pushAll x _ s = g
  have h1 : TRes.Keeps κ ρ g := hg ▸ State.pushAll_keeps _ _ _ hκ
  cases g
  · exact TArg.upd_keeps _ _ _ h1
  all_goals exact h1

theorem State.popSlots_keeps (x : TArg) (call own ret : Nat) : ∀ (l : List Nat) (s : State) (_ : ρ.Keeps κ s),
    TRes.Keeps κ ρ (State.popSlots x call own ret l s) := by
  intro l
  induction l with
  | nil => intro s h; exact TArg.upd_keeps _ _ _ h
  | cons k l ih =>
    intro s h
    rw [State.popSlots]
    exact tkeeps_ite (State.pop_keeps _ _ _ _ h fun s v h => ih _ (State.keeps_ite (State.modThread_keeps _ _ _ h) h)) (ih _ h)

theorem bodyRet_keeps (s : State) (x : TArg) (hκ : ρ.Keeps κ s) :
    TRes.Keeps κ ρ (bodyRet s x) := by
  unfold bodyRet
  refine State.pop_keeps _ _ _ _ hκ fun s v h => ?_
  exact tkeeps_ite (tkeeps_trap _ _) (State.popSlots_keeps _ _ _ _ _ _ h)

theorem bodyCall_keeps (s : State) (x : TArg) (hκ : ρ.Keeps κ s) :
    TRes.Keeps κ ρ (bodyCall s x) := by
  unfold bodyCall
  repeat' first
    | intro _
    | with_reducible assumption
    | with_reducible apply callTo_keeps
    | with_reducible apply tkeeps_done
    | with_reducible apply tkeeps_hold
    | with_reducible apply tkeeps_trapAt
    | with_reducible apply tkeeps_trap
    | with_reducible apply tkeeps_stall
    | with_reducible apply tkeeps_lost
    | dsimp only
    | split

theorem bodyJmp_keeps (s : State) (x : TArg) (hκ : ρ.Keeps κ s) :
    TRes.Keeps κ ρ (bodyJmp s x) := by
  unfold bodyJmp
  repeat' first
    | intro _
    | with_reducible assumption
    | with_reducible apply State.operand_keeps
    | with_reducible apply TArg.upd_keeps

theorem State.waitDone_keeps (s : State) (t : Nat) (m : Byte) (hκ : ρ.Keeps κ s) :
    ρ.Keeps κ (State.waitDone s t m) := by
  unfold State.waitDone
  repeat' first
    | intro _
    | with_reducible assumption
    | with_reducible apply State.modThread_keeps

theorem bodyWait_keeps (s : State) (x : TArg) (hκ : ρ.Keeps κ s) :
    TRes.Keeps κ ρ (bodyWait s x) := by
  unfold bodyWait
  repeat' first
    | intro _
    | with_reducible assumption
    | with_reducible apply TArg.upd_keeps
    | with_reducible apply State.waitDone_keeps
    | with_reducible apply tkeeps_ite
    | with_reducible apply State.keeps_ite
    | with_reducible apply tkeeps_done

theorem execWaitWake_keeps (t : Nat) (s : State) (hκ : ρ.Keeps κ s) :
    OKeeps κ ρ (execWaitWake t s) := by
  unfold execWaitWake
  repeat' first
    | intro _
    | with_reducible assumption
    | with_reducible apply State.waitDone_keeps
    | with_reducible apply State.keeps_ite
    | with_reducible apply okeeps_ite
    | with_reducible apply okeeps_next
    | dsimp only
    | split

theorem execThreadTimerExpiry_keeps (t : Nat) (s : State) (hκ : ρ.Keeps κ s) :
    OKeeps κ ρ (execThreadTimerExpiry t s) := by
  unfold execThreadTimerExpiry
  repeat' first
    | intro _
    | with_reducible assumption
    | with_reducible apply State.modThread_keeps
    | with_reducible apply State.latch_keeps
    | with_reducible apply State.keeps_ite
    | with_reducible apply okeeps_ite
    | with_reducible apply okeeps_next

theorem bodyRte_keeps (s : State) (x : TArg) (hκ : ρ.Keeps κ s) :
    TRes.Keeps κ ρ (bodyRte s x) := by
  unfold bodyRte
  repeat' first
    | intro _
    | with_reducible assumption
    | with_reducible apply TArg.upd_keeps

theorem furrowOp_keeps (k : Furrow → Furrow) (s : State) (x : TArg) (hκ : ρ.Keeps κ s) :
    TRes.Keeps κ ρ (furrowOp k s x) := by
  unfold furrowOp
  repeat' first
    | intro _
    | with_reducible assumption
    | with_reducible apply TArg.upd_keeps

theorem bodyNext_keeps (s : State) (x : TArg) (hκ : ρ.Keeps κ s) :
    TRes.Keeps κ ρ (bodyNext s x) := by
  unfold bodyNext
  repeat' first
    | intro _
    | with_reducible assumption
    | with_reducible apply furrowOp_keeps
    | with_reducible apply tkeeps_ite
    | with_reducible apply State.keeps_ite
    | with_reducible apply tkeeps_done

theorem State.enterRoutine_keeps (s : State) (x : TArg) (i : Nat) (hκ : ρ.Keeps κ s) :
    TRes.Keeps κ ρ (State.enterRoutine s x i) := by
  unfold State.enterRoutine
  repeat' first
    | intro _
    | with_reducible assumption
    | with_reducible apply TArg.upd_keeps
    | with_reducible apply tkeeps_ite
    | with_reducible apply State.keeps_ite
    | with_reducible apply State.keeps_elim
    | with_reducible apply tkeeps_done
    | with_reducible apply tkeeps_hold
    | with_reducible apply tkeeps_trapAt
    | with_reducible apply tkeeps_trap
    | with_reducible apply tkeeps_stall

theorem bodyXcall_keeps (s : State) (x : TArg) (hκ : ρ.Keeps κ s) :
    TRes.Keeps κ ρ (bodyXcall s x) := by
  unfold bodyXcall
  repeat' first
    | intro _
    | with_reducible assumption
    | with_reducible apply State.operand_keeps
    | with_reducible apply State.enterRoutine_keeps

theorem State.forward_keeps (s : State) (sc t n : Nat) (last : Bool) (hκ : ρ.Keeps κ s) :
    ρ.Keeps κ (State.forward s sc t n last) := by
  unfold State.forward
  repeat' first
    | intro _
    | with_reducible assumption
    | with_reducible apply State.modChain_keeps
    | with_reducible apply State.newXfer_keeps

theorem State.xfIdle_keeps (s : State) (sc : Nat) (hκ : ρ.Keeps κ s) :
    ρ.Keeps κ (State.xfIdle s sc) := by
  unfold State.xfIdle
  repeat' first
    | intro _
    | with_reducible assumption
    | with_reducible apply State.modChain_keeps
    | with_reducible apply State.advance_keeps
    | with_reducible apply State.keeps_ite

theorem State.forwarded_keeps (s : State) (sc x : Nat) (hκ : ρ.Keeps κ s) :
    ρ.Keeps κ (State.forwarded s sc x) := by
  unfold State.forwarded
  repeat' first
    | intro _
    | with_reducible assumption
    | with_reducible apply State.modChain_keeps
    | with_reducible apply State.modThread_keeps
    | with_reducible apply State.opData_keeps
    | with_reducible apply State.dropXfer_keeps
    | with_reducible apply State.saveList_keeps
    | with_reducible apply State.moveFailed_keeps
    | with_reducible apply State.xfIdle_keeps
    | with_reducible apply State.keeps_ite
    | with_reducible apply okeeps_ite
    | with_reducible apply State.keeps_getD
    | with_reducible apply State.keeps_elim
    | with_reducible apply Mem.drop_wf
    | dsimp only
    | split

theorem bodyXret_keeps (s : State) (x : TArg) (hκ : ρ.Keeps κ s) :
    TRes.Keeps κ ρ (bodyXret s x) := by
  unfold bodyXret
  repeat' first
    | intro _
    | with_reducible assumption
    | with_reducible apply State.modThread_keeps
    | with_reducible apply State.tick_keeps
    | with_reducible apply State.forward_keeps
    | with_reducible apply tkeeps_ite
    | with_reducible apply State.keeps_ite
    | with_reducible apply State.keeps_elim
    | with_reducible apply tkeeps_done
    | with_reducible apply tkeeps_hold
    | with_reducible apply tkeeps_trapAt
    | with_reducible apply tkeeps_trap
    | with_reducible apply tkeeps_stall
    | with_reducible apply tkeeps_lost
    | with_reducible apply Mem.wrN_wf
    | dsimp only
    | split

theorem execWatchdog_keeps (t : Nat) (s : State) (hκ : ρ.Keeps κ s) :
    OKeeps κ ρ (execWatchdog t s) := by
  unfold execWatchdog
  repeat' first
    | intro _
    | with_reducible assumption
    | with_reducible apply fin_keeps
    | with_reducible apply State.doTrap_keeps
    | with_reducible apply State.keeps_ite
    | with_reducible apply okeeps_ite
    | with_reducible apply okeeps_next

theorem infoBra_keeps (s : State) (x : TArg) (hκ : ρ.Keeps κ s) : TRes.Keeps κ ρ (infoBra.body s x) := by
  unfold infoBra
  repeat' first
    | intro _
    | with_reducible assumption
    | with_reducible apply TArg.upd_keeps

theorem execBra_keeps (t : Nat) (f : TForm) (s : State) (hκ : ρ.Keeps κ s) :
    OKeeps κ ρ (execBra t f s) := by
  exact tRun_keeps _ _ _ _ _ hκ fun s x h => infoBra_keeps s x h

theorem infoDbnz_keeps (s : State) (x : TArg) (hκ : ρ.Keeps κ s) : TRes.Keeps κ ρ (infoDbnz.body s x) := by
  unfold infoDbnz
  repeat' first
    | intro _
    | with_reducible assumption
    | with_reducible apply bodyDbnz_keeps

theorem execDbnz_keeps (t : Nat) (f : TForm) (s : State) (hκ : ρ.Keeps κ s) :
    OKeeps κ ρ (execDbnz t f s) := by
  exact tRun_keeps _ _ _ _ _ hκ fun s x h => infoDbnz_keeps s x h

theorem infoJmp_keeps (s : State) (x : TArg) (hκ : ρ.Keeps κ s) : TRes.Keeps κ ρ (infoJmp.body s x) := by
  unfold infoJmp
  repeat' first
    | intro _
    | with_reducible assumption
    | with_reducible apply bodyJmp_keeps

theorem execJmp_keeps (t : Nat) (f : TForm) (s : State) (hκ : ρ.Keeps κ s) :
    OKeeps κ ρ (execJmp t f s) := by
  exact tRun_keeps _ _ _ _ _ hκ fun s x h => infoJmp_keeps s x h

theorem infoCall_keeps (s : State) (x : TArg) (hκ : ρ.Keeps κ s) : TRes.Keeps κ ρ (infoCall.body s x) := by
  unfold infoCall
  repeat' first
    | intro _
    | with_reducible assumption
    | with_reducible apply bodyCall_keeps

theorem execCall_keeps (t : Nat) (f : TForm) (s : State) (hκ : ρ.Keeps κ s) :
    OKeeps κ ρ (execCall t f s) := by
  exact tRun_keeps _ _ _ _ _ hκ fun s x h => infoCall_keeps s x h

theorem infoCalla_keeps (s : State) (x : TArg) (hκ : ρ.Keeps κ s) : TRes.Keeps κ ρ (infoCalla.body s x) := by
  unfold infoCalla
  repeat' first
    | intro _
    | with_reducible assumption
    | with_reducible apply callTo_keeps

theorem execCalla_keeps (t : Nat) (f : TForm) (s : State) (hκ : ρ.Keeps κ s) :
    OKeeps κ ρ (execCalla t f s) := by
  exact tRun_keeps _ _ _ _ _ hκ fun s x h => infoCalla_keeps s x h

theorem infoRet_keeps (s : State) (x : TArg) (hκ : ρ.Keeps κ s) : TRes.Keeps κ ρ (infoRet.body s x) := by
  unfold infoRet
  repeat' first
    | intro _
    | with_reducible assumption
    | with_reducible apply bodyRet_keeps

theorem execRet_keeps (t : Nat) (f : TForm) (s : State) (hκ : ρ.Keeps κ s) :
    OKeeps κ ρ (execRet t f s) := by
  exact tRun_keeps _ _ _ _ _ hκ fun s x h => infoRet_keeps s x h

theorem infoWait_keeps (s : State) (x : TArg) (hκ : ρ.Keeps κ s) : TRes.Keeps κ ρ (infoWait.body s x) := by
  unfold infoWait
  repeat' first
    | intro _
    | with_reducible assumption
    | with_reducible apply bodyWait_keeps

theorem execWait_keeps (t : Nat) (f : TForm) (s : State) (hκ : ρ.Keeps κ s) :
    OKeeps κ ρ (execWait t f s) := by
  exact tRun_keeps _ _ _ _ _ hκ fun s x h => infoWait_keeps s x h

theorem infoFence_keeps (s : State) (x : TArg) (hκ : ρ.Keeps κ s) : TRes.Keeps κ ρ (infoFence.body s x) := by
  unfold infoFence
  repeat' first
    | intro _
    | with_reducible assumption
    | with_reducible apply tkeeps_done
    | with_reducible apply tkeeps_ite
    | with_reducible apply tkeeps_trapAt
    | with_reducible apply tkeeps_trap
    | with_reducible apply tkeeps_hold
    | with_reducible apply tkeeps_stall

theorem execFence_keeps (t : Nat) (f : TForm) (s : State) (hκ : ρ.Keeps κ s) :
    OKeeps κ ρ (execFence t f s) := by
  exact tRun_keeps _ _ _ _ _ hκ fun s x h => infoFence_keeps s x h

theorem infoTrap_keeps (s : State) (x : TArg) (hκ : ρ.Keeps κ s) : TRes.Keeps κ ρ (infoTrap.body s x) := by
  unfold infoTrap
  repeat' first
    | intro _
    | with_reducible assumption
    | with_reducible apply tkeeps_done
    | with_reducible apply tkeeps_ite
    | with_reducible apply tkeeps_trapAt
    | with_reducible apply tkeeps_trap

theorem execTrap_keeps (t : Nat) (f : TForm) (s : State) (hκ : ρ.Keeps κ s) :
    OKeeps κ ρ (execTrap t f s) := by
  exact tRun_keeps _ _ _ _ _ hκ fun s x h => infoTrap_keeps s x h

theorem infoRte_keeps (s : State) (x : TArg) (hκ : ρ.Keeps κ s) : TRes.Keeps κ ρ (infoRte.body s x) := by
  unfold infoRte
  repeat' first
    | intro _
    | with_reducible assumption
    | with_reducible apply bodyRte_keeps

theorem execRte_keeps (t : Nat) (f : TForm) (s : State) (hκ : ρ.Keeps κ s) :
    OKeeps κ ρ (execRte t f s) := by
  exact tRun_keeps _ _ _ _ _ hκ fun s x h => infoRte_keeps s x h

theorem infoXcall_keeps (s : State) (x : TArg) (hκ : ρ.Keeps κ s) : TRes.Keeps κ ρ (infoXcall.body s x) := by
  unfold infoXcall
  repeat' first
    | intro _
    | with_reducible assumption
    | with_reducible apply bodyXcall_keeps

theorem execXcall_keeps (t : Nat) (f : TForm) (s : State) (hκ : ρ.Keeps κ s) :
    OKeeps κ ρ (execXcall t f s) := by
  exact tRun_keeps _ _ _ _ _ hκ fun s x h => infoXcall_keeps s x h

theorem infoXret_keeps (s : State) (x : TArg) (hκ : ρ.Keeps κ s) : TRes.Keeps κ ρ (infoXret.body s x) := by
  unfold infoXret
  repeat' first
    | intro _
    | with_reducible assumption
    | with_reducible apply bodyXret_keeps

theorem execXret_keeps (t : Nat) (f : TForm) (s : State) (hκ : ρ.Keeps κ s) :
    OKeeps κ ρ (execXret t f s) := by
  exact tRun_keeps _ _ _ _ _ hκ fun s x h => infoXret_keeps s x h

theorem infoTmr_keeps (s : State) (x : TArg) (hκ : ρ.Keeps κ s) : TRes.Keeps κ ρ (infoTmr.body s x) := by
  unfold infoTmr
  repeat' first
    | intro _
    | with_reducible assumption
    | with_reducible apply State.operand_keeps
    | with_reducible apply TArg.upd_keeps

theorem execTmr_keeps (t : Nat) (f : TForm) (s : State) (hκ : ρ.Keeps κ s) :
    OKeeps κ ρ (execTmr t f s) := by
  exact tRun_keeps _ _ _ _ _ hκ fun s x h => infoTmr_keeps s x h

theorem infoNext_keeps (s : State) (x : TArg) (hκ : ρ.Keeps κ s) : TRes.Keeps κ ρ (infoNext.body s x) := by
  unfold infoNext
  repeat' first
    | intro _
    | with_reducible assumption
    | with_reducible apply bodyNext_keeps

theorem execNext_keeps (t : Nat) (f : TForm) (s : State) (hκ : ρ.Keeps κ s) :
    OKeeps κ ρ (execNext t f s) := by
  exact tRun_keeps _ _ _ _ _ hκ fun s x h => infoNext_keeps s x h

theorem infoFmark_keeps (s : State) (x : TArg) (hκ : ρ.Keeps κ s) : TRes.Keeps κ ρ (infoFmark.body s x) := by
  unfold infoFmark
  repeat' first
    | intro _
    | with_reducible assumption
    | with_reducible apply furrowOp_keeps

theorem execFmark_keeps (t : Nat) (f : TForm) (s : State) (hκ : ρ.Keeps κ s) :
    OKeeps κ ρ (execFmark t f s) := by
  exact tRun_keeps _ _ _ _ _ hκ fun s x h => infoFmark_keeps s x h

theorem infoFrewind_keeps (s : State) (x : TArg) (hκ : ρ.Keeps κ s) : TRes.Keeps κ ρ (infoFrewind.body s x) := by
  unfold infoFrewind
  repeat' first
    | intro _
    | with_reducible assumption
    | with_reducible apply furrowOp_keeps

theorem execFrewind_keeps (t : Nat) (f : TForm) (s : State) (hκ : ρ.Keeps κ s) :
    OKeeps κ ρ (execFrewind t f s) := by
  exact tRun_keeps _ _ _ _ _ hκ fun s x h => infoFrewind_keeps s x h

theorem infoRel_keeps (s : State) (x : TArg) (hκ : ρ.Keeps κ s) : TRes.Keeps κ ρ (infoRel.body s x) := by
  unfold infoRel
  repeat' first
    | intro _
    | with_reducible assumption
    | with_reducible apply furrowOp_keeps

theorem execRel_keeps (t : Nat) (f : TForm) (s : State) (hκ : ρ.Keeps κ s) :
    OKeeps κ ρ (execRel t f s) := by
  exact tRun_keeps _ _ _ _ _ hκ fun s x h => infoRel_keeps s x h

end Sys2Proof.Machine
end

