-- ==== Sys2Proof/Laws/KTillerUnit.lean ====
section
/-! SUPPORT. What the changes of state in Machine/TillerUnit.lean keep. -/

namespace Sys2Proof.Machine

variable {κ : Kept} {ρ : State}

theorem dispOp_keeps (op : Nat) (s : State) (x : TArg) (hκ : ρ.Keeps κ s) :
    TRes.Keeps κ ρ (dispOp op s x) := by
  unfold dispOp
  split
  · exact True.intro
  · refine tkeeps_ite True.intro (tkeeps_ite True.intro (MRes.go_keeps (State.engRdMany_keeps _ _ _ hκ _ _) fun b => ?_))
    extract_lets o
    refine tkeeps_ite True.intro (tkeeps_ite True.intro ?_)
    exact TArg.upd_keeps _ _ _ (State.newXfer_keeps _ _ (State.keeps_ite (State.tick_keeps _ hκ) hκ))

theorem State.sendFlits_keeps (node oph src : Nat) (last : Bool) : ∀ (n off : Nat) (b : Bytes) (first : Bool) (s : State)
    (_ : ρ.Keeps κ s), ρ.Keeps κ (State.sendFlits node oph src first last n off b s) := by
  intro n
  induction n with
  | zero => intro off b first s h; exact h
  | succ n ih =>
    intro off b first s h
    rw [State.sendFlits]
    exact State.keeps_ite (State.sendNode_keeps _ _ _ _ h) (ih _ _ _ _ (State.sendNode_keeps _ _ _ _ h))

theorem bodySend_keeps (s : State) (x : TArg) (hκ : ρ.Keeps κ s) :
    TRes.Keeps κ ρ (bodySend s x) := by
  unfold bodySend
  repeat' first
    | intro _
    | with_reducible assumption
    | with_reducible apply State.tick_keeps
    | with_reducible apply State.operand_keeps
    | with_reducible apply State.sendFlits_keeps
    | with_reducible apply tkeeps_ite
    | with_reducible apply State.keeps_ite
    | with_reducible apply tkeeps_done
    | with_reducible apply tkeeps_hold
    | with_reducible apply tkeeps_trapAt
    | with_reducible apply tkeeps_trap
    | with_reducible apply tkeeps_stall

theorem bodyEos_keeps (s : State) (x : TArg) (hκ : ρ.Keeps κ s) :
    TRes.Keeps κ ρ (bodyEos s x) := by
  unfold bodyEos
  repeat' first
    | intro _
    | with_reducible assumption
    | with_reducible apply State.setBit_keeps
    | with_reducible apply State.operand_keeps
    | with_reducible apply State.freeThreadOf_keeps
    | with_reducible apply State.endService_keeps
    | with_reducible apply State.claim_keeps
    | with_reducible apply tkeeps_ite
    | with_reducible apply State.keeps_ite
    | with_reducible apply tkeeps_done
    | with_reducible apply tkeeps_hold
    | with_reducible apply tkeeps_trapAt
    | with_reducible apply tkeeps_trap
    | with_reducible apply tkeeps_stall
    | with_reducible apply tkeeps_lost
    | dsimp only
    | split

theorem bodyParkEnd_keeps (s : State) (x : TArg) (hκ : ρ.Keeps κ s) :
    TRes.Keeps κ ρ (bodyParkEnd s x) := by
  unfold bodyParkEnd
  repeat' first
    | intro _
    | with_reducible assumption
    | with_reducible apply State.modThread_keeps
    | with_reducible apply State.modSrc_keeps
    | with_reducible apply State.freeThreadOf_keeps
    | with_reducible apply State.abortDisps_keeps
    | with_reducible apply State.endChain_keeps
    | with_reducible apply tkeeps_ite
    | with_reducible apply State.keeps_ite
    | with_reducible apply tkeeps_done
    | with_reducible apply tkeeps_hold
    | with_reducible apply tkeeps_trapAt
    | with_reducible apply tkeeps_trap
    | with_reducible apply tkeeps_stall
    | with_reducible apply tkeeps_lost
    | dsimp only
    | split

theorem bodyParkSuspend_keeps (s : State) (x : TArg) (hκ : ρ.Keeps κ s) :
    TRes.Keeps κ ρ (bodyParkSuspend s x) := by
  unfold bodyParkSuspend
  repeat' first
    | intro _
    | with_reducible assumption
    | with_reducible apply State.modThread_keeps
    | with_reducible apply State.modSrc_keeps
    | with_reducible apply State.setCxFlag_keeps
    | with_reducible apply State.freeThreadOf_keeps
    | with_reducible apply State.abortDisps_keeps
    | with_reducible apply State.stopXfer_keeps
    | with_reducible apply State.reread_keeps
    | with_reducible apply State.suspend_keeps
    | with_reducible apply tkeeps_ite
    | with_reducible apply State.keeps_ite
    | with_reducible apply tkeeps_done
    | with_reducible apply tkeeps_hold
    | with_reducible apply tkeeps_trapAt
    | with_reducible apply tkeeps_trap
    | with_reducible apply tkeeps_stall
    | with_reducible apply tkeeps_lost
    | dsimp only
    | split

theorem infoDispCopy_keeps (s : State) (x : TArg) (hκ : ρ.Keeps κ s) : TRes.Keeps κ ρ (infoDispCopy.body s x) := by
  unfold infoDispCopy
  repeat' first
    | intro _
    | with_reducible assumption
    | with_reducible apply dispOp_keeps

theorem execDispCopy_keeps (t : Nat) (f : TForm) (s : State) (hκ : ρ.Keeps κ s) :
    OKeeps κ ρ (execDispCopy t f s) := by
  exact tRun_keeps _ _ _ _ _ hκ fun s x h => infoDispCopy_keeps s x h

theorem infoDispFill_keeps (s : State) (x : TArg) (hκ : ρ.Keeps κ s) : TRes.Keeps κ ρ (infoDispFill.body s x) := by
  unfold infoDispFill
  repeat' first
    | intro _
    | with_reducible assumption
    | with_reducible apply dispOp_keeps

theorem execDispFill_keeps (t : Nat) (f : TForm) (s : State) (hκ : ρ.Keeps κ s) :
    OKeeps κ ρ (execDispFill t f s) := by
  exact tRun_keeps _ _ _ _ _ hκ fun s x h => infoDispFill_keeps s x h

theorem infoDispGather_keeps (s : State) (x : TArg) (hκ : ρ.Keeps κ s) : TRes.Keeps κ ρ (infoDispGather.body s x) := by
  unfold infoDispGather
  repeat' first
    | intro _
    | with_reducible assumption
    | with_reducible apply dispOp_keeps

theorem execDispGather_keeps (t : Nat) (f : TForm) (s : State) (hκ : ρ.Keeps κ s) :
    OKeeps κ ρ (execDispGather t f s) := by
  exact tRun_keeps _ _ _ _ _ hκ fun s x h => infoDispGather_keeps s x h

theorem infoDispScatter_keeps (s : State) (x : TArg) (hκ : ρ.Keeps κ s) : TRes.Keeps κ ρ (infoDispScatter.body s x) := by
  unfold infoDispScatter
  repeat' first
    | intro _
    | with_reducible assumption
    | with_reducible apply dispOp_keeps

theorem execDispScatter_keeps (t : Nat) (f : TForm) (s : State) (hκ : ρ.Keeps κ s) :
    OKeeps κ ρ (execDispScatter t f s) := by
  exact tRun_keeps _ _ _ _ _ hκ fun s x h => infoDispScatter_keeps s x h

theorem infoDispDiscard_keeps (s : State) (x : TArg) (hκ : ρ.Keeps κ s) : TRes.Keeps κ ρ (infoDispDiscard.body s x) := by
  unfold infoDispDiscard
  repeat' first
    | intro _
    | with_reducible assumption
    | with_reducible apply dispOp_keeps

theorem execDispDiscard_keeps (t : Nat) (f : TForm) (s : State) (hκ : ρ.Keeps κ s) :
    OKeeps κ ρ (execDispDiscard t f s) := by
  exact tRun_keeps _ _ _ _ _ hκ fun s x h => infoDispDiscard_keeps s x h

theorem infoSend_keeps (s : State) (x : TArg) (hκ : ρ.Keeps κ s) : TRes.Keeps κ ρ (infoSend.body s x) := by
  unfold infoSend
  repeat' first
    | intro _
    | with_reducible assumption
    | with_reducible apply bodySend_keeps

theorem execSend_keeps (t : Nat) (f : TForm) (s : State) (hκ : ρ.Keeps κ s) :
    OKeeps κ ρ (execSend t f s) := by
  exact tRun_keeps _ _ _ _ _ hκ fun s x h => infoSend_keeps s x h

theorem infoEos_keeps (s : State) (x : TArg) (hκ : ρ.Keeps κ s) : TRes.Keeps κ ρ (infoEos.body s x) := by
  unfold infoEos
  repeat' first
    | intro _
    | with_reducible assumption
    | with_reducible apply bodyEos_keeps

theorem execEos_keeps (t : Nat) (f : TForm) (s : State) (hκ : ρ.Keeps κ s) :
    OKeeps κ ρ (execEos t f s) := by
  exact tRun_keeps _ _ _ _ _ hκ fun s x h => infoEos_keeps s x h

theorem infoParkEnd_keeps (s : State) (x : TArg) (hκ : ρ.Keeps κ s) : TRes.Keeps κ ρ (infoParkEnd.body s x) := by
  unfold infoParkEnd
  repeat' first
    | intro _
    | with_reducible assumption
    | with_reducible apply bodyParkEnd_keeps

theorem execParkEnd_keeps (t : Nat) (f : TForm) (s : State) (hκ : ρ.Keeps κ s) :
    OKeeps κ ρ (execParkEnd t f s) := by
  exact tRun_keeps _ _ _ _ _ hκ fun s x h => infoParkEnd_keeps s x h

theorem infoParkSuspend_keeps (s : State) (x : TArg) (hκ : ρ.Keeps κ s) : TRes.Keeps κ ρ (infoParkSuspend.body s x) := by
  unfold infoParkSuspend
  repeat' first
    | intro _
    | with_reducible assumption
    | with_reducible apply bodyParkSuspend_keeps

theorem execParkSuspend_keeps (t : Nat) (f : TForm) (s : State) (hκ : ρ.Keeps κ s) :
    OKeeps κ ρ (execParkSuspend t f s) := by
  exact tRun_keeps _ _ _ _ _ hκ fun s x h => infoParkSuspend_keeps s x h

end Sys2Proof.Machine
end

