-- ==== Sys2Proof/Laws/KBarrow.lean ====
section
/-! SUPPORT. What the changes of state in Machine/Barrow.lean keep. -/

namespace Sys2Proof.Machine

variable {κ : Kept} {ρ : State}

theorem State.bwCorrected_keeps (s : State) (b : Nat) (hκ : ρ.Keeps κ s) :
    ρ.Keeps κ (State.bwCorrected s b) := by
  unfold State.bwCorrected
  repeat' first
    | intro _
    | with_reducible assumption
    | with_reducible apply State.bumpSat_keeps
    | with_reducible apply State.report_keeps

theorem execTransferBind_keeps (half : Bool) (s : State) (hκ : ρ.Keeps κ s) :
    OKeeps κ ρ (execTransferBind half s) := by
  unfold execTransferBind
  repeat' first
    | intro _
    | with_reducible assumption
    | with_reducible apply State.modXfer_keeps
    | with_reducible apply State.bindXfer_keeps
    | with_reducible apply State.evictDone_keeps
    | with_reducible apply fin_keeps
    | with_reducible apply State.slot_keeps
    | with_reducible apply State.keeps_ite
    | with_reducible apply okeeps_ite
    | with_reducible apply State.keeps_elim
    | with_reducible apply okeeps_next
    | dsimp only
    | split

theorem State.readFailed_keeps (s : State) (x : Nat) (second : Bool) (v : Xfer) (code : Nat) (hκ : ρ.Keeps κ s) :
    ρ.Keeps κ (State.readFailed s x second v code) := by
  unfold State.readFailed
  repeat' first
    | intro _
    | with_reducible assumption
    | with_reducible apply State.setXfer_keeps
    | with_reducible apply State.endXfer_keeps
    | with_reducible apply State.evictDone_keeps
    | with_reducible apply State.orphaned_keeps

theorem State.arriveWords_keeps (s : State) (x : Nat) (second : Bool) (v : Xfer) (b : Bytes) (hκ : ρ.Keeps κ s) :
    ρ.Keeps κ (State.arriveWords s x second v b) := by
  unfold State.arriveWords
  repeat' first
    | intro _
    | with_reducible assumption
    | with_reducible apply State.injDone_keeps
    | with_reducible apply State.evictDone_keeps
    | with_reducible apply State.arrive_keeps
    | with_reducible apply State.report_keeps
    | with_reducible apply State.orphaned_keeps
    | with_reducible apply State.bwCorrected_keeps
    | with_reducible apply State.readFailed_keeps
    | with_reducible apply State.slot_keeps
    | with_reducible apply State.keeps_ite
    | with_reducible apply okeeps_ite
    | dsimp only
    | split

theorem execReadDataReturn_keeps (x : Nat) (second : Bool) (data : Bytes) (err : RdErr) (s : State) (hκ : ρ.Keeps κ s) :
    OKeeps κ ρ (execReadDataReturn x second data err s) := by
  unfold execReadDataReturn
  repeat' first
    | intro _
    | with_reducible assumption
    | with_reducible apply State.setXfer_keeps
    | with_reducible apply State.report_keeps
    | with_reducible apply State.readOver_keeps
    | with_reducible apply State.orphaned_keeps
    | with_reducible apply fin_keeps
    | with_reducible apply State.readError_keeps
    | with_reducible apply State.bwCorrected_keeps
    | with_reducible apply State.readFailed_keeps
    | with_reducible apply State.arriveWords_keeps
    | with_reducible apply State.slot_keeps
    | with_reducible apply State.hostIn_keeps
    | with_reducible apply State.keeps_ite
    | with_reducible apply okeeps_ite
    | with_reducible apply State.keeps_elim
    | with_reducible apply okeeps_next
    | with_reducible apply Mem.drop_wf
    | dsimp only
    | split

theorem State.powerGo_keeps (s : State) (sc x : Nat) (hκ : ρ.Keeps κ s) :
    ρ.Keeps κ (State.powerGo s sc x) := by
  unfold State.powerGo
  repeat' first
    | intro _
    | with_reducible assumption
    | with_reducible apply State.modChain_keeps
    | with_reducible apply State.modThread_keeps
    | with_reducible apply State.openEx_keeps
    | with_reducible apply State.sendCmd_keeps
    | with_reducible apply State.firstRelease_keeps
    | with_reducible apply State.dropXfer_keeps
    | with_reducible apply State.moveFailed_keeps
    | with_reducible apply State.answer_keeps
    | with_reducible apply State.keeps_ite
    | with_reducible apply okeeps_ite
    | with_reducible apply State.keeps_getD
    | with_reducible apply Mem.drop_wf
    | dsimp only
    | split

theorem execDispatchComplete_keeps (x : Nat) (s : State) (hκ : ρ.Keeps κ s) :
    OKeeps κ ρ (execDispatchComplete x s) := by
  unfold execDispatchComplete
  repeat' first
    | intro _
    | with_reducible assumption
    | with_reducible apply State.modThread_keeps
    | with_reducible apply State.dropXfer_keeps
    | with_reducible apply State.latch_keeps
    | with_reducible apply State.dispPut_keeps
    | with_reducible apply State.moved_keeps
    | with_reducible apply fin_keeps
    | with_reducible apply State.xfIdle_keeps
    | with_reducible apply State.forwarded_keeps
    | with_reducible apply State.powerGo_keeps
    | with_reducible apply State.keeps_ite
    | with_reducible apply okeeps_ite
    | with_reducible apply State.keeps_getD
    | with_reducible apply okeeps_next
    | with_reducible apply Mem.drop_wf
    | dsimp only
    | split

end Sys2Proof.Machine
end

