-- ==== Sys2Proof/Laws/KDmaCmds.lean ====
section
/-! SUPPORT. What the changes of state in Machine/DmaCmds.lean keep. -/

namespace Sys2Proof.Machine

variable {κ : Kept} {ρ : State}

theorem chTake_keeps (c op : Nat) (s : State) (hκ : ρ.Keeps κ s) :
    OKeeps κ ρ (chTake c op s) := by
  unfold chTake
  repeat' first
    | intro _
    | with_reducible assumption
    | with_reducible apply State.dscTake_keeps
    | with_reducible apply fin_keeps
    | with_reducible apply State.keeps_ite
    | with_reducible apply okeeps_ite
    | with_reducible apply okeeps_next
    | dsimp only
    | split

theorem execDmaCopy_keeps (c : Nat) (s : State) (hκ : ρ.Keeps κ s) :
    OKeeps κ ρ (execDmaCopy c s) := by
  unfold execDmaCopy
  repeat' first
    | intro _
    | with_reducible assumption
    | with_reducible apply chTake_keeps

theorem execDmaFill_keeps (c : Nat) (s : State) (hκ : ρ.Keeps κ s) :
    OKeeps κ ρ (execDmaFill c s) := by
  unfold execDmaFill
  repeat' first
    | intro _
    | with_reducible assumption
    | with_reducible apply chTake_keeps

theorem execDmaCompare_keeps (c : Nat) (s : State) (hκ : ρ.Keeps κ s) :
    OKeeps κ ρ (execDmaCompare c s) := by
  unfold execDmaCompare
  repeat' first
    | intro _
    | with_reducible assumption
    | with_reducible apply chTake_keeps

theorem execDmaGather_keeps (c : Nat) (s : State) (hκ : ρ.Keeps κ s) :
    OKeeps κ ρ (execDmaGather c s) := by
  unfold execDmaGather
  repeat' first
    | intro _
    | with_reducible assumption
    | with_reducible apply chTake_keeps

theorem execDmaScatter_keeps (c : Nat) (s : State) (hκ : ρ.Keeps κ s) :
    OKeeps κ ρ (execDmaScatter c s) := by
  unfold execDmaScatter
  repeat' first
    | intro _
    | with_reducible assumption
    | with_reducible apply chTake_keeps

theorem execDescriptorComplete_keeps (c : Nat) (s : State) (hκ : ρ.Keeps κ s) :
    OKeeps κ ρ (execDescriptorComplete c s) := by
  unfold execDescriptorComplete
  repeat' first
    | intro _
    | with_reducible assumption
    | with_reducible apply State.dscFinish_keeps
    | with_reducible apply fin_keeps
    | with_reducible apply State.keeps_ite
    | with_reducible apply okeeps_ite
    | with_reducible apply okeeps_next
    | dsimp only
    | split

theorem State.chEnable_keeps (s : State) (c : Nat) (v : Word) (who : Req) (hκ : ρ.Keeps κ s) :
    ρ.Keeps κ (State.chEnable s c v who) := by
  unfold State.chEnable
  repeat' first
    | intro _
    | with_reducible assumption
    | with_reducible apply State.wf_keeps
    | with_reducible apply State.wb_keeps
    | with_reducible apply State.setBit_keeps
    | with_reducible apply State.set64_keeps
    | with_reducible apply State.modChan_keeps
    | with_reducible apply State.chShow_keeps
    | with_reducible apply State.softWrite_keeps
    | with_reducible apply State.keeps_ite

theorem State.chDisable_keeps (s : State) (c : Nat) (v : Word) (who : Req) (hκ : ρ.Keeps κ s) :
    ρ.Keeps κ (State.chDisable s c v who) := by
  unfold State.chDisable
  repeat' first
    | intro _
    | with_reducible assumption
    | with_reducible apply State.wf_keeps
    | with_reducible apply State.wb_keeps
    | with_reducible apply State.setBit_keeps
    | with_reducible apply State.softWrite_keeps
    | with_reducible apply State.keeps_ite

theorem execChEnable_keeps (who : Req) (c : Nat) (v : Word) (s : State) (hκ : ρ.Keeps κ s) :
    OKeeps κ ρ (execChEnable who c v s) := by
  unfold execChEnable
  repeat' first
    | intro _
    | with_reducible assumption
    | with_reducible apply regGo_keeps
    | with_reducible apply State.chEnable_keeps
    | with_reducible apply State.keeps_ite
    | with_reducible apply okeeps_ite
    | with_reducible apply okeeps_next

theorem execChDisable_keeps (who : Req) (c : Nat) (v : Word) (s : State) (hκ : ρ.Keeps κ s) :
    OKeeps κ ρ (execChDisable who c v s) := by
  unfold execChDisable
  repeat' first
    | intro _
    | with_reducible assumption
    | with_reducible apply regGo_keeps
    | with_reducible apply State.chDisable_keeps
    | with_reducible apply State.keeps_ite
    | with_reducible apply okeeps_ite
    | with_reducible apply okeeps_next

theorem State.chCfgWrite_keeps (s : State) (c : Nat) (v : Word) (who : Req) (hκ : ρ.Keeps κ s) :
    ρ.Keeps κ (State.chCfgWrite s c v who) := by
  unfold State.chCfgWrite
  repeat' first
    | intro _
    | with_reducible assumption
    | with_reducible apply State.chEnable_keeps
    | with_reducible apply State.chDisable_keeps
    | with_reducible apply State.keeps_ite

theorem State.pauseXfer_keeps (s : State) (c : Nat) (b : Bool) (hκ : ρ.Keeps κ s) :
    ρ.Keeps κ (State.pauseXfer s c b) := by
  unfold State.pauseXfer
  repeat' first
    | intro _
    | with_reducible assumption
    | with_reducible apply State.setXfer_keeps
    | with_reducible apply State.slotMark_keeps
    | with_reducible apply State.slot_keeps
    | dsimp only
    | split

theorem State.chPauseOn_keeps (s : State) (c : Nat) (hκ : ρ.Keeps κ s) :
    ρ.Keeps κ (State.chPauseOn s c) := by
  unfold State.chPauseOn
  repeat' first
    | intro _
    | with_reducible assumption
    | with_reducible apply State.wb_keeps
    | with_reducible apply State.modChan_keeps
    | with_reducible apply State.chShow_keeps
    | with_reducible apply State.pauseXfer_keeps

theorem State.chPauseOff_keeps (s : State) (c : Nat) (hκ : ρ.Keeps κ s) :
    ρ.Keeps κ (State.chPauseOff s c) := by
  unfold State.chPauseOff
  repeat' first
    | intro _
    | with_reducible assumption
    | with_reducible apply State.wb_keeps
    | with_reducible apply State.modChan_keeps
    | with_reducible apply State.pump_keeps
    | with_reducible apply State.chShow_keeps
    | with_reducible apply State.chStop_keeps
    | with_reducible apply State.pauseXfer_keeps
    | with_reducible apply State.keeps_ite
    | with_reducible apply okeeps_ite
    | dsimp only
    | split

theorem State.chHaltOn_keeps (s : State) (c : Nat) (hκ : ρ.Keeps κ s) :
    ρ.Keeps κ (State.chHaltOn s c) := by
  unfold State.chHaltOn
  repeat' first
    | intro _
    | with_reducible assumption
    | with_reducible apply State.chHalt_keeps
    | with_reducible apply State.keeps_ite

theorem State.chAbortOn_keeps (s : State) (c : Nat) (hκ : ρ.Keeps κ s) :
    ρ.Keeps κ (State.chAbortOn s c) := by
  unfold State.chAbortOn
  repeat' first
    | intro _
    | with_reducible assumption
    | with_reducible apply State.chAbort_keeps
    | with_reducible apply State.keeps_ite

theorem State.chStartOn_keeps (s : State) (c : Nat) (hκ : ρ.Keeps κ s) :
    ρ.Keeps κ (State.chStartOn s c) := by
  unfold State.chStartOn
  repeat' first
    | intro _
    | with_reducible assumption
    | with_reducible apply State.wf_keeps
    | with_reducible apply State.chShow_keeps
    | with_reducible apply State.keeps_ite

theorem State.chCtlWrite_keeps (s : State) (c : Nat) (v : Word) (hκ : ρ.Keeps κ s) :
    ρ.Keeps κ (State.chCtlWrite s c v) := by
  unfold State.chCtlWrite
  repeat' first
    | intro _
    | with_reducible assumption
    | with_reducible apply State.chPauseOn_keeps
    | with_reducible apply State.chPauseOff_keeps
    | with_reducible apply State.chHaltOn_keeps
    | with_reducible apply State.chAbortOn_keeps
    | with_reducible apply State.chStartOn_keeps
    | with_reducible apply State.keeps_ite

theorem chGo_keeps (who : Req) (c : Nat) (s : State) (k : State → State) (hκ : ρ.Keeps κ s)
    (hk : ∀ s, ρ.Keeps κ s → ρ.Keeps κ (k s)) : OKeeps κ ρ (chGo who c s k) := by
  unfold chGo
  repeat' first
    | intro _
    | with_reducible assumption
    | with_reducible apply hk
    | with_reducible apply okeeps_ite
    | with_reducible apply okeeps_next
    | with_reducible apply regGo_keeps

theorem execChPause_keeps (who : Req) (c : Nat) (s : State) (hκ : ρ.Keeps κ s) :
    OKeeps κ ρ (execChPause who c s) := by
  unfold execChPause
  repeat' first
    | intro _
    | with_reducible assumption
    | with_reducible apply State.chPauseOn_keeps
    | with_reducible apply chGo_keeps

theorem execChUnpause_keeps (who : Req) (c : Nat) (s : State) (hκ : ρ.Keeps κ s) :
    OKeeps κ ρ (execChUnpause who c s) := by
  unfold execChUnpause
  repeat' first
    | intro _
    | with_reducible assumption
    | with_reducible apply State.chPauseOff_keeps
    | with_reducible apply chGo_keeps

theorem execChHalt_keeps (who : Req) (c : Nat) (s : State) (hκ : ρ.Keeps κ s) :
    OKeeps κ ρ (execChHalt who c s) := by
  unfold execChHalt
  repeat' first
    | intro _
    | with_reducible assumption
    | with_reducible apply State.chHaltOn_keeps
    | with_reducible apply chGo_keeps

theorem execChAbort_keeps (who : Req) (c : Nat) (s : State) (hκ : ρ.Keeps κ s) :
    OKeeps κ ρ (execChAbort who c s) := by
  unfold execChAbort
  repeat' first
    | intro _
    | with_reducible assumption
    | with_reducible apply State.chAbortOn_keeps
    | with_reducible apply chGo_keeps

theorem execChStart_keeps (who : Req) (c : Nat) (s : State) (hκ : ρ.Keeps κ s) :
    OKeeps κ ρ (execChStart who c s) := by
  unfold execChStart
  repeat' first
    | intro _
    | with_reducible assumption
    | with_reducible apply State.chStartOn_keeps
    | with_reducible apply chGo_keeps

theorem execDreqRise_keeps (n : Nat) (s : State) (hκ : ρ.Keeps κ s) :
    OKeeps κ ρ (execDreqRise n s) := by
  unfold execDreqRise
  repeat' first
    | intro _
    | with_reducible assumption
    | with_reducible apply State.pend_keeps
    | with_reducible apply fin_keeps
    | with_reducible apply State.keeps_ite
    | with_reducible apply okeeps_ite
    | with_reducible apply okeeps_next
    | dsimp only
    | split
    | with_reducible apply State.keeps_dreq

theorem execDreqSample_keeps (n : Nat) (level : Bool) (s : State) (hκ : ρ.Keeps κ s) :
    OKeeps κ ρ (execDreqSample n level s) := by
  unfold execDreqSample
  repeat' first
    | intro _
    | with_reducible assumption
    | with_reducible apply fin_keeps
    | with_reducible apply State.keeps_ite
    | with_reducible apply okeeps_ite
    | with_reducible apply okeeps_next
    | dsimp only
    | split
    | with_reducible apply State.keeps_dreq_dackWait

theorem execDmaPaceTimeout_keeps (c : Nat) (s : State) (hκ : ρ.Keeps κ s) :
    OKeeps κ ρ (execDmaPaceTimeout c s) := by
  unfold execDmaPaceTimeout
  repeat' first
    | intro _
    | with_reducible assumption
    | with_reducible apply State.endXfer_keeps
    | with_reducible apply fin_keeps
    | with_reducible apply State.keeps_ite
    | with_reducible apply okeeps_ite
    | with_reducible apply okeeps_next
    | dsimp only
    | split

end Sys2Proof.Machine
end

