-- ==== Sys2Proof/Laws/KEnum.lean ====
section
/-! SUPPORT. What the changes of state in Machine/Enum.lean keep. -/

namespace Sys2Proof.Machine

variable {κ : Kept} {ρ : State}

theorem State.setEn_keeps (s : State) (p : Nat) (e : EnumSt) (hκ : ρ.Keeps κ s) :
    ρ.Keeps κ (State.setEn s p e) := by
  unfold State.setEn
  repeat' first
    | intro _
    | with_reducible assumption
    | with_reducible apply State.modPort_keeps

theorem State.enumShow_keeps (s : State) (p : Nat) (hκ : ρ.Keeps κ s) :
    ρ.Keeps κ (State.enumShow s p) := by
  unfold State.enumShow
  repeat' first
    | intro _
    | with_reducible assumption
    | with_reducible apply State.wb_keeps

theorem State.enumAbsent_keeps (s : State) (p n : Nat) (hκ : ρ.Keeps κ s) :
    ρ.Keeps κ (State.enumAbsent s p n) := by
  unfold State.enumAbsent
  repeat' first
    | intro _
    | with_reducible assumption
    | with_reducible apply State.setBit_keeps
    | with_reducible apply State.setNtFlag_keeps
    | with_reducible apply State.keeps_ite

theorem State.unconfirm_keeps (s : State) (x node : Nat) (hκ : ρ.Keeps κ s) :
    ρ.Keeps κ (State.unconfirm s x node) := by
  unfold State.unconfirm
  repeat' first
    | intro _
    | with_reducible assumption
    | with_reducible apply State.setBit_keeps
    | with_reducible apply State.modMember_keeps
    | with_reducible apply State.endCommit_keeps
    | with_reducible apply State.keeps_ite
    | with_reducible apply okeeps_ite
    | with_reducible apply SMap.set_wf
    | dsimp only
    | split
    | with_reducible apply State.keeps_recov

theorem State.enumDecisions_keeps (s : State) (p : Nat) (hκ : ρ.Keeps κ s) :
    ρ.Keeps κ (State.enumDecisions s p) := by
  unfold State.enumDecisions
  repeat' first
    | intro _
    | with_reducible assumption
    | with_reducible apply State.sendDecision_keeps
    | with_reducible apply State.unconfirm_keeps
    | with_reducible apply State.keeps_ite
    | with_reducible apply okeeps_ite
    | with_reducible apply State.keeps_fold

theorem State.enumEnd_keeps (s : State) (p : Nat) (hκ : ρ.Keeps κ s) :
    ρ.Keeps κ (State.enumEnd s p) := by
  unfold State.enumEnd
  repeat' first
    | intro _
    | with_reducible assumption
    | with_reducible apply State.setReg_keeps
    | with_reducible apply State.setBit_keeps
    | with_reducible apply State.modPort_keeps
    | with_reducible apply State.setCond_keeps
    | with_reducible apply State.enumAbsent_keeps
    | with_reducible apply State.enumDecisions_keeps
    | with_reducible apply State.keeps_ite
    | with_reducible apply okeeps_ite
    | with_reducible apply State.keeps_elim
    | with_reducible apply State.keeps_fold

theorem State.enumSend_keeps (s : State) (p path op pos pre level share index : Nat) (hκ : ρ.Keeps κ s) :
    ρ.Keeps κ (State.enumSend s p path op pos pre level share index) := by
  unfold State.enumSend
  repeat' first
    | intro _
    | with_reducible assumption
    | with_reducible apply State.queueFlit_keeps

theorem State.enumGo_keeps (p : Nat) : ∀ (n : Nat) (s : State) (_ : ρ.Keeps κ s),
    ρ.Keeps κ (State.enumGo p n s) := by
  intro n
  induction n with
  | zero =>
    intro s h
    unfold State.enumGo
    repeat' first
      | intro _
      | with_reducible assumption
  | succ n ih =>
    intro s h
    unfold State.enumGo
    repeat' first
      | intro _
      | with_reducible assumption
      | with_reducible apply ih
      | with_reducible apply State.modPort_keeps
      | with_reducible apply State.setEn_keeps
      | with_reducible apply State.enumEnd_keeps
      | with_reducible apply State.enumSend_keeps
      | with_reducible apply State.keeps_ite
      | with_reducible apply State.keeps_elim
      | with_reducible apply State.keeps_fold
      | with_reducible apply SMap.set_wf
      | with_reducible apply Mem.filter_wf
      | with_reducible apply SMap.filter_wf
      | with_reducible apply Mem.wrN_wf
      | with_reducible apply Mem.setLe_wf
      | with_reducible apply Mem.drop_wf
      | with_reducible apply Mem.copyRange_wf
      | dsimp only
      | (split <;> try cases ‹_ + 1 = Nat.succ _›)

theorem State.enumNext_keeps (s : State) (p : Nat) (hκ : ρ.Keeps κ s) :
    ρ.Keeps κ (State.enumNext s p) := by
  unfold State.enumNext
  repeat' first
    | intro _
    | with_reducible assumption
    | with_reducible apply State.enumShow_keeps
    | with_reducible apply State.enumGo_keeps

theorem State.enumStart_keeps (s : State) (p : Nat) (hκ : ρ.Keeps κ s) :
    ρ.Keeps κ (State.enumStart s p) := by
  unfold State.enumStart
  repeat' first
    | intro _
    | with_reducible assumption
    | with_reducible apply State.dropTx_keeps
    | with_reducible apply State.modPort_keeps
    | with_reducible apply State.enumShow_keeps
    | with_reducible apply State.enumNext_keeps
    | with_reducible apply State.keeps_ite

theorem State.enumAsk_keeps (s : State) (p : Nat) (hκ : ρ.Keeps κ s) :
    ρ.Keeps κ (State.enumAsk s p) := by
  unfold State.enumAsk
  repeat' first
    | intro _
    | with_reducible assumption
    | with_reducible apply State.modPort_keeps
    | with_reducible apply State.enumShow_keeps
    | with_reducible apply State.enumStart_keeps
    | with_reducible apply State.keeps_ite

theorem State.enumSub_keeps (s : State) (p node : Nat) (hκ : ρ.Keeps κ s) :
    ρ.Keeps κ (State.enumSub s p node) := by
  unfold State.enumSub
  repeat' first
    | intro _
    | with_reducible assumption
    | with_reducible apply State.modPort_keeps
    | with_reducible apply State.setEn_keeps
    | with_reducible apply State.enumShow_keeps
    | with_reducible apply State.enumNext_keeps
    | with_reducible apply State.keeps_ite

theorem State.flitIn_keeps (s : State) (p : Nat) (corr : List Nat) (n : Nat) (hκ : ρ.Keeps κ s) :
    ρ.Keeps κ (State.flitIn s p corr n) := by
  unfold State.flitIn
  repeat' first
    | intro _
    | with_reducible assumption
    | with_reducible apply State.bump_keeps
    | with_reducible apply State.modPort_keeps
    | with_reducible apply State.keeps_ite
    | with_reducible apply okeeps_ite
    | with_reducible apply State.keeps_getD
    | with_reducible apply State.keeps_fold

theorem State.enumMark_keeps (s : State) (n pos : Nat) (group : Bool) (hκ : ρ.Keeps κ s) :
    ρ.Keeps κ (State.enumMark s n pos group) := by
  unfold State.enumMark
  repeat' first
    | intro _
    | with_reducible assumption
    | with_reducible apply State.ntSet_keeps
    | with_reducible apply State.setNtFlag_keeps

theorem State.enumFound_keeps (s : State) (p path level pos : Nat) (cap : Bytes) (hκ : ρ.Keeps κ s) :
    ρ.Keeps κ (State.enumFound s p path level pos cap) := by
  unfold State.enumFound
  repeat' first
    | intro _
    | with_reducible assumption
    | with_reducible apply State.setBit_keeps
    | with_reducible apply State.ntPut_keeps
    | with_reducible apply State.setNtFlag_keeps
    | with_reducible apply State.setEn_keeps
    | with_reducible apply State.enumMark_keeps
    | with_reducible apply State.keeps_ite
    | with_reducible apply okeeps_ite
    | dsimp only
    | split

theorem State.enumReply_keeps (s : State) (p : Nat) (r : EnumF) (hκ : ρ.Keeps κ s) :
    ρ.Keeps κ (State.enumReply s p r) := by
  unfold State.enumReply
  repeat' first
    | intro _
    | with_reducible assumption
    | with_reducible apply State.ntSet_keeps
    | with_reducible apply State.setNtFlag_keeps
    | with_reducible apply State.setEn_keeps
    | with_reducible apply State.enumNext_keeps
    | with_reducible apply State.enumFound_keeps
    | with_reducible apply State.keeps_ite
    | with_reducible apply okeeps_ite
    | dsimp only
    | split

theorem execRxEnumReply_keeps (p : Nat) (_path : BitVec 18) (corr : List Nat) (d : EnumF) (s : State) (hκ : ρ.Keeps κ s) :
    OKeeps κ ρ (execRxEnumReply p _path corr d s) := by
  unfold execRxEnumReply
  repeat' first
    | intro _
    | with_reducible assumption
    | with_reducible apply fin_keeps
    | with_reducible apply State.flitIn_keeps
    | with_reducible apply State.enumReply_keeps
    | with_reducible apply State.keeps_ite
    | with_reducible apply okeeps_ite
    | with_reducible apply okeeps_next

theorem State.enumCtlWrite_keeps (s : State) (p : Nat) (v : Word) (hκ : ρ.Keeps κ s) :
    ρ.Keeps κ (State.enumCtlWrite s p v) := by
  unfold State.enumCtlWrite
  repeat' first
    | intro _
    | with_reducible assumption
    | with_reducible apply State.enumAsk_keeps
    | with_reducible apply State.keeps_ite

theorem execEnum_keeps (who : Req) (p : Nat) (s : State) (hκ : ρ.Keeps κ s) :
    OKeeps κ ρ (execEnum who p s) := by
  unfold execEnum
  repeat' first
    | intro _
    | with_reducible assumption
    | with_reducible apply regGuarded_keeps
    | with_reducible apply State.enumCtlWrite_keeps

theorem execEnumTimeout_keeps (p : Nat) (s : State) (hκ : ρ.Keeps κ s) :
    OKeeps κ ρ (execEnumTimeout p s) := by
  unfold execEnumTimeout
  repeat' first
    | intro _
    | with_reducible assumption
    | with_reducible apply State.setBit_keeps
    | with_reducible apply fin_keeps
    | with_reducible apply State.setEn_keeps
    | with_reducible apply State.enumNext_keeps
    | with_reducible apply State.keeps_ite
    | with_reducible apply okeeps_ite
    | with_reducible apply okeeps_next

end Sys2Proof.Machine
end

