-- ==== Sys2Proof/Laws/KRingRx.lean ====
section
/-! SUPPORT. What the changes of state in Machine/RingRx.lean keep. -/

namespace Sys2Proof.Machine

variable {κ : Kept} {ρ : State}

theorem creditedKeep_keeps (p : Nat) (path : BitVec 18) (vc : Nat) (corr : List Nat) (s : State) (k : State → State × Bool)
    (hκ : ρ.Keeps κ s) (hk : ∀ s, ρ.Keeps κ s → ρ.Keeps κ (k s).1) : OKeeps κ ρ (creditedKeep p path vc corr s k) := by
  unfold creditedKeep
  refine okeeps_ite hκ ?_
  extract_lets s1 key n x r
  have h1 : ρ.Keeps κ s1 := State.flitIn_keeps _ _ _ _ hκ
  refine okeeps_ite (fin_keeps _ (State.report_keeps _ _ _ (State.bump_keeps _ _ _ (State.setBit_keeps _ _ _ h1)))) ?_
  have hx : ρ.Keeps κ x.1 := State.furrowPass_keeps _ _ (State.modPort_keeps _ _ _ h1)
  clear_value x
  have hr : ρ.Keeps κ r.1 := by
    simp only [r]
    split
    · exact hk _ hx
    · exact hx
  clear_value r
  exact fin_keeps _ (State.keeps_ite hr (State.modPort_keeps _ _ _ hr))

theorem credited_keeps (p : Nat) (path : BitVec 18) (vc : Nat) (corr : List Nat) (s : State) (k : State → State)
    (hκ : ρ.Keeps κ s) (hk : ∀ s, ρ.Keeps κ s → ρ.Keeps κ (k s)) : OKeeps κ ρ (credited p path vc corr s k) :=
  creditedKeep_keeps _ _ _ _ _ _ hκ hk

theorem State.winData_keeps (s : State) (key t : Nat) (b : Bytes) (fend last : Bool) (hκ : ρ.Keeps κ s) :
    ρ.Keeps κ (State.winData s key t b fend last) := by
  unfold State.winData
  repeat' first
    | intro _
    | with_reducible assumption
    | with_reducible apply State.modThread_keeps
    | with_reducible apply State.sendFetch_keeps
    | with_reducible apply State.sendEnd_keeps
    | with_reducible apply State.keeps_ite

theorem State.winEnded_keeps (s : State) (key t : Nat) (d : StatusF) (hκ : ρ.Keeps κ s) :
    ρ.Keeps κ (State.winEnded s key t d) := by
  unfold State.winEnded
  repeat' first
    | intro _
    | with_reducible assumption
    | with_reducible apply State.modThread_keeps

theorem State.dataFlit_keeps (s : State) (p vk key : Nat) (o : NOp) (d : DataF) (hκ : ρ.Keeps κ s) : ρ.Keeps κ (State.dataFlit s p vk key o d).1 := by
  unfold State.dataFlit
  repeat' first
    | intro _
    | with_reducible assumption
    | with_reducible apply State.setInbox_keeps
    | with_reducible apply State.modOp_keeps
    | with_reducible apply State.awaitEnd_keeps
    | with_reducible apply State.winLoad_keeps
    | with_reducible apply State.winData_keeps
    | with_reducible apply State.keeps_ite
    | with_reducible apply State.keeps_elim
    | with_reducible apply State.keeps_fold
    | with_reducible apply SMap.set_wf
    | with_reducible apply Mem.filter_wf
    | with_reducible apply SMap.filter_wf
    | with_reducible apply Mem.wrN_wf
    | with_reducible apply Mem.setLe_wf
    | with_reducible apply Mem.drop_wf
    | with_reducible apply Mem.copyRange_wf
    | dsimp only
    | split

theorem State.testFlit_keeps (s : State) (p : Nat) (corr : List Nat) (d : DataF) (hκ : ρ.Keeps κ s) :
    ρ.Keeps κ (State.testFlit s p corr d) := by
  unfold State.testFlit
  repeat' first
    | intro _
    | with_reducible assumption
    | with_reducible apply State.bump_keeps
    | with_reducible apply State.bumpSat_keeps
    | with_reducible apply State.modPort_keeps
    | with_reducible apply State.flitIn_keeps
    | with_reducible apply State.keeps_ite

theorem State.twinTest_keeps (s : State) (corr : List Nat) (d : DataF) (hκ : ρ.Keeps κ s) :
    ρ.Keeps κ (State.twinTest s corr d) := by
  unfold State.twinTest
  repeat' first
    | intro _
    | with_reducible assumption
    | with_reducible apply State.modPort_keeps
    | with_reducible apply State.queueFlit_keeps
    | with_reducible apply State.flitIn_keeps
    | with_reducible apply State.testFlit_keeps
    | with_reducible apply State.keeps_ite

theorem execRxData_keeps (p : Nat) (path : BitVec 18) (corr : List Nat) (d : DataF) (s : State) (hκ : ρ.Keeps κ s) :
    OKeeps κ ρ (execRxData p path corr d s) := by
  unfold execRxData
  repeat' first
    | intro _
    | with_reducible assumption
    | with_reducible apply fin_keeps
    | with_reducible apply creditedKeep_keeps
    | with_reducible apply State.testFlit_keeps
    | with_reducible apply State.twinTest_keeps
    | with_reducible apply State.dataFlit_keeps
    | with_reducible apply State.keeps_ite
    | with_reducible apply okeeps_ite
    | with_reducible apply okeeps_next
    | dsimp only
    | split

theorem State.dackFlit_keeps (s : State) (p : Nat) (path : BitVec 18) (d : StatusF) (hκ : ρ.Keeps κ s) :
    ρ.Keeps κ (State.dackFlit s p path d) := by
  unfold State.dackFlit
  repeat' first
    | intro _
    | with_reducible assumption
    | with_reducible apply State.setBit_keeps
    | with_reducible apply State.modMember_keeps
    | with_reducible apply State.tryDone_keeps
    | with_reducible apply State.report_keeps
    | with_reducible apply State.endCommit_keeps
    | with_reducible apply State.answered_keeps
    | with_reducible apply State.keeps_ite
    | with_reducible apply okeeps_ite
    | with_reducible apply SMap.set_wf
    | dsimp only
    | split
    | with_reducible apply State.keeps_recov

theorem State.answered_keeps (s : State) (sc : Nat) (o : NOp) (d : StatusF) (hκ : ρ.Keeps κ s) :
    ρ.Keeps κ (State.answered s sc o d) := by
  unfold State.answered
  repeat' first
    | intro _
    | with_reducible assumption
    | with_reducible apply State.modChain_keeps
    | with_reducible apply State.endChain_keeps
    | with_reducible apply State.endAbsent_keeps
    | with_reducible apply State.wordEnd_keeps
    | with_reducible apply State.answer_keeps
    | with_reducible apply State.keeps_ite

theorem State.writersEnd_keeps (s : State) (key : Nat) (d : StatusF) (hκ : ρ.Keeps κ s) :
    ρ.Keeps κ (State.writersEnd s key d) := by
  unfold State.writersEnd
  repeat' first
    | intro _
    | with_reducible assumption
    | with_reducible apply State.endXfer_keeps
    | with_reducible apply State.keeps_ite
    | with_reducible apply okeeps_ite
    | with_reducible apply State.keeps_fold
    | dsimp only
    | split

theorem State.wordStop_keeps (s : State) (sc key : Nat) (hκ : ρ.Keeps κ s) :
    ρ.Keeps κ (State.wordStop s sc key) := by
  unfold State.wordStop
  repeat' first
    | intro _
    | with_reducible assumption
    | with_reducible apply State.modChain_keeps
    | with_reducible apply State.stopXfer_keeps
    | with_reducible apply State.keeps_ite

theorem State.opEnded_keeps (s : State) (sc key : Nat) (second : Bool) (o : NOp) (d : StatusF) (hκ : ρ.Keeps κ s) :
    ρ.Keeps κ (State.opEnded s sc key second o d) := by
  unfold State.opEnded
  repeat' first
    | intro _
    | with_reducible assumption
    | with_reducible apply State.modChain_keeps
    | with_reducible apply State.fixStatus_keeps
    | with_reducible apply State.advance_keeps
    | with_reducible apply State.wordStop_keeps
    | with_reducible apply State.keeps_ite
    | with_reducible apply okeeps_ite
    | dsimp only
    | split

theorem State.chanEnded_keeps (s : State) (c : Nat) (second : Bool) (o : NOp) (d : StatusF) (hκ : ρ.Keeps κ s) :
    ρ.Keeps κ (State.chanEnded s c second o d) := by
  unfold State.chanEnded
  repeat' first
    | intro _
    | with_reducible assumption
    | with_reducible apply State.modChan_keeps
    | with_reducible apply State.endXfer_keeps
    | with_reducible apply State.keeps_ite
    | with_reducible apply okeeps_ite
    | dsimp only
    | split

theorem State.statusFlit_keeps (s : State) (key : Nat) (o : NOp) (d : StatusF) (hκ : ρ.Keeps κ s) :
    ρ.Keeps κ (State.statusFlit s key o d) := by
  unfold State.statusFlit
  repeat' first
    | intro _
    | with_reducible assumption
    | with_reducible apply State.dropTx_keeps
    | with_reducible apply State.ntPut_keeps
    | with_reducible apply State.closeEx_keeps
    | with_reducible apply State.winLoad_keeps
    | with_reducible apply State.opOver_keeps
    | with_reducible apply State.winEnded_keeps
    | with_reducible apply State.answered_keeps
    | with_reducible apply State.writersEnd_keeps
    | with_reducible apply State.opEnded_keeps
    | with_reducible apply State.chanEnded_keeps
    | with_reducible apply State.keeps_ite
    | with_reducible apply okeeps_ite
    | with_reducible apply Mem.drop_wf
    | dsimp only
    | split

theorem execRxStatus_keeps (p : Nat) (path : BitVec 18) (corr : List Nat) (d : StatusF) (s : State) (hκ : ρ.Keeps κ s) :
    OKeeps κ ρ (execRxStatus p path corr d s) := by
  unfold execRxStatus
  repeat' first
    | intro _
    | with_reducible assumption
    | with_reducible apply credited_keeps
    | with_reducible apply State.dackFlit_keeps
    | with_reducible apply State.statusFlit_keeps
    | with_reducible apply State.keeps_ite
    | with_reducible apply okeeps_ite
    | with_reducible apply okeeps_next
    | dsimp only
    | split

theorem State.attnFlit_keeps (s : State) (node : Nat) (a : AttnF) (hκ : ρ.Keeps κ s) :
    ρ.Keeps κ (State.attnFlit s node a) := by
  unfold State.attnFlit
  repeat' first
    | intro _
    | with_reducible assumption
    | with_reducible apply State.modSrc_keeps
    | with_reducible apply State.srcEvent_keeps
    | with_reducible apply State.srcLevel_keeps
    | with_reducible apply State.ntPut_keeps
    | with_reducible apply State.enumSub_keeps
    | with_reducible apply State.keeps_ite

theorem execRxAttn_keeps (p : Nat) (path : BitVec 18) (corr : List Nat) (d : AttnF) (s : State) (hκ : ρ.Keeps κ s) :
    OKeeps κ ρ (execRxAttn p path corr d s) := by
  unfold execRxAttn
  repeat' first
    | intro _
    | with_reducible assumption
    | with_reducible apply State.setBit_keeps
    | with_reducible apply State.bump_keeps
    | with_reducible apply credited_keeps
    | with_reducible apply State.attnFlit_keeps
    | with_reducible apply State.keeps_ite
    | with_reducible apply okeeps_ite
    | with_reducible apply okeeps_next
    | dsimp only
    | split

theorem State.paceFlit_keeps (s : State) (n : Nat) (d : PaceF) (hκ : ρ.Keeps κ s) :
    ρ.Keeps κ (State.paceFlit s n d) := by
  unfold State.paceFlit
  repeat' first
    | intro _
    | with_reducible assumption
    | with_reducible apply State.cxSet_keeps
    | with_reducible apply State.wordEnd_keeps
    | with_reducible apply State.pend_keeps
    | with_reducible apply State.paceNode_keeps
    | with_reducible apply State.keeps_ite

theorem execRxPace_keeps (p : Nat) (path : BitVec 18) (corr : List Nat) (d : PaceF) (s : State) (hκ : ρ.Keeps κ s) :
    OKeeps κ ρ (execRxPace p path corr d s) := by
  unfold execRxPace
  repeat' first
    | intro _
    | with_reducible assumption
    | with_reducible apply credited_keeps
    | with_reducible apply State.paceFlit_keeps
    | with_reducible apply State.keeps_ite
    | with_reducible apply okeeps_ite
    | with_reducible apply okeeps_next
    | dsimp only
    | split

theorem execRxCredit_keeps (p : Nat) (path : BitVec 18) (corr : List Nat) (d : CreditF) (s : State) (hκ : ρ.Keeps κ s) :
    OKeeps κ ρ (execRxCredit p path corr d s) := by
  unfold execRxCredit
  repeat' first
    | intro _
    | with_reducible assumption
    | with_reducible apply State.modPort_keeps
    | with_reducible apply fin_keeps
    | with_reducible apply State.flitIn_keeps
    | with_reducible apply State.keeps_ite
    | with_reducible apply okeeps_ite
    | with_reducible apply okeeps_next

theorem execRxBadFlit_keeps (p : Nat) (corr : List Nat) (k : BadFlit) (s : State) (hκ : ρ.Keeps κ s) :
    OKeeps κ ρ (execRxBadFlit p corr k s) := by
  unfold execRxBadFlit
  repeat' first
    | intro _
    | with_reducible assumption
    | with_reducible apply State.setBit_keeps
    | with_reducible apply State.bump_keeps
    | with_reducible apply State.modPort_keeps
    | with_reducible apply State.unplannedRetrain_keeps
    | with_reducible apply fin_keeps
    | with_reducible apply State.flitIn_keeps
    | with_reducible apply State.keeps_ite
    | with_reducible apply okeeps_ite
    | with_reducible apply okeeps_next
    | dsimp only
    | split

end Sys2Proof.Machine
end

