-- ==== Sys2Proof/Laws/KLinkCmds.lean ====
section
/-! SUPPORT. What the changes of state in Machine/LinkCmds.lean keep. -/

namespace Sys2Proof.Machine

variable {κ : Kept} {ρ : State}

theorem State.downPort_keeps (s : State) (p : Nat) (hκ : ρ.Keeps κ s) :
    ρ.Keeps κ (State.downPort s p) := by
  unfold State.downPort
  repeat' first
    | intro _
    | with_reducible assumption
    | with_reducible apply State.portDown_keeps
    | with_reducible apply State.keeps_ite

theorem State.trainGo_keeps (s : State) (p : Nat) (hκ : ρ.Keeps κ s) :
    ρ.Keeps κ (State.trainGo s p) := by
  unfold State.trainGo
  repeat' first
    | intro _
    | with_reducible assumption
    | with_reducible apply State.wb_keeps
    | with_reducible apply State.trainPort_keeps
    | with_reducible apply State.keeps_ite

theorem State.kpCtlWrite_keeps (s : State) (p : Nat) (v : Word) (hκ : ρ.Keeps κ s) :
    ρ.Keeps κ (State.kpCtlWrite s p v) := by
  unfold State.kpCtlWrite
  repeat' first
    | intro _
    | with_reducible assumption
    | with_reducible apply State.downPort_keeps
    | with_reducible apply State.trainGo_keeps
    | with_reducible apply State.keeps_ite

theorem execKpTrain_keeps (who : Req) (p : Nat) (s : State) (hκ : ρ.Keeps κ s) :
    OKeeps κ ρ (execKpTrain who p s) := by
  unfold execKpTrain
  repeat' first
    | intro _
    | with_reducible assumption
    | with_reducible apply regGo_keeps
    | with_reducible apply State.kpCtlWrite_keeps
    | with_reducible apply State.keeps_ite
    | with_reducible apply okeeps_ite
    | with_reducible apply okeeps_next

theorem execKpDown_keeps (who : Req) (p : Nat) (s : State) (hκ : ρ.Keeps κ s) :
    OKeeps κ ρ (execKpDown who p s) := by
  unfold execKpDown
  repeat' first
    | intro _
    | with_reducible assumption
    | with_reducible apply regGo_keeps
    | with_reducible apply State.kpCtlWrite_keeps
    | with_reducible apply State.keeps_ite
    | with_reducible apply okeeps_ite
    | with_reducible apply okeeps_next

theorem State.trainFail_keeps (s : State) (p : Nat) (hκ : ρ.Keeps κ s) :
    ρ.Keeps κ (State.trainFail s p) := by
  unfold State.trainFail
  repeat' first
    | intro _
    | with_reducible assumption
    | with_reducible apply State.setBit_keeps
    | with_reducible apply State.portDown_keeps
    | with_reducible apply State.report_keeps

theorem State.attemptFailed_keeps (s : State) (p : Nat) (locked : BitVec 4) (hκ : ρ.Keeps κ s) :
    ρ.Keeps κ (State.attemptFailed s p locked) := by
  unfold State.attemptFailed
  repeat' first
    | intro _
    | with_reducible assumption
    | with_reducible apply State.modPort_keeps
    | with_reducible apply State.beginTraining_keeps
    | with_reducible apply State.trainFail_keeps
    | with_reducible apply State.keeps_ite
    | with_reducible apply okeeps_ite
    | dsimp only
    | split

theorem State.rebase_keeps (s : State) (p : Nat) (hκ : ρ.Keeps κ s) :
    ρ.Keeps κ (State.rebase s p) := by
  unfold State.rebase
  repeat' first
    | intro _
    | with_reducible assumption
    | with_reducible apply State.setBit_keeps
    | with_reducible apply State.modPort_keeps
    | with_reducible apply State.broadcastCredit_keeps
    | with_reducible apply State.keeps_ite

theorem State.stepDown_keeps (s : State) (p : Nat) (corr : List Nat) (hκ : ρ.Keeps κ s) :
    ρ.Keeps κ (State.stepDown s p corr) := by
  unfold State.stepDown
  repeat' first
    | intro _
    | with_reducible assumption
    | with_reducible apply State.setBit_keeps
    | with_reducible apply State.bump_keeps
    | with_reducible apply State.plannedRetrain_keeps
    | with_reducible apply State.report_keeps
    | with_reducible apply State.keeps_ite

theorem State.evalWindow_keeps (s : State) (p bytes : Nat) (corr : List Nat) (uncorr n : Nat) (hκ : ρ.Keeps κ s) :
    ρ.Keeps κ (State.evalWindow s p bytes corr uncorr n) := by
  unfold State.evalWindow
  repeat' first
    | intro _
    | with_reducible assumption
    | with_reducible apply State.modPort_keeps
    | with_reducible apply State.stepDown_keeps
    | with_reducible apply State.keeps_ite

theorem State.idlesIn_keeps (s : State) (p n : Nat) (corr : List Nat) (bad : Nat) (hκ : ρ.Keeps κ s) :
    ρ.Keeps κ (State.idlesIn s p n corr bad) := by
  unfold State.idlesIn
  repeat' first
    | intro _
    | with_reducible assumption
    | with_reducible apply State.modPort_keeps
    | with_reducible apply State.flitIn_keeps
    | with_reducible apply State.bump_keeps
    | with_reducible apply State.setBit_keeps
    | with_reducible apply State.keeps_ite

theorem execDegWindowEnd_keeps (p idles : Nat) (corr : List Nat) (bad : Nat) (s : State) (hκ : ρ.Keeps κ s) :
    OKeeps κ ρ (execDegWindowEnd p idles corr bad s) := by
  unfold execDegWindowEnd
  repeat' first
    | intro _
    | with_reducible assumption
    | with_reducible apply State.idlesIn_keeps
    | with_reducible apply State.modPort_keeps
    | with_reducible apply fin_keeps
    | with_reducible apply State.evalWindow_keeps
    | with_reducible apply State.keeps_ite
    | with_reducible apply okeeps_ite
    | with_reducible apply okeeps_next

theorem State.ringActive_keeps (s : State) (p : Nat) (hκ : ρ.Keeps κ s) :
    ρ.Keeps κ (State.ringActive s p) := by
  unfold State.ringActive
  repeat' first
    | intro _
    | with_reducible assumption
    | with_reducible apply State.sendDecision_keeps
    | with_reducible apply State.enumStart_keeps
    | with_reducible apply State.keeps_ite
    | with_reducible apply okeeps_ite
    | with_reducible apply State.keeps_fold

theorem State.linkActive_keeps (s : State) (p : Nat) (hκ : ρ.Keeps κ s) :
    ρ.Keeps κ (State.linkActive s p) := by
  unfold State.linkActive
  repeat' first
    | intro _
    | with_reducible assumption
    | with_reducible apply State.wf_keeps
    | with_reducible apply State.bump_keeps
    | with_reducible apply State.modPort_keeps
    | with_reducible apply State.plannedRetrain_keeps
    | with_reducible apply State.rebase_keeps
    | with_reducible apply State.evalWindow_keeps
    | with_reducible apply State.ringActive_keeps
    | with_reducible apply State.keeps_ite
    | with_reducible apply okeeps_ite
    | with_reducible apply State.keeps_fold
    | dsimp only
    | split

theorem execTrainingPhaseEnd_keeps (p : Nat) (locked : BitVec 4) (back : RingBack) (rtt : BitVec 16) (s : State) (hκ : ρ.Keeps κ s) :
    OKeeps κ ρ (execTrainingPhaseEnd p locked back rtt s) := by
  unfold execTrainingPhaseEnd
  repeat' first
    | intro _
    | with_reducible assumption
    | with_reducible apply State.wf_keeps
    | with_reducible apply State.modPort_keeps
    | with_reducible apply fin_keeps
    | with_reducible apply State.attemptFailed_keeps
    | with_reducible apply State.linkActive_keeps
    | with_reducible apply State.keeps_ite
    | with_reducible apply okeeps_ite
    | with_reducible apply okeeps_next
    | dsimp only
    | split

theorem execTrainingTimeout_keeps (p : Nat) (lo hi : BitVec 2) (s : State) (hκ : ρ.Keeps κ s) :
    OKeeps κ ρ (execTrainingTimeout p lo hi s) := by
  unfold execTrainingTimeout
  repeat' first
    | intro _
    | with_reducible assumption
    | with_reducible apply fin_keeps
    | with_reducible apply State.attemptFailed_keeps
    | with_reducible apply State.keeps_ite
    | with_reducible apply okeeps_ite
    | with_reducible apply okeeps_next

theorem execQuiesceMarkerReturn_keeps (m : Heard Nat) (s : State) (hκ : ρ.Keeps κ s) :
    OKeeps κ ρ (execQuiesceMarkerReturn m s) := by
  unfold execQuiesceMarkerReturn
  repeat' first
    | intro _
    | with_reducible assumption
    | with_reducible apply State.beginTraining_keeps
    | with_reducible apply fin_keeps
    | with_reducible apply State.flitIn_keeps
    | with_reducible apply State.keeps_ite
    | with_reducible apply okeeps_ite
    | with_reducible apply okeeps_next

theorem execQuiesceTimeout_keeps (p : Nat) (s : State) (hκ : ρ.Keeps κ s) :
    OKeeps κ ρ (execQuiesceTimeout p s) := by
  unfold execQuiesceTimeout
  repeat' first
    | intro _
    | with_reducible assumption
    | with_reducible apply State.setBit_keeps
    | with_reducible apply State.unplannedRetrain_keeps
    | with_reducible apply fin_keeps
    | with_reducible apply State.keeps_ite
    | with_reducible apply okeeps_ite
    | with_reducible apply okeeps_next

theorem State.linkLost_keeps (s : State) (p : Nat) (hκ : ρ.Keeps κ s) :
    ρ.Keeps κ (State.linkLost s p) := by
  unfold State.linkLost
  repeat' first
    | intro _
    | with_reducible assumption
    | with_reducible apply State.unplannedRetrain_keeps
    | with_reducible apply State.keeps_ite

theorem execLaneLockLoss_keeps (p lane : Nat) (s : State) (hκ : ρ.Keeps κ s) :
    OKeeps κ ρ (execLaneLockLoss p lane s) := by
  unfold execLaneLockLoss
  repeat' first
    | intro _
    | with_reducible assumption
    | with_reducible apply State.wf_keeps
    | with_reducible apply fin_keeps
    | with_reducible apply State.linkLost_keeps
    | with_reducible apply State.keeps_ite
    | with_reducible apply okeeps_ite
    | with_reducible apply okeeps_next

theorem execTs0Received_keeps (p : Nat) (s : State) (hκ : ρ.Keeps κ s) :
    OKeeps κ ρ (execTs0Received p s) := by
  unfold execTs0Received
  repeat' first
    | intro _
    | with_reducible assumption
    | with_reducible apply fin_keeps
    | with_reducible apply State.linkLost_keeps
    | with_reducible apply State.keeps_ite
    | with_reducible apply okeeps_ite
    | with_reducible apply okeeps_next

theorem execRingOutIdleTimer_keeps (p : Nat) (s : State) (hκ : ρ.Keeps κ s) :
    OKeeps κ ρ (execRingOutIdleTimer p s) := by
  unfold execRingOutIdleTimer
  repeat' first
    | intro _
    | with_reducible assumption
    | with_reducible apply State.modPort_keeps
    | with_reducible apply State.keeps_ite
    | with_reducible apply okeeps_ite
    | with_reducible apply okeeps_next

theorem execBypHoldRise_keeps (p : Nat) (s : State) (hκ : ρ.Keeps κ s) :
    OKeeps κ ρ (execBypHoldRise p s) := by
  unfold execBypHoldRise
  repeat' first
    | intro _
    | with_reducible assumption
    | with_reducible apply State.wf_keeps
    | with_reducible apply fin_keeps
    | with_reducible apply State.keeps_ite
    | with_reducible apply okeeps_ite
    | with_reducible apply okeeps_next

theorem execCreditTimer_keeps (p st : Nat) (s : State) (hκ : ρ.Keeps κ s) :
    OKeeps κ ρ (execCreditTimer p st s) := by
  unfold execCreditTimer
  repeat' first
    | intro _
    | with_reducible assumption
    | with_reducible apply State.modPort_keeps
    | with_reducible apply fin_keeps
    | with_reducible apply State.keeps_ite
    | with_reducible apply okeeps_ite
    | with_reducible apply okeeps_next

theorem execTokenTimer_keeps (s : State) (hκ : ρ.Keeps κ s) :
    OKeeps κ ρ (execTokenTimer s) := by
  unfold execTokenTimer
  repeat' first
    | intro _
    | with_reducible assumption
    | with_reducible apply State.modPort_keeps
    | with_reducible apply fin_keeps
    | with_reducible apply State.keeps_ite
    | with_reducible apply okeeps_ite
    | with_reducible apply State.keeps_fold
    | with_reducible apply okeeps_next

theorem State.opGone_keeps (s : State) (key : Nat) (o : NOp) (hκ : ρ.Keeps κ s) :
    ρ.Keeps κ (State.opGone s key o) := by
  unfold State.opGone
  repeat' first
    | intro _
    | with_reducible assumption
    | with_reducible apply State.dropTx_keeps
    | with_reducible apply State.sendNode_keeps
    | with_reducible apply State.opLost_keeps

theorem State.opTimeout_keeps (s : State) (key : Nat) (o : NOp) (f : Flit) (hκ : ρ.Keeps κ s) :
    ρ.Keeps κ (State.opTimeout s key o f) := by
  unfold State.opTimeout
  repeat' first
    | intro _
    | with_reducible assumption
    | with_reducible apply State.queueFlit_keeps
    | with_reducible apply State.ntSet_keeps
    | with_reducible apply State.modOp_keeps
    | with_reducible apply State.opGone_keeps
    | with_reducible apply State.keeps_ite

theorem execAnswerTimeout_keeps (a : Awaited) (s : State) (hκ : ρ.Keeps κ s) :
    OKeeps κ ρ (execAnswerTimeout a s) := by
  unfold execAnswerTimeout
  repeat' first
    | intro _
    | with_reducible assumption
    | with_reducible apply State.modMember_keeps
    | with_reducible apply State.sendDecision_keeps
    | with_reducible apply fin_keeps
    | with_reducible apply State.unconfirm_keeps
    | with_reducible apply State.answered_keeps
    | with_reducible apply State.opTimeout_keeps
    | with_reducible apply State.keeps_ite
    | with_reducible apply okeeps_ite
    | with_reducible apply okeeps_next
    | dsimp only
    | split

theorem execCretryTimer_keeps (x node : Nat) (s : State) (hκ : ρ.Keeps κ s) :
    OKeeps κ ρ (execCretryTimer x node s) := by
  unfold execCretryTimer
  repeat' first
    | intro _
    | with_reducible assumption
    | with_reducible apply State.sendDecision_keeps
    | with_reducible apply fin_keeps
    | with_reducible apply State.answered_keeps
    | with_reducible apply State.keeps_ite
    | with_reducible apply okeeps_ite
    | with_reducible apply okeeps_next
    | dsimp only
    | split

theorem execTxidWaitTimeout_keeps (sc : Nat) (s : State) (hκ : ρ.Keeps κ s) :
    OKeeps κ ρ (execTxidWaitTimeout sc s) := by
  unfold execTxidWaitTimeout
  repeat' first
    | intro _
    | with_reducible assumption
    | with_reducible apply State.setBit_keeps
    | with_reducible apply State.txidOutcome_keeps
    | with_reducible apply State.endAborted_keeps
    | with_reducible apply fin_keeps
    | with_reducible apply State.keeps_ite
    | with_reducible apply okeeps_ite
    | with_reducible apply okeeps_next

theorem State.endVictim_keeps (s : State) (sc : Nat) (hκ : ρ.Keeps κ s) :
    ρ.Keeps κ (State.endVictim s sc) := by
  unfold State.endVictim
  repeat' first
    | intro _
    | with_reducible assumption
    | with_reducible apply State.modChain_keeps
    | with_reducible apply State.releaseSlots_keeps
    | with_reducible apply State.unwait_keeps
    | with_reducible apply State.abortTx_keeps
    | with_reducible apply State.endChain_keeps
    | dsimp only
    | split

theorem State.breakCycle_keeps (s : State) (cycle : List Nat) (hκ : ρ.Keeps κ s) :
    ρ.Keeps κ (State.breakCycle s cycle) := by
  unfold State.breakCycle
  repeat' first
    | intro _
    | with_reducible assumption
    | with_reducible apply State.setReg_keeps
    | with_reducible apply State.setBit_keeps
    | with_reducible apply State.bump_keeps
    | with_reducible apply State.endVictim_keeps
    | with_reducible apply Mem.filter_wf
    | with_reducible apply SMap.filter_wf
    | dsimp only
    | split

theorem execWeederWalk_keeps (sc : Nat) (s : State) (hκ : ρ.Keeps κ s) :
    OKeeps κ ρ (execWeederWalk sc s) := by
  unfold execWeederWalk
  repeat' first
    | intro _
    | with_reducible assumption
    | with_reducible apply State.setBit_keeps
    | with_reducible apply State.bump_keeps
    | with_reducible apply fin_keeps
    | with_reducible apply State.breakCycle_keeps
    | with_reducible apply State.keeps_ite
    | with_reducible apply okeeps_ite
    | with_reducible apply okeeps_next
    | dsimp only
    | split

end Sys2Proof.Machine
end

