-- ==== Sys2Proof/Laws/KVNode.lean ====
section
/-! SUPPORT. What the changes of state in Machine/VNode.lean keep. -/

namespace Sys2Proof.Machine

variable {κ : Kept} {ρ : State}

theorem State.setVn_keeps (s : State) (p : Nat) (v : VNode) (hκ : ρ.Keeps κ s) :
    ρ.Keeps κ (State.setVn s p v) := by
  unfold State.setVn
  repeat' first
    | intro _
    | with_reducible assumption
    | with_reducible apply SMap.set_wf
    | dsimp only
    | split
    | with_reducible apply State.keeps_vnodes

theorem State.vnIn_keeps (s : State) (p vc : Nat) (k : State → State × Bool) (hκ : ρ.Keeps κ s)
    (hk : ∀ s, ρ.Keeps κ s → ρ.Keeps κ (k s).1) : ρ.Keeps κ (s.vnIn p vc k) := by
  unfold State.vnIn
  extract_lets r
  have hr : ρ.Keeps κ r.1 := hk _ (State.modPort_keeps _ _ _ (State.flitIn_keeps _ _ _ _ hκ))
  exact State.keeps_ite hr (State.modPort_keeps _ _ _ hr)

theorem State.vnReply_keeps (s : State) (p : Nat) (d : StatusF) (hκ : ρ.Keeps κ s) :
    ρ.Keeps κ (State.vnReply s p d) := by
  unfold State.vnReply
  repeat' first
    | intro _
    | with_reducible assumption
    | with_reducible apply State.dackFlit_keeps
    | with_reducible apply State.statusFlit_keeps
    | with_reducible apply State.vnIn_keeps
    | with_reducible apply State.keeps_ite
    | with_reducible apply okeeps_ite
    | dsimp only
    | split

theorem State.vnSend_keeps (s : State) (p : Nat) (d : DataF) (hκ : ρ.Keeps κ s) :
    ρ.Keeps κ (State.vnSend s p d) := by
  unfold State.vnSend
  repeat' first
    | intro _
    | with_reducible assumption
    | with_reducible apply State.vnIn_keeps
    | with_reducible apply State.dataFlit_keeps
    | with_reducible apply State.keeps_ite
    | with_reducible apply okeeps_ite
    | dsimp only
    | split

theorem State.vnEnd_keeps (s : State) (p oph : Nat) (result : Byte) (accepted : Nat := 0) (hκ : ρ.Keeps κ s) :
    ρ.Keeps κ (State.vnEnd s p oph result accepted) := by
  unfold State.vnEnd
  repeat' first
    | intro _
    | with_reducible assumption
    | with_reducible apply State.setVn_keeps
    | with_reducible apply State.vnReply_keeps

theorem State.vnData_keeps (p oph sub : Nat) : ∀ (k off n : Nat) (s : State) (_ : ρ.Keeps κ s),
    ρ.Keeps κ (State.vnData p oph sub off k n s) := by
  intro k
  induction k with
  | zero => intro off n s h; exact h
  | succ k ih =>
    intro off n s h
    rw [State.vnData]
    have h1 := State.vnSend_keeps (κ := κ) (ρ := ρ) s p
    exact State.keeps_ite (State.vnEnd_keeps _ _ _ _ _ (h1 _ h)) (State.keeps_ite (h1 _ h) (ih _ _ _ (h1 _ h)))

theorem State.vnFetch_keeps (s : State) (p : Nat) (o : VOp) (off n : Nat) (hκ : ρ.Keeps κ s) :
    ρ.Keeps κ (State.vnFetch s p o off n) := by
  unfold State.vnFetch
  repeat' first
    | intro _
    | with_reducible assumption
    | with_reducible apply State.vnSend_keeps
    | with_reducible apply State.vnEnd_keeps
    | with_reducible apply State.vnData_keeps
    | with_reducible apply State.keeps_ite

theorem State.vnOpen_keeps (s : State) (p : Nat) (c : CmdF) (hκ : ρ.Keeps κ s) :
    ρ.Keeps κ (State.vnOpen s p c) := by
  unfold State.vnOpen
  repeat' first
    | intro _
    | with_reducible assumption
    | with_reducible apply State.setVn_keeps
    | with_reducible apply State.vnEnd_keeps
    | with_reducible apply State.vnFetch_keeps
    | with_reducible apply State.keeps_ite
    | with_reducible apply okeeps_ite
    | with_reducible apply Mem.filter_wf
    | with_reducible apply SMap.filter_wf
    | dsimp only
    | split

theorem State.vnWrite_keeps (s : State) (p : Nat) (d : DataF) (stage : Option (Nat × Nat)) (hκ : ρ.Keeps κ s) :
    ρ.Keeps κ (State.vnWrite s p d stage) := by
  unfold State.vnWrite
  repeat' first
    | intro _
    | with_reducible assumption
    | with_reducible apply State.setVn_keeps
    | with_reducible apply State.vnEnd_keeps
    | with_reducible apply State.keeps_ite
    | with_reducible apply okeeps_ite
    | with_reducible apply Mem.wrN_wf
    | dsimp only
    | split
    | with_reducible apply State.keeps_ops
    | with_reducible apply State.keeps_vnode

theorem State.vnDecide_keeps (s : State) (p x t : Nat) (commit : Bool) (hκ : ρ.Keeps κ s) :
    ρ.Keeps κ (State.vnDecide s p x t commit) := by
  unfold State.vnDecide
  repeat' first
    | intro _
    | with_reducible assumption
    | with_reducible apply State.setVn_keeps
    | with_reducible apply State.vnReply_keeps
    | with_reducible apply State.keeps_ite
    | with_reducible apply okeeps_ite
    | with_reducible apply State.keeps_fold
    | with_reducible apply Mem.filter_wf
    | with_reducible apply SMap.filter_wf
    | with_reducible apply Mem.wrN_wf
    | dsimp only
    | split
    | with_reducible apply State.keeps_dack
    | with_reducible apply State.keeps_vnode

theorem State.vnAnswer_keeps (s : State) (p : Nat) (c : CmdF) (hκ : ρ.Keeps κ s) :
    ρ.Keeps κ (State.vnAnswer s p c) := by
  unfold State.vnAnswer
  repeat' first
    | intro _
    | with_reducible assumption
    | with_reducible apply State.setVn_keeps
    | with_reducible apply State.vnReply_keeps

theorem State.vnodeTake_keeps (s : State) (p : Nat) (b : FlitBody) (hκ : ρ.Keeps κ s) :
    ρ.Keeps κ (State.vnodeTake s p b) := by
  unfold State.vnodeTake
  repeat' first
    | intro _
    | with_reducible assumption
    | with_reducible apply State.modPort_keeps
    | with_reducible apply State.tick_keeps
    | with_reducible apply State.stage_keeps
    | with_reducible apply State.flitIn_keeps
    | with_reducible apply State.enumReply_keeps
    | with_reducible apply State.setVn_keeps
    | with_reducible apply State.vnReply_keeps
    | with_reducible apply State.vnFetch_keeps
    | with_reducible apply State.vnOpen_keeps
    | with_reducible apply State.vnWrite_keeps
    | with_reducible apply State.vnDecide_keeps
    | with_reducible apply State.vnAnswer_keeps
    | with_reducible apply State.keeps_ite
    | with_reducible apply okeeps_ite
    | with_reducible apply State.keeps_elim
    | with_reducible apply Mem.filter_wf
    | with_reducible apply SMap.filter_wf
    | dsimp only
    | split

theorem State.vnodeEnter_keeps (s : State) (p : Nat) (hκ : ρ.Keeps κ s) :
    ρ.Keeps κ (State.vnodeEnter s p) := by
  unfold State.vnodeEnter
  repeat' first
    | intro _
    | with_reducible assumption
    | with_reducible apply State.setReg_keeps
    | with_reducible apply State.wf_keeps
    | with_reducible apply State.modPort_keeps
    | with_reducible apply State.rebase_keeps
    | with_reducible apply State.ringActive_keeps
    | with_reducible apply State.setVn_keeps
    | with_reducible apply Mem.drop_wf
    | dsimp only
    | split
    | with_reducible apply State.keeps_vnode

end Sys2Proof.Machine
end

