-- ==== Sys2Proof/Laws/KFlitTx.lean ====
section
/-! SUPPORT. What the changes of state in Machine/FlitTx.lean keep. -/

namespace Sys2Proof.Machine

variable {κ : Kept} {ρ : State}

theorem State.copyNext_keeps (s : State) (a : Nat) (hκ : ρ.Keeps κ s) :
    ρ.Keeps κ (State.copyNext s a) := by
  unfold State.copyNext
  repeat' first
    | intro _
    | with_reducible assumption
    | with_reducible apply State.wf_keeps
    | with_reducible apply State.mirrorGo_keeps
    | with_reducible apply State.keeps_ite
    | with_reducible apply okeeps_ite
    | dsimp only
    | split
    | with_reducible apply State.keeps_pair

theorem State.sendFlit_keeps (s : State) (p : Nat) (f : Flit) (hκ : ρ.Keeps κ s) :
    ρ.Keeps κ (State.sendFlit s p f) := by
  unfold State.sendFlit
  repeat' first
    | intro _
    | with_reducible assumption
    | with_reducible apply State.modPort_keeps
    | with_reducible apply State.vnodeTake_keeps
    | with_reducible apply State.keeps_ite

theorem State.readFlit_keeps (s : State) (p : Nat) (f : Flit) (hκ : ρ.Keeps κ s) :
    ρ.Keeps κ (State.readFlit s p f) := by
  unfold State.readFlit
  repeat' first
    | intro _
    | with_reducible assumption
    | with_reducible apply State.setBit_keeps
    | with_reducible apply State.bump_keeps
    | with_reducible apply State.bumpSat_keeps
    | with_reducible apply State.modFurrow_keeps
    | with_reducible apply State.modPort_keeps
    | with_reducible apply State.report_keeps
    | with_reducible apply State.sendFlit_keeps
    | with_reducible apply State.keeps_ite

theorem State.sendIdle_keeps (s : State) (p : Nat) (quota : Bool) (hκ : ρ.Keeps κ s) :
    ρ.Keeps κ (State.sendIdle s p quota) := by
  unfold State.sendIdle
  repeat' first
    | intro _
    | with_reducible assumption
    | with_reducible apply State.modPort_keeps
    | with_reducible apply State.sendFlit_keeps
    | with_reducible apply State.keeps_ite
    | with_reducible apply okeeps_ite
    | dsimp only
    | split

theorem State.slot_keeps (s : State) (p : Nat) (hκ : ρ.Keeps κ s) :
    ρ.Keeps κ (State.slot s p) := by
  unfold State.slot
  repeat' first
    | intro _
    | with_reducible assumption
    | with_reducible apply State.modPort_keeps
    | with_reducible apply State.copyNext_keeps
    | with_reducible apply State.sendFlit_keeps
    | with_reducible apply State.readFlit_keeps
    | with_reducible apply State.sendIdle_keeps
    | with_reducible apply State.keeps_ite
    | with_reducible apply okeeps_ite
    | dsimp only
    | split
    | with_reducible apply State.keeps_pair

theorem execFlitTransmit_keeps (p : Nat) (s : State) (hκ : ρ.Keeps κ s) :
    OKeeps κ ρ (execFlitTransmit p s) := by
  unfold execFlitTransmit
  repeat' first
    | intro _
    | with_reducible assumption
    | with_reducible apply State.bump_keeps
    | with_reducible apply fin_keeps
    | with_reducible apply State.sendFlit_keeps
    | with_reducible apply State.slot_keeps
    | with_reducible apply State.keeps_ite
    | with_reducible apply okeeps_ite
    | with_reducible apply okeeps_next

end Sys2Proof.Machine
end

