-- ==== Sys2Proof/Laws/KFabric.lean ====
section
/-! SUPPORT. What the changes of state in Machine/Fabric.lean keep. -/

namespace Sys2Proof.Machine

variable {κ : Kept} {ρ : State}

theorem State.inboxLost_keeps (s : State) (key : Nat) (hκ : ρ.Keeps κ s) :
    ρ.Keeps κ (State.inboxLost s key) := by
  unfold State.inboxLost
  repeat' first
    | intro _
    | with_reducible assumption
    | with_reducible apply State.inboxDrop_keeps
    | with_reducible apply State.modOp_keeps

theorem State.dropInput_keeps (s : State) (r : Nat) (hκ : ρ.Keeps κ s) :
    ρ.Keeps κ (State.dropInput s r) := by
  unfold State.dropInput
  repeat' first
    | intro _
    | with_reducible assumption
    | with_reducible apply State.inboxLost_keeps
    | with_reducible apply State.keeps_fold
    | with_reducible apply Mem.filter_wf
    | with_reducible apply SMap.filter_wf
    | dsimp only
    | split
    | with_reducible apply State.keeps_reads_fab

theorem State.dropOutput_keeps (s : State) (f : Nat) (hκ : ρ.Keeps κ s) :
    ρ.Keeps κ (State.dropOutput s f) := by
  unfold State.dropOutput
  repeat' first
    | intro _
    | with_reducible assumption
    | with_reducible apply State.modPort_keeps
    | with_reducible apply State.dropInput_keeps
    | with_reducible apply State.keeps_ite
    | with_reducible apply okeeps_ite
    | with_reducible apply Mem.filter_wf
    | with_reducible apply SMap.filter_wf
    | with_reducible apply Mem.drop_wf
    | dsimp only
    | split
    | with_reducible apply State.keeps_hostOut

theorem State.flushNow_keeps (s : State) (f : Nat) (hκ : ρ.Keeps κ s) :
    ρ.Keeps κ (State.flushNow s f) := by
  unfold State.flushNow
  repeat' first
    | intro _
    | with_reducible assumption
    | with_reducible apply State.wb_keeps
    | with_reducible apply State.modFurrow_keeps
    | with_reducible apply State.dropOutput_keeps

theorem State.flushAsk_keeps (s : State) (f : Nat) (hκ : ρ.Keeps κ s) :
    ρ.Keeps κ (State.flushAsk s f) := by
  unfold State.flushAsk
  repeat' first
    | intro _
    | with_reducible assumption
    | with_reducible apply State.wb_keeps
    | with_reducible apply State.modFurrow_keeps
    | with_reducible apply State.flushNow_keeps
    | with_reducible apply State.keeps_ite

theorem State.fuCtlWrite_keeps (s : State) (f : Nat) (v : Word) (hκ : ρ.Keeps κ s) :
    ρ.Keeps κ (State.fuCtlWrite s f v) := by
  unfold State.fuCtlWrite
  repeat' first
    | intro _
    | with_reducible assumption
    | with_reducible apply State.flushAsk_keeps
    | with_reducible apply State.keeps_ite

theorem execFlush_keeps (who : Req) (f : Nat) (s : State) (hκ : ρ.Keeps κ s) :
    OKeeps κ ρ (execFlush who f s) := by
  unfold execFlush
  repeat' first
    | intro _
    | with_reducible assumption
    | with_reducible apply regGo_keeps
    | with_reducible apply State.fuCtlWrite_keeps
    | with_reducible apply State.keeps_ite
    | with_reducible apply okeeps_ite
    | with_reducible apply okeeps_next

theorem execFlushEffect_keeps (f : Nat) (s : State) (hκ : ρ.Keeps κ s) :
    OKeeps κ ρ (execFlushEffect f s) := by
  unfold execFlushEffect
  repeat' first
    | intro _
    | with_reducible assumption
    | with_reducible apply fin_keeps
    | with_reducible apply State.flushNow_keeps
    | with_reducible apply State.keeps_ite
    | with_reducible apply okeeps_ite
    | with_reducible apply okeeps_next

theorem execFlushTimeout_keeps (f : Nat) (s : State) (hκ : ρ.Keeps κ s) :
    OKeeps κ ρ (execFlushTimeout f s) := by
  unfold execFlushTimeout
  repeat' first
    | intro _
    | with_reducible assumption
    | with_reducible apply State.setBit_keeps
    | with_reducible apply State.bump_keeps
    | with_reducible apply fin_keeps
    | with_reducible apply State.flushNow_keeps
    | with_reducible apply State.keeps_ite
    | with_reducible apply okeeps_ite
    | with_reducible apply okeeps_next

theorem execStaleTimer_keeps (f : Nat) (s : State) (hκ : ρ.Keeps κ s) :
    OKeeps κ ρ (execStaleTimer f s) := by
  unfold execStaleTimer
  repeat' first
    | intro _
    | with_reducible assumption
    | with_reducible apply State.setBit_keeps
    | with_reducible apply State.modThread_keeps
    | with_reducible apply State.modFurrow_keeps
    | with_reducible apply State.srcEvent_keeps
    | with_reducible apply fin_keeps
    | with_reducible apply State.keeps_ite
    | with_reducible apply okeeps_ite
    | with_reducible apply okeeps_next

theorem State.tune1_keeps (s : State) (o r b : Nat) (hκ : ρ.Keeps κ s) :
    ρ.Keeps κ (State.tune1 s o r b) := by
  unfold State.tune1
  repeat' first
    | intro _
    | with_reducible assumption
    | with_reducible apply State.wf_keeps
    | with_reducible apply State.keeps_ite

theorem execTuningEpochEnd_keeps (o : Nat) (more : List Nat) (s : State) (hκ : ρ.Keeps κ s) :
    OKeeps κ ρ (execTuningEpochEnd o more s) := by
  unfold execTuningEpochEnd
  repeat' first
    | intro _
    | with_reducible assumption
    | with_reducible apply fin_keeps
    | with_reducible apply State.tune1_keeps
    | with_reducible apply State.keeps_ite
    | with_reducible apply okeeps_ite
    | with_reducible apply State.keeps_fold
    | with_reducible apply okeeps_next

theorem execFbPrioWrite_keeps (who : Req) (o r : Nat) (v : Word) (s : State) (hκ : ρ.Keeps κ s) :
    OKeeps κ ρ (execFbPrioWrite who o r v s) := by
  unfold execFbPrioWrite
  repeat' first
    | intro _
    | with_reducible assumption
    | with_reducible apply regGo_keeps
    | with_reducible apply State.softWrite_keeps
    | with_reducible apply State.keeps_ite
    | with_reducible apply okeeps_ite
    | with_reducible apply okeeps_next

theorem execAckNakDllp_keeps (nak : Bool) (n : Nat) (s : State) (hκ : ρ.Keeps κ s) :
    OKeeps κ ρ (execAckNakDllp nak n s) := by
  unfold execAckNakDllp
  repeat' first
    | intro _
    | with_reducible assumption
    | with_reducible apply State.bump_keeps
    | with_reducible apply State.modFurrow_keeps
    | with_reducible apply fin_keeps
    | with_reducible apply State.keeps_ite
    | with_reducible apply okeeps_ite
    | with_reducible apply okeeps_next
    | with_reducible apply Mem.drop_wf
    | dsimp only
    | split
    | with_reducible apply State.keeps_hostOut

end Sys2Proof.Machine
end

