-- ==== Sys2Proof/Laws/KRake.lean ====
section
/-! SUPPORT. What the changes of state in Machine/Rake.lean keep. -/

namespace Sys2Proof.Machine

variable {κ : Kept} {ρ : State}

theorem State.claim_keeps (s : State) (k T : Nat) (hκ : ρ.Keeps κ s) :
    ρ.Keeps κ (State.claim s k T) := by
  unfold State.claim
  repeat' first
    | intro _
    | with_reducible assumption
    | with_reducible apply State.bump_keeps
    | with_reducible apply State.modThread_keeps
    | with_reducible apply State.modSrc_keeps
    | with_reducible apply State.setSrcSt_keeps
    | with_reducible apply State.latch_keeps
    | with_reducible apply State.teStat_keeps
    | with_reducible apply State.keeps_ite
    | with_reducible apply okeeps_ite
    | with_reducible apply Mem.wrN_wf
    | dsimp only
    | split
    | with_reducible apply State.keeps_rakeRR_claimTag
    | with_reducible apply State.keeps_tpriv

theorem execAttnClaim_keeps (used : BitVec 8) (s : State) (hκ : ρ.Keeps κ s) :
    OKeeps κ ρ (execAttnClaim used s) := by
  unfold execAttnClaim
  repeat' first
    | intro _
    | with_reducible assumption
    | with_reducible apply fin_keeps
    | with_reducible apply State.claim_keeps
    | with_reducible apply State.keeps_ite
    | with_reducible apply okeeps_ite
    | with_reducible apply okeeps_next
    | dsimp only
    | split

theorem execHoldoffExpiry_keeps (src : Nat) (s : State) (hκ : ρ.Keeps κ s) :
    OKeeps κ ρ (execHoldoffExpiry src s) := by
  unfold execHoldoffExpiry
  repeat' first
    | intro _
    | with_reducible assumption
    | with_reducible apply State.modSrc_keeps
    | with_reducible apply fin_keeps
    | with_reducible apply State.keeps_ite
    | with_reducible apply okeeps_ite
    | with_reducible apply okeeps_next

theorem State.swtrigWrite_keeps (s : State) (v : Word) (hκ : ρ.Keeps κ s) :
    ρ.Keeps κ (State.swtrigWrite s v) := by
  unfold State.swtrigWrite
  repeat' first
    | intro _
    | with_reducible assumption
    | with_reducible apply State.wb_keeps
    | with_reducible apply State.srcEvent_keeps
    | with_reducible apply State.srcLevel_keeps
    | with_reducible apply State.keeps_ite
    | with_reducible apply okeeps_ite
    | with_reducible apply State.keeps_fold

theorem State.isrcWrite_keeps (s : State) (i : Nat) (v : Word) (hκ : ρ.Keeps κ s) :
    ρ.Keeps κ (State.isrcWrite s i v) := by
  unfold State.isrcWrite
  repeat' first
    | intro _
    | with_reducible assumption
    | with_reducible apply State.modSrc_keeps
    | with_reducible apply State.srcLevel_keeps
    | with_reducible apply State.softWrite_keeps
    | with_reducible apply State.keeps_ite

theorem execSwtrig_keeps (who : Req) (v : Word) (s : State) (hκ : ρ.Keeps κ s) :
    OKeeps κ ρ (execSwtrig who v s) := by
  unfold execSwtrig
  repeat' first
    | intro _
    | with_reducible assumption
    | with_reducible apply regGuarded_keeps
    | with_reducible apply State.swtrigWrite_keeps

theorem execSourceMaskWrite_keeps (who : Req) (src : Nat) (v : Word) (s : State) (hκ : ρ.Keeps κ s) :
    OKeeps κ ρ (execSourceMaskWrite who src v s) := by
  unfold execSourceMaskWrite
  repeat' first
    | intro _
    | with_reducible assumption
    | with_reducible apply regGo_keeps
    | with_reducible apply State.softWrite_keeps
    | with_reducible apply State.isrcWrite_keeps
    | with_reducible apply State.keeps_ite
    | with_reducible apply okeeps_ite
    | with_reducible apply okeeps_next

theorem execCqCoalesceTimer_keeps (q : Nat) (s : State) (hκ : ρ.Keeps κ s) :
    OKeeps κ ρ (execCqCoalesceTimer q s) := by
  unfold execCqCoalesceTimer
  repeat' first
    | intro _
    | with_reducible assumption
    | with_reducible apply State.cqSignal_keeps
    | with_reducible apply fin_keeps
    | with_reducible apply State.keeps_ite
    | with_reducible apply okeeps_ite
    | with_reducible apply okeeps_next

theorem State.cqiWrite_keeps (s : State) (who : Req) (q : Nat) (v : Word) (hκ : ρ.Keeps κ s) :
    ρ.Keeps κ (State.cqiWrite s who q v) := by
  unfold State.cqiWrite
  repeat' first
    | intro _
    | with_reducible assumption
    | with_reducible apply State.wf_keeps
    | with_reducible apply State.modQueue_keeps
    | with_reducible apply State.softWrite_keeps

theorem execCqiCfgWrite_keeps (who : Req) (q : Nat) (v : Word) (s : State) (hκ : ρ.Keeps κ s) :
    OKeeps κ ρ (execCqiCfgWrite who q v s) := by
  unfold execCqiCfgWrite
  repeat' first
    | intro _
    | with_reducible assumption
    | with_reducible apply regGo_keeps
    | with_reducible apply State.cqiWrite_keeps
    | with_reducible apply State.keeps_ite
    | with_reducible apply okeeps_ite
    | with_reducible apply okeeps_next

theorem State.msixWrite_keeps (s : State) (fn vec word : Nat) (v : Word) (hκ : ρ.Keeps κ s) :
    ρ.Keeps κ (State.msixWrite s fn vec word v) := by
  unfold State.msixWrite
  repeat' first
    | intro _
    | with_reducible assumption
    | with_reducible apply State.modVec_keeps
    | with_reducible apply State.sendPending_keeps
    | with_reducible apply State.put_keeps
    | with_reducible apply State.keeps_ite

theorem execMsixTableWrite_keeps (fn vec word : Nat) (v : Word) (s : State) (hκ : ρ.Keeps κ s) :
    OKeeps κ ρ (execMsixTableWrite fn vec word v s) := by
  unfold execMsixTableWrite
  repeat' first
    | intro _
    | with_reducible assumption
    | with_reducible apply fin_keeps
    | with_reducible apply State.unserved_keeps
    | with_reducible apply State.msixWrite_keeps
    | with_reducible apply State.keeps_ite
    | with_reducible apply okeeps_ite
    | with_reducible apply okeeps_next

end Sys2Proof.Machine
end

