-- ==== Sys2Proof/Laws/KUnits.lean ====
section
/-! SUPPORT. What the changes of state in Machine/Units.lean keep. -/

namespace Sys2Proof.Machine

variable {κ : Kept} {ρ : State}

theorem execFaultReport_keeps (src unit : Nat) (s : State) (hκ : ρ.Keeps κ s) :
    OKeeps κ ρ (execFaultReport src unit s) := by
  unfold execFaultReport
  repeat' first
    | intro _
    | with_reducible assumption
    | with_reducible apply State.report_keeps
    | with_reducible apply State.setCond_keeps
    | with_reducible apply State.faultEffect_keeps
    | with_reducible apply fin_keeps
    | with_reducible apply State.keeps_ite
    | with_reducible apply okeeps_ite
    | with_reducible apply okeeps_next

theorem State.forceWrite_keeps (s : State) (k : Nat) (v : Word) (hκ : ρ.Keeps κ s) :
    ρ.Keeps κ (State.forceWrite s k v) := by
  unfold State.forceWrite
  repeat' first
    | intro _
    | with_reducible assumption
    | with_reducible apply State.report_keeps
    | with_reducible apply State.keeps_ite
    | with_reducible apply okeeps_ite
    | with_reducible apply State.keeps_fold

theorem execForceFault_keeps (who : Req) (src : Nat) (s : State) (hκ : ρ.Keeps κ s) :
    OKeeps κ ρ (execForceFault who src s) := by
  unfold execForceFault
  repeat' first
    | intro _
    | with_reducible assumption
    | with_reducible apply State.report_keeps
    | with_reducible apply regGuarded_keeps
    | with_reducible apply State.keeps_ite
    | with_reducible apply okeeps_ite
    | with_reducible apply okeeps_next

theorem execTempSample_keeps (temp : BitVec 12) (s : State) (hκ : ρ.Keeps κ s) :
    OKeeps κ ρ (execTempSample temp s) := by
  unfold execTempSample
  repeat' first
    | intro _
    | with_reducible assumption
    | with_reducible apply State.wf_keeps
    | with_reducible apply State.setCond_keeps
    | with_reducible apply fin_keeps
    | with_reducible apply State.keeps_ite
    | with_reducible apply okeeps_ite
    | with_reducible apply okeeps_next

theorem execPatrolScrub_keeps (r : MemRegion) (idx : Nat) (intervened : Bool) (s : State) (hκ : ρ.Keeps κ s) :
    OKeeps κ ρ (execPatrolScrub r idx intervened s) := by
  unfold execPatrolScrub
  repeat' first
    | intro _
    | with_reducible assumption
    | with_reducible apply State.report_keeps
    | with_reducible apply State.faultEffect_keeps
    | with_reducible apply fin_keeps
    | with_reducible apply State.keeps_ite
    | with_reducible apply okeeps_ite
    | with_reducible apply okeeps_next
    | dsimp only
    | split
    | with_reducible apply State.keeps_errs

theorem State.hwSet_keeps (s : State) (off : Nat) (hw : Nat) (hκ : ρ.Keeps κ s) :
    ρ.Keeps κ (State.hwSet s off hw) := by
  unfold State.hwSet
  repeat' first
    | intro _
    | with_reducible assumption
    | with_reducible apply State.setStatus_keeps
    | with_reducible apply State.report_keeps
    | with_reducible apply State.keeps_ite
    | with_reducible apply okeeps_ite
    | with_reducible apply State.keeps_fold

theorem State.rcsWrite_keeps (s : State) (off : Nat) (v : Word) (hw : Nat := 0) (hκ : ρ.Keeps κ s) :
    ρ.Keeps κ (State.rcsWrite s off v hw) := by
  unfold State.rcsWrite
  repeat' first
    | intro _
    | with_reducible assumption
    | with_reducible apply State.setReg_keeps
    | with_reducible apply State.setBit_keeps
    | with_reducible apply State.bump_keeps
    | with_reducible apply State.hwSet_keeps
    | with_reducible apply State.keeps_ite

theorem execRcsClear_keeps (who : Req) (off : Nat) (v : Word) (hw : BitVec 24) (s : State) (hκ : ρ.Keeps κ s) :
    OKeeps κ ρ (execRcsClear who off v hw s) := by
  unfold execRcsClear
  repeat' first
    | intro _
    | with_reducible assumption
    | with_reducible apply regGo_keeps
    | with_reducible apply State.rcsWrite_keeps
    | with_reducible apply State.keeps_ite
    | with_reducible apply okeeps_ite
    | with_reducible apply okeeps_next

theorem State.poolUpdate_keeps (s : State) (hκ : ρ.Keeps κ s) :
    ρ.Keeps κ (State.poolUpdate s) := by
  unfold State.poolUpdate
  extract_lets new old keep
  refine State.keeps_ite hκ (State.keeps_ite ?_ (State.setBit_keeps _ _ _ (State.wf_keeps _ _ _ _ _ hκ)))
  exact State.keeps_buf_threads hκ _ _ (Mem.filter_wf _)
    fun _ => SMap.fold_wf _ (fun e : Nat × Thread => e.1) (fun _ e => { e.2 with furrow := {} }) rfl

theorem State.updateWrite_keeps (s : State) (v : Word) (hκ : ρ.Keeps κ s) :
    ρ.Keeps κ (State.updateWrite s v) := by
  unfold State.updateWrite
  repeat' first
    | intro _
    | with_reducible assumption
    | with_reducible apply State.bump_keeps
    | with_reducible apply State.applyGroups_keeps
    | with_reducible apply State.poolUpdate_keeps
    | with_reducible apply State.keeps_ite

theorem execGlbUpdate_keeps (who : Req) (v : Word) (s : State) (hκ : ρ.Keeps κ s) :
    OKeeps κ ρ (execGlbUpdate who v s) := by
  unfold execGlbUpdate
  repeat' first
    | intro _
    | with_reducible assumption
    | with_reducible apply regGuarded_keeps
    | with_reducible apply State.updateWrite_keeps

end Sys2Proof.Machine
end

