-- ==== Sys2Proof/Laws/KVault.lean ====
section
/-! SUPPORT. What the changes of state in Machine/Vault.lean keep. -/

namespace Sys2Proof.Machine

variable {κ : Kept} {ρ : State}

theorem State.seedCopy_keeps (s : State) (src dst n : Nat) (hκ : ρ.Keeps κ s) :
    ρ.Keeps κ (State.seedCopy s src dst n) := by
  unfold State.seedCopy
  repeat' first
    | intro _
    | with_reducible assumption
    | with_reducible apply State.seedPut_keeps
    | with_reducible apply Mem.filter_wf
    | with_reducible apply SMap.filter_wf
    | dsimp only
    | split
    | with_reducible apply State.keeps_seed_errs

theorem State.badAcc_keeps (s : State) (hκ : ρ.Keeps κ s) :
    ρ.Keeps κ (State.badAcc s) := by
  unfold State.badAcc
  repeat' first
    | intro _
    | with_reducible assumption
    | with_reducible apply State.setBit_keeps
    | with_reducible apply State.bump_keeps

theorem State.vaultGet_keeps (s : State) (off len : Nat) (hκ : ρ.Keeps κ s) :
    ρ.Keeps κ (State.vaultGet s off len) := by
  unfold State.vaultGet
  repeat' first
    | intro _
    | with_reducible assumption
    | with_reducible apply State.report_keeps
    | with_reducible apply State.aer_keeps
    | with_reducible apply State.badAcc_keeps
    | with_reducible apply State.keeps_ite
    | with_reducible apply okeeps_ite
    | dsimp only
    | split
    | with_reducible apply State.keeps_reply

theorem execVaultRead_keeps (fn off len : Nat) (s : State) (hκ : ρ.Keeps κ s) :
    OKeeps κ ρ (execVaultRead fn off len s) := by
  unfold execVaultRead
  repeat' first
    | intro _
    | with_reducible assumption
    | with_reducible apply fin_keeps
    | with_reducible apply State.unserved_keeps
    | with_reducible apply State.replyUr_keeps
    | with_reducible apply State.vaultGet_keeps
    | with_reducible apply State.keeps_ite
    | with_reducible apply okeeps_ite
    | with_reducible apply okeeps_next
    | dsimp only
    | split
    | with_reducible apply State.keeps_reply

theorem State.stageBlock_keeps (s : State) (b : Nat) (hκ : ρ.Keeps κ s) :
    ρ.Keeps κ (State.stageBlock s b) := by
  unfold State.stageBlock
  repeat' first
    | intro _
    | with_reducible assumption
    | with_reducible apply State.wf_keeps
    | with_reducible apply State.seedCopy_keeps
    | dsimp only
    | split
    | with_reducible apply State.keeps_vstage

theorem State.vaultPut_keeps (s : State) (off : Nat) (d : Bytes) (hκ : ρ.Keeps κ s) :
    ρ.Keeps κ (State.vaultPut s off d) := by
  unfold State.vaultPut
  repeat' first
    | intro _
    | with_reducible assumption
    | with_reducible apply State.setBit_keeps
    | with_reducible apply State.seedPut_keeps
    | with_reducible apply State.badAcc_keeps
    | with_reducible apply State.stageBlock_keeps
    | with_reducible apply State.keeps_ite
    | with_reducible apply okeeps_ite
    | with_reducible apply State.keeps_getD
    | dsimp only
    | split
    | with_reducible apply State.keeps_vstage_vover

theorem execVaultWrite_keeps (fn off : Nat) (data : Bytes) (s : State) (hκ : ρ.Keeps κ s) :
    OKeeps κ ρ (execVaultWrite fn off data s) := by
  unfold execVaultWrite
  repeat' first
    | intro _
    | with_reducible assumption
    | with_reducible apply fin_keeps
    | with_reducible apply State.unserved_keeps
    | with_reducible apply State.vaultPut_keeps
    | with_reducible apply State.keeps_ite
    | with_reducible apply okeeps_ite
    | with_reducible apply okeeps_next
    | dsimp only
    | split

theorem State.vaultOpen_keeps (s : State) (hκ : ρ.Keeps κ s) :
    ρ.Keeps κ (State.vaultOpen s) := by
  unfold State.vaultOpen
  repeat' first
    | intro _
    | with_reducible assumption
    | with_reducible apply State.setReg_keeps
    | with_reducible apply State.keeps_ite
    | with_reducible apply okeeps_ite
    | dsimp only
    | split
    | with_reducible apply State.keeps_vstage_vover

theorem State.vaultDrop_keeps (s : State) (hκ : ρ.Keeps κ s) :
    ρ.Keeps κ (State.vaultDrop s) := by
  unfold State.vaultDrop
  repeat' first
    | intro _
    | with_reducible assumption
    | with_reducible apply State.setReg_keeps
    | with_reducible apply State.bump_keeps
    | with_reducible apply State.keeps_ite
    | with_reducible apply okeeps_ite
    | dsimp only
    | split
    | with_reducible apply State.keeps_vstage_vover

theorem State.vaultLost_keeps (s : State) (hκ : ρ.Keeps κ s) :
    ρ.Keeps κ (State.vaultLost s) := by
  unfold State.vaultLost
  repeat' first
    | intro _
    | with_reducible assumption
    | with_reducible apply State.setBit_keeps
    | with_reducible apply State.vaultDrop_keeps
    | with_reducible apply State.keeps_ite

theorem State.vaultCommit_keeps (s : State) (hκ : ρ.Keeps κ s) :
    ρ.Keeps κ (State.vaultCommit s) := by
  unfold State.vaultCommit
  repeat' first
    | intro _
    | with_reducible assumption
    | with_reducible apply State.wf_keeps
    | with_reducible apply State.setBit_keeps
    | with_reducible apply State.seedPut_keeps
    | with_reducible apply State.jIssue_keeps
    | with_reducible apply State.keeps_ite

theorem State.vctlWrite_keeps (s : State) (v : Word) (hκ : ρ.Keeps κ s) :
    ρ.Keeps κ (State.vctlWrite s v) := by
  unfold State.vctlWrite
  repeat' first
    | intro _
    | with_reducible assumption
    | with_reducible apply State.wb_keeps
    | with_reducible apply State.vaultOpen_keeps
    | with_reducible apply State.vaultDrop_keeps
    | with_reducible apply State.vaultCommit_keeps
    | with_reducible apply State.keeps_ite

theorem execVaultOpen_keeps (who : Req) (s : State) (hκ : ρ.Keeps κ s) :
    OKeeps κ ρ (execVaultOpen who s) := by
  unfold execVaultOpen
  repeat' first
    | intro _
    | with_reducible assumption
    | with_reducible apply regGuarded_keeps
    | with_reducible apply State.vctlWrite_keeps

theorem execVaultCommit_keeps (who : Req) (check : Option Bool) (s : State) (hκ : ρ.Keeps κ s) :
    OKeeps κ ρ (execVaultCommit who check s) := by
  unfold execVaultCommit
  repeat' first
    | intro _
    | with_reducible assumption
    | with_reducible apply regGuarded_keeps
    | with_reducible apply State.vctlWrite_keeps

theorem execVaultAbort_keeps (who : Req) (s : State) (hκ : ρ.Keeps κ s) :
    OKeeps κ ρ (execVaultAbort who s) := by
  unfold execVaultAbort
  repeat' first
    | intro _
    | with_reducible assumption
    | with_reducible apply regGuarded_keeps
    | with_reducible apply State.vctlWrite_keeps

theorem State.vaultDone_keeps (s : State) (hκ : ρ.Keeps κ s) :
    ρ.Keeps κ (State.vaultDone s) := by
  unfold State.vaultDone
  repeat' first
    | intro _
    | with_reducible assumption
    | with_reducible apply State.jIssue_keeps

theorem State.vaultHome_keeps (s : State) (hκ : ρ.Keeps κ s) :
    ρ.Keeps κ (State.vaultHome s) := by
  unfold State.vaultHome
  repeat' first
    | intro _
    | with_reducible assumption
    | with_reducible apply State.seedCopy_keeps
    | with_reducible apply State.keeps_fold

theorem execVaultCopyDone_keeps (s : State) (hκ : ρ.Keeps κ s) :
    OKeeps κ ρ (execVaultCopyDone s) := by
  unfold execVaultCopyDone
  repeat' first
    | intro _
    | with_reducible assumption
    | with_reducible apply fin_keeps
    | with_reducible apply State.vaultDone_keeps
    | with_reducible apply State.vaultHome_keeps
    | with_reducible apply State.keeps_ite
    | with_reducible apply okeeps_ite
    | with_reducible apply okeeps_next

end Sys2Proof.Machine
end

