-- ==== Sys2Proof/Laws/KPower.lean ====
section
/-! SUPPORT. What the changes of state in Machine/Power.lean keep. -/

namespace Sys2Proof.Machine

variable {κ : Kept} {ρ : State}

theorem State.setPdom_keeps (s : State) (d st : Nat) (hκ : ρ.Keeps κ s) :
    ρ.Keeps κ (State.setPdom s d st) := by
  unfold State.setPdom
  repeat' first
    | intro _
    | with_reducible assumption
    | with_reducible apply State.wf_keeps

theorem State.withdrawChan_keeps (s : State) (c : Nat) (hκ : ρ.Keeps κ s) :
    ρ.Keeps κ (State.withdrawChan s c) := by
  unfold State.withdrawChan
  repeat' first
    | intro _
    | with_reducible assumption
    | with_reducible apply State.endXfer_keeps
    | with_reducible apply State.chCode_keeps
    | with_reducible apply State.keeps_ite
    | with_reducible apply okeeps_ite
    | dsimp only
    | split

theorem State.drainKp_keeps (s : State) (p : Nat) (hκ : ρ.Keeps κ s) :
    ρ.Keeps κ (State.drainKp s p) := by
  unfold State.drainKp
  repeat' first
    | intro _
    | with_reducible assumption
    | with_reducible apply State.lbStop_keeps
    | with_reducible apply State.withdrawChain_keeps
    | with_reducible apply State.withdrawChan_keeps
    | with_reducible apply State.keeps_fold

theorem State.drainTg_keeps (s : State) (g : Nat) (hκ : ρ.Keeps κ s) :
    ρ.Keeps κ (State.drainTg s g) := by
  unfold State.drainTg
  repeat' first
    | intro _
    | with_reducible assumption
    | with_reducible apply State.abortDisps_keeps
    | with_reducible apply State.stopThread_keeps
    | with_reducible apply State.withdrawChain_keeps
    | with_reducible apply State.keeps_ite
    | with_reducible apply okeeps_ite
    | with_reducible apply State.keeps_fold
    | dsimp only
    | split

theorem State.drain_keeps (s : State) (d : Nat) (hκ : ρ.Keeps κ s) :
    ρ.Keeps κ (State.drain s d) := by
  unfold State.drain
  repeat' first
    | intro _
    | with_reducible assumption
    | with_reducible apply State.withdrawHalf_keeps
    | with_reducible apply State.drainKp_keeps
    | with_reducible apply State.drainTg_keeps
    | with_reducible apply State.keeps_ite

theorem State.unitOff_keeps (s : State) (d : Nat) (hκ : ρ.Keeps κ s) :
    ρ.Keeps κ (State.unitOff s d) := by
  unfold State.unitOff
  repeat' first
    | intro _
    | with_reducible assumption
    | with_reducible apply State.portDown_keeps
    | with_reducible apply State.keeps_ite
    | with_reducible apply okeeps_ite
    | with_reducible apply Mem.drop_wf
    | dsimp only
    | split
    | with_reducible apply State.keeps_tmem_tpriv

theorem State.domOff_keeps (s : State) (d : Nat) (hκ : ρ.Keeps κ s) :
    ρ.Keeps κ (State.domOff s d) := by
  unfold State.domOff
  repeat' first
    | intro _
    | with_reducible assumption
    | with_reducible apply State.setPdom_keeps
    | with_reducible apply State.unitOff_keeps

theorem execDomainOff_keeps (d : Nat) (s : State) (hκ : ρ.Keeps κ s) :
    OKeeps κ ρ (execDomainOff d s) := by
  unfold execDomainOff
  repeat' first
    | intro _
    | with_reducible assumption
    | with_reducible apply fin_keeps
    | with_reducible apply State.domOff_keeps
    | with_reducible apply State.keeps_ite
    | with_reducible apply okeeps_ite
    | with_reducible apply okeeps_next

theorem State.forceOut_keeps (s : State) (d : Nat) (hκ : ρ.Keeps κ s) :
    ρ.Keeps κ (State.forceOut s d) := by
  unfold State.forceOut
  repeat' first
    | intro _
    | with_reducible assumption
    | with_reducible apply State.modChan_keeps
    | with_reducible apply State.closeEx_keeps
    | with_reducible apply State.unbind_keeps
    | with_reducible apply State.endXfer_keeps
    | with_reducible apply State.freeThreadOf_keeps
    | with_reducible apply State.fixStatus_keeps
    | with_reducible apply State.dscFinish_keeps
    | with_reducible apply State.unconfirm_keeps
    | with_reducible apply State.slot_keeps
    | with_reducible apply State.keeps_ite
    | with_reducible apply okeeps_ite
    | with_reducible apply State.keeps_fold
    | dsimp only
    | split

theorem execDrainTimeout_keeps (d : Nat) (s : State) (hκ : ρ.Keeps κ s) :
    OKeeps κ ρ (execDrainTimeout d s) := by
  unfold execDrainTimeout
  repeat' first
    | intro _
    | with_reducible assumption
    | with_reducible apply State.setBit_keeps
    | with_reducible apply State.bump_keeps
    | with_reducible apply fin_keeps
    | with_reducible apply State.domOff_keeps
    | with_reducible apply State.forceOut_keeps
    | with_reducible apply State.keeps_ite
    | with_reducible apply okeeps_ite
    | with_reducible apply okeeps_next

theorem State.domDown_keeps (s : State) (d : Nat) (hκ : ρ.Keeps κ s) :
    ρ.Keeps κ (State.domDown s d) := by
  unfold State.domDown
  repeat' first
    | intro _
    | with_reducible assumption
    | with_reducible apply State.wb_keeps
    | with_reducible apply State.setBit_keeps
    | with_reducible apply State.setPdom_keeps
    | with_reducible apply State.drain_keeps
    | with_reducible apply State.domOff_keeps
    | with_reducible apply State.keeps_ite

theorem State.bistAbort_keeps (s : State) (d : Nat) (hκ : ρ.Keeps κ s) :
    ρ.Keeps κ (State.bistAbort s d) := by
  unfold State.bistAbort
  repeat' first
    | intro _
    | with_reducible assumption
    | with_reducible apply State.wf_keeps
    | with_reducible apply State.keeps_ite

theorem State.domUp_keeps (s : State) (d : Nat) (hκ : ρ.Keeps κ s) :
    ρ.Keeps κ (State.domUp s d) := by
  unfold State.domUp
  repeat' first
    | intro _
    | with_reducible assumption
    | with_reducible apply State.wb_keeps
    | with_reducible apply State.setPdom_keeps
    | with_reducible apply State.bistAbort_keeps
    | with_reducible apply State.keeps_ite

theorem State.pdomWrite_keeps (s : State) (v : Word) (hκ : ρ.Keeps κ s) :
    ρ.Keeps κ (State.pdomWrite s v) := by
  unfold State.pdomWrite
  repeat' first
    | intro _
    | with_reducible assumption
    | with_reducible apply State.domDown_keeps
    | with_reducible apply State.domUp_keeps
    | with_reducible apply State.keeps_ite
    | with_reducible apply okeeps_ite
    | with_reducible apply State.keeps_fold

theorem execDomainPowerDown_keeps (who : Req) (d : Nat) (s : State) (hκ : ρ.Keeps κ s) :
    OKeeps κ ρ (execDomainPowerDown who d s) := by
  unfold execDomainPowerDown
  repeat' first
    | intro _
    | with_reducible assumption
    | with_reducible apply regGuarded_keeps
    | with_reducible apply State.pdomWrite_keeps
    | with_reducible apply State.keeps_ite
    | with_reducible apply okeeps_ite
    | with_reducible apply okeeps_next

theorem execDomainPowerUp_keeps (who : Req) (d : Nat) (s : State) (hκ : ρ.Keeps κ s) :
    OKeeps κ ρ (execDomainPowerUp who d s) := by
  unfold execDomainPowerUp
  repeat' first
    | intro _
    | with_reducible assumption
    | with_reducible apply regGuarded_keeps
    | with_reducible apply State.pdomWrite_keeps
    | with_reducible apply State.keeps_ite
    | with_reducible apply okeeps_ite
    | with_reducible apply okeeps_next

theorem State.unfence_keeps (s : State) (d : Nat) (hκ : ρ.Keeps κ s) :
    ρ.Keeps κ (State.unfence s d) := by
  unfold State.unfence
  repeat' first
    | intro _
    | with_reducible assumption
    | with_reducible apply State.wf_keeps
    | with_reducible apply State.wb_keeps
    | with_reducible apply State.keeps_ite

theorem State.copyTiller_keeps (s : State) (src dst : Nat) (hκ : ρ.Keeps κ s) :
    ρ.Keeps κ (State.copyTiller s src dst) := by
  unfold State.copyTiller
  repeat' first
    | intro _
    | with_reducible assumption
    | with_reducible apply Mem.copyRange_wf
    | dsimp only
    | split
    | with_reducible apply State.keeps_tmem

theorem State.imageTiller_keeps (s : State) (T : Nat) (hκ : ρ.Keeps κ s) :
    ρ.Keeps κ (State.imageTiller s T) := by
  unfold State.imageTiller
  repeat' first
    | intro _
    | with_reducible assumption
    | with_reducible apply State.keeps_fold
    | with_reducible apply Mem.drop_wf
    | with_reducible apply Mem.copyRange_wf
    | dsimp only
    | split
    | with_reducible apply State.keeps_seed
    | with_reducible apply State.keeps_tmem

theorem State.loadGroup_keeps (s : State) (g : Nat) (hκ : ρ.Keeps κ s) :
    ρ.Keeps κ (State.loadGroup s g) := by
  unfold State.loadGroup
  repeat' first
    | intro _
    | with_reducible assumption
    | with_reducible apply State.addErr_keeps
    | with_reducible apply State.injDone_keeps
    | with_reducible apply State.copyTiller_keeps
    | with_reducible apply State.imageTiller_keeps
    | with_reducible apply State.keeps_ite
    | with_reducible apply okeeps_ite
    | with_reducible apply State.keeps_fold
    | with_reducible apply Mem.filter_wf
    | with_reducible apply SMap.filter_wf
    | dsimp only
    | split
    | with_reducible apply State.keeps_errs

theorem State.domOn_keeps (s : State) (d : Nat) (hκ : ρ.Keeps κ s) :
    ρ.Keeps κ (State.domOn s d) := by
  unfold State.domOn
  repeat' first
    | intro _
    | with_reducible assumption
    | with_reducible apply State.wf_keeps
    | with_reducible apply State.teStat_keeps
    | with_reducible apply State.trainPort_keeps
    | with_reducible apply State.setPdom_keeps
    | with_reducible apply State.unfence_keeps
    | with_reducible apply State.loadGroup_keeps
    | with_reducible apply State.keeps_ite
    | with_reducible apply okeeps_ite
    | with_reducible apply Mem.filter_wf
    | with_reducible apply SMap.filter_wf
    | dsimp only
    | split
    | with_reducible apply State.keeps_threads

theorem execDomainPowered_keeps (d : Nat) (s : State) (hκ : ρ.Keeps κ s) :
    OKeeps κ ρ (execDomainPowered d s) := by
  unfold execDomainPowered
  repeat' first
    | intro _
    | with_reducible assumption
    | with_reducible apply fin_keeps
    | with_reducible apply State.domOn_keeps
    | with_reducible apply State.keeps_ite
    | with_reducible apply okeeps_ite
    | with_reducible apply okeeps_next

end Sys2Proof.Machine
end

