-- ==== Sys2Proof/Laws/KImageUpdate.lean ====
section
/-! SUPPORT. What the changes of state in Machine/ImageUpdate.lean keep. -/

namespace Sys2Proof.Machine

variable {κ : Kept} {ρ : State}

theorem flashCells_wf (a : Nat) (b : Bytes) :
    SMap.wfFrom memErased a (flashCells a b) = true ∧ ∀ e ∈ flashCells a b, e.1 < a + b.length := by
  induction b generalizing a with
  | nil => exact ⟨rfl, by simp [flashCells]⟩
  | cons x b ih =>
    have h := ih (a + 1)
    simp only [flashCells, List.length_cons]
    split
    · exact ⟨SMap.wfFrom_mono _ (Nat.le_succ a) h.1, fun e he => by have := h.2 e he; omega⟩
    · rename_i hx
      refine ⟨?_, ?_⟩
      · simp only [SMap.wfFrom, Bool.and_eq_true, decide_eq_true_eq]
        exact ⟨⟨Nat.le_refl a, hx⟩, h.1⟩
      · intro e he
        simp only [List.mem_cons] at he
        rcases he with rfl | he
        · simp only; omega
        · have := h.2 e he; omega

theorem flashPut_wf {m : Mem} (w : SMap.wf memErased m = true) (a : Nat) (b : Bytes) :
    SMap.wf memErased (m.filter (fun e => decide (e.1 < a)) ++ flashCells a b ++ m.filter fun e => decide (a + b.length ≤ e.1)) = true := by
  have h := flashCells_wf a b
  rw [List.append_assoc]
  refine SMap.append_wfFrom _ _ 0 a (SMap.filter_wf _ w) ?_ (Nat.zero_le a) fun e he => by simpa using (List.mem_filter.mp he).2
  refine SMap.append_wfFrom _ _ a (a + b.length) h.1 ?_ (Nat.le_add_right _ _) h.2
  exact SMap.filter_from _ 0 _ _ (fun e he => by simpa using he) w

theorem State.flashPut_keeps (s : State) (a : Nat) (b : Bytes) (hκ : ρ.Keeps κ s) (hf : κ.flash = false) :
    ρ.Keeps κ (State.flashPut s a b) := by
  unfold State.flashPut
  exact State.keeps_flash hκ _ (fun w => flashPut_wf w a b) hf

theorem State.flashLost_keeps (s : State) (copy a n : Nat) (hκ : ρ.Keeps κ s) (hf : κ.flash = false) :
    ρ.Keeps κ (State.flashLost s copy a n) := by
  unfold State.flashLost
  extract_lets bs s1 s2
  have h1 : ρ.Keeps κ s1 := State.keeps_freeCtr hκ _ (Nat.le_add_right _ _)
  exact State.keeps_ite (State.flashPut_keeps _ _ _ h1 hf) (State.flashPut_keeps _ _ _ h1 hf)

theorem State.suStep_keeps (s : State) (st : Nat) (hκ : ρ.Keeps κ s) :
    ρ.Keeps κ (State.suStep s st) := by
  unfold State.suStep
  repeat' first
    | intro _
    | with_reducible assumption
    | with_reducible apply State.wf_keeps
    | with_reducible apply TArg.upd_keeps
    | dsimp only
    | split
    | with_reducible apply State.keeps_upd

theorem State.suDone_keeps (s : State) (pos : Nat) (hκ : ρ.Keeps κ s) :
    ρ.Keeps κ (State.suDone s pos) := by
  unfold State.suDone
  repeat' first
    | intro _
    | with_reducible assumption
    | with_reducible apply State.wf_keeps
    | with_reducible apply TArg.upd_keeps
    | dsimp only
    | split
    | with_reducible apply State.keeps_upd

theorem State.suFail_keeps (s : State) (code : Nat) (hκ : ρ.Keeps κ s) :
    ρ.Keeps κ (State.suFail s code) := by
  unfold State.suFail
  repeat' first
    | intro _
    | with_reducible assumption
    | with_reducible apply State.wf_keeps
    | with_reducible apply State.readOver_keeps
    | dsimp only
    | split
    | with_reducible apply State.keeps_upd

theorem State.suRead_keeps (s : State) (off : Nat) (hκ : ρ.Keeps κ s) :
    ρ.Keeps κ (State.suRead s off) := by
  unfold State.suRead
  repeat' first
    | intro _
    | with_reducible assumption
    | with_reducible apply State.hostRead_keeps
    | with_reducible apply State.suFail_keeps
    | with_reducible apply State.keeps_ite

theorem State.spiAbort_keeps (s : State) (hκ : ρ.Keeps κ s) :
    ρ.Keeps κ (State.spiAbort s) := by
  unfold State.spiAbort
  repeat' first
    | intro _
    | with_reducible assumption
    | with_reducible apply State.wf_keeps
    | with_reducible apply State.keeps_ite

theorem State.suGo_keeps (s : State) (hκ : ρ.Keeps κ s) :
    ρ.Keeps κ (State.suGo s) := by
  unfold State.suGo
  repeat' first
    | intro _
    | with_reducible assumption
    | with_reducible apply State.setReg_keeps
    | with_reducible apply State.wf_keeps
    | with_reducible apply State.suStep_keeps
    | with_reducible apply State.suRead_keeps
    | with_reducible apply State.spiAbort_keeps
    | with_reducible apply State.keeps_ite
    | with_reducible apply okeeps_ite
    | dsimp only
    | split
    | with_reducible apply State.keeps_upd_bgCheck

theorem State.suAbort_keeps (s : State) (hκ : ρ.Keeps κ s) :
    ρ.Keeps κ (State.suAbort s) := by
  unfold State.suAbort
  repeat' first
    | intro _
    | with_reducible assumption
    | with_reducible apply TArg.upd_keeps
    | with_reducible apply State.suFail_keeps
    | with_reducible apply State.keeps_ite
    | with_reducible apply okeeps_ite
    | dsimp only
    | split
    | with_reducible apply State.keeps_upd

theorem State.suWrite_keeps (s : State) (v : Word) (hκ : ρ.Keeps κ s) :
    ρ.Keeps κ (State.suWrite s v) := by
  unfold State.suWrite
  repeat' first
    | intro _
    | with_reducible assumption
    | with_reducible apply State.suGo_keeps
    | with_reducible apply State.suAbort_keeps
    | with_reducible apply State.keeps_ite

theorem execImageUpdate_keeps (who : Req) (s : State) (hκ : ρ.Keeps κ s) :
    OKeeps κ ρ (execImageUpdate who s) := by
  unfold execImageUpdate
  repeat' first
    | intro _
    | with_reducible assumption
    | with_reducible apply regGuarded_keeps
    | with_reducible apply State.suWrite_keeps

theorem execImageUpdateAbort_keeps (who : Req) (s : State) (hκ : ρ.Keeps κ s) :
    OKeeps κ ρ (execImageUpdateAbort who s) := by
  unfold execImageUpdateAbort
  repeat' first
    | intro _
    | with_reducible assumption
    | with_reducible apply regGuarded_keeps
    | with_reducible apply State.suWrite_keeps

theorem State.suReadFailed_keeps (s : State) (hκ : ρ.Keeps κ s) :
    ρ.Keeps κ (State.suReadFailed s) := by
  unfold State.suReadFailed
  repeat' first
    | intro _
    | with_reducible assumption
    | with_reducible apply State.suFail_keeps
    | with_reducible apply State.keeps_ite

theorem State.suGot_keeps (s : State) (d : Bytes) (hκ : ρ.Keeps κ s) :
    ρ.Keeps κ (State.suGot s d) := by
  unfold State.suGot
  repeat' first
    | intro _
    | with_reducible assumption
    | with_reducible apply TArg.upd_keeps
    | with_reducible apply State.suStep_keeps
    | with_reducible apply State.suDone_keeps
    | with_reducible apply State.suFail_keeps
    | with_reducible apply State.suRead_keeps
    | with_reducible apply State.keeps_ite
    | with_reducible apply okeeps_ite
    | with_reducible apply State.keeps_getD
    | dsimp only
    | split
    | with_reducible apply State.keeps_upd

theorem execUpdateImageReadDone_keeps (data : Bytes) (err : RdErr) (s : State) (hκ : ρ.Keeps κ s) :
    OKeeps κ ρ (execUpdateImageReadDone data err s) := by
  unfold execUpdateImageReadDone
  repeat' first
    | intro _
    | with_reducible assumption
    | with_reducible apply State.readOver_keeps
    | with_reducible apply fin_keeps
    | with_reducible apply State.readError_keeps
    | with_reducible apply State.suReadFailed_keeps
    | with_reducible apply State.suGot_keeps
    | with_reducible apply State.hostIn_keeps
    | with_reducible apply State.keeps_ite
    | with_reducible apply okeeps_ite
    | with_reducible apply okeeps_next

theorem State.suErased_keeps (s : State) (hκ : ρ.Keeps κ s) (hf : κ.flash = false) :
    ρ.Keeps κ (State.suErased s) := by
  unfold State.suErased
  extract_lets s1
  have h1 : ρ.Keeps κ s1 := State.suDone_keeps _ _ (State.keeps_flash hκ _ (fun w => SMap.filter_wf _ w) hf)
  exact State.keeps_ite h1 (State.suRead_keeps _ _ (State.suDone_keeps _ _ (State.suStep_keeps _ _ h1)))

theorem State.suProgrammed_keeps (s : State) (hκ : ρ.Keeps κ s) (hf : κ.flash = false) :
    ρ.Keeps κ (State.suProgrammed s) := by
  unfold State.suProgrammed
  repeat' first
    | intro _
    | with_reducible assumption
    | with_reducible apply TArg.upd_keeps
    | with_reducible apply State.flashPut_keeps
    | with_reducible apply State.suStep_keeps
    | with_reducible apply State.suDone_keeps
    | with_reducible apply State.suRead_keeps
    | with_reducible apply State.keeps_ite
    | with_reducible apply okeeps_ite
    | with_reducible apply Mem.drop_wf
    | dsimp only
    | split
    | with_reducible apply State.keeps_upd

theorem State.suChecked_keeps (s : State) (hκ : ρ.Keeps κ s) :
    ρ.Keeps κ (State.suChecked s) := by
  unfold State.suChecked
  repeat' first
    | intro _
    | with_reducible assumption
    | with_reducible apply TArg.upd_keeps
    | with_reducible apply State.suStep_keeps
    | with_reducible apply State.suDone_keeps
    | with_reducible apply State.suFail_keeps
    | with_reducible apply State.keeps_ite

theorem State.suHeaderDone_keeps (s : State) (hκ : ρ.Keeps κ s) (hf : κ.flash = false) :
    ρ.Keeps κ (State.suHeaderDone s) := by
  unfold State.suHeaderDone
  repeat' first
    | intro _
    | with_reducible assumption
    | with_reducible apply TArg.upd_keeps
    | with_reducible apply State.flashPut_keeps
    | with_reducible apply State.suStep_keeps
    | with_reducible apply State.suDone_keeps
    | with_reducible apply State.suFail_keeps
    | with_reducible apply State.keeps_ite
    | with_reducible apply okeeps_ite
    | with_reducible apply Mem.drop_wf
    | dsimp only
    | split
    | with_reducible apply State.keeps_upd

theorem execFlashOpDone_keeps (s : State) (hκ : ρ.Keeps κ s) (hf : κ.flash = false) :
    OKeeps κ ρ (execFlashOpDone s) := by
  unfold execFlashOpDone
  repeat' first
    | intro _
    | with_reducible assumption
    | with_reducible apply fin_keeps
    | with_reducible apply TArg.upd_keeps
    | with_reducible apply State.suFail_keeps
    | with_reducible apply State.suErased_keeps
    | with_reducible apply State.suProgrammed_keeps
    | with_reducible apply State.suChecked_keeps
    | with_reducible apply State.suHeaderDone_keeps
    | with_reducible apply State.keeps_ite
    | with_reducible apply okeeps_ite
    | with_reducible apply okeeps_next
    | dsimp only
    | split

theorem execFlashTimeout_keeps (s : State) (hκ : ρ.Keeps κ s) (hf : κ.flash = false) :
    OKeeps κ ρ (execFlashTimeout s) := by
  unfold execFlashTimeout
  repeat' first
    | intro _
    | with_reducible assumption
    | with_reducible apply fin_keeps
    | with_reducible apply TArg.upd_keeps
    | with_reducible apply State.flashLost_keeps
    | with_reducible apply State.suFail_keeps
    | with_reducible apply State.keeps_ite
    | with_reducible apply okeeps_ite
    | with_reducible apply okeeps_next

theorem execBackgroundCheckDone_keeps (s : State) (hκ : ρ.Keeps κ s) :
    OKeeps κ ρ (execBackgroundCheckDone s) := by
  unfold execBackgroundCheckDone
  repeat' first
    | intro _
    | with_reducible assumption
    | with_reducible apply State.wb_keeps
    | with_reducible apply fin_keeps
    | with_reducible apply State.keeps_ite
    | with_reducible apply okeeps_ite
    | with_reducible apply okeeps_next
    | dsimp only
    | split
    | with_reducible apply State.keeps_bgCheck

end Sys2Proof.Machine
end

