-- ==== Sys2Proof/Laws/KHostPort.lean ====
section
/-! SUPPORT. What the changes of state in Machine/HostPort.lean keep. -/

namespace Sys2Proof.Machine

variable {κ : Kept} {ρ : State}

theorem State.failRead_keeps (s : State) (r : ReadReq) (err : RdErr) (hκ : ρ.Keeps κ s) :
    ρ.Keeps κ (State.failRead s r err) := by
  unfold State.failRead
  repeat' first
    | intro _
    | with_reducible assumption
    | with_reducible apply State.modThread_keeps
    | with_reducible apply State.setXfer_keeps
    | with_reducible apply State.endChain_keeps
    | with_reducible apply State.reread_keeps
    | with_reducible apply State.readOver_keeps
    | with_reducible apply State.orphaned_keeps
    | with_reducible apply State.readError_keeps
    | with_reducible apply State.entryFailed_keeps
    | with_reducible apply State.wordsFailed_keeps
    | with_reducible apply State.gotAhead_keeps
    | with_reducible apply State.doTrap_keeps
    | with_reducible apply State.readFailed_keeps
    | with_reducible apply State.suReadFailed_keeps
    | with_reducible apply State.keeps_ite
    | with_reducible apply okeeps_ite
    | dsimp only
    | split

theorem execCompletionTimeout_keeps (r : Nat) (s : State) (hκ : ρ.Keeps κ s) :
    OKeeps κ ρ (execCompletionTimeout r s) := by
  unfold execCompletionTimeout
  repeat' first
    | intro _
    | with_reducible assumption
    | with_reducible apply fin_keeps
    | with_reducible apply State.failRead_keeps
    | with_reducible apply State.keeps_ite
    | with_reducible apply okeeps_ite
    | with_reducible apply okeeps_next
    | dsimp only
    | split

theorem State.dropReplies_keeps (s : State) (sc : Nat) (hκ : ρ.Keeps κ s) :
    ρ.Keeps κ (State.dropReplies s sc) := by
  unfold State.dropReplies
  repeat' first
    | intro _
    | with_reducible assumption
    | with_reducible apply State.modChain_keeps
    | with_reducible apply State.setRsv_keeps
    | with_reducible apply State.cleared_keeps
    | with_reducible apply State.keeps_ite
    | with_reducible apply okeeps_ite
    | with_reducible apply State.keeps_fold
    | with_reducible apply Mem.filter_wf
    | with_reducible apply SMap.filter_wf
    | dsimp only
    | split
    | with_reducible apply State.keeps_jpend

theorem State.resetSc_keeps (s : State) (sc : Nat) (hκ : ρ.Keeps κ s) :
    ρ.Keeps κ (State.resetSc s sc) := by
  unfold State.resetSc
  repeat' first
    | intro _
    | with_reducible assumption
    | with_reducible apply State.clearSc_keeps
    | with_reducible apply State.dropReplies_keeps
    | with_reducible apply State.keeps_ite

theorem State.resetChan_keeps (s : State) (c : Nat) (hκ : ρ.Keeps κ s) :
    ρ.Keeps κ (State.resetChan s c) := by
  unfold State.resetChan
  repeat' first
    | intro _
    | with_reducible assumption
    | with_reducible apply State.wf_keeps
    | with_reducible apply State.wb_keeps
    | with_reducible apply State.modChan_keeps
    | with_reducible apply State.chAbort_keeps
    | with_reducible apply State.keeps_ite

theorem State.resetQueue_keeps (s : State) (q : Nat) (hκ : ρ.Keeps κ s) :
    ρ.Keeps κ (State.resetQueue s q) := by
  unfold State.resetQueue
  repeat' first
    | intro _
    | with_reducible assumption
    | with_reducible apply State.modQueue_keeps
    | with_reducible apply State.dropPrefetch_keeps
    | with_reducible apply State.cqOff_keeps

theorem State.resetFn_keeps (s : State) (fn : Nat) (flr : Bool) (hκ : ρ.Keeps κ s) :
    ρ.Keeps κ (State.resetFn s fn flr) := by
  unfold State.resetFn
  repeat' first
    | intro _
    | with_reducible assumption
    | with_reducible apply State.setFnc_keeps
    | with_reducible apply State.modFnc_keeps
    | with_reducible apply State.readDrop_keeps
    | with_reducible apply State.vaultLost_keeps
    | with_reducible apply State.suAbort_keeps
    | with_reducible apply State.failRead_keeps
    | with_reducible apply State.resetSc_keeps
    | with_reducible apply State.resetChan_keeps
    | with_reducible apply State.resetQueue_keeps
    | with_reducible apply State.keeps_ite
    | with_reducible apply okeeps_ite
    | with_reducible apply State.keeps_fold
    | with_reducible apply Mem.filter_wf
    | with_reducible apply SMap.filter_wf
    | dsimp only
    | split
    | with_reducible apply State.keeps_msix_pba

theorem State.resetVfs_keeps (s : State) (hκ : ρ.Keeps κ s) :
    ρ.Keeps κ (State.resetVfs s) := by
  unfold State.resetVfs
  repeat' first
    | intro _
    | with_reducible assumption
    | with_reducible apply State.modFnc_keeps
    | with_reducible apply State.resetFn_keeps
    | with_reducible apply State.keeps_fold

theorem State.resetPort_keeps (s : State) (hκ : ρ.Keeps κ s) :
    ρ.Keeps κ (State.resetPort s) := by
  unfold State.resetPort
  repeat' first
    | intro _
    | with_reducible assumption
    | with_reducible apply State.setBit_keeps
    | with_reducible apply State.linkUp_keeps
    | with_reducible apply State.resetFn_keeps
    | with_reducible apply State.resetVfs_keeps

theorem execPortReset_keeps (s : State) (hκ : ρ.Keeps κ s) :
    OKeeps κ ρ (execPortReset s) := by
  unfold execPortReset
  repeat' first
    | intro _
    | with_reducible assumption
    | with_reducible apply fin_keeps
    | with_reducible apply State.resetPort_keeps
    | with_reducible apply State.keeps_ite
    | with_reducible apply okeeps_ite
    | with_reducible apply okeeps_next

theorem execFunctionLevelReset_keeps (fn : Nat) (s : State) (hκ : ρ.Keeps κ s) :
    OKeeps κ ρ (execFunctionLevelReset fn s) := by
  unfold execFunctionLevelReset
  repeat' first
    | intro _
    | with_reducible assumption
    | with_reducible apply fin_keeps
    | with_reducible apply State.resetFn_keeps
    | with_reducible apply State.resetVfs_keeps
    | with_reducible apply State.keeps_ite
    | with_reducible apply okeeps_ite
    | with_reducible apply okeeps_next

theorem execVfEnableClear_keeps (s : State) (hκ : ρ.Keeps κ s) :
    OKeeps κ ρ (execVfEnableClear s) := by
  unfold execVfEnableClear
  repeat' first
    | intro _
    | with_reducible assumption
    | with_reducible apply fin_keeps
    | with_reducible apply State.resetVfs_keeps
    | with_reducible apply State.keeps_ite
    | with_reducible apply okeeps_ite
    | with_reducible apply okeeps_next

theorem execFunctionResetDone_keeps (fn : Nat) (s : State) (hκ : ρ.Keeps κ s) :
    OKeeps κ ρ (execFunctionResetDone fn s) := by
  unfold execFunctionResetDone
  repeat' first
    | intro _
    | with_reducible assumption
    | with_reducible apply State.setBit_keeps
    | with_reducible apply State.modFnc_keeps
    | with_reducible apply fin_keeps
    | with_reducible apply State.keeps_ite
    | with_reducible apply okeeps_ite
    | with_reducible apply okeeps_next

theorem execReadyTimeout_keeps (s : State) (hκ : ρ.Keeps κ s) :
    OKeeps κ ρ (execReadyTimeout s) := by
  unfold execReadyTimeout
  repeat' first
    | intro _
    | with_reducible assumption
    | with_reducible apply fin_keeps
    | with_reducible apply State.linkUp_keeps
    | with_reducible apply State.keeps_ite
    | with_reducible apply okeeps_ite
    | with_reducible apply okeeps_next
    | dsimp only
    | split
    | with_reducible apply State.keeps_hostReady

theorem State.cfgWrite_keeps (s : State) (fn : Nat) (k : CfgField) (v : Byte) (hκ : ρ.Keeps κ s) :
    ρ.Keeps κ (State.cfgWrite s fn k v) := by
  unfold State.cfgWrite
  repeat' first
    | intro _
    | with_reducible assumption
    | with_reducible apply State.modFnc_keeps
    | with_reducible apply State.sendPendings_keeps
    | with_reducible apply State.payOwed_keeps
    | with_reducible apply State.resetVfs_keeps
    | with_reducible apply State.put_keeps
    | with_reducible apply State.keeps_ite

theorem execConfigRequest_keeps (fn : Nat) (k : CfgField) (write : Bool) (v : Byte) (s : State) (hκ : ρ.Keeps κ s) :
    OKeeps κ ρ (execConfigRequest fn k write v s) := by
  unfold execConfigRequest
  repeat' first
    | intro _
    | with_reducible assumption
    | with_reducible apply fin_keeps
    | with_reducible apply State.replyUr_keeps
    | with_reducible apply State.cfgWrite_keeps
    | with_reducible apply State.keeps_ite
    | with_reducible apply okeeps_ite
    | with_reducible apply okeeps_next
    | dsimp only
    | split
    | with_reducible apply State.keeps_hostReady
    | with_reducible apply State.keeps_reply

theorem execPtmDialogue_keeps (s : State) (hκ : ρ.Keeps κ s) :
    OKeeps κ ρ (execPtmDialogue s) := by
  unfold execPtmDialogue
  repeat' first
    | intro _
    | with_reducible assumption
    | with_reducible apply State.keeps_ite
    | with_reducible apply okeeps_ite
    | with_reducible apply okeeps_next
    | dsimp only
    | split
    | with_reducible apply State.keeps_hostReady
    | with_reducible apply State.keeps_life
    | with_reducible apply State.keeps_ptmOpen

theorem State.passWaits_keeps (s : State) (hκ : ρ.Keeps κ s) :
    ρ.Keeps κ (State.passWaits s) := by
  unfold State.passWaits
  repeat' first
    | intro _
    | with_reducible assumption
    | with_reducible apply State.overrun_keeps
    | with_reducible apply State.keeps_fold

theorem State.correct_keeps (s : State) (e : Int) (hκ : ρ.Keeps κ s) :
    ρ.Keeps κ (State.correct s e) := by
  unfold State.correct
  repeat' first
    | intro _
    | with_reducible assumption
    | with_reducible apply State.wb_keeps
    | with_reducible apply State.setBit_keeps
    | with_reducible apply State.passWaits_keeps
    | with_reducible apply State.keeps_ite
    | with_reducible apply okeeps_ite
    | dsimp only
    | split
    | with_reducible apply State.keeps_time_rate

theorem execPtmResponse_keeps (master : BitVec 64) (s : State) (hκ : ρ.Keeps κ s) :
    OKeeps κ ρ (execPtmResponse master s) := by
  unfold execPtmResponse
  repeat' first
    | intro _
    | with_reducible assumption
    | with_reducible apply State.wb_keeps
    | with_reducible apply State.set64_keeps
    | with_reducible apply fin_keeps
    | with_reducible apply State.correct_keeps
    | with_reducible apply State.keeps_ite
    | with_reducible apply okeeps_ite
    | with_reducible apply okeeps_next
    | dsimp only
    | split
    | with_reducible apply State.keeps_ptmOpen_ptmFails

theorem execPtmTimeout_keeps (s : State) (hκ : ρ.Keeps κ s) :
    OKeeps κ ρ (execPtmTimeout s) := by
  unfold execPtmTimeout
  repeat' first
    | intro _
    | with_reducible assumption
    | with_reducible apply State.wf_keeps
    | with_reducible apply State.wb_keeps
    | with_reducible apply State.setBit_keeps
    | with_reducible apply fin_keeps
    | with_reducible apply State.keeps_ite
    | with_reducible apply okeeps_ite
    | with_reducible apply okeeps_next
    | dsimp only
    | split
    | with_reducible apply State.keeps_rate_ptmOpen_ptmFails

theorem execPtmSlewEnd_keeps (s : State) (hκ : ρ.Keeps κ s) :
    OKeeps κ ρ (execPtmSlewEnd s) := by
  unfold execPtmSlewEnd
  repeat' first
    | intro _
    | with_reducible assumption
    | with_reducible apply State.wf_keeps
    | with_reducible apply State.keeps_ite
    | with_reducible apply okeeps_ite
    | with_reducible apply okeeps_next
    | dsimp only
    | split
    | with_reducible apply State.keeps_life
    | with_reducible apply State.keeps_rate

theorem State.permWrite_keeps (s : State) (n k : Nat) (v : Word) (hκ : ρ.Keeps κ s) :
    ρ.Keeps κ (State.permWrite s n k v) := by
  unfold State.permWrite
  repeat' first
    | intro _
    | with_reducible assumption
    | with_reducible apply State.setReg_keeps
    | with_reducible apply State.seedPut_keeps
    | with_reducible apply State.keeps_ite

theorem execHpPermWrite_keeps (who : Req) (n k : Nat) (v : Word) (s : State) (hκ : ρ.Keeps κ s) :
    OKeeps κ ρ (execHpPermWrite who n k v s) := by
  unfold execHpPermWrite
  repeat' first
    | intro _
    | with_reducible assumption
    | with_reducible apply regGuarded_keeps
    | with_reducible apply State.permWrite_keeps
    | with_reducible apply State.keeps_ite
    | with_reducible apply okeeps_ite
    | with_reducible apply okeeps_next

theorem State.regionWrite_keeps (s : State) (off : Nat) (full : Bool) (v : Word) (hκ : ρ.Keeps κ s) :
    OKeeps κ ρ (State.regionWrite s off full v) := by
  unfold State.regionWrite
  repeat' first
    | intro _
    | with_reducible assumption
    | with_reducible apply State.setBit_keeps
    | with_reducible apply State.tmemPut_keeps
    | with_reducible apply fin_keeps
    | with_reducible apply State.badAcc_keeps
    | with_reducible apply State.keeps_ite
    | with_reducible apply okeeps_ite
    | with_reducible apply okeeps_next

theorem execTillerRegionWrite_keeps (who : Req) (off : Nat) (form : ReqForm) (v : Word) (s : State) (hκ : ρ.Keeps κ s) :
    OKeeps κ ρ (execTillerRegionWrite who off form v s) := by
  unfold execTillerRegionWrite
  repeat' first
    | intro _
    | with_reducible assumption
    | with_reducible apply fin_keeps
    | with_reducible apply State.unserved_keeps
    | with_reducible apply State.regionWrite_keeps
    | with_reducible apply State.keeps_ite
    | with_reducible apply okeeps_ite
    | with_reducible apply okeeps_next
    | dsimp only
    | split
    | refine State.Keeps.of_some (State.discards_keeps _ _ _ ?_) (by assumption)

theorem execSmbSetAddr_keeps (a : Word) (pecOk : Bool) (s : State) (hκ : ρ.Keeps κ s) :
    OKeeps κ ρ (execSmbSetAddr a pecOk s) := by
  unfold execSmbSetAddr
  repeat' first
    | intro _
    | with_reducible assumption
    | with_reducible apply State.keeps_ite
    | with_reducible apply okeeps_ite
    | with_reducible apply okeeps_next
    | dsimp only
    | split
    | with_reducible apply State.keeps_smbAddr

theorem execSmbTimeout_keeps (s : State) (hκ : ρ.Keeps κ s) :
    OKeeps κ ρ (execSmbTimeout s) := by
  unfold execSmbTimeout
  repeat' first
    | intro _
    | with_reducible assumption
    | with_reducible apply State.tick_keeps
    | with_reducible apply State.keeps_ite
    | with_reducible apply okeeps_ite
    | with_reducible apply okeeps_next
    | dsimp only
    | split
    | with_reducible apply State.keeps_reply_smbAddr

end Sys2Proof.Machine
end

