-- ==== Sys2Proof/Laws/KResolve.lean ====
section
/-! SUPPORT. What the changes of state in Machine/Resolve.lean keep. -/

namespace Sys2Proof.Machine

variable {κ : Kept} {ρ : State}

theorem State.imagesHome_keeps  : ∀ (n : List (Nat × Nat)) (v1 : Nat) (s : State) (_ : ρ.Keeps κ s),
    ρ.Keeps κ (State.imagesHome  n v1 s) := by
  intro n
  induction n with
  | nil =>
    intro v1 s h
    unfold State.imagesHome
    repeat' first
      | intro _
      | with_reducible assumption
  | cons x n ih =>
    intro v1 s h
    unfold State.imagesHome
    repeat' first
      | intro _
      | with_reducible assumption
      | with_reducible apply ih
      | with_reducible apply State.seedCopy_keeps

theorem State.applyShadow_keeps (s : State) (a : Nat) (hκ : ρ.Keeps κ s) :
    ρ.Keeps κ (State.applyShadow s a) := by
  unfold State.applyShadow
  repeat' first
    | intro _
    | with_reducible assumption
    | with_reducible apply State.seedPut_keeps
    | with_reducible apply State.imagesHome_keeps
    | with_reducible apply State.keeps_ite

theorem State.replayCtx_keeps (s : State) (f : Found) (a : Nat) (hκ : ρ.Keeps κ s) :
    ρ.Keeps κ (State.replayCtx s f a) := by
  unfold State.replayCtx
  repeat' first
    | intro _
    | with_reducible assumption
    | with_reducible apply State.put_keeps
    | with_reducible apply State.keeps_ite
    | with_reducible apply okeeps_ite
    | with_reducible apply Mem.drop_wf
    | dsimp only
    | split

theorem State.replayQueue_keeps (s : State) (f : Found) (a : Nat) (hκ : ρ.Keeps κ s) :
    ρ.Keeps κ (State.replayQueue s f a) := by
  unfold State.replayQueue
  repeat' first
    | intro _
    | with_reducible assumption
    | with_reducible apply State.put_keeps
    | dsimp only
    | split

theorem State.replay_keeps (s : State) (f : Found) (hκ : ρ.Keeps κ s) :
    ρ.Keeps κ (State.replay s f) := by
  unfold State.replay
  repeat' first
    | intro _
    | with_reducible assumption
    | with_reducible apply State.replayCtx_keeps
    | with_reducible apply State.replayQueue_keeps
    | with_reducible apply State.keeps_ite
    | with_reducible apply okeeps_ite
    | dsimp only
    | split

theorem State.loadQueue_keeps (s : State) (q : Nat) (hκ : ρ.Keeps κ s) :
    ρ.Keeps κ (State.loadQueue s q) := by
  unfold State.loadQueue
  repeat' first
    | intro _
    | with_reducible assumption
    | with_reducible apply State.setReg_keeps
    | with_reducible apply State.setApp_keeps
    | with_reducible apply State.set64_keeps
    | with_reducible apply State.setQueue_keeps
    | with_reducible apply State.keeps_ite

theorem State.loadCtxs_keeps (s : State) (hκ : ρ.Keeps κ s) : ρ.Keeps κ (State.loadCtxs s) := by
  unfold State.loadCtxs
  extract_lets c
  have hc : s.Canon → Memory.wf c = true := fun k => by
    show SMap.wfFrom memZero (0 / 512 * 2048 + 0 % 512) (List.map (fun e : Nat × Byte => (e.1 / 512 * 2048 + e.1 % 512, e.2)) (List.filter _ s.seed)) = true
    exact SMap.map_wfFrom (d := memZero) _ 0 (fun k => k / 512 * 2048 + k % 512) (fun x y h => by omega) (fun _ _ => rfl) (SMap.filter_wf _ k.seed)
  exact State.wf_keeps _ _ _ _ _
    ⟨fun k => (State.keeps_regs_ctx_cached_dirty_dirtyWait_loading (κ := κ) (State.Keeps.rfl (s := s)) _ c [] [] [] [] (SMap.filter_wf _)
        fun _ => hc (hκ.canon k)).canon (hκ.canon k), hκ.pending, hκ.free, hκ.life, hκ.flash⟩

theorem State.resolveErrs_keeps (s : State) (hκ : ρ.Keeps κ s) :
    ρ.Keeps κ (State.resolveErrs s) := by
  unfold State.resolveErrs
  repeat' first
    | intro _
    | with_reducible assumption
    | with_reducible apply State.metErr_keeps
    | with_reducible apply State.keeps_ite
    | with_reducible apply okeeps_ite
    | with_reducible apply State.keeps_fold

theorem State.recoverTxn_keeps (s : State) (l : List Found) (cause : Nat) (e : Nat × Nat × Nat × Bool) (hκ : ρ.Keeps κ s) :
    ρ.Keeps κ (State.recoverTxn s l cause e) := by
  unfold State.recoverTxn
  repeat' first
    | intro _
    | with_reducible assumption
    | with_reducible apply State.bump_keeps
    | with_reducible apply State.setTxn_keeps
    | with_reducible apply State.keeps_ite
    | with_reducible apply okeeps_ite
    | with_reducible apply State.keeps_fold
    | with_reducible apply SMap.set_wf
    | dsimp only
    | split
    | with_reducible apply State.keeps_recov

theorem State.settleChain_keeps (s : State) (sc : Nat) (sa : Bool) (waits : Bool) (hκ : ρ.Keeps κ s) :
    ρ.Keeps κ (State.settleChain s sc sa waits) := by
  unfold State.settleChain
  repeat' first
    | intro _
    | with_reducible assumption
    | with_reducible apply State.setChain_keeps
    | with_reducible apply State.setCxFlag_keeps
    | with_reducible apply State.fixStatus_keeps
    | with_reducible apply State.keeps_ite

theorem State.settleSc_keeps (s : State) (l : List Found) (sc : Nat) (hκ : ρ.Keeps κ s) :
    ρ.Keeps κ (State.settleSc s l sc) := by
  unfold State.settleSc
  repeat' first
    | intro _
    | with_reducible assumption
    | with_reducible apply State.cxSet_keeps
    | with_reducible apply State.setCxFlag_keeps
    | with_reducible apply State.setScState_keeps
    | with_reducible apply State.jIssue_keeps
    | with_reducible apply State.cleared_keeps
    | with_reducible apply State.settleChain_keeps
    | with_reducible apply State.keeps_ite
    | with_reducible apply okeeps_ite
    | with_reducible apply State.keeps_elim
    | with_reducible apply Mem.filter_wf
    | with_reducible apply SMap.filter_wf
    | dsimp only
    | split

theorem State.holdAgain_keeps (s : State) (l : List Found) (hκ : ρ.Keeps κ s) :
    ρ.Keeps κ (State.holdAgain s l) := by
  unfold State.holdAgain
  repeat' first
    | intro _
    | with_reducible assumption
    | with_reducible apply State.setChain_keeps
    | with_reducible apply State.cxSet_keeps
    | with_reducible apply State.setCxFlag_keeps
    | with_reducible apply State.holdStatus_keeps
    | with_reducible apply State.keeps_ite
    | with_reducible apply okeeps_ite
    | with_reducible apply State.keeps_fold

theorem State.permInit_keeps (s : State) (hκ : ρ.Keeps κ s) :
    ρ.Keeps κ (State.permInit s) := by
  unfold State.permInit
  repeat' first
    | intro _
    | with_reducible assumption
    | with_reducible apply State.put_keeps
    | with_reducible apply State.keeps_ite

theorem State.permLoad_keeps (s : State) (hκ : ρ.Keeps κ s) :
    ρ.Keeps κ (State.permLoad s) := by
  unfold State.permLoad
  repeat' first
    | intro _
    | with_reducible assumption
    | with_reducible apply State.setReg_keeps
    | with_reducible apply State.keeps_fold

theorem blockCells_wf (sc : Nat) :
    SMap.wfFrom memZero (512 * sc) ((natLE 2 sc).zipIdx.filterMap fun b => if b.1 = 0 then none else some (512 * sc + b.2, b.1)) = true ∧
    ∀ e ∈ (natLE 2 sc).zipIdx.filterMap fun b => if b.1 = 0 then none else some (512 * sc + b.2, b.1), e.1 < 512 * (sc + 1) := by
  have h : natLE 2 sc = [BitVec.ofNat 8 sc, BitVec.ofNat 8 (sc / 256)] := rfl
  rw [h]
  generalize BitVec.ofNat 8 sc = x
  generalize BitVec.ofNat 8 (sc / 256) = y
  by_cases hx : x = 0#8 <;> by_cases hy : y = 0#8 <;>
    simp [List.zipIdx_cons, hx, hy, SMap.wfFrom, memZero, Nat.mul_succ]

theorem State.format_keeps (s : State) (hκ : ρ.Keeps κ s) : ρ.Keeps κ (State.format s) := by
  unfold State.format
  extract_lets ctxs rest
  have hb := SMap.blocks_wfFrom (d := memZero) (fun sc => (natLE 2 sc).zipIdx.filterMap fun b =>
    if b.1 = 0 then none else some (512 * sc + b.2, b.1)) 512 blockCells_wf 16384
  refine State.setReg_keeps _ _ _ (State.keeps_seed_errs hκ _ _ fun w => ?_)
  exact SMap.append_wfFrom _ _ 0 (512 * 16384) hb.1 (SMap.filter_from _ 0 _ _ (fun e he => by
    simp only [Bool.and_eq_true, decide_eq_true_eq] at he; omega) w) (Nat.zero_le _) hb.2

theorem State.resolve_keeps (s : State) (cause : Nat) (open_ : Bool) (hκ : ρ.Keeps κ s) :
    ρ.Keeps κ (State.resolve s cause open_).1 := by
  unfold State.resolve
  extract_lets restored ftime s0 recs top a1 sers a2 a3
  have h0 : ρ.Keeps κ s0 := by
      with_reducible exact State.applyShadow_keeps _ _ (State.applyShadow_keeps _ _ hκ)
  have g1 : ρ.Keeps κ a1 := by
      with_reducible exact State.keeps_ite h0 (State.report_keeps _ _ _ h0)
  clear_value a1
  have g3 : ρ.Keeps κ a3 := by
      with_reducible exact State.set64_keeps _ _ _ (State.wb_keeps _ _ _ _ (State.loadCtxs_keeps _ (State.permLoad_keeps _
                         (State.permInit_keeps _ (State.format_keeps _ (State.setReg_keeps _ _ _ g1))))))
  clear_value a3 a2 s0
  split
  · with_reducible exact State.resolveErrs_keeps _ (State.checkpoint_keeps _ _ (State.jCounts_keeps _
                         (State.keeps_time_queues_txns_recov_jslots_jpos_vstage g3 _ _ _ _ _ _ _ (fun _ => rfl) (fun _ => rfl) fun _ => rfl)))
  · extract_lets start l s1 s2 s3 t s4 s5 ser s6 vs s7 ot live jslots jpos s8 s9 s10 s11 s12 s13 s14
    have h1 : ρ.Keeps κ s1 := by
      with_reducible exact State.keeps_ite (State.report_keeps _ _ _ h0) h0
    have h2 : ρ.Keeps κ s2 := by
      with_reducible exact State.keeps_ite (State.setBit_keeps _ _ _ h1) h1
    clear_value s1
    have h3 : ρ.Keeps κ s3 := by
      with_reducible exact State.keeps_fold (fun _ _ h => State.replay_keeps _ _ h) _ h2
    clear_value s2
    have h4 : ρ.Keeps κ s4 := by
      with_reducible exact State.keeps_time h3 _
    clear_value s3
    have h5 : ρ.Keeps κ s5 := by
      with_reducible exact State.setReg_keeps _ _ _ (State.set64_keeps _ _ _ h4)
    clear_value s4
    have h6 : ρ.Keeps κ s6 := by
      with_reducible exact State.setReg_keeps _ _ _ h5
    clear_value s5
    have h7 : ρ.Keeps κ s7 := by
      with_reducible exact State.setReg_keeps _ _ _ h6
    clear_value s6
    have h8 : ρ.Keeps κ s8 := by
      with_reducible exact State.keeps_queues_chains_txns_recov_jslots_jpos_ckStart_vstage_vover h7 _ _ _ _ _ _ _ _ _
                         (fun _ => rfl) (fun _ => rfl) (fun _ => rfl) (fun _ => rfl)
    clear_value s7
    have h9 : ρ.Keeps κ s9 := State.jCounts_keeps _ h8
    clear_value s9
    have k1 := State.permInit_keeps _ h9
    have k2 := State.permLoad_keeps _ k1
    have h10 : ρ.Keeps κ s10 := State.loadCtxs_keeps _ k2
    clear_value s10 s8
    have h11 : ρ.Keeps κ s11 := by
      with_reducible exact State.keeps_fold (fun _ _ h => State.loadQueue_keeps _ _ h) _ h10
    have h12 : ρ.Keeps κ s12 := by
      simp only [s12]
      split
      · with_reducible exact State.vaultDone_keeps _ (State.wf_keeps _ _ _ _ _ (State.vaultHome_keeps _ (State.keeps_vstage h11 _)))
      · with_reducible exact State.keeps_ite (State.setBit_keeps _ _ _ h11) h11
    clear_value s12
    have h13 : ρ.Keeps κ s13 := by
      with_reducible exact State.keeps_fold (fun _ _ h => State.recoverTxn_keeps _ _ _ _ h) _ h12
    clear_value s13
    have h14 : ρ.Keeps κ s14 := by
      with_reducible exact State.setReg_keeps _ _ _ h13
    clear_value s14
    with_reducible exact State.resolveErrs_keeps _ (State.grOpen_keeps _ (State.keeps_ite h14 (State.setBit_keeps _ _ _ h14)))

theorem State.settleAll_keeps (s : State) (l : List Found) (hκ : ρ.Keeps κ s) :
    ρ.Keeps κ (State.settleAll s l) := by
  unfold State.settleAll
  repeat' first
    | intro _
    | with_reducible assumption
    | with_reducible apply State.settleSc_keeps
    | with_reducible apply State.holdAgain_keeps
    | with_reducible apply State.keeps_fold
    | with_reducible apply Mem.filter_wf
    | with_reducible apply SMap.filter_wf
    | dsimp only
    | split
    | with_reducible apply State.keeps_relNeeded

theorem execCheckpoint_keeps (s : State) (hκ : ρ.Keeps κ s) :
    OKeeps κ ρ (execCheckpoint s) := by
  unfold execCheckpoint
  repeat' first
    | intro _
    | with_reducible assumption
    | with_reducible apply State.wb_keeps
    | with_reducible apply fin_keeps
    | with_reducible apply State.keeps_ite
    | with_reducible apply okeeps_ite
    | with_reducible apply okeeps_next
    | dsimp only
    | split
    | with_reducible apply State.keeps_ckFrom

theorem execSbConfirmTimeout_keeps (s : State) (hκ : ρ.Keeps κ s) :
    OKeeps κ ρ (execSbConfirmTimeout s) := by
  unfold execSbConfirmTimeout
  repeat' first
    | intro _
    | with_reducible assumption
    | with_reducible apply State.report_keeps
    | with_reducible apply fin_keeps
    | with_reducible apply State.keeps_ite
    | with_reducible apply okeeps_ite
    | with_reducible apply okeeps_next

end Sys2Proof.Machine
end

