-- ==== Sys2Proof/Laws/KTest.lean ====
section
/-! SUPPORT. What the changes of state in Machine/Test.lean keep. -/

namespace Sys2Proof.Machine

variable {κ : Kept} {ρ : State}

theorem State.lbCounts_keeps (s : State) (i : Nat) (hκ : ρ.Keeps κ s) :
    ρ.Keeps κ (State.lbCounts s i) := by
  unfold State.lbCounts
  repeat' first
    | intro _
    | with_reducible assumption
    | with_reducible apply State.setReg_keeps
    | with_reducible apply State.wb_keeps
    | with_reducible apply State.set64_keeps
    | with_reducible apply State.tick_keeps
    | with_reducible apply State.keeps_fold

theorem State.lbEnter_keeps (s : State) (i : Nat) (v : Word) (hκ : ρ.Keeps κ s) :
    ρ.Keeps κ (State.lbEnter s i v) := by
  unfold State.lbEnter
  repeat' first
    | intro _
    | with_reducible assumption
    | with_reducible apply State.linkUp_keeps
    | with_reducible apply State.setReg_keeps
    | with_reducible apply State.set64_keeps
    | with_reducible apply State.modPort_keeps
    | with_reducible apply State.downPort_keeps
    | with_reducible apply State.vnodeEnter_keeps
    | with_reducible apply State.resetPort_keeps
    | with_reducible apply State.lbCounts_keeps
    | with_reducible apply State.keeps_ite
    | with_reducible apply okeeps_ite
    | with_reducible apply State.keeps_fold

theorem State.lbLeave_keeps (s : State) (i : Nat) (hκ : ρ.Keeps κ s) : ρ.Keeps κ (State.lbLeave s i) := by
  unfold State.lbLeave
  extract_lets depth s1 src s2
  have h1 : ρ.Keeps κ s1 := State.wf_keeps _ _ _ _ _ (State.wf_keeps _ _ _ _ _ hκ)
  clear_value s1
  have h2 : ρ.Keeps κ s2 := by
    refine State.keeps_ite ?_ h1
    have h3 : ρ.Keeps κ src := State.downPort_keeps s1 (i - 1) h1
    clear_value src
    exact ⟨fun c => (State.keeps_vnode_vnodes (κ := κ) State.Keeps.rfl _ _ (fun _ => Mem.drop_wf _ _ (h1.canon c).vnode)
      fun _ => SMap.set_wf _ _ (h1.canon c).vnodes).canon (h3.canon c), h3.pending, h3.free, h3.life, h3.flash⟩
  clear_value s2
  exact State.keeps_ite hκ (State.keeps_ite (State.resetPort_keeps _ h1) (State.trainGo_keeps _ _ h2))

theorem State.lbWrite_keeps (s : State) (i : Nat) (v : Word) (hκ : ρ.Keeps κ s) :
    ρ.Keeps κ (State.lbWrite s i v) := by
  unfold State.lbWrite
  repeat' first
    | intro _
    | with_reducible assumption
    | with_reducible apply State.setReg_keeps
    | with_reducible apply State.setBit_keeps
    | with_reducible apply State.lbEnter_keeps
    | with_reducible apply State.lbLeave_keeps
    | with_reducible apply State.keeps_ite

theorem execLoopbackEnter_keeps (who : Req) (i : Nat) (v : Word) (s : State) (hκ : ρ.Keeps κ s) :
    OKeeps κ ρ (execLoopbackEnter who i v s) := by
  unfold execLoopbackEnter
  repeat' first
    | intro _
    | with_reducible assumption
    | with_reducible apply regGuarded_keeps
    | with_reducible apply State.lbWrite_keeps
    | with_reducible apply State.keeps_ite
    | with_reducible apply okeeps_ite
    | with_reducible apply okeeps_next

theorem execLoopbackEnd_keeps (who : Req) (i : Nat) (s : State) (hκ : ρ.Keeps κ s) :
    OKeeps κ ρ (execLoopbackEnd who i s) := by
  unfold execLoopbackEnd
  repeat' first
    | intro _
    | with_reducible assumption
    | with_reducible apply regGuarded_keeps
    | with_reducible apply State.lbWrite_keeps
    | with_reducible apply State.keeps_ite
    | with_reducible apply okeeps_ite
    | with_reducible apply okeeps_next

theorem execLoopbackDurExpiry_keeps (i : Nat) (s : State) (hκ : ρ.Keeps κ s) :
    OKeeps κ ρ (execLoopbackDurExpiry i s) := by
  unfold execLoopbackDurExpiry
  repeat' first
    | intro _
    | with_reducible assumption
    | with_reducible apply State.setBit_keeps
    | with_reducible apply fin_keeps
    | with_reducible apply State.lbLeave_keeps
    | with_reducible apply State.keeps_ite
    | with_reducible apply okeeps_ite
    | with_reducible apply okeeps_next

theorem State.spiWrite_keeps (s : State) (v : Word) (hκ : ρ.Keeps κ s) :
    ρ.Keeps κ (State.spiWrite s v) := by
  unfold State.spiWrite
  repeat' first
    | intro _
    | with_reducible assumption
    | with_reducible apply State.setReg_keeps
    | with_reducible apply State.setBit_keeps
    | with_reducible apply State.keeps_ite
    | with_reducible apply okeeps_ite
    | dsimp only
    | split
    | with_reducible apply State.keeps_bgCheck

theorem execSpiReadback_keeps (who : Req) (s : State) (hκ : ρ.Keeps κ s) :
    OKeeps κ ρ (execSpiReadback who s) := by
  unfold execSpiReadback
  repeat' first
    | intro _
    | with_reducible assumption
    | with_reducible apply regGuarded_keeps
    | with_reducible apply State.spiWrite_keeps

theorem execSpiReadbackDone_keeps (diff : Option Nat) (s : State) (hκ : ρ.Keeps κ s) :
    OKeeps κ ρ (execSpiReadbackDone diff s) := by
  unfold execSpiReadbackDone
  repeat' first
    | intro _
    | with_reducible assumption
    | with_reducible apply State.setReg_keeps
    | with_reducible apply State.setBit_keeps
    | with_reducible apply State.tick_keeps
    | with_reducible apply fin_keeps
    | with_reducible apply State.keeps_ite
    | with_reducible apply okeeps_ite
    | with_reducible apply okeeps_next
    | dsimp only
    | split

theorem State.bistWrite_keeps (s : State) (v : Word) (hκ : ρ.Keeps κ s) :
    ρ.Keeps κ (State.bistWrite s v) := by
  unfold State.bistWrite
  repeat' first
    | intro _
    | with_reducible assumption
    | with_reducible apply State.setReg_keeps
    | with_reducible apply State.setBit_keeps
    | with_reducible apply State.keeps_ite
    | with_reducible apply okeeps_ite
    | dsimp only
    | split
    | with_reducible apply State.keeps_bistDom

theorem execDomainBist_keeps (who : Req) (v : Word) (s : State) (hκ : ρ.Keeps κ s) :
    OKeeps κ ρ (execDomainBist who v s) := by
  unfold execDomainBist
  repeat' first
    | intro _
    | with_reducible assumption
    | with_reducible apply regGuarded_keeps
    | with_reducible apply State.bistWrite_keeps

theorem execBistDone_keeps (fails : List Nat) (repaired : BitVec 8) (s : State) (hκ : ρ.Keeps κ s) :
    OKeeps κ ρ (execBistDone fails repaired s) := by
  unfold execBistDone
  repeat' first
    | intro _
    | with_reducible assumption
    | with_reducible apply State.setReg_keeps
    | with_reducible apply State.setBit_keeps
    | with_reducible apply State.report_keeps
    | with_reducible apply fin_keeps
    | with_reducible apply State.keeps_ite
    | with_reducible apply okeeps_ite
    | with_reducible apply State.keeps_fold
    | with_reducible apply okeeps_next

theorem execInjectArm_keeps (who : Req) (v : Word) (s : State) (hκ : ρ.Keeps κ s) :
    OKeeps κ ρ (execInjectArm who v s) := by
  unfold execInjectArm
  repeat' first
    | intro _
    | with_reducible assumption
    | with_reducible apply regGuarded_keeps
    | with_reducible apply State.softWrite_keeps

theorem tapIr_keeps (code : Byte) (pins : Bool) (s : State) (hκ : ρ.Keeps κ s) :
    OKeeps κ ρ (tapIr code pins s) := by
  unfold tapIr
  repeat' first
    | intro _
    | with_reducible assumption
    | with_reducible apply State.keeps_ite
    | with_reducible apply okeeps_ite
    | with_reducible apply okeeps_next
    | dsimp only
    | split
    | with_reducible apply State.keeps_jtagIr_bscan

theorem execExtest_keeps (s : State) (hκ : ρ.Keeps κ s) :
    OKeeps κ ρ (execExtest s) := by
  unfold execExtest
  repeat' first
    | intro _
    | with_reducible assumption
    | with_reducible apply tapIr_keeps

theorem execSamplePreload_keeps (s : State) (hκ : ρ.Keeps κ s) :
    OKeeps κ ρ (execSamplePreload s) := by
  unfold execSamplePreload
  repeat' first
    | intro _
    | with_reducible assumption
    | with_reducible apply tapIr_keeps

theorem execIdcode_keeps (s : State) (hκ : ρ.Keeps κ s) :
    OKeeps κ ρ (execIdcode s) := by
  unfold execIdcode
  repeat' first
    | intro _
    | with_reducible assumption
    | with_reducible apply tapIr_keeps

theorem execClamp_keeps (s : State) (hκ : ρ.Keeps κ s) :
    OKeeps κ ρ (execClamp s) := by
  unfold execClamp
  repeat' first
    | intro _
    | with_reducible assumption
    | with_reducible apply tapIr_keeps

theorem execHighz_keeps (s : State) (hκ : ρ.Keeps κ s) :
    OKeeps κ ρ (execHighz s) := by
  unfold execHighz
  repeat' first
    | intro _
    | with_reducible assumption
    | with_reducible apply tapIr_keeps

theorem execExtestPulse_keeps (s : State) (hκ : ρ.Keeps κ s) :
    OKeeps κ ρ (execExtestPulse s) := by
  unfold execExtestPulse
  repeat' first
    | intro _
    | with_reducible assumption
    | with_reducible apply tapIr_keeps

theorem execExtestTrain_keeps (s : State) (hκ : ρ.Keeps κ s) :
    OKeeps κ ρ (execExtestTrain s) := by
  unfold execExtestTrain
  repeat' first
    | intro _
    | with_reducible assumption
    | with_reducible apply tapIr_keeps

theorem execBypass_keeps (s : State) (hκ : ρ.Keeps κ s) :
    OKeeps κ ρ (execBypass s) := by
  unfold execBypass
  repeat' first
    | intro _
    | with_reducible assumption
    | with_reducible apply tapIr_keeps

end Sys2Proof.Machine
end

