-- ==== Sys2Proof/Laws/KPair.lean ====
section
/-! SUPPORT. What the changes of state in Machine/Pair.lean keep. -/

namespace Sys2Proof.Machine

variable {κ : Kept} {ρ : State}

theorem State.autostart1_keeps (s : State) (seen : List Nat) (a : Nat) (hκ : ρ.Keeps κ s) :
    ρ.Keeps κ (State.autostart1 s seen a) := by
  unfold State.autostart1
  repeat' first
    | intro _
    | with_reducible assumption
    | with_reducible apply State.wb_keeps
    | with_reducible apply State.trimCache_keeps
    | with_reducible apply State.autoTake_keeps
    | with_reducible apply State.keeps_ite
    | with_reducible apply okeeps_ite
    | dsimp only
    | split
    | with_reducible apply State.keeps_autoWait

theorem State.autostart_keeps  : ∀ (n : List Nat) (v1 : List Nat) (s : State) (_ : ρ.Keeps κ s),
    ρ.Keeps κ (State.autostart  n v1 s) := by
  intro n
  induction n with
  | nil =>
    intro v1 s h
    unfold State.autostart
    repeat' first
      | intro _
      | with_reducible assumption
  | cons x n ih =>
    intro v1 s h
    unfold State.autostart
    repeat' first
      | intro _
      | with_reducible assumption
      | with_reducible apply ih
      | with_reducible apply State.autostart1_keeps
      | with_reducible apply State.keeps_ite

theorem State.setRole_keeps (s : State) (r : Nat) (hκ : ρ.Keeps κ s) :
    ρ.Keeps κ (State.setRole s r) := by
  unfold State.setRole
  repeat' first
    | intro _
    | with_reducible assumption
    | with_reducible apply State.wf_keeps

theorem State.seeEpoch_keeps (s : State) (e : Nat) (hκ : ρ.Keeps κ s) :
    ρ.Keeps κ (State.seeEpoch s e) := by
  unfold State.seeEpoch
  repeat' first
    | intro _
    | with_reducible assumption
    | with_reducible apply State.setReg_keeps

theorem State.beStandby_keeps (s : State) (hκ : ρ.Keeps κ s) :
    ρ.Keeps κ (State.beStandby s) := by
  unfold State.beStandby
  repeat' first
    | intro _
    | with_reducible assumption
    | with_reducible apply State.wb_keeps
    | with_reducible apply State.setRole_keeps
    | with_reducible apply State.pairPut_keeps

theorem State.demote_keeps (s : State) (hκ : ρ.Keeps κ s) :
    ρ.Keeps κ (State.demote s) := by
  unfold State.demote
  repeat' first
    | intro _
    | with_reducible assumption
    | with_reducible apply State.wb_keeps
    | with_reducible apply State.enterSafe_keeps
    | with_reducible apply State.setRole_keeps
    | with_reducible apply State.twStat_keeps

theorem State.claimLost_keeps (s : State) (hκ : ρ.Keeps κ s) :
    ρ.Keeps κ (State.claimLost s) := by
  unfold State.claimLost
  repeat' first
    | intro _
    | with_reducible assumption
    | with_reducible apply State.wb_keeps
    | with_reducible apply State.bump_keeps
    | with_reducible apply State.beStandby_keeps
    | dsimp only
    | split
    | with_reducible apply State.keeps_pair

theorem State.claimGo_keeps (s : State) (takeover : Bool) (hκ : ρ.Keeps κ s) :
    ρ.Keeps κ (State.claimGo s takeover) := by
  unfold State.claimGo
  repeat' first
    | intro _
    | with_reducible assumption
    | with_reducible apply State.wb_keeps
    | with_reducible apply State.claim_keeps
    | with_reducible apply State.setRole_keeps
    | with_reducible apply State.claimLost_keeps
    | with_reducible apply State.keeps_ite
    | with_reducible apply okeeps_ite
    | dsimp only
    | split
    | with_reducible apply State.keeps_pair

theorem State.takeUp_keeps (s : State) (cause : Nat) (hκ : ρ.Keeps κ s) : ρ.Keeps κ (State.takeUp s cause) := by
  unfold State.takeUp
  have h0 := State.resolve_keeps s cause false hκ
  generalize s.resolve cause false = p at h0 ⊢
  obtain ⟨s0, l⟩ := p
  dsimp -zeta only at h0 ⊢
  extract_lets s1 s2 s3 s4
  have h1 : ρ.Keeps κ s1 := by
    apply State.keeps_cached_chains_xfers_chans_ops_inbox_slots_waits_resq_jpend_owed_autoWait h0 <;> exact fun _ => rfl
  have h2 : ρ.Keeps κ s2 := State.settleAll_keeps _ _ h1
  have h3 : ρ.Keeps κ s3 := State.keeps_ite h2 (State.autostart_keeps _ _ _ h2)
  have h4 : ρ.Keeps κ s4 := State.keeps_ite (State.keeps_fold (fun _ _ h => State.modPort_keeps _ _ _ h) _ h3) h3
  exact State.keeps_fold (fun _ _ h => State.trainPort_keeps _ _ h) _ h4

theorem State.claimWon_keeps (s : State) (hκ : ρ.Keeps κ s) :
    ρ.Keeps κ (State.claimWon s) := by
  unfold State.claimWon
  repeat' first
    | intro _
    | with_reducible assumption
    | with_reducible apply State.setReg_keeps
    | with_reducible apply State.wb_keeps
    | with_reducible apply State.bump_keeps
    | with_reducible apply State.setRole_keeps
    | with_reducible apply State.twStat_keeps
    | with_reducible apply State.pairPut_keeps
    | with_reducible apply State.takeUp_keeps
    | with_reducible apply State.keeps_ite
    | with_reducible apply okeeps_ite
    | with_reducible apply State.keeps_elim
    | dsimp only
    | split
    | with_reducible apply State.keeps_pair

theorem execClaimWaitExpiry_keeps (s : State) (hκ : ρ.Keeps κ s) :
    OKeeps κ ρ (execClaimWaitExpiry s) := by
  unfold execClaimWaitExpiry
  repeat' first
    | intro _
    | with_reducible assumption
    | with_reducible apply fin_keeps
    | with_reducible apply State.claim_keeps
    | with_reducible apply State.twStat_keeps
    | with_reducible apply State.claimLost_keeps
    | with_reducible apply State.claimWon_keeps
    | with_reducible apply State.keeps_ite
    | with_reducible apply okeeps_ite
    | with_reducible apply okeeps_next
    | dsimp only
    | split
    | with_reducible apply State.keeps_life
    | with_reducible apply State.keeps_pair

theorem execPairArbFall_keeps (s : State) (hκ : ρ.Keeps κ s) :
    OKeeps κ ρ (execPairArbFall s) := by
  unfold execPairArbFall
  repeat' first
    | intro _
    | with_reducible assumption
    | with_reducible apply State.wb_keeps
    | with_reducible apply fin_keeps
    | with_reducible apply State.claim_keeps
    | with_reducible apply State.claimWon_keeps
    | with_reducible apply State.keeps_ite
    | with_reducible apply okeeps_ite
    | with_reducible apply okeeps_next

theorem execPairArbRise_keeps (s : State) (hκ : ρ.Keeps κ s) :
    OKeeps κ ρ (execPairArbRise s) := by
  unfold execPairArbRise
  repeat' first
    | intro _
    | with_reducible assumption
    | with_reducible apply State.wb_keeps
    | with_reducible apply fin_keeps
    | with_reducible apply State.demote_keeps
    | with_reducible apply State.keeps_ite
    | with_reducible apply okeeps_ite
    | with_reducible apply okeeps_next

theorem execNobeatClaim_keeps (s : State) (hκ : ρ.Keeps κ s) :
    OKeeps κ ρ (execNobeatClaim s) := by
  unfold execNobeatClaim
  repeat' first
    | intro _
    | with_reducible assumption
    | with_reducible apply fin_keeps
    | with_reducible apply State.twStat_keeps
    | with_reducible apply State.claimGo_keeps
    | with_reducible apply State.keeps_ite
    | with_reducible apply okeeps_ite
    | with_reducible apply okeeps_next

theorem execTokenSilence_keeps (s : State) (hκ : ρ.Keeps κ s) :
    OKeeps κ ρ (execTokenSilence s) := by
  unfold execTokenSilence
  repeat' first
    | intro _
    | with_reducible assumption
    | with_reducible apply fin_keeps
    | with_reducible apply State.claimGo_keeps
    | with_reducible apply State.keeps_ite
    | with_reducible apply okeeps_ite
    | with_reducible apply State.keeps_elim
    | with_reducible apply okeeps_next

theorem State.twCtlWrite_keeps (s : State) (v : Word) (hκ : ρ.Keeps κ s) :
    ρ.Keeps κ (State.twCtlWrite s v) := by
  unfold State.twCtlWrite
  repeat' first
    | intro _
    | with_reducible assumption
    | with_reducible apply State.wb_keeps
    | with_reducible apply State.pairPut_keeps
    | with_reducible apply State.claimGo_keeps
    | with_reducible apply State.keeps_ite

theorem execTwForce_keeps (who : Req) (s : State) (hκ : ρ.Keeps κ s) :
    OKeeps κ ρ (execTwForce who s) := by
  unfold execTwForce
  repeat' first
    | intro _
    | with_reducible assumption
    | with_reducible apply regGuarded_keeps
    | with_reducible apply State.twCtlWrite_keeps

theorem execTwRejoin_keeps (who : Req) (s : State) (hκ : ρ.Keeps κ s) :
    OKeeps κ ρ (execTwRejoin who s) := by
  unfold execTwRejoin
  repeat' first
    | intro _
    | with_reducible assumption
    | with_reducible apply regGuarded_keeps
    | with_reducible apply State.twCtlWrite_keeps

theorem execHeartbeatLost_keeps (s : State) (hκ : ρ.Keeps κ s) :
    OKeeps κ ρ (execHeartbeatLost s) := by
  unfold execHeartbeatLost
  repeat' first
    | intro _
    | with_reducible assumption
    | with_reducible apply fin_keeps
    | with_reducible apply State.heartbeatLost_keeps
    | with_reducible apply okeeps_ite
    | with_reducible apply okeeps_next

theorem State.soloNow_keeps (s : State) (hκ : ρ.Keeps κ s) :
    ρ.Keeps κ (State.soloNow s) := by
  unfold State.soloNow
  repeat' first
    | intro _
    | with_reducible assumption
    | with_reducible apply State.wf_keeps
    | with_reducible apply State.wb_keeps
    | with_reducible apply State.twStat_keeps
    | with_reducible apply State.drainDurable_keeps
    | dsimp only
    | split
    | with_reducible apply State.keeps_jpend_pair

theorem execMirrorTimeout_keeps (s : State) (hκ : ρ.Keeps κ s) :
    OKeeps κ ρ (execMirrorTimeout s) := by
  unfold execMirrorTimeout
  repeat' first
    | intro _
    | with_reducible assumption
    | with_reducible apply fin_keeps
    | with_reducible apply State.soloGo_keeps
    | with_reducible apply State.keeps_ite
    | with_reducible apply okeeps_ite
    | with_reducible apply okeeps_next

theorem execRxToken_keeps (p : Nat) (k : Heard TokenF) (s : State) (hκ : ρ.Keeps κ s) :
    OKeeps κ ρ (execRxToken p k s) := by
  unfold execRxToken
  repeat' first
    | intro _
    | with_reducible assumption
    | with_reducible apply State.wb_keeps
    | with_reducible apply State.setBit_keeps
    | with_reducible apply State.bump_keeps
    | with_reducible apply fin_keeps
    | with_reducible apply State.flitIn_keeps
    | with_reducible apply State.pairPut_keeps
    | with_reducible apply State.seeEpoch_keeps
    | with_reducible apply State.demote_keeps
    | with_reducible apply State.soloNow_keeps
    | with_reducible apply State.keeps_ite
    | with_reducible apply okeeps_ite
    | with_reducible apply okeeps_next
    | dsimp only
    | split
    | with_reducible apply State.keeps_pair

theorem execBeatTimer_keeps (s : State) (hκ : ρ.Keeps κ s) :
    OKeeps κ ρ (execBeatTimer s) := by
  unfold execBeatTimer
  repeat' first
    | intro _
    | with_reducible assumption
    | with_reducible apply State.queueFlit_keeps
    | with_reducible apply fin_keeps
    | with_reducible apply State.keeps_ite
    | with_reducible apply okeeps_ite
    | with_reducible apply okeeps_next
    | dsimp only
    | split
    | with_reducible apply State.keeps_pair

theorem State.beatDecide_keeps (s : State) (b : BeatF) (own : Nat) (hκ : ρ.Keeps κ s) :
    ρ.Keeps κ (State.beatDecide s b own) := by
  unfold State.beatDecide
  repeat' first
    | intro _
    | with_reducible assumption
    | with_reducible apply State.beStandby_keeps
    | with_reducible apply State.claimGo_keeps
    | with_reducible apply State.keeps_ite

theorem State.beatMaster_keeps (s : State) (b : BeatF) (own : Nat) (hκ : ρ.Keeps κ s) :
    ρ.Keeps κ (State.beatMaster s b own) := by
  unfold State.beatMaster
  repeat' first
    | intro _
    | with_reducible assumption
    | with_reducible apply State.wf_keeps
    | with_reducible apply State.wb_keeps
    | with_reducible apply State.demote_keeps
    | with_reducible apply State.keeps_ite
    | with_reducible apply okeeps_ite
    | dsimp only
    | split
    | with_reducible apply State.keeps_pair

theorem execRxBeat_keeps (b : Heard BeatF) (s : State) (hκ : ρ.Keeps κ s) :
    OKeeps κ ρ (execRxBeat b s) := by
  unfold execRxBeat
  repeat' first
    | intro _
    | with_reducible assumption
    | with_reducible apply State.wb_keeps
    | with_reducible apply fin_keeps
    | with_reducible apply State.flitIn_keeps
    | with_reducible apply State.twStat_keeps
    | with_reducible apply State.pairPut_keeps
    | with_reducible apply State.seeEpoch_keeps
    | with_reducible apply State.beatDecide_keeps
    | with_reducible apply State.beatMaster_keeps
    | with_reducible apply State.keeps_ite
    | with_reducible apply okeeps_ite
    | with_reducible apply okeeps_next
    | dsimp only
    | split
    | with_reducible apply State.keeps_pair

theorem State.mirrorIn_keeps (s : State) (e : Nat × Bytes) (hκ : ρ.Keeps κ s) :
    ρ.Keeps κ (State.mirrorIn s e) := by
  unfold State.mirrorIn
  repeat' first
    | intro _
    | with_reducible assumption
    | with_reducible apply State.setReg_keeps
    | with_reducible apply State.put_keeps
    | with_reducible apply State.keeps_ite
    | with_reducible apply okeeps_ite
    | with_reducible apply State.keeps_fold

theorem execRxMirror_keeps (m : Heard MirrorF) (s : State) (hκ : ρ.Keeps κ s) :
    OKeeps κ ρ (execRxMirror m s) := by
  unfold execRxMirror
  repeat' first
    | intro _
    | with_reducible assumption
    | with_reducible apply State.wb_keeps
    | with_reducible apply State.queueFlit_keeps
    | with_reducible apply credited_keeps
    | with_reducible apply State.twStat_keeps
    | with_reducible apply State.pairPut_keeps
    | with_reducible apply State.mirrorIn_keeps
    | with_reducible apply State.keeps_ite
    | with_reducible apply okeeps_ite
    | with_reducible apply State.keeps_elim
    | with_reducible apply State.keeps_fold
    | with_reducible apply okeeps_next
    | dsimp only
    | split
    | with_reducible apply State.keeps_pair

theorem execRxMack_keeps (m : Heard (BitVec 32)) (s : State) (hκ : ρ.Keeps κ s) :
    OKeeps κ ρ (execRxMack m s) := by
  unfold execRxMack
  repeat' first
    | intro _
    | with_reducible assumption
    | with_reducible apply State.wf_keeps
    | with_reducible apply State.wb_keeps
    | with_reducible apply fin_keeps
    | with_reducible apply State.flitIn_keeps
    | with_reducible apply State.twStat_keeps
    | with_reducible apply State.drainDurable_keeps
    | with_reducible apply State.keeps_ite
    | with_reducible apply okeeps_ite
    | with_reducible apply State.keeps_elim
    | with_reducible apply okeeps_next
    | with_reducible apply Mem.filter_wf
    | with_reducible apply SMap.filter_wf
    | dsimp only
    | split
    | with_reducible apply State.keeps_jpend_pair

end Sys2Proof.Machine
end

