-- ==== Sys2Proof/Laws/KRegBus.lean ====
section
/-! SUPPORT. What the changes of state in Machine/RegBus.lean keep. -/

namespace Sys2Proof.Machine

variable {κ : Kept} {ρ : State}

theorem State.tqWrite_keeps (s : State) (who : Req) (off : Nat) (v : Word) (hκ : ρ.Keeps κ s) :
    ρ.Keeps κ (State.tqWrite s who off v) := by
  unfold State.tqWrite
  repeat' first
    | intro _
    | with_reducible assumption
    | with_reducible apply State.softWrite_keeps
    | with_reducible apply State.tqCfgWrite_keeps
    | with_reducible apply State.keeps_ite

theorem State.bwWrite_keeps (s : State) (who : Req) (off : Nat) (v : Word) (hκ : ρ.Keeps κ s) :
    ρ.Keeps κ (State.bwWrite s who off v) := by
  unfold State.bwWrite
  repeat' first
    | intro _
    | with_reducible assumption
    | with_reducible apply State.softWrite_keeps
    | with_reducible apply State.chCfgWrite_keeps
    | with_reducible apply State.chCtlWrite_keeps
    | with_reducible apply State.keeps_ite

theorem State.ownerWrite_keeps (s : State) (sc : Nat) (v : Word) (hκ : ρ.Keeps κ s) :
    ρ.Keeps κ (State.ownerWrite s sc v) := by
  unfold State.ownerWrite
  repeat' first
    | intro _
    | with_reducible assumption
    | with_reducible apply State.setReg_keeps
    | with_reducible apply State.cxSet_keeps
    | with_reducible apply State.keeps_ite

theorem State.guardedWrite_keeps (s : State) (off : Nat) (v : Word) (hκ : ρ.Keeps κ s) : ∀ τ, State.guardedWrite s off v = some τ → ρ.Keeps κ τ := by
  unfold State.guardedWrite
  repeat' first
    | with_reducible refine State.opt_ite ?_ ?_
    | with_reducible refine State.opt_some ?_
    | with_reducible exact State.opt_none
    | intro _
    | with_reducible assumption
    | with_reducible apply State.drainWrite_keeps
    | with_reducible apply State.enumCtlWrite_keeps
    | with_reducible apply State.swtrigWrite_keeps
    | with_reducible apply State.isrcWrite_keeps
    | with_reducible apply State.forceWrite_keeps
    | with_reducible apply State.updateWrite_keeps
    | with_reducible apply State.vctlWrite_keeps
    | with_reducible apply State.pdomWrite_keeps
    | with_reducible apply State.suWrite_keeps
    | with_reducible apply State.permWrite_keeps
    | with_reducible apply State.lbWrite_keeps
    | with_reducible apply State.spiWrite_keeps
    | with_reducible apply State.bistWrite_keeps
    | with_reducible apply State.twCtlWrite_keeps
    | with_reducible apply State.ownerWrite_keeps

theorem State.openWrite_keeps (s : State) (who : Req) (off : Nat) (v : Word) (hκ : ρ.Keeps κ s) : ∀ τ, State.openWrite s who off v = some τ → ρ.Keeps κ τ := by
  unfold State.openWrite
  repeat' first
    | with_reducible refine State.opt_ite ?_ ?_
    | with_reducible refine State.opt_some ?_
    | with_reducible exact State.opt_none
    | intro _
    | with_reducible assumption
    | with_reducible apply State.kpCtlWrite_keeps
    | with_reducible apply State.fuCtlWrite_keeps
    | with_reducible apply State.cqiWrite_keeps
    | with_reducible apply State.rcsWrite_keeps
    | with_reducible apply State.tqWrite_keeps
    | with_reducible apply State.bwWrite_keeps

theorem State.busWrite_keeps (s : State) (who : Req) (off : Nat) (v : Word) (hκ : ρ.Keeps κ s) :
    ρ.Keeps κ (State.busWrite s who off v) := by
  unfold State.busWrite
  refine State.keeps_ite (State.msixWrite_keeps _ _ _ _ _ hκ) (State.keeps_ite hκ ?_)
  split
  · rename_i e; exact State.openWrite_keeps _ _ _ _ hκ _ e
  · split
    · rename_i e
      split at e
      · exact State.guardedWrite_keeps _ _ _ hκ _ e
      · cases e
    · have h := State.softWrite_keeps s who off v hκ
      exact State.keeps_ite (State.wf_keeps _ _ _ _ _ h) h

theorem State.regWrite_keeps (s : State) (who : Req) (off : Nat) (full : Bool) (v : Word) (hκ : ρ.Keeps κ s) :
    OKeeps κ ρ (State.regWrite s who off full v) := by
  unfold State.regWrite
  repeat' first
    | intro _
    | with_reducible assumption
    | with_reducible apply fin_keeps
    | with_reducible apply State.doorbell_keeps
    | with_reducible apply State.badAcc_keeps
    | with_reducible apply State.busWrite_keeps
    | with_reducible apply State.keeps_ite
    | with_reducible apply okeeps_ite
    | with_reducible apply okeeps_next
    | dsimp only
    | split

theorem execRegisterWrite_keeps (who : Req) (off : Nat) (form : ReqForm) (v : Word) (s : State) (hκ : ρ.Keeps κ s) :
    OKeeps κ ρ (execRegisterWrite who off form v s) := by
  unfold execRegisterWrite
  repeat' first
    | intro _
    | with_reducible assumption
    | with_reducible apply fin_keeps
    | with_reducible apply State.unserved_keeps
    | with_reducible apply State.regWrite_keeps
    | with_reducible apply State.keeps_ite
    | with_reducible apply okeeps_ite
    | with_reducible apply okeeps_next
    | dsimp only
    | split
    | refine State.Keeps.of_some (State.discards_keeps _ _ _ ?_) (by assumption)

theorem execSmbWrite_keeps (v : Word) (pecOk : Bool) (s : State) (hκ : ρ.Keeps κ s) :
    OKeeps κ ρ (execSmbWrite v pecOk s) := by
  unfold execSmbWrite
  repeat' first
    | intro _
    | with_reducible assumption
    | with_reducible apply fin_keeps
    | with_reducible apply State.busWrite_keeps
    | with_reducible apply State.keeps_ite
    | with_reducible apply okeeps_ite
    | with_reducible apply okeeps_next
    | dsimp only
    | split
    | with_reducible apply State.keeps_smbAddr

theorem execSmbRead_keeps (s : State) (hκ : ρ.Keeps κ s) :
    OKeeps κ ρ (execSmbRead s) := by
  unfold execSmbRead
  repeat' first
    | intro _
    | with_reducible assumption
    | with_reducible apply State.tick_keeps
    | with_reducible apply State.keeps_ite
    | with_reducible apply okeeps_ite
    | with_reducible apply okeeps_next
    | dsimp only
    | split
    | with_reducible apply State.keeps_reply_smbAddr

end Sys2Proof.Machine
end

