-- ==== Sys2Proof/Laws/KTillerCloche.lean ====
section
/-! SUPPORT. What the changes of state in Machine/TillerCloche.lean keep. -/

namespace Sys2Proof.Machine

variable {κ : Kept} {ρ : State}

theorem bodyLeave_keeps (s : State) (x : TArg) (hκ : ρ.Keeps κ s) :
    TRes.Keeps κ ρ (bodyLeave s x) := by
  unfold bodyLeave
  repeat' first
    | intro _
    | with_reducible assumption
    | with_reducible apply State.wb_keeps
    | with_reducible apply State.freeThreadOf_keeps
    | with_reducible apply tkeeps_ite
    | with_reducible apply State.keeps_ite
    | with_reducible apply tkeeps_done
    | with_reducible apply tkeeps_hold
    | with_reducible apply tkeeps_trapAt
    | with_reducible apply tkeeps_trap
    | with_reducible apply tkeeps_stall

theorem bodyRbrd_keeps (s : State) (x : TArg) (hκ : ρ.Keeps κ s) :
    TRes.Keeps κ ρ (bodyRbrd s x) := by
  unfold bodyRbrd
  repeat' first
    | intro _
    | with_reducible assumption
    | with_reducible apply State.storeOp_keeps

theorem bodyRbwr_keeps (s : State) (x : TArg) (hκ : ρ.Keeps κ s) :
    TRes.Keeps κ ρ (bodyRbwr s x) := by
  unfold bodyRbwr
  repeat' first
    | intro _
    | with_reducible assumption
    | with_reducible apply State.operand_keeps
    | with_reducible apply State.busWrite_keeps
    | with_reducible apply tkeeps_done

theorem State.blockBytes_keeps (s : State) (a : Nat) (hκ : ρ.Keeps κ s) : ρ.Keeps κ (s.blockBytes a).1 := by
  unfold State.blockBytes
  split
  · exact State.keeps_freeCtr hκ _ (Nat.le_add_right _ _)
  · exact hκ

theorem bodySbrd_keeps (s : State) (x : TArg) (hκ : ρ.Keeps κ s) :
    TRes.Keeps κ ρ (bodySbrd s x) := by
  unfold bodySbrd
  split
  · exact True.intro
  · exact State.engWrMany_keeps _ _ _ _ _ _ (State.blockBytes_keeps _ _ hκ)

theorem bodySbwr_keeps (s : State) (x : TArg) (hκ : ρ.Keeps κ s) :
    TRes.Keeps κ ρ (bodySbwr s x) := by
  unfold bodySbwr
  split
  · exact True.intro
  · exact MRes.go_keeps (State.engRdMany_keeps _ _ _ hκ _ _) fun b => State.seedPut_keeps _ _ _ hκ

theorem infoLeave_keeps (s : State) (x : TArg) (hκ : ρ.Keeps κ s) : TRes.Keeps κ ρ (infoLeave.body s x) := by
  unfold infoLeave
  repeat' first
    | intro _
    | with_reducible assumption
    | with_reducible apply bodyLeave_keeps

theorem infoRbrd_keeps (s : State) (x : TArg) (hκ : ρ.Keeps κ s) : TRes.Keeps κ ρ (infoRbrd.body s x) := by
  unfold infoRbrd
  repeat' first
    | intro _
    | with_reducible assumption
    | with_reducible apply bodyRbrd_keeps

theorem infoRbwr_keeps (s : State) (x : TArg) (hκ : ρ.Keeps κ s) : TRes.Keeps κ ρ (infoRbwr.body s x) := by
  unfold infoRbwr
  repeat' first
    | intro _
    | with_reducible assumption
    | with_reducible apply bodyRbwr_keeps

theorem infoSbrd_keeps (s : State) (x : TArg) (hκ : ρ.Keeps κ s) : TRes.Keeps κ ρ (infoSbrd.body s x) := by
  unfold infoSbrd
  repeat' first
    | intro _
    | with_reducible assumption
    | with_reducible apply bodySbrd_keeps

theorem infoSbwr_keeps (s : State) (x : TArg) (hκ : ρ.Keeps κ s) : TRes.Keeps κ ρ (infoSbwr.body s x) := by
  unfold infoSbwr
  repeat' first
    | intro _
    | with_reducible assumption
    | with_reducible apply bodySbwr_keeps

theorem execLeave_keeps (t : Nat) (f : TForm) (s : State) (hκ : ρ.Keeps κ s) :
    OKeeps κ ρ (execLeave t f s) := by
  exact tRun_keeps _ _ _ _ _ hκ fun s x h => infoLeave_keeps s x h

theorem execRbrd_keeps (t : Nat) (f : TForm) (s : State) (hκ : ρ.Keeps κ s) :
    OKeeps κ ρ (execRbrd t f s) := by
  exact tRun_keeps _ _ _ _ _ hκ fun s x h => infoRbrd_keeps s x h

theorem execRbwr_keeps (t : Nat) (f : TForm) (s : State) (hκ : ρ.Keeps κ s) :
    OKeeps κ ρ (execRbwr t f s) := by
  exact tRun_keeps _ _ _ _ _ hκ fun s x h => infoRbwr_keeps s x h

theorem execSbrd_keeps (t : Nat) (f : TForm) (s : State) (hκ : ρ.Keeps κ s) :
    OKeeps κ ρ (execSbrd t f s) := by
  unfold execSbrd
  split
  · exact True.intro
  · exact tRun_keeps _ _ _ _ _ hκ fun s x h => infoSbrd_keeps s x h

theorem execSbwr_keeps (t : Nat) (f : TForm) (s : State) (hκ : ρ.Keeps κ s) :
    OKeeps κ ρ (execSbwr t f s) := by
  unfold execSbwr
  split
  · exact True.intro
  · exact tRun_keeps _ _ _ _ _ hκ fun s x h => infoSbwr_keeps s x h

end Sys2Proof.Machine
end

