-- ==== Sys2Proof/Laws/KTillerRun.lean ====
section
/-! SUPPORT. What the changes of state in Machine/TillerRun.lean keep. -/

namespace Sys2Proof.Machine

variable {κ : Kept} {ρ : State}

theorem insnOf_keeps (ins : Instr) (i : TInfo) (t : Nat) (f : TForm) (hi : insnOf ins = some (i, t, f)) (s : State) (x : TArg)
    (hκ : ρ.Keeps κ s) : TRes.Keeps κ ρ (i.body s x) := by
  unfold insnOf at hi
  split at hi
  · cases hi; exact infoNop_keeps s x hκ
  · cases hi; exact infoMov_keeps s x hκ
  · cases hi; exact infoLda_keeps s x hκ
  · cases hi; exact infoLdah_keeps s x hκ
  · cases hi; exact infoLdb_keeps s x hκ
  · cases hi; exact infoLdh_keeps s x hκ
  · cases hi; exact infoSta_keeps s x hκ
  · cases hi; exact infoStb_keeps s x hκ
  · cases hi; exact infoSth_keeps s x hκ
  · cases hi; exact infoLdx_keeps s x hκ
  · cases hi; exact infoLdy_keeps s x hκ
  · cases hi; exact infoStx_keeps s x hκ
  · cases hi; exact infoSty_keeps s x hκ
  · cases hi; exact infoXchg_keeps s x hκ
  · cases hi; exact infoAdd_keeps s x hκ
  · cases hi; exact infoAdc_keeps s x hκ
  · cases hi; exact infoSub_keeps s x hκ
  · cases hi; exact infoSbc_keeps s x hκ
  · cases hi; exact infoCmp_keeps s x hκ
  · cases hi; exact infoAnd_keeps s x hκ
  · cases hi; exact infoOr_keeps s x hκ
  · cases hi; exact infoXor_keeps s x hκ
  · cases hi; exact infoBit_keeps s x hκ
  · cases hi; exact infoCpx_keeps s x hκ
  · cases hi; exact infoCpy_keeps s x hκ
  · cases hi; exact infoShl_keeps s x hκ
  · cases hi; exact infoShr_keeps s x hκ
  · cases hi; exact infoSar_keeps s x hκ
  · cases hi; exact infoRol_keeps s x hκ
  · cases hi; exact infoRor_keeps s x hκ
  · cases hi; exact infoAdx_keeps s x hκ
  · cases hi; exact infoAdy_keeps s x hκ
  · cases hi; exact infoPset_keeps s x hκ
  · cases hi; exact infoPlogAnd_keeps s x hκ
  · cases hi; exact infoPlogOr_keeps s x hκ
  · cases hi; exact infoPlogXor_keeps s x hκ
  · cases hi; exact infoPlogAndNot_keeps s x hκ
  · cases hi; exact infoBra_keeps s x hκ
  · cases hi; exact infoDbnz_keeps s x hκ
  · cases hi; exact infoJmp_keeps s x hκ
  · cases hi; exact infoCall_keeps s x hκ
  · cases hi; exact infoCalla_keeps s x hκ
  · cases hi; exact infoRet_keeps s x hκ
  · cases hi; exact infoWait_keeps s x hκ
  · cases hi; exact infoLdbk_keeps s x hκ
  · cases hi; exact infoUnaNeg_keeps s x hκ
  · cases hi; exact infoUnaNot_keeps s x hκ
  · cases hi; exact infoUnaInc_keeps s x hκ
  · cases hi; exact infoUnaDec_keeps s x hκ
  · cases hi; exact infoUnaSxb_keeps s x hκ
  · cases hi; exact infoUnaSxh_keeps s x hκ
  · cases hi; exact infoUnaZxb_keeps s x hκ
  · cases hi; exact infoUnaZxh_keeps s x hκ
  · cases hi; exact infoFence_keeps s x hκ
  · cases hi; exact infoTrap_keeps s x hκ
  · cases hi; exact infoRte_keeps s x hκ
  · cases hi; exact infoXcall_keeps s x hκ
  · cases hi; exact infoXret_keeps s x hκ
  · cases hi; exact infoMul_keeps s x hκ
  · cases hi; exact infoMuls_keeps s x hκ
  · cases hi; exact infoDsetup_keeps s x hκ
  · cases hi; exact infoDsetups_keeps s x hκ
  · cases hi; exact infoDstep_keeps s x hκ
  · cases hi; exact infoNext_keeps s x hκ
  · cases hi; exact infoFmark_keeps s x hκ
  · cases hi; exact infoFrewind_keeps s x hκ
  · cases hi; exact infoRel_keeps s x hκ
  · cases hi; exact infoFld_keeps s x hκ
  · cases hi; exact infoFst_keeps s x hκ
  · cases hi; exact infoFadd_keeps s x hκ
  · cases hi; exact infoFsub_keeps s x hκ
  · cases hi; exact infoFmul_keeps s x hκ
  · cases hi; exact infoFdiv_keeps s x hκ
  · cases hi; exact infoFma_keeps s x hκ
  · cases hi; exact infoFmaa_keeps s x hκ
  · cases hi; exact infoFcmp_keeps s x hκ
  · cases hi; exact infoFsqrt_keeps s x hκ
  · cases hi; exact infoFcvti_keeps s x hκ
  · cases hi; exact infoFcvtf_keeps s x hκ
  · cases hi; exact infoFneg_keeps s x hκ
  · cases hi; exact infoFabs_keeps s x hκ
  · cases hi; exact infoDispCopy_keeps s x hκ
  · cases hi; exact infoDispFill_keeps s x hκ
  · cases hi; exact infoDispGather_keeps s x hκ
  · cases hi; exact infoDispScatter_keeps s x hκ
  · cases hi; exact infoDispDiscard_keeps s x hκ
  · cases hi; exact infoSend_keeps s x hκ
  · cases hi; exact infoTmr_keeps s x hκ
  · cases hi; exact infoEos_keeps s x hκ
  · cases hi; exact infoParkEnd_keeps s x hκ
  · cases hi; exact infoParkSuspend_keeps s x hκ
  · cases hi; exact infoRcpe_keeps s x hκ
  · cases hi; exact infoLeave_keeps s x hκ
  · cases hi; exact infoRbrd_keeps s x hκ
  · cases hi; exact infoRbwr_keeps s x hκ
  · cases hi; exact infoSbrd_keeps s x hκ
  · cases hi; exact infoSbwr_keeps s x hκ
  · cases hi

theorem execUndefinedOpcode_keeps (t : Nat) (w0 w1 : BitVec 16) (s : State) (hκ : ρ.Keeps κ s) :
    OKeeps κ ρ (execUndefinedOpcode t w0 w1 s) := by
  unfold execUndefinedOpcode
  repeat' first
    | intro _
    | with_reducible assumption
    | with_reducible apply fin_keeps
    | with_reducible apply State.pcPast_keeps
    | with_reducible apply State.doTrap_keeps
    | with_reducible apply State.firstIssue_keeps
    | with_reducible apply insnOf_keeps
    | with_reducible apply State.keeps_ite
    | with_reducible apply okeeps_ite
    | with_reducible apply okeeps_next
    | dsimp only
    | split

theorem State.productNow_keeps (s : State) (t : Nat) (hκ : ρ.Keeps κ s) :
    ρ.Keeps κ (State.productNow s t) := by
  unfold State.productNow
  repeat' first
    | intro _
    | with_reducible assumption
    | with_reducible apply State.modThread_keeps
    | dsimp only
    | split

/-- What a step of a decode-table instruction keeps. -/
def StepRes.Keeps (κ : Kept) (r : State) : StepRes → Prop
  | .done t _ _ => r.Keeps κ t
  | .trap t _ _ => r.Keeps κ t
  | .stall => True
  | .lost t => r.Keeps κ t

theorem State.tableStep_keeps (s : State) (t : Nat) (inv : TForm) (w0 w1 : Nat) (subst : Bool) (hκ : ρ.Keeps κ s) :
    StepRes.Keeps κ ρ (s.tableStep t inv w0 w1 subst) := by
  unfold State.tableStep
  extract_lets f1 f
  split
  · exact hκ
  · split
    · exact hκ
    · split
      · exact hκ
      · rename_i i t' f' hi
        split
        · exact hκ
        · have h1 : ρ.Keeps κ (if i.mul then s.productNow t else s) := State.keeps_ite (State.productNow_keeps _ _ hκ) hκ
          dsimp only
          generalize (if i.mul then s.productNow t else s) = s1 at h1 ⊢
          obtain ⟨ins, _, hins⟩ := Option.bind_eq_some_iff.mp hi
          have hb := insnOf_keeps ins i t' f' hins _ { t, f, step := true } h1
          split <;> rename_i e <;> rw [e] at hb
          · exact State.noted_keeps _ _ _ _ hb
          · exact State.badPkt_keeps _ _ _ _ h1
          · exact hb
          · exact h1
          · exact True.intro
          · exact State.metErr_keeps _ _ _ _ h1

theorem State.tableGo_keeps (t a : Nat) (inv : TForm) (pc : BitVec 16) : ∀ (n k left : Nat) (s : State) (_ : ρ.Keeps κ s) (τ : State),
    State.tableGo t a inv pc n k left s = some τ → ρ.Keeps κ τ := by
  intro n
  induction n with
  | zero => intro k left s h τ e; cases e; exact h
  | succ n ih =>
    intro k left s h τ e
    rw [State.tableGo] at e
    have h1 : ρ.Keeps κ (if left = 0 then s.productNow t else s) := State.keeps_ite (State.productNow_keeps _ _ h) h
    generalize (if left = 0 then s.productNow t else s) = s1 at h1 e
    split at e
    · cases e; exact State.modThread_keeps _ _ _ (State.metErr_keeps _ _ _ _ h1)
    · split at e
      · rename_i u cyc began e2
        have h3 : StepRes.Keeps κ ρ (.done u cyc began) := by
          rw [← e2]; exact State.tableStep_keeps _ _ _ _ _ _ (State.metErr_keeps _ _ _ _ h1)
        split at e
        · cases e; exact State.keeps_ite (State.productNow_keeps _ _ h3) h3
        · exact ih _ _ _ h3 _ e
      · rename_i u c i e2
        have h3 : StepRes.Keeps κ ρ (.trap u c i) := by
          rw [← e2]; exact State.tableStep_keeps _ _ _ _ _ _ (State.metErr_keeps _ _ _ _ h1)
        cases e; exact State.doTrap_keeps _ _ _ _ _ _ (State.modThread_keeps _ _ _ h3)
      · cases e
      · rename_i u e2
        have h3 : StepRes.Keeps κ ρ (.lost u) := by
          rw [← e2]; exact State.tableStep_keeps _ _ _ _ _ _ (State.metErr_keeps _ _ _ _ h1)
        cases e; exact State.modThread_keeps _ _ _ h3

theorem execDecodeTableInsn_keeps (t e : Nat) (f : TForm) (s : State) (hκ : ρ.Keeps κ s) :
    OKeeps κ ρ (execDecodeTableInsn t e f s) := by
  unfold execDecodeTableInsn
  split
  · exact hκ
  · refine okeeps_ite hκ ?_
    extract_lets s1 th
    have h1 : ρ.Keeps κ s1 := State.firstIssue_keeps _ _ hκ
    clear_value s1
    refine okeeps_ite (fin_keeps _ h1) (okeeps_ite (State.pcPast_keeps _ _ _ h1) ?_)
    split
    · rename_i e'; exact fin_keeps _ (State.tableGo_keeps _ _ _ _ _ _ _ _ (State.pcPast_keeps _ _ _ h1) _ e')
    · exact hκ

theorem State.winBrings_keeps (s : State) (w : WinLoad) (data : Bytes) (ok : Bool) (hκ : ρ.Keeps κ s) : ρ.Keeps κ (State.winBrings s w data ok).1 := by
  unfold State.winBrings
  repeat' first
    | intro _
    | with_reducible assumption
    | with_reducible apply State.metErr_keeps
    | with_reducible apply State.hostIn_keeps
    | with_reducible apply State.keeps_ite
    | with_reducible apply State.keeps_elim
    | with_reducible apply State.keeps_fold
    | with_reducible apply SMap.set_wf
    | with_reducible apply Mem.filter_wf
    | with_reducible apply SMap.filter_wf
    | with_reducible apply Mem.wrN_wf
    | with_reducible apply Mem.setLe_wf
    | with_reducible apply Mem.drop_wf
    | with_reducible apply Mem.copyRange_wf
    | dsimp only
    | split

theorem execWindowDataReturn_keeps (t : Nat) (data : Bytes) (ok : Bool) (s : State) (hκ : ρ.Keeps κ s) :
    OKeeps κ ρ (execWindowDataReturn t data ok s) := by
  unfold execWindowDataReturn
  split
  · rename_i w i t' f hw hi
    refine okeeps_ite hκ ?_
    extract_lets ins s1 r
    have h1 : ρ.Keeps κ s1 := State.keeps_ite (State.readOver_keeps _ _ hκ) hκ
    have hr : ρ.Keeps κ r.1 := State.winBrings_keeps _ _ _ _ h1
    clear_value r
    obtain ⟨j, _, hj⟩ := Option.bind_eq_some_iff.mp hi
    split
    · exact tRun_keeps _ _ _ _ _ (State.modThread_keeps _ _ _ hr) fun s x h => insnOf_keeps j i t' f hj s x h
    · exact fin_keeps _ (State.doTrap_keeps _ _ _ _ _ _ (State.modThread_keeps _ _ _ hr))
  · exact hκ

end Sys2Proof.Machine
end

