-- ==== Sys2Proof/Laws/KStart.lean ====
section
/-! SUPPORT. What the changes of state in Machine/Start.lean keep. -/

namespace Sys2Proof.Machine

variable {κ : Kept} {ρ : State}

theorem State.stop_keeps (s : State) (l : Life) (hκ : ρ.Keeps κ s) (hl : κ.life = false) :
    ρ.Keeps κ (State.stop s l) := by
  unfold State.stop
  repeat' first
    | intro _
    | with_reducible assumption
    | with_reducible apply State.setReg_keeps
    | with_reducible apply State.wf_keeps
    | with_reducible apply State.wb_keeps
    | with_reducible apply State.keeps_ite
    | with_reducible apply okeeps_ite
    | with_reducible apply State.keeps_fold
    | dsimp only
    | split
    | with_reducible apply State.keeps_life_hostReady_warnTiming_dack_bscan

theorem State.confirmAll_keeps (s : State) (hκ : ρ.Keeps κ s) :
    ρ.Keeps κ (State.confirmAll s) := by
  unfold State.confirmAll
  refine State.keeps_fold (fun s r h => ?_) _ (State.keeps_jpend hκ _)
  split
  · exact State.put_keeps _ _ _ h
  · exact h

theorem State.cutRecords_keeps (s : State) (hκ : ρ.Keeps κ s) :
    ρ.Keeps κ (State.cutRecords s) := by
  unfold State.cutRecords
  repeat' first
    | intro _
    | with_reducible assumption
    | with_reducible apply State.tick_keeps
    | with_reducible apply State.slot_keeps
    | with_reducible apply State.put_keeps
    | with_reducible apply State.keeps_ite
    | with_reducible apply okeeps_ite
    | with_reducible apply State.keeps_getD
    | dsimp only
    | split
    | with_reducible apply State.keeps_jpend_errs

theorem State.lastDown_keeps (s : State) (cause flush nctx : Nat) (hκ : ρ.Keeps κ s) :
    ρ.Keeps κ (State.lastDown s cause flush nctx) := by
  unfold State.lastDown
  repeat' first
    | intro _
    | with_reducible assumption
    | with_reducible apply State.setReg_keeps

theorem State.flushGo_keeps (s : State) (cause : Nat) (hκ : ρ.Keeps κ s) (hl : κ.life = false) :
    ρ.Keeps κ (State.flushGo s cause) := by
  unfold State.flushGo
  repeat' first
    | intro _
    | with_reducible assumption
    | with_reducible apply State.setReg_keeps
    | with_reducible apply State.stop_keeps
    | with_reducible apply State.lastDown_keeps
    | dsimp only
    | split
    | with_reducible apply State.keeps_flushSt

theorem State.flushEnd_keeps (s : State) (hκ : ρ.Keeps κ s) :
    ρ.Keeps κ (State.flushEnd s) := by
  unfold State.flushEnd
  repeat' first
    | intro _
    | with_reducible assumption
    | with_reducible apply State.put_keeps
    | with_reducible apply State.lastDown_keeps
    | with_reducible apply State.keeps_ite
    | with_reducible apply okeeps_ite
    | dsimp only
    | split
    | with_reducible apply State.keeps_ctx
    | with_reducible apply State.keeps_dirty
    | with_reducible apply State.keeps_flushSt

theorem State.flushAbandon_keeps (s : State) (hκ : ρ.Keeps κ s) :
    ρ.Keeps κ (State.flushAbandon s) := by
  unfold State.flushAbandon
  repeat' first
    | intro _
    | with_reducible assumption
    | with_reducible apply State.tick_keeps
    | with_reducible apply State.lastDown_keeps
    | dsimp only
    | split
    | with_reducible apply State.keeps_dirty
    | with_reducible apply State.keeps_flushSt

theorem State.islandOff_keeps (s : State) (hκ : ρ.Keeps κ s) :
    ρ.Keeps κ (State.islandOff s) := by
  unfold State.islandOff
  repeat' first
    | intro _
    | with_reducible assumption
    | with_reducible apply State.keeps_ite
    | with_reducible apply okeeps_ite
    | with_reducible apply Mem.filter_wf
    | with_reducible apply SMap.filter_wf
    | dsimp only
    | split
    | with_reducible apply State.keeps_regs

theorem execPwrwarnFall_keeps (s : State) (hκ : ρ.Keeps κ s) :
    OKeeps κ ρ (execPwrwarnFall s) := by
  unfold execPwrwarnFall
  repeat' first
    | intro _
    | with_reducible assumption
    | with_reducible apply State.wb_keeps
    | with_reducible apply fin_keeps
    | with_reducible apply State.keeps_ite
    | with_reducible apply okeeps_ite
    | with_reducible apply okeeps_next
    | dsimp only
    | split
    | with_reducible apply State.keeps_warnLow_warnTiming

theorem execPwrwarnFilterExpiry_keeps (s : State) (hκ : ρ.Keeps κ s) (hl : κ.life = false) :
    OKeeps κ ρ (execPwrwarnFilterExpiry s) := by
  unfold execPwrwarnFilterExpiry
  repeat' first
    | intro _
    | with_reducible assumption
    | with_reducible apply fin_keeps
    | with_reducible apply State.confirmAll_keeps
    | with_reducible apply State.flushGo_keeps
    | with_reducible apply State.keeps_ite
    | with_reducible apply okeeps_ite
    | with_reducible apply okeeps_next
    | dsimp only
    | split
    | with_reducible apply State.keeps_warnLow_warnTiming

theorem State.railFail_keeps (s : State) (rail : Nat) (hκ : ρ.Keeps κ s) (hl : κ.life = false) :
    ρ.Keeps κ (State.railFail s rail) := by
  unfold State.railFail
  repeat' first
    | intro _
    | with_reducible assumption
    | with_reducible apply State.wb_keeps
    | with_reducible apply State.cutRecords_keeps
    | with_reducible apply State.lastDown_keeps
    | with_reducible apply State.flushGo_keeps
    | with_reducible apply State.flushAbandon_keeps
    | with_reducible apply State.islandOff_keeps
    | with_reducible apply State.keeps_ite
    | with_reducible apply okeeps_ite
    | dsimp only
    | split
    | with_reducible apply State.keeps_life
    | with_reducible apply State.keeps_mainGood

theorem State.sbFail_keeps (s : State) (hκ : ρ.Keeps κ s) (hl : κ.life = false) :
    ρ.Keeps κ (State.sbFail s) := by
  unfold State.sbFail
  repeat' first
    | intro _
    | with_reducible assumption
    | with_reducible apply State.wb_keeps
    | with_reducible apply State.railFail_keeps
    | dsimp only
    | split
    | with_reducible apply State.keeps_backupOn

theorem execMainRailFail_keeps (rail : Nat) (s : State) (hκ : ρ.Keeps κ s) (hl : κ.life = false) :
    OKeeps κ ρ (execMainRailFail rail s) := by
  unfold execMainRailFail
  repeat' first
    | intro _
    | with_reducible assumption
    | with_reducible apply fin_keeps
    | with_reducible apply State.railFail_keeps
    | with_reducible apply State.sbFail_keeps
    | with_reducible apply State.keeps_ite
    | with_reducible apply okeeps_ite
    | with_reducible apply okeeps_next

theorem execVddSbFail_keeps (s : State) (hκ : ρ.Keeps κ s) (hl : κ.life = false) :
    OKeeps κ ρ (execVddSbFail s) := by
  unfold execVddSbFail
  repeat' first
    | intro _
    | with_reducible assumption
    | with_reducible apply fin_keeps
    | with_reducible apply State.sbFail_keeps
    | with_reducible apply State.keeps_ite
    | with_reducible apply okeeps_ite
    | with_reducible apply okeeps_next

theorem execBackupRegulatorOff_keeps (s : State) (hκ : ρ.Keeps κ s) :
    OKeeps κ ρ (execBackupRegulatorOff s) := by
  unfold execBackupRegulatorOff
  repeat' first
    | intro _
    | with_reducible assumption
    | with_reducible apply fin_keeps
    | with_reducible apply State.keeps_ite
    | with_reducible apply okeeps_ite
    | with_reducible apply okeeps_next
    | dsimp only
    | split
    | with_reducible apply State.keeps_backupOn

theorem execPorstAssert_keeps (ns : Nat) (s : State) (hκ : ρ.Keeps κ s) (hl : κ.life = false) :
    OKeeps κ ρ (execPorstAssert ns s) := by
  unfold execPorstAssert
  repeat' first
    | intro _
    | with_reducible assumption
    | with_reducible apply State.tick_keeps
    | with_reducible apply fin_keeps
    | with_reducible apply State.stop_keeps
    | with_reducible apply State.cutRecords_keeps
    | with_reducible apply State.lastDown_keeps
    | with_reducible apply State.keeps_ite
    | with_reducible apply okeeps_ite
    | with_reducible apply okeeps_next
    | dsimp only
    | split
    | with_reducible apply State.keeps_life
    | with_reducible apply State.keeps_porstLow

theorem execRefclkLoss_keeps (s : State) (hκ : ρ.Keeps κ s) (hl : κ.life = false) :
    OKeeps κ ρ (execRefclkLoss s) := by
  unfold execRefclkLoss
  repeat' first
    | intro _
    | with_reducible assumption
    | with_reducible apply fin_keeps
    | with_reducible apply State.stop_keeps
    | with_reducible apply State.cutRecords_keeps
    | with_reducible apply State.lastDown_keeps
    | with_reducible apply State.flushAbandon_keeps
    | with_reducible apply State.keeps_ite
    | with_reducible apply okeeps_ite
    | with_reducible apply okeeps_next
    | dsimp only
    | split
    | with_reducible apply State.keeps_refclk_slowInternal

theorem State.chooseImage_keeps (s : State) (hκ : ρ.Keeps κ s) :
    ρ.Keeps κ (State.chooseImage s) := by
  unfold State.chooseImage
  repeat' first
    | intro _
    | with_reducible assumption
    | with_reducible apply State.setReg_keeps
    | with_reducible apply State.seedPut_keeps
    | with_reducible apply State.report_keeps
    | with_reducible apply State.setCond_keeps
    | with_reducible apply State.keeps_ite
    | with_reducible apply okeeps_ite
    | dsimp only
    | split
    | with_reducible apply State.keeps_bgCheck

theorem State.applyRegs_keeps (s : State) (hκ : ρ.Keeps κ s) :
    ρ.Keeps κ (State.applyRegs s) := by
  unfold State.applyRegs
  repeat' first
    | intro _
    | with_reducible assumption
    | with_reducible apply State.busWrite_keeps
    | with_reducible apply State.keeps_ite
    | with_reducible apply okeeps_ite
    | with_reducible apply State.keeps_fold

theorem State.nodesOff_keeps (s : State) (hκ : ρ.Keeps κ s) :
    ρ.Keeps κ (State.nodesOff s) := by
  unfold State.nodesOff
  repeat' first
    | intro _
    | with_reducible assumption
    | with_reducible apply State.setNtFlag_keeps
    | with_reducible apply State.keeps_ite
    | with_reducible apply okeeps_ite
    | with_reducible apply State.keeps_fold

theorem State.seedNode_keeps (s : State) (e : Topo) (hκ : ρ.Keeps κ s) :
    ρ.Keeps κ (State.seedNode s e) := by
  unfold State.seedNode
  repeat' first
    | intro _
    | with_reducible assumption
    | with_reducible apply State.ntPut_keeps

theorem State.loadAutostart_keeps (s : State) (hκ : ρ.Keeps κ s) :
    ρ.Keeps κ (State.loadAutostart s) := by
  unfold State.loadAutostart
  repeat' first
    | intro _
    | with_reducible assumption
    | with_reducible apply State.bufPut_keeps
    | dsimp only
    | split

theorem State.applyImage_keeps (s : State) (hκ : ρ.Keeps κ s) :
    ρ.Keeps κ (State.applyImage s) := by
  unfold State.applyImage
  repeat' first
    | intro _
    | with_reducible assumption
    | with_reducible apply State.wf_keeps
    | with_reducible apply State.teStat_keeps
    | with_reducible apply State.applyGroups_keeps
    | with_reducible apply State.imageTiller_keeps
    | with_reducible apply State.applyRegs_keeps
    | with_reducible apply State.nodesOff_keeps
    | with_reducible apply State.seedNode_keeps
    | with_reducible apply State.loadAutostart_keeps
    | with_reducible apply State.keeps_ite
    | with_reducible apply okeeps_ite
    | with_reducible apply State.keeps_fold

theorem State.clocheTask_keeps (s : State) (hκ : ρ.Keeps κ s) :
    ρ.Keeps κ (State.clocheTask s) := by
  unfold State.clocheTask
  repeat' first
    | intro _
    | with_reducible assumption
    | with_reducible apply State.modThread_keeps
    | with_reducible apply Mem.wrN_wf
    | dsimp only
    | split
    | with_reducible apply State.keeps_tmem

theorem State.fresh_keeps (s : State) (a : StartArgs) (hκ : ρ.Keeps κ s) (hl : κ.life = false) :
    ρ.Keeps κ (State.fresh s a) := by
  unfold State.fresh
  extract_lets regs arb t t1 t2 t3
  have h0 : ρ.Keeps κ t :=
    ⟨fun c => by
      have c := hκ.canon c
      constructor <;> first | exact c.seed | exact c.flash | exact SMap.filter_wf _ c.regs | rfl,
     hκ.pending, hκ.free, (fun e => by simp [hl] at e), hκ.flash⟩
  have h1 : ρ.Keeps κ t1 := State.wb_keeps _ _ _ _ (State.wf_keeps _ _ _ _ _ h0)
  clear_value t1
  have h2 : ρ.Keeps κ t2 := State.setReg_keeps _ _ _ (State.setReg_keeps _ _ _ h1)
  clear_value t2
  have h3 : ρ.Keeps κ t3 := State.keeps_fold (fun _ _ h => State.setPdom_keeps _ _ _ h) _ h2
  clear_value t3
  exact State.setReg_keeps _ _ _ h3

theorem State.pairLoad_keeps (s : State) (hκ : ρ.Keeps κ s) :
    ρ.Keeps κ (State.pairLoad s) := by
  unfold State.pairLoad
  repeat' first
    | intro _
    | with_reducible assumption
    | with_reducible apply State.setReg_keeps
    | with_reducible apply State.keeps_ite
    | with_reducible apply okeeps_ite
    | dsimp only
    | split
    | with_reducible apply State.keeps_pair

theorem State.startApply_keeps (s : State) (open_ : Bool) (hκ : ρ.Keeps κ s) :
    ρ.Keeps κ (State.startApply s open_) := by
  unfold State.startApply
  repeat' first
    | intro _
    | with_reducible assumption
    | with_reducible apply State.wf_keeps
    | with_reducible apply State.trainPort_keeps
    | with_reducible apply State.settleAll_keeps
    | with_reducible apply State.chooseImage_keeps
    | with_reducible apply State.nodesOff_keeps
    | with_reducible apply State.applyImage_keeps
    | with_reducible apply State.clocheTask_keeps
    | with_reducible apply State.pairLoad_keeps
    | with_reducible apply State.autostart_keeps
    | with_reducible apply State.resolve_keeps
    | with_reducible apply State.keeps_ite
    | with_reducible apply okeeps_ite
    | with_reducible apply State.keeps_fold

theorem State.startRun_keeps (s : State) (hκ : ρ.Keeps κ s) (hl : κ.life = false) :
    ρ.Keeps κ (State.startRun s) := by
  unfold State.startRun
  repeat' first
    | intro _
    | with_reducible assumption
    | with_reducible apply State.setReg_keeps
    | with_reducible apply State.wf_keeps
    | with_reducible apply State.report_keeps
    | with_reducible apply State.linkUp_keeps
    | with_reducible apply State.clocheTask_keeps
    | with_reducible apply State.startApply_keeps
    | with_reducible apply State.keeps_ite
    | with_reducible apply okeeps_ite
    | with_reducible apply State.keeps_fold
    | with_reducible apply Mem.filter_wf
    | with_reducible apply SMap.filter_wf
    | dsimp only
    | split
    | with_reducible apply State.keeps_hostReady
    | with_reducible apply State.keeps_life
    | with_reducible apply State.keeps_slowInternal

theorem State.tryStart_keeps (s : State) (hκ : ρ.Keeps κ s) (hl : κ.life = false) :
    ρ.Keeps κ (State.tryStart s) := by
  unfold State.tryStart
  repeat' first
    | intro _
    | with_reducible assumption
    | with_reducible apply State.wf_keeps
    | with_reducible apply State.startRun_keeps
    | with_reducible apply State.keeps_ite

theorem State.startGo_keeps (s : State) (a : StartArgs) (hκ : ρ.Keeps κ s) (hl : κ.life = false) :
    ρ.Keeps κ (State.startGo s a) := by
  unfold State.startGo
  repeat' first
    | intro _
    | with_reducible assumption
    | with_reducible apply State.flushEnd_keeps
    | with_reducible apply State.fresh_keeps
    | with_reducible apply State.tryStart_keeps

theorem execDeviceStart_keeps (pairId : Bool) (smbA : BitVec 3) (selfTest : List Nat) (repaired : BitVec 8) (ms : BitVec 16) (s : State) (hκ : ρ.Keeps κ s) (hl : κ.life = false) :
    OKeeps κ ρ (execDeviceStart pairId smbA selfTest repaired ms s) := by
  unfold execDeviceStart
  repeat' first
    | intro _
    | with_reducible assumption
    | with_reducible apply fin_keeps
    | with_reducible apply State.startGo_keeps
    | with_reducible apply State.keeps_ite
    | with_reducible apply okeeps_ite
    | with_reducible apply okeeps_next

theorem execPwrwarnRise_keeps (s : State) (hκ : ρ.Keeps κ s) (hl : κ.life = false) :
    OKeeps κ ρ (execPwrwarnRise s) := by
  unfold execPwrwarnRise
  repeat' first
    | intro _
    | with_reducible assumption
    | with_reducible apply State.wb_keeps
    | with_reducible apply fin_keeps
    | with_reducible apply State.tryStart_keeps
    | with_reducible apply State.startGo_keeps
    | with_reducible apply State.keeps_ite
    | with_reducible apply okeeps_ite
    | with_reducible apply okeeps_next
    | dsimp only
    | split
    | with_reducible apply State.keeps_warnLow_warnTiming

theorem execVbakLow_keeps (mv : BitVec 12) (s : State) (hκ : ρ.Keeps κ s) :
    OKeeps κ ρ (execVbakLow mv s) := by
  unfold execVbakLow
  repeat' first
    | intro _
    | with_reducible assumption
    | with_reducible apply State.wf_keeps
    | with_reducible apply State.wb_keeps
    | with_reducible apply State.setCond_keeps
    | with_reducible apply fin_keeps
    | with_reducible apply State.islandOff_keeps
    | with_reducible apply State.keeps_ite
    | with_reducible apply okeeps_ite

theorem execVbakGood_keeps (mv : BitVec 12) (s : State) (hκ : ρ.Keeps κ s) (hl : κ.life = false) :
    OKeeps κ ρ (execVbakGood mv s) := by
  unfold execVbakGood
  repeat' first
    | intro _
    | with_reducible assumption
    | with_reducible apply State.wf_keeps
    | with_reducible apply State.wb_keeps
    | with_reducible apply State.setCond_keeps
    | with_reducible apply fin_keeps
    | with_reducible apply State.tryStart_keeps
    | with_reducible apply okeeps_next
    | dsimp only
    | split

end Sys2Proof.Machine
end

