-- ==== Sys2Proof/Laws/KClock.lean ====
section
/-! SUPPORT. What the changes of state in Machine/Clock.lean keep. -/

namespace Sys2Proof.Machine

variable {κ : Kept} {ρ : State}

theorem idleTick_keeps (s : State) (hκ : ρ.Keeps κ s) :
    ρ.Keeps κ (idleTick s) := by
  unfold idleTick
  repeat' first
    | intro _
    | with_reducible assumption
    | with_reducible apply State.flushEnd_keeps
    | with_reducible apply State.keeps_ite
    | with_reducible apply okeeps_ite
    | dsimp only
    | split
    | with_reducible apply State.keeps_time_rate

end Sys2Proof.Machine
end

