-- ==== Sys2Proof/Laws/Registers.lean ====
section
/-! SUPPORT. Bit fields of numbers, and the registers: a field reads as last written, and every other register and field is as
before. -/

namespace Sys2Proof.Machine

/-! ## Bit fields -/

/-- A number with a field replaced: what lies above the field, the field, what lies below it. -/
theorem setBits_eq (v lo w x : Nat) : setBits v lo w x = (v / 2 ^ lo / 2 ^ w * 2 ^ w + x % 2 ^ w) * 2 ^ lo + v % 2 ^ lo := by
  unfold setBits bits
  have a := Nat.div_add_mod v (2 ^ lo)
  have b := Nat.div_add_mod (v / 2 ^ lo) (2 ^ w)
  have c : v / 2 ^ lo % 2 ^ w * 2 ^ lo ≤ v := by
    calc v / 2 ^ lo % 2 ^ w * 2 ^ lo ≤ v / 2 ^ lo * 2 ^ lo := Nat.mul_le_mul_right _ (Nat.mod_le _ _)
      _ ≤ v := Nat.div_mul_le_self _ _
  zify [c]
  have a' : ((v : ℤ)) = 2 ^ lo * ((v / 2 ^ lo : ℕ) : ℤ) + ((v % 2 ^ lo : ℕ) : ℤ) := by exact_mod_cast a.symm
  have b' : (((v / 2 ^ lo : ℕ)) : ℤ) = 2 ^ w * ((v / 2 ^ lo / 2 ^ w : ℕ) : ℤ) + ((v / 2 ^ lo % 2 ^ w : ℕ) : ℤ) := by
    exact_mod_cast b.symm
  push_cast at a' b' ⊢
  linear_combination a' + 2 ^ lo * b'

/-- What lies from the field on. -/
theorem setBits_div (v lo w x : Nat) : setBits v lo w x / 2 ^ lo = v / 2 ^ lo / 2 ^ w * 2 ^ w + x % 2 ^ w := by
  rw [setBits_eq, Nat.add_comm, Nat.add_mul_div_right _ _ (Nat.two_pow_pos lo), Nat.div_eq_of_lt (Nat.mod_lt _ (Nat.two_pow_pos lo)),
    Nat.zero_add]

/-- What lies below the field is as before. -/
theorem setBits_mod (v lo w x : Nat) : setBits v lo w x % 2 ^ lo = v % 2 ^ lo := by
  rw [setBits_eq, Nat.add_comm, Nat.add_mul_mod_self_right, Nat.mod_mod]

/-- A field written reads back. -/
@[simp] theorem bits_setBits (v lo w x : Nat) : bits (setBits v lo w x) lo w = x % 2 ^ w := by
  rw [bits, setBits_div, Nat.add_comm, Nat.add_mul_mod_self_right, Nat.mod_mod]

/-- A field above the one written is as before. -/
theorem bits_setBits_above (v lo w x lo' w' : Nat) (h : lo + w ≤ lo') : bits (setBits v lo w x) lo' w' = bits v lo' w' := by
  have e : 2 ^ lo' = 2 ^ lo * 2 ^ w * 2 ^ (lo' - lo - w) := by rw [← Nat.pow_add, ← Nat.pow_add]; congr 1; omega
  unfold bits
  rw [e, ← Nat.div_div_eq_div_mul, ← Nat.div_div_eq_div_mul, ← Nat.div_div_eq_div_mul, ← Nat.div_div_eq_div_mul, setBits_div,
    Nat.add_comm (_ * _), Nat.add_mul_div_right _ _ (Nat.two_pow_pos w), Nat.div_eq_of_lt (Nat.mod_lt x (Nat.two_pow_pos w)), Nat.zero_add]

/-- A field below the one written is as before. -/
theorem bits_setBits_below (v lo w x lo' w' : Nat) (h : lo' + w' ≤ lo) : bits (setBits v lo w x) lo' w' = bits v lo' w' := by
  have key : ∀ u, bits u lo' w' = u % 2 ^ lo / 2 ^ lo' % 2 ^ w' := fun u => by
    have e : 2 ^ lo = 2 ^ lo' * 2 ^ (lo - lo') := by rw [← Nat.pow_add]; congr 1; omega
    have d : 2 ^ w' ∣ 2 ^ (lo - lo') := Nat.pow_dvd_pow 2 (by omega)
    rw [bits, e, Nat.mod_mul_right_div_self, Nat.mod_mod_of_dvd _ d]
  rw [key, key, setBits_mod]

/-- A number of 32 bits stays one. -/
theorem setBits_lt {v lo w : Nat} (x : Nat) (hv : v < 2 ^ 32) (h : lo + w ≤ 32) : setBits v lo w x < 2 ^ 32 := by
  have e : (2 : Nat) ^ 32 = 2 ^ (32 - lo - w) * 2 ^ w * 2 ^ lo := by rw [← Nat.pow_add, ← Nat.pow_add]; congr 1; omega
  have a : v / 2 ^ lo / 2 ^ w < 2 ^ (32 - lo - w) := by
    rw [Nat.div_div_eq_div_mul, Nat.div_lt_iff_lt_mul (Nat.mul_pos (Nat.two_pow_pos _) (Nat.two_pow_pos _))]
    calc v < 2 ^ 32 := hv
      _ = 2 ^ (32 - lo - w) * (2 ^ lo * 2 ^ w) := by rw [e]; ring
  have b := Nat.mod_lt x (Nat.two_pow_pos w)
  have c := Nat.mod_lt v (Nat.two_pow_pos lo)
  rw [setBits_eq, e]
  have h1 : v / 2 ^ lo / 2 ^ w * 2 ^ w + x % 2 ^ w + 1 ≤ 2 ^ (32 - lo - w) * 2 ^ w := by
    calc v / 2 ^ lo / 2 ^ w * 2 ^ w + x % 2 ^ w + 1 ≤ v / 2 ^ lo / 2 ^ w * 2 ^ w + 2 ^ w := by omega
      _ = (v / 2 ^ lo / 2 ^ w + 1) * 2 ^ w := by ring
      _ ≤ 2 ^ (32 - lo - w) * 2 ^ w := Nat.mul_le_mul_right _ a
  calc (v / 2 ^ lo / 2 ^ w * 2 ^ w + x % 2 ^ w) * 2 ^ lo + v % 2 ^ lo
      < (v / 2 ^ lo / 2 ^ w * 2 ^ w + x % 2 ^ w) * 2 ^ lo + 2 ^ lo := by omega
    _ = (v / 2 ^ lo / 2 ^ w * 2 ^ w + x % 2 ^ w + 1) * 2 ^ lo := by ring
    _ ≤ 2 ^ (32 - lo - w) * 2 ^ w * 2 ^ lo := Nat.mul_le_mul_right _ h1

/-- A bit is the field of width one. -/
theorem bitOn_eq_bits (v k : Nat) : bitOn v k = decide (bits v k 1 = 1) := by simp [bitOn, bits]

/-! ## Registers -/

variable {s : State}

/-- A register reads as last written. -/
theorem State.reg_setReg (h : SMap.wf regReset s.regs = true) (o : Nat) (w : Word) : (s.setReg o w).reg o = w := SMap.get_set_same o w h

/-- A write leaves every other register alone. -/
theorem State.reg_setReg_ne (s : State) {o p : Nat} (w : Word) (h : p ≠ o) : (s.setReg o w).reg p = s.reg p := SMap.get_set_ne _ _ h

/-- A register is a number of 32 bits. -/
theorem State.rn_lt (s : State) (o : Nat) : s.rn o < 2 ^ 32 := (s.reg o).isLt

/-- A field written: the register as a number. -/
theorem State.rn_wf (h : SMap.wf regReset s.regs = true) (o lo w x : Nat) (hw : lo + w ≤ 32) :
    (s.wf o lo w x).rn o = setBits (s.rn o) lo w x := by
  unfold State.rn State.wf
  rw [State.reg_setReg h, BitVec.toNat_ofNat, Nat.mod_eq_of_lt (setBits_lt x (s.rn_lt o) hw)]
  rfl

/-- A field written leaves every other register alone. -/
theorem State.reg_wf_ne (s : State) {o p : Nat} (lo w x : Nat) (h : p ≠ o) : (s.wf o lo w x).reg p = s.reg p := State.reg_setReg_ne s _ h

/-- A field reads as last written. -/
theorem State.rf_wf (h : SMap.wf regReset s.regs = true) (o lo w x : Nat) (hw : lo + w ≤ 32) : (s.wf o lo w x).rf o lo w = x % 2 ^ w := by
  unfold State.rf
  rw [State.rn_wf h o lo w x hw, bits_setBits]

/-- A field written leaves the register's other fields alone. -/
theorem State.rf_wf_other (h : SMap.wf regReset s.regs = true) (o lo w x lo' w' : Nat) (hw : lo + w ≤ 32) (hd : lo + w ≤ lo' ∨ lo' + w' ≤ lo) :
    (s.wf o lo w x).rf o lo' w' = s.rf o lo' w' := by
  unfold State.rf
  rw [State.rn_wf h o lo w x hw]
  rcases hd with hd | hd
  · exact bits_setBits_above _ _ _ _ _ _ hd
  · exact bits_setBits_below _ _ _ _ _ _ hd

/-- A field of another register is as before. -/
theorem State.rf_wf_ne (s : State) {o p : Nat} (lo w x lo' w' : Nat) (h : p ≠ o) : (s.wf o lo w x).rf p lo' w' = s.rf p lo' w' := by
  unfold State.rf State.rn
  rw [State.reg_wf_ne s _ _ _ h]

/-- A field write keeps the canonical form. -/
theorem State.regs_setReg_wf (h : SMap.wf regReset s.regs = true) (o : Nat) (w : Word) : SMap.wf regReset (s.setReg o w).regs = true :=
  SMap.set_wf o w h

theorem State.regs_wf_wf (h : SMap.wf regReset s.regs = true) (o lo w x : Nat) : SMap.wf regReset (s.wf o lo w x).regs = true :=
  SMap.set_wf o _ h

/-- A bit written reads back. -/
theorem State.rb_wb (h : SMap.wf regReset s.regs = true) (o k : Nat) (b : Bool) (hk : k < 32) : (s.wb o k b).rb o k = b := by
  unfold State.rb State.wb
  rw [bitOn_eq_bits, State.rn_wf h o k 1 _ (by omega), bits_setBits]
  cases b <;> simp [b2n]

end Sys2Proof.Machine
end

