-- ==== Sys2Proof/Laws/Tiller.lean ====
section
/-! SUPPORT. What one Tiller instruction comes to (`tRun`), by the outcome of its effect; its operands. -/

namespace Sys2Proof.Machine

variable {s s' : State} {t : Nat} {f : TForm} {ins : Instr} {i : TInfo}

/-- A thread that cannot issue leaves the state as it is. -/
theorem tRun_idle (h : s.canIssue t = false) : tRun ins i t f s = .next s := by
  simp [tRun, h]

/-- A thread that issues carries out the instruction: nothing comes before it. -/
theorem tRun_issues (h : Issues s t) : tRun ins i t f s = tExec ins i t f s := by
  obtain ⟨hc, hf, _, he, _⟩ := h
  have h1 : s.firstIssue t = s := by simp [State.firstIssue, hf]
  have h2 : ∀ k, s.cwWorst .tiller k k = 0 := by simp [State.cwWorst, he]
  simp [tRun, hc, h1, h2, State.metErr]

/-- With no codeword error, an instruction is followed by the look at its packet alone (R455). -/
theorem State.noted_plain (h : s.errs = []) (x : TArg) (ea : Option Nat) : s.noted s' x ea = s'.windowRead x.t ea := by
  simp [State.noted, h]

/-- A thread with no window data in hand has none to use up. -/
theorem State.winClear_none (h : (s.thread t).winGot = []) : s.winClear t = s := by simp [State.winClear, h]

/-- An instruction whose guard does not hold only advances PC (R171). -/
theorem tRun_skip (h : Issues s t) (hg : opGuard f (s.thread t) = false) :
    tRun ins i t f s = .next (s.pcPast t (opSize f)) := by
  rw [tRun_issues h]
  simp [tExec, hg, tEnd, State.pcPast, State.modThread, State.setThread, h.2.2.2.2]

/-- An instruction that is not allowed traps ILLEGAL (R176, R199, R203, R213). -/
theorem tRun_illegal (h : Ready s t f) (hm : i.mul = true → (s.thread t).mrdy = true) {n : Nat}
    (hr : i.refused f (s.thread t) false = some n) : tRun ins i t f s = fin (s.doTrap t 4 n (opSize f) 0) := by
  have h2 : (i.mul && !(s.thread t).mrdy) = false := by cases hi : i.mul <;> simp_all
  rw [tRun_issues h.1]
  simp [tExec, h.2, h2, hr]

/-- An instruction whose effect is done. -/
theorem tRun_done (h : Ready s t f) (hm : i.mul = true → (s.thread t).mrdy = true) (hr : i.refused f (s.thread t) false = none)
    (hb : i.body (s.pcPast t (opSize f)) { t, f } = .done s') :
    tRun ins i t f s = tEnd i.unit ((s'.windowRead t (i.ea? f (s.thread t))).winClear t) := by
  have h2 : (i.mul && !(s.thread t).mrdy) = false := by cases hi : i.mul <;> simp_all
  rw [tRun_issues h.1]
  simp [tExec, h.2, h2, hr, hb, State.noted_plain h.1.2.2.2.1]

/-- An instruction whose effect is a trap (R182). -/
theorem tRun_trap (h : Ready s t f) (hm : i.mul = true → (s.thread t).mrdy = true) (hr : i.refused f (s.thread t) false = none)
    {c n : Nat} (hb : i.body (s.pcPast t (opSize f)) { t, f } = .trap c n) :
    tRun ins i t f s = fin (((s.badPkt t c n).winClear t).doTrap t c n (opSize f) 0) := by
  have h2 : (i.mul && !(s.thread t).mrdy) = false := by cases hi : i.mul <;> simp_all
  rw [tRun_issues h.1]
  simp [tExec, h.2, h2, hr, hb]

/-- An instruction whose operand waits for the host (R165). -/
theorem tRun_hold (h : Ready s t f) (hm : i.mul = true → (s.thread t).mrdy = true) (hr : i.refused f (s.thread t) false = none)
    (hb : i.body (s.pcPast t (opSize f)) { t, f } = .hold s') :
    tRun ins i t f s = fin (s'.modThread t fun h => { h with pc := (s.thread t).pc, load := some ins }) := by
  have h2 : (i.mul && !(s.thread t).mrdy) = false := by cases hi : i.mul <;> simp_all
  rw [tRun_issues h.1]
  simp [tExec, h.2, h2, hr, hb]

/-- An instruction outside Cloche mode's rows, of a form its row allows, is allowed in normal mode (R176). -/
theorem refused_none (hc : i.cloche = false) (hl : i.legal f = true) (hm : i.routine = true ∨ (s.thread t).mode ≠ 1) :
    i.refused f (s.thread t) false = none := by
  rcases hm with h | h <;> simp [TInfo.refused, hc, hl, h]

/-- An operand that reads gives its value to what follows. -/
theorem State.operand_reads {n v : Nat} (h : Reads s t f n v) (k : Nat → TRes) : s.operand { t, f } n k = k v := by
  unfold Reads at h
  unfold State.operand
  dsimp only
  split at h
  · rename_i e; simp [e, h]
  · rename_i ea e
    obtain ⟨b, hb, rfl⟩ := h
    simp [e, hb, MRes.go]

/-- The same for the 16-bit operand of an index register. -/
theorem State.operandLow_reads {v : Nat} (h : ReadsLow s t f v) (k : Nat → TRes) : s.operandLow { t, f } 2 k = k v := by
  unfold ReadsLow at h
  unfold State.operandLow
  cases f with
  | short g k' o =>
    obtain ⟨w, hw, rfl⟩ := h
    simp only
    rw [State.operand_reads hw]
  | long a b c d => simp only at h ⊢; rw [State.operand_reads h]

/-- The same for floating-point operands. -/
theorem State.fpOperand_reads {k : Nat} {b : Bytes} (h : ReadsFp s t f k b) (g : Bytes → TRes) :
    s.fpOperand { t, f } k g = g b := by
  obtain ⟨ea, he, hb⟩ := h
  unfold State.fpOperand
  simp only [he]
  simp only [hb, MRes.go]

end Sys2Proof.Machine
end

