-- ==== Sys2Proof/Laws/State.lean ====
section
/-! SUPPORT. The fields of a state after each update: what it wrote, and every other field and table as before. -/

namespace Sys2Proof.Machine

variable (s : State)

/-- A register replaced. -/
@[simp] theorem State.setReg_fields (o : Nat) (w : Word) :
    (s.setReg o w).life = s.life ∧ (s.setReg o w).startArgs = s.startArgs ∧ (s.setReg o w).hostReady = s.hostReady ∧
    (s.setReg o w).porstLow = s.porstLow ∧ (s.setReg o w).mainGood = s.mainGood ∧ (s.setReg o w).refclk = s.refclk ∧
    (s.setReg o w).warnLow = s.warnLow ∧ (s.setReg o w).warnTiming = s.warnTiming ∧ (s.setReg o w).backupOn = s.backupOn ∧
    (s.setReg o w).slowInternal = s.slowInternal ∧ (s.setReg o w).errA = s.errA ∧ (s.setReg o w).errB = s.errB ∧ (s.setReg o w).spiCsN = s.spiCsN ∧
    (s.setReg o w).spiClk = s.spiClk ∧ (s.setReg o w).spiDrive = s.spiDrive ∧ (s.setReg o w).dack = s.dack ∧ (s.setReg o w).dreq = s.dreq ∧
    (s.setReg o w).dackWait = s.dackWait ∧ (s.setReg o w).time = s.time ∧ (s.setReg o w).rate = s.rate ∧ (s.setReg o w).ptmOpen = s.ptmOpen ∧
    (s.setReg o w).ptmFails = s.ptmFails ∧ (s.setReg o w).applied = s.applied ∧ (s.setReg o w).fns = s.fns ∧ (s.setReg o w).msix = s.msix ∧
    (s.setReg o w).pba = s.pba ∧ (s.setReg o w).hostOut = s.hostOut ∧ (s.setReg o w).reads = s.reads ∧ (s.setReg o w).readWait = s.readWait ∧
    (s.setReg o w).fab = s.fab ∧ (s.setReg o w).fbLast = s.fbLast ∧ (s.setReg o w).reply = s.reply ∧ (s.setReg o w).smbAddr = s.smbAddr ∧
    (s.setReg o w).seed = s.seed ∧ (s.setReg o w).flash = s.flash ∧ (s.setReg o w).buf = s.buf ∧ (s.setReg o w).ctx = s.ctx ∧
    (s.setReg o w).tmem = s.tmem ∧ (s.setReg o w).tpriv = s.tpriv ∧ (s.setReg o w).vnode = s.vnode ∧ (s.setReg o w).vnodes = s.vnodes ∧
    (s.setReg o w).cached = s.cached ∧ (s.setReg o w).dirty = s.dirty ∧ (s.setReg o w).dirtyWait = s.dirtyWait ∧ (s.setReg o w).loading = s.loading ∧
    (s.setReg o w).queues = s.queues ∧ (s.setReg o w).chains = s.chains ∧ (s.setReg o w).threads = s.threads ∧ (s.setReg o w).rakeRR = s.rakeRR ∧
    (s.setReg o w).claimTag = s.claimTag ∧ (s.setReg o w).sources = s.sources ∧ (s.setReg o w).furrows = s.furrows ∧ (s.setReg o w).xfers = s.xfers ∧
    (s.setReg o w).nextXfer = s.nextXfer ∧ (s.setReg o w).stamp = s.stamp ∧ (s.setReg o w).chans = s.chans ∧ (s.setReg o w).ports = s.ports ∧
    (s.setReg o w).ops = s.ops ∧ (s.setReg o w).inbox = s.inbox ∧ (s.setReg o w).ophGen = s.ophGen ∧ (s.setReg o w).ophUse = s.ophUse ∧
    (s.setReg o w).endedAt = s.endedAt ∧ (s.setReg o w).txns = s.txns ∧ (s.setReg o w).slots = s.slots ∧ (s.setReg o w).waits = s.waits ∧
    (s.setReg o w).resq = s.resq ∧ (s.setReg o w).recov = s.recov ∧ (s.setReg o w).relNeeded = s.relNeeded ∧ (s.setReg o w).jpend = s.jpend ∧
    (s.setReg o w).jslots = s.jslots ∧ (s.setReg o w).jpos = s.jpos ∧ (s.setReg o w).owed = s.owed ∧ (s.setReg o w).autoWait = s.autoWait ∧
    (s.setReg o w).ckStart = s.ckStart ∧ (s.setReg o w).ckFrom = s.ckFrom ∧ (s.setReg o w).flushSt = s.flushSt ∧ (s.setReg o w).vstage = s.vstage ∧
    (s.setReg o w).vover = s.vover ∧ (s.setReg o w).upd = s.upd ∧ (s.setReg o w).bgCheck = s.bgCheck ∧ (s.setReg o w).errs = s.errs ∧
    (s.setReg o w).due = s.due ∧ (s.setReg o w).conds = s.conds ∧ (s.setReg o w).pair = s.pair ∧ (s.setReg o w).jtagIr = s.jtagIr ∧
    (s.setReg o w).bscan = s.bscan ∧ (s.setReg o w).bistDom = s.bistDom ∧ (s.setReg o w).freeCtr = s.freeCtr ∧ (s.setReg o w).pending = s.pending := by
  repeat' constructor

@[simp] theorem State.setReg_reads (o : Nat) (w : Word) (j : Nat) :
    (s.setReg o w).queue j = s.queue j ∧ (s.setReg o w).chain j = s.chain j ∧ (s.setReg o w).thread j = s.thread j ∧ (s.setReg o w).src j = s.src j ∧
    (s.setReg o w).furrow j = s.furrow j ∧ (s.setReg o w).xfer j = s.xfer j ∧ (s.setReg o w).chan j = s.chan j ∧ (s.setReg o w).port j = s.port j ∧
    (s.setReg o w).op j = s.op j ∧ (s.setReg o w).txn j = s.txn j ∧ (s.setReg o w).holder j = s.holder j ∧ (s.setReg o w).wait j = s.wait j ∧
    (s.setReg o w).fnc j = s.fnc j ∧ (s.setReg o w).vec j = s.vec j ∧ (s.setReg o w).pbit j = s.pbit j ∧ (s.setReg o w).appReg j = s.appReg j := by
  repeat' constructor

/-- An applied value replaced. -/
@[simp] theorem State.setApp_fields (o : Nat) (w : Word) :
    (s.setApp o w).life = s.life ∧ (s.setApp o w).startArgs = s.startArgs ∧ (s.setApp o w).hostReady = s.hostReady ∧
    (s.setApp o w).porstLow = s.porstLow ∧ (s.setApp o w).mainGood = s.mainGood ∧ (s.setApp o w).refclk = s.refclk ∧
    (s.setApp o w).warnLow = s.warnLow ∧ (s.setApp o w).warnTiming = s.warnTiming ∧ (s.setApp o w).backupOn = s.backupOn ∧
    (s.setApp o w).slowInternal = s.slowInternal ∧ (s.setApp o w).errA = s.errA ∧ (s.setApp o w).errB = s.errB ∧ (s.setApp o w).spiCsN = s.spiCsN ∧
    (s.setApp o w).spiClk = s.spiClk ∧ (s.setApp o w).spiDrive = s.spiDrive ∧ (s.setApp o w).dack = s.dack ∧ (s.setApp o w).dreq = s.dreq ∧
    (s.setApp o w).dackWait = s.dackWait ∧ (s.setApp o w).time = s.time ∧ (s.setApp o w).rate = s.rate ∧ (s.setApp o w).ptmOpen = s.ptmOpen ∧
    (s.setApp o w).ptmFails = s.ptmFails ∧ (s.setApp o w).regs = s.regs ∧ (s.setApp o w).fns = s.fns ∧ (s.setApp o w).msix = s.msix ∧
    (s.setApp o w).pba = s.pba ∧ (s.setApp o w).hostOut = s.hostOut ∧ (s.setApp o w).reads = s.reads ∧ (s.setApp o w).readWait = s.readWait ∧
    (s.setApp o w).fab = s.fab ∧ (s.setApp o w).fbLast = s.fbLast ∧ (s.setApp o w).reply = s.reply ∧ (s.setApp o w).smbAddr = s.smbAddr ∧
    (s.setApp o w).seed = s.seed ∧ (s.setApp o w).flash = s.flash ∧ (s.setApp o w).buf = s.buf ∧ (s.setApp o w).ctx = s.ctx ∧
    (s.setApp o w).tmem = s.tmem ∧ (s.setApp o w).tpriv = s.tpriv ∧ (s.setApp o w).vnode = s.vnode ∧ (s.setApp o w).vnodes = s.vnodes ∧
    (s.setApp o w).cached = s.cached ∧ (s.setApp o w).dirty = s.dirty ∧ (s.setApp o w).dirtyWait = s.dirtyWait ∧ (s.setApp o w).loading = s.loading ∧
    (s.setApp o w).queues = s.queues ∧ (s.setApp o w).chains = s.chains ∧ (s.setApp o w).threads = s.threads ∧ (s.setApp o w).rakeRR = s.rakeRR ∧
    (s.setApp o w).claimTag = s.claimTag ∧ (s.setApp o w).sources = s.sources ∧ (s.setApp o w).furrows = s.furrows ∧ (s.setApp o w).xfers = s.xfers ∧
    (s.setApp o w).nextXfer = s.nextXfer ∧ (s.setApp o w).stamp = s.stamp ∧ (s.setApp o w).chans = s.chans ∧ (s.setApp o w).ports = s.ports ∧
    (s.setApp o w).ops = s.ops ∧ (s.setApp o w).inbox = s.inbox ∧ (s.setApp o w).ophGen = s.ophGen ∧ (s.setApp o w).ophUse = s.ophUse ∧
    (s.setApp o w).endedAt = s.endedAt ∧ (s.setApp o w).txns = s.txns ∧ (s.setApp o w).slots = s.slots ∧ (s.setApp o w).waits = s.waits ∧
    (s.setApp o w).resq = s.resq ∧ (s.setApp o w).recov = s.recov ∧ (s.setApp o w).relNeeded = s.relNeeded ∧ (s.setApp o w).jpend = s.jpend ∧
    (s.setApp o w).jslots = s.jslots ∧ (s.setApp o w).jpos = s.jpos ∧ (s.setApp o w).owed = s.owed ∧ (s.setApp o w).autoWait = s.autoWait ∧
    (s.setApp o w).ckStart = s.ckStart ∧ (s.setApp o w).ckFrom = s.ckFrom ∧ (s.setApp o w).flushSt = s.flushSt ∧ (s.setApp o w).vstage = s.vstage ∧
    (s.setApp o w).vover = s.vover ∧ (s.setApp o w).upd = s.upd ∧ (s.setApp o w).bgCheck = s.bgCheck ∧ (s.setApp o w).errs = s.errs ∧
    (s.setApp o w).due = s.due ∧ (s.setApp o w).conds = s.conds ∧ (s.setApp o w).pair = s.pair ∧ (s.setApp o w).jtagIr = s.jtagIr ∧
    (s.setApp o w).bscan = s.bscan ∧ (s.setApp o w).bistDom = s.bistDom ∧ (s.setApp o w).freeCtr = s.freeCtr ∧ (s.setApp o w).pending = s.pending := by
  repeat' constructor

@[simp] theorem State.setApp_reads (o : Nat) (w : Word) (j : Nat) :
    (s.setApp o w).queue j = s.queue j ∧ (s.setApp o w).chain j = s.chain j ∧ (s.setApp o w).thread j = s.thread j ∧ (s.setApp o w).src j = s.src j ∧
    (s.setApp o w).furrow j = s.furrow j ∧ (s.setApp o w).xfer j = s.xfer j ∧ (s.setApp o w).chan j = s.chan j ∧ (s.setApp o w).port j = s.port j ∧
    (s.setApp o w).op j = s.op j ∧ (s.setApp o w).txn j = s.txn j ∧ (s.setApp o w).holder j = s.holder j ∧ (s.setApp o w).wait j = s.wait j ∧
    (s.setApp o w).fnc j = s.fnc j ∧ (s.setApp o w).vec j = s.vec j ∧ (s.setApp o w).pbit j = s.pbit j ∧ (s.setApp o w).reg j = s.reg j := by
  repeat' constructor

/-- A free value used. -/
@[simp] theorem State.tick_fields  :
    (s.tick).life = s.life ∧ (s.tick).startArgs = s.startArgs ∧ (s.tick).hostReady = s.hostReady ∧ (s.tick).porstLow = s.porstLow ∧
    (s.tick).mainGood = s.mainGood ∧ (s.tick).refclk = s.refclk ∧ (s.tick).warnLow = s.warnLow ∧ (s.tick).warnTiming = s.warnTiming ∧
    (s.tick).backupOn = s.backupOn ∧ (s.tick).slowInternal = s.slowInternal ∧ (s.tick).errA = s.errA ∧ (s.tick).errB = s.errB ∧
    (s.tick).spiCsN = s.spiCsN ∧ (s.tick).spiClk = s.spiClk ∧ (s.tick).spiDrive = s.spiDrive ∧ (s.tick).dack = s.dack ∧ (s.tick).dreq = s.dreq ∧
    (s.tick).dackWait = s.dackWait ∧ (s.tick).time = s.time ∧ (s.tick).rate = s.rate ∧ (s.tick).ptmOpen = s.ptmOpen ∧ (s.tick).ptmFails = s.ptmFails ∧
    (s.tick).regs = s.regs ∧ (s.tick).applied = s.applied ∧ (s.tick).fns = s.fns ∧ (s.tick).msix = s.msix ∧ (s.tick).pba = s.pba ∧
    (s.tick).hostOut = s.hostOut ∧ (s.tick).reads = s.reads ∧ (s.tick).readWait = s.readWait ∧ (s.tick).fab = s.fab ∧ (s.tick).fbLast = s.fbLast ∧
    (s.tick).reply = s.reply ∧ (s.tick).smbAddr = s.smbAddr ∧ (s.tick).seed = s.seed ∧ (s.tick).flash = s.flash ∧ (s.tick).buf = s.buf ∧
    (s.tick).ctx = s.ctx ∧ (s.tick).tmem = s.tmem ∧ (s.tick).tpriv = s.tpriv ∧ (s.tick).vnode = s.vnode ∧ (s.tick).vnodes = s.vnodes ∧
    (s.tick).cached = s.cached ∧ (s.tick).dirty = s.dirty ∧ (s.tick).dirtyWait = s.dirtyWait ∧ (s.tick).loading = s.loading ∧
    (s.tick).queues = s.queues ∧ (s.tick).chains = s.chains ∧ (s.tick).threads = s.threads ∧ (s.tick).rakeRR = s.rakeRR ∧
    (s.tick).claimTag = s.claimTag ∧ (s.tick).sources = s.sources ∧ (s.tick).furrows = s.furrows ∧ (s.tick).xfers = s.xfers ∧
    (s.tick).nextXfer = s.nextXfer ∧ (s.tick).stamp = s.stamp ∧ (s.tick).chans = s.chans ∧ (s.tick).ports = s.ports ∧ (s.tick).ops = s.ops ∧
    (s.tick).inbox = s.inbox ∧ (s.tick).ophGen = s.ophGen ∧ (s.tick).ophUse = s.ophUse ∧ (s.tick).endedAt = s.endedAt ∧ (s.tick).txns = s.txns ∧
    (s.tick).slots = s.slots ∧ (s.tick).waits = s.waits ∧ (s.tick).resq = s.resq ∧ (s.tick).recov = s.recov ∧ (s.tick).relNeeded = s.relNeeded ∧
    (s.tick).jpend = s.jpend ∧ (s.tick).jslots = s.jslots ∧ (s.tick).jpos = s.jpos ∧ (s.tick).owed = s.owed ∧ (s.tick).autoWait = s.autoWait ∧
    (s.tick).ckStart = s.ckStart ∧ (s.tick).ckFrom = s.ckFrom ∧ (s.tick).flushSt = s.flushSt ∧ (s.tick).vstage = s.vstage ∧ (s.tick).vover = s.vover ∧
    (s.tick).upd = s.upd ∧ (s.tick).bgCheck = s.bgCheck ∧ (s.tick).errs = s.errs ∧ (s.tick).due = s.due ∧ (s.tick).conds = s.conds ∧
    (s.tick).pair = s.pair ∧ (s.tick).jtagIr = s.jtagIr ∧ (s.tick).bscan = s.bscan ∧ (s.tick).bistDom = s.bistDom ∧ (s.tick).pending = s.pending := by
  repeat' constructor

@[simp] theorem State.tick_reads  (j : Nat) :
    (s.tick).queue j = s.queue j ∧ (s.tick).chain j = s.chain j ∧ (s.tick).thread j = s.thread j ∧ (s.tick).src j = s.src j ∧
    (s.tick).furrow j = s.furrow j ∧ (s.tick).xfer j = s.xfer j ∧ (s.tick).chan j = s.chan j ∧ (s.tick).port j = s.port j ∧ (s.tick).op j = s.op j ∧
    (s.tick).txn j = s.txn j ∧ (s.tick).holder j = s.holder j ∧ (s.tick).wait j = s.wait j ∧ (s.tick).fnc j = s.fnc j ∧ (s.tick).vec j = s.vec j ∧
    (s.tick).pbit j = s.pbit j ∧ (s.tick).reg j = s.reg j ∧ (s.tick).appReg j = s.appReg j := by
  repeat' constructor

/-- An entry of `queues` replaced. -/
@[simp] theorem State.setQueue_fields (k : Nat) (v : Queue) :
    (s.setQueue k v).life = s.life ∧ (s.setQueue k v).startArgs = s.startArgs ∧ (s.setQueue k v).hostReady = s.hostReady ∧
    (s.setQueue k v).porstLow = s.porstLow ∧ (s.setQueue k v).mainGood = s.mainGood ∧ (s.setQueue k v).refclk = s.refclk ∧
    (s.setQueue k v).warnLow = s.warnLow ∧ (s.setQueue k v).warnTiming = s.warnTiming ∧ (s.setQueue k v).backupOn = s.backupOn ∧
    (s.setQueue k v).slowInternal = s.slowInternal ∧ (s.setQueue k v).errA = s.errA ∧ (s.setQueue k v).errB = s.errB ∧
    (s.setQueue k v).spiCsN = s.spiCsN ∧ (s.setQueue k v).spiClk = s.spiClk ∧ (s.setQueue k v).spiDrive = s.spiDrive ∧ (s.setQueue k v).dack = s.dack ∧
    (s.setQueue k v).dreq = s.dreq ∧ (s.setQueue k v).dackWait = s.dackWait ∧ (s.setQueue k v).time = s.time ∧ (s.setQueue k v).rate = s.rate ∧
    (s.setQueue k v).ptmOpen = s.ptmOpen ∧ (s.setQueue k v).ptmFails = s.ptmFails ∧ (s.setQueue k v).regs = s.regs ∧
    (s.setQueue k v).applied = s.applied ∧ (s.setQueue k v).fns = s.fns ∧ (s.setQueue k v).msix = s.msix ∧ (s.setQueue k v).pba = s.pba ∧
    (s.setQueue k v).hostOut = s.hostOut ∧ (s.setQueue k v).reads = s.reads ∧ (s.setQueue k v).readWait = s.readWait ∧ (s.setQueue k v).fab = s.fab ∧
    (s.setQueue k v).fbLast = s.fbLast ∧ (s.setQueue k v).reply = s.reply ∧ (s.setQueue k v).smbAddr = s.smbAddr ∧ (s.setQueue k v).seed = s.seed ∧
    (s.setQueue k v).flash = s.flash ∧ (s.setQueue k v).buf = s.buf ∧ (s.setQueue k v).ctx = s.ctx ∧ (s.setQueue k v).tmem = s.tmem ∧
    (s.setQueue k v).tpriv = s.tpriv ∧ (s.setQueue k v).vnode = s.vnode ∧ (s.setQueue k v).vnodes = s.vnodes ∧ (s.setQueue k v).cached = s.cached ∧
    (s.setQueue k v).dirty = s.dirty ∧ (s.setQueue k v).dirtyWait = s.dirtyWait ∧ (s.setQueue k v).loading = s.loading ∧
    (s.setQueue k v).chains = s.chains ∧ (s.setQueue k v).threads = s.threads ∧ (s.setQueue k v).rakeRR = s.rakeRR ∧
    (s.setQueue k v).claimTag = s.claimTag ∧ (s.setQueue k v).sources = s.sources ∧ (s.setQueue k v).furrows = s.furrows ∧
    (s.setQueue k v).xfers = s.xfers ∧ (s.setQueue k v).nextXfer = s.nextXfer ∧ (s.setQueue k v).stamp = s.stamp ∧ (s.setQueue k v).chans = s.chans ∧
    (s.setQueue k v).ports = s.ports ∧ (s.setQueue k v).ops = s.ops ∧ (s.setQueue k v).inbox = s.inbox ∧ (s.setQueue k v).ophGen = s.ophGen ∧
    (s.setQueue k v).ophUse = s.ophUse ∧ (s.setQueue k v).endedAt = s.endedAt ∧ (s.setQueue k v).txns = s.txns ∧ (s.setQueue k v).slots = s.slots ∧
    (s.setQueue k v).waits = s.waits ∧ (s.setQueue k v).resq = s.resq ∧ (s.setQueue k v).recov = s.recov ∧ (s.setQueue k v).relNeeded = s.relNeeded ∧
    (s.setQueue k v).jpend = s.jpend ∧ (s.setQueue k v).jslots = s.jslots ∧ (s.setQueue k v).jpos = s.jpos ∧ (s.setQueue k v).owed = s.owed ∧
    (s.setQueue k v).autoWait = s.autoWait ∧ (s.setQueue k v).ckStart = s.ckStart ∧ (s.setQueue k v).ckFrom = s.ckFrom ∧
    (s.setQueue k v).flushSt = s.flushSt ∧ (s.setQueue k v).vstage = s.vstage ∧ (s.setQueue k v).vover = s.vover ∧ (s.setQueue k v).upd = s.upd ∧
    (s.setQueue k v).bgCheck = s.bgCheck ∧ (s.setQueue k v).errs = s.errs ∧ (s.setQueue k v).due = s.due ∧ (s.setQueue k v).conds = s.conds ∧
    (s.setQueue k v).pair = s.pair ∧ (s.setQueue k v).jtagIr = s.jtagIr ∧ (s.setQueue k v).bscan = s.bscan ∧ (s.setQueue k v).bistDom = s.bistDom ∧
    (s.setQueue k v).freeCtr = s.freeCtr ∧ (s.setQueue k v).pending = s.pending := by
  repeat' constructor

@[simp] theorem State.setQueue_reads (k : Nat) (v : Queue) (j : Nat) :
    (s.setQueue k v).chain j = s.chain j ∧ (s.setQueue k v).thread j = s.thread j ∧ (s.setQueue k v).src j = s.src j ∧
    (s.setQueue k v).furrow j = s.furrow j ∧ (s.setQueue k v).xfer j = s.xfer j ∧ (s.setQueue k v).chan j = s.chan j ∧
    (s.setQueue k v).port j = s.port j ∧ (s.setQueue k v).op j = s.op j ∧ (s.setQueue k v).txn j = s.txn j ∧ (s.setQueue k v).holder j = s.holder j ∧
    (s.setQueue k v).wait j = s.wait j ∧ (s.setQueue k v).fnc j = s.fnc j ∧ (s.setQueue k v).vec j = s.vec j ∧ (s.setQueue k v).pbit j = s.pbit j ∧
    (s.setQueue k v).reg j = s.reg j ∧ (s.setQueue k v).appReg j = s.appReg j := by
  repeat' constructor

/-- It reads back. -/
theorem State.queue_setQueue (h : s.Canon) (k : Nat) (v : Queue) : (s.setQueue k v).queue k = v := SMap.get_set_same k v h.queues

/-- Any other entry is as before. -/
theorem State.queue_setQueue_ne (k : Nat) (v : Queue) (j : Nat) (h : j ≠ k) : (s.setQueue k v).queue j = s.queue j := SMap.get_set_ne _ _ h

/-- A change of an entry is a replacement. -/
theorem State.modQueue_eq (k : Nat) (f : Queue → Queue) : s.modQueue k f = s.setQueue k (f (s.queue k)) := rfl

/-- An entry of `chains` replaced. -/
@[simp] theorem State.setChain_fields (k : Nat) (v : Chain) :
    (s.setChain k v).life = s.life ∧ (s.setChain k v).startArgs = s.startArgs ∧ (s.setChain k v).hostReady = s.hostReady ∧
    (s.setChain k v).porstLow = s.porstLow ∧ (s.setChain k v).mainGood = s.mainGood ∧ (s.setChain k v).refclk = s.refclk ∧
    (s.setChain k v).warnLow = s.warnLow ∧ (s.setChain k v).warnTiming = s.warnTiming ∧ (s.setChain k v).backupOn = s.backupOn ∧
    (s.setChain k v).slowInternal = s.slowInternal ∧ (s.setChain k v).errA = s.errA ∧ (s.setChain k v).errB = s.errB ∧
    (s.setChain k v).spiCsN = s.spiCsN ∧ (s.setChain k v).spiClk = s.spiClk ∧ (s.setChain k v).spiDrive = s.spiDrive ∧ (s.setChain k v).dack = s.dack ∧
    (s.setChain k v).dreq = s.dreq ∧ (s.setChain k v).dackWait = s.dackWait ∧ (s.setChain k v).time = s.time ∧ (s.setChain k v).rate = s.rate ∧
    (s.setChain k v).ptmOpen = s.ptmOpen ∧ (s.setChain k v).ptmFails = s.ptmFails ∧ (s.setChain k v).regs = s.regs ∧
    (s.setChain k v).applied = s.applied ∧ (s.setChain k v).fns = s.fns ∧ (s.setChain k v).msix = s.msix ∧ (s.setChain k v).pba = s.pba ∧
    (s.setChain k v).hostOut = s.hostOut ∧ (s.setChain k v).reads = s.reads ∧ (s.setChain k v).readWait = s.readWait ∧ (s.setChain k v).fab = s.fab ∧
    (s.setChain k v).fbLast = s.fbLast ∧ (s.setChain k v).reply = s.reply ∧ (s.setChain k v).smbAddr = s.smbAddr ∧ (s.setChain k v).seed = s.seed ∧
    (s.setChain k v).flash = s.flash ∧ (s.setChain k v).buf = s.buf ∧ (s.setChain k v).ctx = s.ctx ∧ (s.setChain k v).tmem = s.tmem ∧
    (s.setChain k v).tpriv = s.tpriv ∧ (s.setChain k v).vnode = s.vnode ∧ (s.setChain k v).vnodes = s.vnodes ∧ (s.setChain k v).cached = s.cached ∧
    (s.setChain k v).dirty = s.dirty ∧ (s.setChain k v).dirtyWait = s.dirtyWait ∧ (s.setChain k v).loading = s.loading ∧
    (s.setChain k v).queues = s.queues ∧ (s.setChain k v).threads = s.threads ∧ (s.setChain k v).rakeRR = s.rakeRR ∧
    (s.setChain k v).claimTag = s.claimTag ∧ (s.setChain k v).sources = s.sources ∧ (s.setChain k v).furrows = s.furrows ∧
    (s.setChain k v).xfers = s.xfers ∧ (s.setChain k v).nextXfer = s.nextXfer ∧ (s.setChain k v).stamp = s.stamp ∧ (s.setChain k v).chans = s.chans ∧
    (s.setChain k v).ports = s.ports ∧ (s.setChain k v).ops = s.ops ∧ (s.setChain k v).inbox = s.inbox ∧ (s.setChain k v).ophGen = s.ophGen ∧
    (s.setChain k v).ophUse = s.ophUse ∧ (s.setChain k v).endedAt = s.endedAt ∧ (s.setChain k v).txns = s.txns ∧ (s.setChain k v).slots = s.slots ∧
    (s.setChain k v).waits = s.waits ∧ (s.setChain k v).resq = s.resq ∧ (s.setChain k v).recov = s.recov ∧ (s.setChain k v).relNeeded = s.relNeeded ∧
    (s.setChain k v).jpend = s.jpend ∧ (s.setChain k v).jslots = s.jslots ∧ (s.setChain k v).jpos = s.jpos ∧ (s.setChain k v).owed = s.owed ∧
    (s.setChain k v).autoWait = s.autoWait ∧ (s.setChain k v).ckStart = s.ckStart ∧ (s.setChain k v).ckFrom = s.ckFrom ∧
    (s.setChain k v).flushSt = s.flushSt ∧ (s.setChain k v).vstage = s.vstage ∧ (s.setChain k v).vover = s.vover ∧ (s.setChain k v).upd = s.upd ∧
    (s.setChain k v).bgCheck = s.bgCheck ∧ (s.setChain k v).errs = s.errs ∧ (s.setChain k v).due = s.due ∧ (s.setChain k v).conds = s.conds ∧
    (s.setChain k v).pair = s.pair ∧ (s.setChain k v).jtagIr = s.jtagIr ∧ (s.setChain k v).bscan = s.bscan ∧ (s.setChain k v).bistDom = s.bistDom ∧
    (s.setChain k v).freeCtr = s.freeCtr ∧ (s.setChain k v).pending = s.pending := by
  repeat' constructor

@[simp] theorem State.setChain_reads (k : Nat) (v : Chain) (j : Nat) :
    (s.setChain k v).queue j = s.queue j ∧ (s.setChain k v).thread j = s.thread j ∧ (s.setChain k v).src j = s.src j ∧
    (s.setChain k v).furrow j = s.furrow j ∧ (s.setChain k v).xfer j = s.xfer j ∧ (s.setChain k v).chan j = s.chan j ∧
    (s.setChain k v).port j = s.port j ∧ (s.setChain k v).op j = s.op j ∧ (s.setChain k v).txn j = s.txn j ∧ (s.setChain k v).holder j = s.holder j ∧
    (s.setChain k v).wait j = s.wait j ∧ (s.setChain k v).fnc j = s.fnc j ∧ (s.setChain k v).vec j = s.vec j ∧ (s.setChain k v).pbit j = s.pbit j ∧
    (s.setChain k v).reg j = s.reg j ∧ (s.setChain k v).appReg j = s.appReg j := by
  repeat' constructor

/-- It reads back. -/
theorem State.chain_setChain (h : s.Canon) (k : Nat) (v : Chain) : (s.setChain k v).chain k = v := SMap.get_set_same k v h.chains

/-- Any other entry is as before. -/
theorem State.chain_setChain_ne (k : Nat) (v : Chain) (j : Nat) (h : j ≠ k) : (s.setChain k v).chain j = s.chain j := SMap.get_set_ne _ _ h

/-- A change of an entry is a replacement. -/
theorem State.modChain_eq (k : Nat) (f : Chain → Chain) : s.modChain k f = s.setChain k (f (s.chain k)) := rfl

/-- An entry of `threads` replaced. -/
@[simp] theorem State.setThread_fields (k : Nat) (v : Thread) :
    (s.setThread k v).life = s.life ∧ (s.setThread k v).startArgs = s.startArgs ∧ (s.setThread k v).hostReady = s.hostReady ∧
    (s.setThread k v).porstLow = s.porstLow ∧ (s.setThread k v).mainGood = s.mainGood ∧ (s.setThread k v).refclk = s.refclk ∧
    (s.setThread k v).warnLow = s.warnLow ∧ (s.setThread k v).warnTiming = s.warnTiming ∧ (s.setThread k v).backupOn = s.backupOn ∧
    (s.setThread k v).slowInternal = s.slowInternal ∧ (s.setThread k v).errA = s.errA ∧ (s.setThread k v).errB = s.errB ∧
    (s.setThread k v).spiCsN = s.spiCsN ∧ (s.setThread k v).spiClk = s.spiClk ∧ (s.setThread k v).spiDrive = s.spiDrive ∧
    (s.setThread k v).dack = s.dack ∧ (s.setThread k v).dreq = s.dreq ∧ (s.setThread k v).dackWait = s.dackWait ∧ (s.setThread k v).time = s.time ∧
    (s.setThread k v).rate = s.rate ∧ (s.setThread k v).ptmOpen = s.ptmOpen ∧ (s.setThread k v).ptmFails = s.ptmFails ∧
    (s.setThread k v).regs = s.regs ∧ (s.setThread k v).applied = s.applied ∧ (s.setThread k v).fns = s.fns ∧ (s.setThread k v).msix = s.msix ∧
    (s.setThread k v).pba = s.pba ∧ (s.setThread k v).hostOut = s.hostOut ∧ (s.setThread k v).reads = s.reads ∧
    (s.setThread k v).readWait = s.readWait ∧ (s.setThread k v).fab = s.fab ∧ (s.setThread k v).fbLast = s.fbLast ∧ (s.setThread k v).reply = s.reply ∧
    (s.setThread k v).smbAddr = s.smbAddr ∧ (s.setThread k v).seed = s.seed ∧ (s.setThread k v).flash = s.flash ∧ (s.setThread k v).buf = s.buf ∧
    (s.setThread k v).ctx = s.ctx ∧ (s.setThread k v).tmem = s.tmem ∧ (s.setThread k v).tpriv = s.tpriv ∧ (s.setThread k v).vnode = s.vnode ∧
    (s.setThread k v).vnodes = s.vnodes ∧ (s.setThread k v).cached = s.cached ∧ (s.setThread k v).dirty = s.dirty ∧
    (s.setThread k v).dirtyWait = s.dirtyWait ∧ (s.setThread k v).loading = s.loading ∧ (s.setThread k v).queues = s.queues ∧
    (s.setThread k v).chains = s.chains ∧ (s.setThread k v).rakeRR = s.rakeRR ∧ (s.setThread k v).claimTag = s.claimTag ∧
    (s.setThread k v).sources = s.sources ∧ (s.setThread k v).furrows = s.furrows ∧ (s.setThread k v).xfers = s.xfers ∧
    (s.setThread k v).nextXfer = s.nextXfer ∧ (s.setThread k v).stamp = s.stamp ∧ (s.setThread k v).chans = s.chans ∧
    (s.setThread k v).ports = s.ports ∧ (s.setThread k v).ops = s.ops ∧ (s.setThread k v).inbox = s.inbox ∧ (s.setThread k v).ophGen = s.ophGen ∧
    (s.setThread k v).ophUse = s.ophUse ∧ (s.setThread k v).endedAt = s.endedAt ∧ (s.setThread k v).txns = s.txns ∧ (s.setThread k v).slots = s.slots ∧
    (s.setThread k v).waits = s.waits ∧ (s.setThread k v).resq = s.resq ∧ (s.setThread k v).recov = s.recov ∧
    (s.setThread k v).relNeeded = s.relNeeded ∧ (s.setThread k v).jpend = s.jpend ∧ (s.setThread k v).jslots = s.jslots ∧
    (s.setThread k v).jpos = s.jpos ∧ (s.setThread k v).owed = s.owed ∧ (s.setThread k v).autoWait = s.autoWait ∧
    (s.setThread k v).ckStart = s.ckStart ∧ (s.setThread k v).ckFrom = s.ckFrom ∧ (s.setThread k v).flushSt = s.flushSt ∧
    (s.setThread k v).vstage = s.vstage ∧ (s.setThread k v).vover = s.vover ∧ (s.setThread k v).upd = s.upd ∧ (s.setThread k v).bgCheck = s.bgCheck ∧
    (s.setThread k v).errs = s.errs ∧ (s.setThread k v).due = s.due ∧ (s.setThread k v).conds = s.conds ∧ (s.setThread k v).pair = s.pair ∧
    (s.setThread k v).jtagIr = s.jtagIr ∧ (s.setThread k v).bscan = s.bscan ∧ (s.setThread k v).bistDom = s.bistDom ∧
    (s.setThread k v).freeCtr = s.freeCtr ∧ (s.setThread k v).pending = s.pending := by
  repeat' constructor

@[simp] theorem State.setThread_reads (k : Nat) (v : Thread) (j : Nat) :
    (s.setThread k v).queue j = s.queue j ∧ (s.setThread k v).chain j = s.chain j ∧ (s.setThread k v).src j = s.src j ∧
    (s.setThread k v).furrow j = s.furrow j ∧ (s.setThread k v).xfer j = s.xfer j ∧ (s.setThread k v).chan j = s.chan j ∧
    (s.setThread k v).port j = s.port j ∧ (s.setThread k v).op j = s.op j ∧ (s.setThread k v).txn j = s.txn j ∧
    (s.setThread k v).holder j = s.holder j ∧ (s.setThread k v).wait j = s.wait j ∧ (s.setThread k v).fnc j = s.fnc j ∧
    (s.setThread k v).vec j = s.vec j ∧ (s.setThread k v).pbit j = s.pbit j ∧ (s.setThread k v).reg j = s.reg j ∧
    (s.setThread k v).appReg j = s.appReg j := by
  repeat' constructor

/-- It reads back. -/
theorem State.thread_setThread (h : s.Canon) (k : Nat) (v : Thread) : (s.setThread k v).thread k = v := SMap.get_set_same k v h.threads

/-- Any other entry is as before. -/
theorem State.thread_setThread_ne (k : Nat) (v : Thread) (j : Nat) (h : j ≠ k) : (s.setThread k v).thread j = s.thread j := SMap.get_set_ne _ _ h

/-- A change of an entry is a replacement. -/
theorem State.modThread_eq (k : Nat) (f : Thread → Thread) : s.modThread k f = s.setThread k (f (s.thread k)) := rfl

/-- An entry of `sources` replaced. -/
@[simp] theorem State.setSrc_fields (k : Nat) (v : Src) :
    (s.setSrc k v).life = s.life ∧ (s.setSrc k v).startArgs = s.startArgs ∧ (s.setSrc k v).hostReady = s.hostReady ∧
    (s.setSrc k v).porstLow = s.porstLow ∧ (s.setSrc k v).mainGood = s.mainGood ∧ (s.setSrc k v).refclk = s.refclk ∧
    (s.setSrc k v).warnLow = s.warnLow ∧ (s.setSrc k v).warnTiming = s.warnTiming ∧ (s.setSrc k v).backupOn = s.backupOn ∧
    (s.setSrc k v).slowInternal = s.slowInternal ∧ (s.setSrc k v).errA = s.errA ∧ (s.setSrc k v).errB = s.errB ∧ (s.setSrc k v).spiCsN = s.spiCsN ∧
    (s.setSrc k v).spiClk = s.spiClk ∧ (s.setSrc k v).spiDrive = s.spiDrive ∧ (s.setSrc k v).dack = s.dack ∧ (s.setSrc k v).dreq = s.dreq ∧
    (s.setSrc k v).dackWait = s.dackWait ∧ (s.setSrc k v).time = s.time ∧ (s.setSrc k v).rate = s.rate ∧ (s.setSrc k v).ptmOpen = s.ptmOpen ∧
    (s.setSrc k v).ptmFails = s.ptmFails ∧ (s.setSrc k v).regs = s.regs ∧ (s.setSrc k v).applied = s.applied ∧ (s.setSrc k v).fns = s.fns ∧
    (s.setSrc k v).msix = s.msix ∧ (s.setSrc k v).pba = s.pba ∧ (s.setSrc k v).hostOut = s.hostOut ∧ (s.setSrc k v).reads = s.reads ∧
    (s.setSrc k v).readWait = s.readWait ∧ (s.setSrc k v).fab = s.fab ∧ (s.setSrc k v).fbLast = s.fbLast ∧ (s.setSrc k v).reply = s.reply ∧
    (s.setSrc k v).smbAddr = s.smbAddr ∧ (s.setSrc k v).seed = s.seed ∧ (s.setSrc k v).flash = s.flash ∧ (s.setSrc k v).buf = s.buf ∧
    (s.setSrc k v).ctx = s.ctx ∧ (s.setSrc k v).tmem = s.tmem ∧ (s.setSrc k v).tpriv = s.tpriv ∧ (s.setSrc k v).vnode = s.vnode ∧
    (s.setSrc k v).vnodes = s.vnodes ∧ (s.setSrc k v).cached = s.cached ∧ (s.setSrc k v).dirty = s.dirty ∧ (s.setSrc k v).dirtyWait = s.dirtyWait ∧
    (s.setSrc k v).loading = s.loading ∧ (s.setSrc k v).queues = s.queues ∧ (s.setSrc k v).chains = s.chains ∧ (s.setSrc k v).threads = s.threads ∧
    (s.setSrc k v).rakeRR = s.rakeRR ∧ (s.setSrc k v).claimTag = s.claimTag ∧ (s.setSrc k v).furrows = s.furrows ∧ (s.setSrc k v).xfers = s.xfers ∧
    (s.setSrc k v).nextXfer = s.nextXfer ∧ (s.setSrc k v).stamp = s.stamp ∧ (s.setSrc k v).chans = s.chans ∧ (s.setSrc k v).ports = s.ports ∧
    (s.setSrc k v).ops = s.ops ∧ (s.setSrc k v).inbox = s.inbox ∧ (s.setSrc k v).ophGen = s.ophGen ∧ (s.setSrc k v).ophUse = s.ophUse ∧
    (s.setSrc k v).endedAt = s.endedAt ∧ (s.setSrc k v).txns = s.txns ∧ (s.setSrc k v).slots = s.slots ∧ (s.setSrc k v).waits = s.waits ∧
    (s.setSrc k v).resq = s.resq ∧ (s.setSrc k v).recov = s.recov ∧ (s.setSrc k v).relNeeded = s.relNeeded ∧ (s.setSrc k v).jpend = s.jpend ∧
    (s.setSrc k v).jslots = s.jslots ∧ (s.setSrc k v).jpos = s.jpos ∧ (s.setSrc k v).owed = s.owed ∧ (s.setSrc k v).autoWait = s.autoWait ∧
    (s.setSrc k v).ckStart = s.ckStart ∧ (s.setSrc k v).ckFrom = s.ckFrom ∧ (s.setSrc k v).flushSt = s.flushSt ∧ (s.setSrc k v).vstage = s.vstage ∧
    (s.setSrc k v).vover = s.vover ∧ (s.setSrc k v).upd = s.upd ∧ (s.setSrc k v).bgCheck = s.bgCheck ∧ (s.setSrc k v).errs = s.errs ∧
    (s.setSrc k v).due = s.due ∧ (s.setSrc k v).conds = s.conds ∧ (s.setSrc k v).pair = s.pair ∧ (s.setSrc k v).jtagIr = s.jtagIr ∧
    (s.setSrc k v).bscan = s.bscan ∧ (s.setSrc k v).bistDom = s.bistDom ∧ (s.setSrc k v).freeCtr = s.freeCtr ∧ (s.setSrc k v).pending = s.pending := by
  repeat' constructor

@[simp] theorem State.setSrc_reads (k : Nat) (v : Src) (j : Nat) :
    (s.setSrc k v).queue j = s.queue j ∧ (s.setSrc k v).chain j = s.chain j ∧ (s.setSrc k v).thread j = s.thread j ∧
    (s.setSrc k v).furrow j = s.furrow j ∧ (s.setSrc k v).xfer j = s.xfer j ∧ (s.setSrc k v).chan j = s.chan j ∧ (s.setSrc k v).port j = s.port j ∧
    (s.setSrc k v).op j = s.op j ∧ (s.setSrc k v).txn j = s.txn j ∧ (s.setSrc k v).holder j = s.holder j ∧ (s.setSrc k v).wait j = s.wait j ∧
    (s.setSrc k v).fnc j = s.fnc j ∧ (s.setSrc k v).vec j = s.vec j ∧ (s.setSrc k v).pbit j = s.pbit j ∧ (s.setSrc k v).reg j = s.reg j ∧
    (s.setSrc k v).appReg j = s.appReg j := by
  repeat' constructor

/-- It reads back. -/
theorem State.src_setSrc (h : s.Canon) (k : Nat) (v : Src) : (s.setSrc k v).src k = v := SMap.get_set_same k v h.sources

/-- Any other entry is as before. -/
theorem State.src_setSrc_ne (k : Nat) (v : Src) (j : Nat) (h : j ≠ k) : (s.setSrc k v).src j = s.src j := SMap.get_set_ne _ _ h

/-- A change of an entry is a replacement. -/
theorem State.modSrc_eq (k : Nat) (f : Src → Src) : s.modSrc k f = s.setSrc k (f (s.src k)) := rfl

/-- An entry of `furrows` replaced. -/
@[simp] theorem State.setFurrow_fields (k : Nat) (v : Furrow) :
    (s.setFurrow k v).life = s.life ∧ (s.setFurrow k v).startArgs = s.startArgs ∧ (s.setFurrow k v).hostReady = s.hostReady ∧
    (s.setFurrow k v).porstLow = s.porstLow ∧ (s.setFurrow k v).mainGood = s.mainGood ∧ (s.setFurrow k v).refclk = s.refclk ∧
    (s.setFurrow k v).warnLow = s.warnLow ∧ (s.setFurrow k v).warnTiming = s.warnTiming ∧ (s.setFurrow k v).backupOn = s.backupOn ∧
    (s.setFurrow k v).slowInternal = s.slowInternal ∧ (s.setFurrow k v).errA = s.errA ∧ (s.setFurrow k v).errB = s.errB ∧
    (s.setFurrow k v).spiCsN = s.spiCsN ∧ (s.setFurrow k v).spiClk = s.spiClk ∧ (s.setFurrow k v).spiDrive = s.spiDrive ∧
    (s.setFurrow k v).dack = s.dack ∧ (s.setFurrow k v).dreq = s.dreq ∧ (s.setFurrow k v).dackWait = s.dackWait ∧ (s.setFurrow k v).time = s.time ∧
    (s.setFurrow k v).rate = s.rate ∧ (s.setFurrow k v).ptmOpen = s.ptmOpen ∧ (s.setFurrow k v).ptmFails = s.ptmFails ∧
    (s.setFurrow k v).regs = s.regs ∧ (s.setFurrow k v).applied = s.applied ∧ (s.setFurrow k v).fns = s.fns ∧ (s.setFurrow k v).msix = s.msix ∧
    (s.setFurrow k v).pba = s.pba ∧ (s.setFurrow k v).hostOut = s.hostOut ∧ (s.setFurrow k v).reads = s.reads ∧
    (s.setFurrow k v).readWait = s.readWait ∧ (s.setFurrow k v).fab = s.fab ∧ (s.setFurrow k v).fbLast = s.fbLast ∧ (s.setFurrow k v).reply = s.reply ∧
    (s.setFurrow k v).smbAddr = s.smbAddr ∧ (s.setFurrow k v).seed = s.seed ∧ (s.setFurrow k v).flash = s.flash ∧ (s.setFurrow k v).buf = s.buf ∧
    (s.setFurrow k v).ctx = s.ctx ∧ (s.setFurrow k v).tmem = s.tmem ∧ (s.setFurrow k v).tpriv = s.tpriv ∧ (s.setFurrow k v).vnode = s.vnode ∧
    (s.setFurrow k v).vnodes = s.vnodes ∧ (s.setFurrow k v).cached = s.cached ∧ (s.setFurrow k v).dirty = s.dirty ∧
    (s.setFurrow k v).dirtyWait = s.dirtyWait ∧ (s.setFurrow k v).loading = s.loading ∧ (s.setFurrow k v).queues = s.queues ∧
    (s.setFurrow k v).chains = s.chains ∧ (s.setFurrow k v).threads = s.threads ∧ (s.setFurrow k v).rakeRR = s.rakeRR ∧
    (s.setFurrow k v).claimTag = s.claimTag ∧ (s.setFurrow k v).sources = s.sources ∧ (s.setFurrow k v).xfers = s.xfers ∧
    (s.setFurrow k v).nextXfer = s.nextXfer ∧ (s.setFurrow k v).stamp = s.stamp ∧ (s.setFurrow k v).chans = s.chans ∧
    (s.setFurrow k v).ports = s.ports ∧ (s.setFurrow k v).ops = s.ops ∧ (s.setFurrow k v).inbox = s.inbox ∧ (s.setFurrow k v).ophGen = s.ophGen ∧
    (s.setFurrow k v).ophUse = s.ophUse ∧ (s.setFurrow k v).endedAt = s.endedAt ∧ (s.setFurrow k v).txns = s.txns ∧ (s.setFurrow k v).slots = s.slots ∧
    (s.setFurrow k v).waits = s.waits ∧ (s.setFurrow k v).resq = s.resq ∧ (s.setFurrow k v).recov = s.recov ∧
    (s.setFurrow k v).relNeeded = s.relNeeded ∧ (s.setFurrow k v).jpend = s.jpend ∧ (s.setFurrow k v).jslots = s.jslots ∧
    (s.setFurrow k v).jpos = s.jpos ∧ (s.setFurrow k v).owed = s.owed ∧ (s.setFurrow k v).autoWait = s.autoWait ∧
    (s.setFurrow k v).ckStart = s.ckStart ∧ (s.setFurrow k v).ckFrom = s.ckFrom ∧ (s.setFurrow k v).flushSt = s.flushSt ∧
    (s.setFurrow k v).vstage = s.vstage ∧ (s.setFurrow k v).vover = s.vover ∧ (s.setFurrow k v).upd = s.upd ∧ (s.setFurrow k v).bgCheck = s.bgCheck ∧
    (s.setFurrow k v).errs = s.errs ∧ (s.setFurrow k v).due = s.due ∧ (s.setFurrow k v).conds = s.conds ∧ (s.setFurrow k v).pair = s.pair ∧
    (s.setFurrow k v).jtagIr = s.jtagIr ∧ (s.setFurrow k v).bscan = s.bscan ∧ (s.setFurrow k v).bistDom = s.bistDom ∧
    (s.setFurrow k v).freeCtr = s.freeCtr ∧ (s.setFurrow k v).pending = s.pending := by
  repeat' constructor

@[simp] theorem State.setFurrow_reads (k : Nat) (v : Furrow) (j : Nat) :
    (s.setFurrow k v).queue j = s.queue j ∧ (s.setFurrow k v).chain j = s.chain j ∧ (s.setFurrow k v).thread j = s.thread j ∧
    (s.setFurrow k v).src j = s.src j ∧ (s.setFurrow k v).xfer j = s.xfer j ∧ (s.setFurrow k v).chan j = s.chan j ∧
    (s.setFurrow k v).port j = s.port j ∧ (s.setFurrow k v).op j = s.op j ∧ (s.setFurrow k v).txn j = s.txn j ∧
    (s.setFurrow k v).holder j = s.holder j ∧ (s.setFurrow k v).wait j = s.wait j ∧ (s.setFurrow k v).fnc j = s.fnc j ∧
    (s.setFurrow k v).vec j = s.vec j ∧ (s.setFurrow k v).pbit j = s.pbit j ∧ (s.setFurrow k v).reg j = s.reg j ∧
    (s.setFurrow k v).appReg j = s.appReg j := by
  repeat' constructor

/-- It reads back. -/
theorem State.furrow_setFurrow (h : s.Canon) (k : Nat) (v : Furrow) : (s.setFurrow k v).furrow k = v := SMap.get_set_same k v h.furrows

/-- Any other entry is as before. -/
theorem State.furrow_setFurrow_ne (k : Nat) (v : Furrow) (j : Nat) (h : j ≠ k) : (s.setFurrow k v).furrow j = s.furrow j := SMap.get_set_ne _ _ h

/-- A change of an entry is a replacement. -/
theorem State.modFurrow_eq (k : Nat) (f : Furrow → Furrow) : s.modFurrow k f = s.setFurrow k (f (s.furrow k)) := rfl

/-- An entry of `xfers` replaced. -/
@[simp] theorem State.setXfer_fields (k : Nat) (v : Option Xfer) :
    (s.setXfer k v).life = s.life ∧ (s.setXfer k v).startArgs = s.startArgs ∧ (s.setXfer k v).hostReady = s.hostReady ∧
    (s.setXfer k v).porstLow = s.porstLow ∧ (s.setXfer k v).mainGood = s.mainGood ∧ (s.setXfer k v).refclk = s.refclk ∧
    (s.setXfer k v).warnLow = s.warnLow ∧ (s.setXfer k v).warnTiming = s.warnTiming ∧ (s.setXfer k v).backupOn = s.backupOn ∧
    (s.setXfer k v).slowInternal = s.slowInternal ∧ (s.setXfer k v).errA = s.errA ∧ (s.setXfer k v).errB = s.errB ∧ (s.setXfer k v).spiCsN = s.spiCsN ∧
    (s.setXfer k v).spiClk = s.spiClk ∧ (s.setXfer k v).spiDrive = s.spiDrive ∧ (s.setXfer k v).dack = s.dack ∧ (s.setXfer k v).dreq = s.dreq ∧
    (s.setXfer k v).dackWait = s.dackWait ∧ (s.setXfer k v).time = s.time ∧ (s.setXfer k v).rate = s.rate ∧ (s.setXfer k v).ptmOpen = s.ptmOpen ∧
    (s.setXfer k v).ptmFails = s.ptmFails ∧ (s.setXfer k v).regs = s.regs ∧ (s.setXfer k v).applied = s.applied ∧ (s.setXfer k v).fns = s.fns ∧
    (s.setXfer k v).msix = s.msix ∧ (s.setXfer k v).pba = s.pba ∧ (s.setXfer k v).hostOut = s.hostOut ∧ (s.setXfer k v).reads = s.reads ∧
    (s.setXfer k v).readWait = s.readWait ∧ (s.setXfer k v).fab = s.fab ∧ (s.setXfer k v).fbLast = s.fbLast ∧ (s.setXfer k v).reply = s.reply ∧
    (s.setXfer k v).smbAddr = s.smbAddr ∧ (s.setXfer k v).seed = s.seed ∧ (s.setXfer k v).flash = s.flash ∧ (s.setXfer k v).buf = s.buf ∧
    (s.setXfer k v).ctx = s.ctx ∧ (s.setXfer k v).tmem = s.tmem ∧ (s.setXfer k v).tpriv = s.tpriv ∧ (s.setXfer k v).vnode = s.vnode ∧
    (s.setXfer k v).vnodes = s.vnodes ∧ (s.setXfer k v).cached = s.cached ∧ (s.setXfer k v).dirty = s.dirty ∧ (s.setXfer k v).dirtyWait = s.dirtyWait ∧
    (s.setXfer k v).loading = s.loading ∧ (s.setXfer k v).queues = s.queues ∧ (s.setXfer k v).chains = s.chains ∧ (s.setXfer k v).threads = s.threads ∧
    (s.setXfer k v).rakeRR = s.rakeRR ∧ (s.setXfer k v).claimTag = s.claimTag ∧ (s.setXfer k v).sources = s.sources ∧
    (s.setXfer k v).furrows = s.furrows ∧ (s.setXfer k v).nextXfer = s.nextXfer ∧ (s.setXfer k v).stamp = s.stamp ∧ (s.setXfer k v).chans = s.chans ∧
    (s.setXfer k v).ports = s.ports ∧ (s.setXfer k v).ops = s.ops ∧ (s.setXfer k v).inbox = s.inbox ∧ (s.setXfer k v).ophGen = s.ophGen ∧
    (s.setXfer k v).ophUse = s.ophUse ∧ (s.setXfer k v).endedAt = s.endedAt ∧ (s.setXfer k v).txns = s.txns ∧ (s.setXfer k v).slots = s.slots ∧
    (s.setXfer k v).waits = s.waits ∧ (s.setXfer k v).resq = s.resq ∧ (s.setXfer k v).recov = s.recov ∧ (s.setXfer k v).relNeeded = s.relNeeded ∧
    (s.setXfer k v).jpend = s.jpend ∧ (s.setXfer k v).jslots = s.jslots ∧ (s.setXfer k v).jpos = s.jpos ∧ (s.setXfer k v).owed = s.owed ∧
    (s.setXfer k v).autoWait = s.autoWait ∧ (s.setXfer k v).ckStart = s.ckStart ∧ (s.setXfer k v).ckFrom = s.ckFrom ∧
    (s.setXfer k v).flushSt = s.flushSt ∧ (s.setXfer k v).vstage = s.vstage ∧ (s.setXfer k v).vover = s.vover ∧ (s.setXfer k v).upd = s.upd ∧
    (s.setXfer k v).bgCheck = s.bgCheck ∧ (s.setXfer k v).errs = s.errs ∧ (s.setXfer k v).due = s.due ∧ (s.setXfer k v).conds = s.conds ∧
    (s.setXfer k v).pair = s.pair ∧ (s.setXfer k v).jtagIr = s.jtagIr ∧ (s.setXfer k v).bscan = s.bscan ∧ (s.setXfer k v).bistDom = s.bistDom ∧
    (s.setXfer k v).freeCtr = s.freeCtr ∧ (s.setXfer k v).pending = s.pending := by
  repeat' constructor

@[simp] theorem State.setXfer_reads (k : Nat) (v : Option Xfer) (j : Nat) :
    (s.setXfer k v).queue j = s.queue j ∧ (s.setXfer k v).chain j = s.chain j ∧ (s.setXfer k v).thread j = s.thread j ∧
    (s.setXfer k v).src j = s.src j ∧ (s.setXfer k v).furrow j = s.furrow j ∧ (s.setXfer k v).chan j = s.chan j ∧ (s.setXfer k v).port j = s.port j ∧
    (s.setXfer k v).op j = s.op j ∧ (s.setXfer k v).txn j = s.txn j ∧ (s.setXfer k v).holder j = s.holder j ∧ (s.setXfer k v).wait j = s.wait j ∧
    (s.setXfer k v).fnc j = s.fnc j ∧ (s.setXfer k v).vec j = s.vec j ∧ (s.setXfer k v).pbit j = s.pbit j ∧ (s.setXfer k v).reg j = s.reg j ∧
    (s.setXfer k v).appReg j = s.appReg j := by
  repeat' constructor

/-- It reads back. -/
theorem State.xfer_setXfer (h : s.Canon) (k : Nat) (v : Option Xfer) : (s.setXfer k v).xfer k = v := SMap.get_set_same k v h.xfers

/-- Any other entry is as before. -/
theorem State.xfer_setXfer_ne (k : Nat) (v : Option Xfer) (j : Nat) (h : j ≠ k) : (s.setXfer k v).xfer j = s.xfer j := SMap.get_set_ne _ _ h

/-- An entry of `chans` replaced. -/
@[simp] theorem State.setChan_fields (k : Nat) (v : Chan) :
    (s.setChan k v).life = s.life ∧ (s.setChan k v).startArgs = s.startArgs ∧ (s.setChan k v).hostReady = s.hostReady ∧
    (s.setChan k v).porstLow = s.porstLow ∧ (s.setChan k v).mainGood = s.mainGood ∧ (s.setChan k v).refclk = s.refclk ∧
    (s.setChan k v).warnLow = s.warnLow ∧ (s.setChan k v).warnTiming = s.warnTiming ∧ (s.setChan k v).backupOn = s.backupOn ∧
    (s.setChan k v).slowInternal = s.slowInternal ∧ (s.setChan k v).errA = s.errA ∧ (s.setChan k v).errB = s.errB ∧ (s.setChan k v).spiCsN = s.spiCsN ∧
    (s.setChan k v).spiClk = s.spiClk ∧ (s.setChan k v).spiDrive = s.spiDrive ∧ (s.setChan k v).dack = s.dack ∧ (s.setChan k v).dreq = s.dreq ∧
    (s.setChan k v).dackWait = s.dackWait ∧ (s.setChan k v).time = s.time ∧ (s.setChan k v).rate = s.rate ∧ (s.setChan k v).ptmOpen = s.ptmOpen ∧
    (s.setChan k v).ptmFails = s.ptmFails ∧ (s.setChan k v).regs = s.regs ∧ (s.setChan k v).applied = s.applied ∧ (s.setChan k v).fns = s.fns ∧
    (s.setChan k v).msix = s.msix ∧ (s.setChan k v).pba = s.pba ∧ (s.setChan k v).hostOut = s.hostOut ∧ (s.setChan k v).reads = s.reads ∧
    (s.setChan k v).readWait = s.readWait ∧ (s.setChan k v).fab = s.fab ∧ (s.setChan k v).fbLast = s.fbLast ∧ (s.setChan k v).reply = s.reply ∧
    (s.setChan k v).smbAddr = s.smbAddr ∧ (s.setChan k v).seed = s.seed ∧ (s.setChan k v).flash = s.flash ∧ (s.setChan k v).buf = s.buf ∧
    (s.setChan k v).ctx = s.ctx ∧ (s.setChan k v).tmem = s.tmem ∧ (s.setChan k v).tpriv = s.tpriv ∧ (s.setChan k v).vnode = s.vnode ∧
    (s.setChan k v).vnodes = s.vnodes ∧ (s.setChan k v).cached = s.cached ∧ (s.setChan k v).dirty = s.dirty ∧ (s.setChan k v).dirtyWait = s.dirtyWait ∧
    (s.setChan k v).loading = s.loading ∧ (s.setChan k v).queues = s.queues ∧ (s.setChan k v).chains = s.chains ∧ (s.setChan k v).threads = s.threads ∧
    (s.setChan k v).rakeRR = s.rakeRR ∧ (s.setChan k v).claimTag = s.claimTag ∧ (s.setChan k v).sources = s.sources ∧
    (s.setChan k v).furrows = s.furrows ∧ (s.setChan k v).xfers = s.xfers ∧ (s.setChan k v).nextXfer = s.nextXfer ∧ (s.setChan k v).stamp = s.stamp ∧
    (s.setChan k v).ports = s.ports ∧ (s.setChan k v).ops = s.ops ∧ (s.setChan k v).inbox = s.inbox ∧ (s.setChan k v).ophGen = s.ophGen ∧
    (s.setChan k v).ophUse = s.ophUse ∧ (s.setChan k v).endedAt = s.endedAt ∧ (s.setChan k v).txns = s.txns ∧ (s.setChan k v).slots = s.slots ∧
    (s.setChan k v).waits = s.waits ∧ (s.setChan k v).resq = s.resq ∧ (s.setChan k v).recov = s.recov ∧ (s.setChan k v).relNeeded = s.relNeeded ∧
    (s.setChan k v).jpend = s.jpend ∧ (s.setChan k v).jslots = s.jslots ∧ (s.setChan k v).jpos = s.jpos ∧ (s.setChan k v).owed = s.owed ∧
    (s.setChan k v).autoWait = s.autoWait ∧ (s.setChan k v).ckStart = s.ckStart ∧ (s.setChan k v).ckFrom = s.ckFrom ∧
    (s.setChan k v).flushSt = s.flushSt ∧ (s.setChan k v).vstage = s.vstage ∧ (s.setChan k v).vover = s.vover ∧ (s.setChan k v).upd = s.upd ∧
    (s.setChan k v).bgCheck = s.bgCheck ∧ (s.setChan k v).errs = s.errs ∧ (s.setChan k v).due = s.due ∧ (s.setChan k v).conds = s.conds ∧
    (s.setChan k v).pair = s.pair ∧ (s.setChan k v).jtagIr = s.jtagIr ∧ (s.setChan k v).bscan = s.bscan ∧ (s.setChan k v).bistDom = s.bistDom ∧
    (s.setChan k v).freeCtr = s.freeCtr ∧ (s.setChan k v).pending = s.pending := by
  repeat' constructor

@[simp] theorem State.setChan_reads (k : Nat) (v : Chan) (j : Nat) :
    (s.setChan k v).queue j = s.queue j ∧ (s.setChan k v).chain j = s.chain j ∧ (s.setChan k v).thread j = s.thread j ∧
    (s.setChan k v).src j = s.src j ∧ (s.setChan k v).furrow j = s.furrow j ∧ (s.setChan k v).xfer j = s.xfer j ∧ (s.setChan k v).port j = s.port j ∧
    (s.setChan k v).op j = s.op j ∧ (s.setChan k v).txn j = s.txn j ∧ (s.setChan k v).holder j = s.holder j ∧ (s.setChan k v).wait j = s.wait j ∧
    (s.setChan k v).fnc j = s.fnc j ∧ (s.setChan k v).vec j = s.vec j ∧ (s.setChan k v).pbit j = s.pbit j ∧ (s.setChan k v).reg j = s.reg j ∧
    (s.setChan k v).appReg j = s.appReg j := by
  repeat' constructor

/-- It reads back. -/
theorem State.chan_setChan (h : s.Canon) (k : Nat) (v : Chan) : (s.setChan k v).chan k = v := SMap.get_set_same k v h.chans

/-- Any other entry is as before. -/
theorem State.chan_setChan_ne (k : Nat) (v : Chan) (j : Nat) (h : j ≠ k) : (s.setChan k v).chan j = s.chan j := SMap.get_set_ne _ _ h

/-- A change of an entry is a replacement. -/
theorem State.modChan_eq (k : Nat) (f : Chan → Chan) : s.modChan k f = s.setChan k (f (s.chan k)) := rfl

/-- An entry of `ports` replaced. -/
@[simp] theorem State.setPort_fields (k : Nat) (v : Port) :
    (s.setPort k v).life = s.life ∧ (s.setPort k v).startArgs = s.startArgs ∧ (s.setPort k v).hostReady = s.hostReady ∧
    (s.setPort k v).porstLow = s.porstLow ∧ (s.setPort k v).mainGood = s.mainGood ∧ (s.setPort k v).refclk = s.refclk ∧
    (s.setPort k v).warnLow = s.warnLow ∧ (s.setPort k v).warnTiming = s.warnTiming ∧ (s.setPort k v).backupOn = s.backupOn ∧
    (s.setPort k v).slowInternal = s.slowInternal ∧ (s.setPort k v).errA = s.errA ∧ (s.setPort k v).errB = s.errB ∧ (s.setPort k v).spiCsN = s.spiCsN ∧
    (s.setPort k v).spiClk = s.spiClk ∧ (s.setPort k v).spiDrive = s.spiDrive ∧ (s.setPort k v).dack = s.dack ∧ (s.setPort k v).dreq = s.dreq ∧
    (s.setPort k v).dackWait = s.dackWait ∧ (s.setPort k v).time = s.time ∧ (s.setPort k v).rate = s.rate ∧ (s.setPort k v).ptmOpen = s.ptmOpen ∧
    (s.setPort k v).ptmFails = s.ptmFails ∧ (s.setPort k v).regs = s.regs ∧ (s.setPort k v).applied = s.applied ∧ (s.setPort k v).fns = s.fns ∧
    (s.setPort k v).msix = s.msix ∧ (s.setPort k v).pba = s.pba ∧ (s.setPort k v).hostOut = s.hostOut ∧ (s.setPort k v).reads = s.reads ∧
    (s.setPort k v).readWait = s.readWait ∧ (s.setPort k v).fab = s.fab ∧ (s.setPort k v).fbLast = s.fbLast ∧ (s.setPort k v).reply = s.reply ∧
    (s.setPort k v).smbAddr = s.smbAddr ∧ (s.setPort k v).seed = s.seed ∧ (s.setPort k v).flash = s.flash ∧ (s.setPort k v).buf = s.buf ∧
    (s.setPort k v).ctx = s.ctx ∧ (s.setPort k v).tmem = s.tmem ∧ (s.setPort k v).tpriv = s.tpriv ∧ (s.setPort k v).vnode = s.vnode ∧
    (s.setPort k v).vnodes = s.vnodes ∧ (s.setPort k v).cached = s.cached ∧ (s.setPort k v).dirty = s.dirty ∧ (s.setPort k v).dirtyWait = s.dirtyWait ∧
    (s.setPort k v).loading = s.loading ∧ (s.setPort k v).queues = s.queues ∧ (s.setPort k v).chains = s.chains ∧ (s.setPort k v).threads = s.threads ∧
    (s.setPort k v).rakeRR = s.rakeRR ∧ (s.setPort k v).claimTag = s.claimTag ∧ (s.setPort k v).sources = s.sources ∧
    (s.setPort k v).furrows = s.furrows ∧ (s.setPort k v).xfers = s.xfers ∧ (s.setPort k v).nextXfer = s.nextXfer ∧ (s.setPort k v).stamp = s.stamp ∧
    (s.setPort k v).chans = s.chans ∧ (s.setPort k v).ops = s.ops ∧ (s.setPort k v).inbox = s.inbox ∧ (s.setPort k v).ophGen = s.ophGen ∧
    (s.setPort k v).ophUse = s.ophUse ∧ (s.setPort k v).endedAt = s.endedAt ∧ (s.setPort k v).txns = s.txns ∧ (s.setPort k v).slots = s.slots ∧
    (s.setPort k v).waits = s.waits ∧ (s.setPort k v).resq = s.resq ∧ (s.setPort k v).recov = s.recov ∧ (s.setPort k v).relNeeded = s.relNeeded ∧
    (s.setPort k v).jpend = s.jpend ∧ (s.setPort k v).jslots = s.jslots ∧ (s.setPort k v).jpos = s.jpos ∧ (s.setPort k v).owed = s.owed ∧
    (s.setPort k v).autoWait = s.autoWait ∧ (s.setPort k v).ckStart = s.ckStart ∧ (s.setPort k v).ckFrom = s.ckFrom ∧
    (s.setPort k v).flushSt = s.flushSt ∧ (s.setPort k v).vstage = s.vstage ∧ (s.setPort k v).vover = s.vover ∧ (s.setPort k v).upd = s.upd ∧
    (s.setPort k v).bgCheck = s.bgCheck ∧ (s.setPort k v).errs = s.errs ∧ (s.setPort k v).due = s.due ∧ (s.setPort k v).conds = s.conds ∧
    (s.setPort k v).pair = s.pair ∧ (s.setPort k v).jtagIr = s.jtagIr ∧ (s.setPort k v).bscan = s.bscan ∧ (s.setPort k v).bistDom = s.bistDom ∧
    (s.setPort k v).freeCtr = s.freeCtr ∧ (s.setPort k v).pending = s.pending := by
  repeat' constructor

@[simp] theorem State.setPort_reads (k : Nat) (v : Port) (j : Nat) :
    (s.setPort k v).queue j = s.queue j ∧ (s.setPort k v).chain j = s.chain j ∧ (s.setPort k v).thread j = s.thread j ∧
    (s.setPort k v).src j = s.src j ∧ (s.setPort k v).furrow j = s.furrow j ∧ (s.setPort k v).xfer j = s.xfer j ∧ (s.setPort k v).chan j = s.chan j ∧
    (s.setPort k v).op j = s.op j ∧ (s.setPort k v).txn j = s.txn j ∧ (s.setPort k v).holder j = s.holder j ∧ (s.setPort k v).wait j = s.wait j ∧
    (s.setPort k v).fnc j = s.fnc j ∧ (s.setPort k v).vec j = s.vec j ∧ (s.setPort k v).pbit j = s.pbit j ∧ (s.setPort k v).reg j = s.reg j ∧
    (s.setPort k v).appReg j = s.appReg j := by
  repeat' constructor

/-- It reads back. -/
theorem State.port_setPort (h : s.Canon) (k : Nat) (v : Port) : (s.setPort k v).port k = v := SMap.get_set_same k v h.ports

/-- Any other entry is as before. -/
theorem State.port_setPort_ne (k : Nat) (v : Port) (j : Nat) (h : j ≠ k) : (s.setPort k v).port j = s.port j := SMap.get_set_ne _ _ h

/-- A change of an entry is a replacement. -/
theorem State.modPort_eq (k : Nat) (f : Port → Port) : s.modPort k f = s.setPort k (f (s.port k)) := rfl

/-- An entry of `ops` replaced. -/
@[simp] theorem State.setOp_fields (k : Nat) (v : Option NOp) :
    (s.setOp k v).life = s.life ∧ (s.setOp k v).startArgs = s.startArgs ∧ (s.setOp k v).hostReady = s.hostReady ∧ (s.setOp k v).porstLow = s.porstLow ∧
    (s.setOp k v).mainGood = s.mainGood ∧ (s.setOp k v).refclk = s.refclk ∧ (s.setOp k v).warnLow = s.warnLow ∧
    (s.setOp k v).warnTiming = s.warnTiming ∧ (s.setOp k v).backupOn = s.backupOn ∧ (s.setOp k v).slowInternal = s.slowInternal ∧
    (s.setOp k v).errA = s.errA ∧ (s.setOp k v).errB = s.errB ∧ (s.setOp k v).spiCsN = s.spiCsN ∧ (s.setOp k v).spiClk = s.spiClk ∧
    (s.setOp k v).spiDrive = s.spiDrive ∧ (s.setOp k v).dack = s.dack ∧ (s.setOp k v).dreq = s.dreq ∧ (s.setOp k v).dackWait = s.dackWait ∧
    (s.setOp k v).time = s.time ∧ (s.setOp k v).rate = s.rate ∧ (s.setOp k v).ptmOpen = s.ptmOpen ∧ (s.setOp k v).ptmFails = s.ptmFails ∧
    (s.setOp k v).regs = s.regs ∧ (s.setOp k v).applied = s.applied ∧ (s.setOp k v).fns = s.fns ∧ (s.setOp k v).msix = s.msix ∧
    (s.setOp k v).pba = s.pba ∧ (s.setOp k v).hostOut = s.hostOut ∧ (s.setOp k v).reads = s.reads ∧ (s.setOp k v).readWait = s.readWait ∧
    (s.setOp k v).fab = s.fab ∧ (s.setOp k v).fbLast = s.fbLast ∧ (s.setOp k v).reply = s.reply ∧ (s.setOp k v).smbAddr = s.smbAddr ∧
    (s.setOp k v).seed = s.seed ∧ (s.setOp k v).flash = s.flash ∧ (s.setOp k v).buf = s.buf ∧ (s.setOp k v).ctx = s.ctx ∧ (s.setOp k v).tmem = s.tmem ∧
    (s.setOp k v).tpriv = s.tpriv ∧ (s.setOp k v).vnode = s.vnode ∧ (s.setOp k v).vnodes = s.vnodes ∧ (s.setOp k v).cached = s.cached ∧
    (s.setOp k v).dirty = s.dirty ∧ (s.setOp k v).dirtyWait = s.dirtyWait ∧ (s.setOp k v).loading = s.loading ∧ (s.setOp k v).queues = s.queues ∧
    (s.setOp k v).chains = s.chains ∧ (s.setOp k v).threads = s.threads ∧ (s.setOp k v).rakeRR = s.rakeRR ∧ (s.setOp k v).claimTag = s.claimTag ∧
    (s.setOp k v).sources = s.sources ∧ (s.setOp k v).furrows = s.furrows ∧ (s.setOp k v).xfers = s.xfers ∧ (s.setOp k v).nextXfer = s.nextXfer ∧
    (s.setOp k v).stamp = s.stamp ∧ (s.setOp k v).chans = s.chans ∧ (s.setOp k v).ports = s.ports ∧ (s.setOp k v).inbox = s.inbox ∧
    (s.setOp k v).ophGen = s.ophGen ∧ (s.setOp k v).ophUse = s.ophUse ∧ (s.setOp k v).endedAt = s.endedAt ∧ (s.setOp k v).txns = s.txns ∧
    (s.setOp k v).slots = s.slots ∧ (s.setOp k v).waits = s.waits ∧ (s.setOp k v).resq = s.resq ∧ (s.setOp k v).recov = s.recov ∧
    (s.setOp k v).relNeeded = s.relNeeded ∧ (s.setOp k v).jpend = s.jpend ∧ (s.setOp k v).jslots = s.jslots ∧ (s.setOp k v).jpos = s.jpos ∧
    (s.setOp k v).owed = s.owed ∧ (s.setOp k v).autoWait = s.autoWait ∧ (s.setOp k v).ckStart = s.ckStart ∧ (s.setOp k v).ckFrom = s.ckFrom ∧
    (s.setOp k v).flushSt = s.flushSt ∧ (s.setOp k v).vstage = s.vstage ∧ (s.setOp k v).vover = s.vover ∧ (s.setOp k v).upd = s.upd ∧
    (s.setOp k v).bgCheck = s.bgCheck ∧ (s.setOp k v).errs = s.errs ∧ (s.setOp k v).due = s.due ∧ (s.setOp k v).conds = s.conds ∧
    (s.setOp k v).pair = s.pair ∧ (s.setOp k v).jtagIr = s.jtagIr ∧ (s.setOp k v).bscan = s.bscan ∧ (s.setOp k v).bistDom = s.bistDom ∧
    (s.setOp k v).freeCtr = s.freeCtr ∧ (s.setOp k v).pending = s.pending := by
  repeat' constructor

@[simp] theorem State.setOp_reads (k : Nat) (v : Option NOp) (j : Nat) :
    (s.setOp k v).queue j = s.queue j ∧ (s.setOp k v).chain j = s.chain j ∧ (s.setOp k v).thread j = s.thread j ∧ (s.setOp k v).src j = s.src j ∧
    (s.setOp k v).furrow j = s.furrow j ∧ (s.setOp k v).xfer j = s.xfer j ∧ (s.setOp k v).chan j = s.chan j ∧ (s.setOp k v).port j = s.port j ∧
    (s.setOp k v).txn j = s.txn j ∧ (s.setOp k v).holder j = s.holder j ∧ (s.setOp k v).wait j = s.wait j ∧ (s.setOp k v).fnc j = s.fnc j ∧
    (s.setOp k v).vec j = s.vec j ∧ (s.setOp k v).pbit j = s.pbit j ∧ (s.setOp k v).reg j = s.reg j ∧ (s.setOp k v).appReg j = s.appReg j := by
  repeat' constructor

/-- It reads back. -/
theorem State.op_setOp (h : s.Canon) (k : Nat) (v : Option NOp) : (s.setOp k v).op k = v := SMap.get_set_same k v h.ops

/-- Any other entry is as before. -/
theorem State.op_setOp_ne (k : Nat) (v : Option NOp) (j : Nat) (h : j ≠ k) : (s.setOp k v).op j = s.op j := SMap.get_set_ne _ _ h

/-- An entry of `txns` replaced. -/
@[simp] theorem State.setTxn_fields (k : Nat) (v : Txn) :
    (s.setTxn k v).life = s.life ∧ (s.setTxn k v).startArgs = s.startArgs ∧ (s.setTxn k v).hostReady = s.hostReady ∧
    (s.setTxn k v).porstLow = s.porstLow ∧ (s.setTxn k v).mainGood = s.mainGood ∧ (s.setTxn k v).refclk = s.refclk ∧
    (s.setTxn k v).warnLow = s.warnLow ∧ (s.setTxn k v).warnTiming = s.warnTiming ∧ (s.setTxn k v).backupOn = s.backupOn ∧
    (s.setTxn k v).slowInternal = s.slowInternal ∧ (s.setTxn k v).errA = s.errA ∧ (s.setTxn k v).errB = s.errB ∧ (s.setTxn k v).spiCsN = s.spiCsN ∧
    (s.setTxn k v).spiClk = s.spiClk ∧ (s.setTxn k v).spiDrive = s.spiDrive ∧ (s.setTxn k v).dack = s.dack ∧ (s.setTxn k v).dreq = s.dreq ∧
    (s.setTxn k v).dackWait = s.dackWait ∧ (s.setTxn k v).time = s.time ∧ (s.setTxn k v).rate = s.rate ∧ (s.setTxn k v).ptmOpen = s.ptmOpen ∧
    (s.setTxn k v).ptmFails = s.ptmFails ∧ (s.setTxn k v).regs = s.regs ∧ (s.setTxn k v).applied = s.applied ∧ (s.setTxn k v).fns = s.fns ∧
    (s.setTxn k v).msix = s.msix ∧ (s.setTxn k v).pba = s.pba ∧ (s.setTxn k v).hostOut = s.hostOut ∧ (s.setTxn k v).reads = s.reads ∧
    (s.setTxn k v).readWait = s.readWait ∧ (s.setTxn k v).fab = s.fab ∧ (s.setTxn k v).fbLast = s.fbLast ∧ (s.setTxn k v).reply = s.reply ∧
    (s.setTxn k v).smbAddr = s.smbAddr ∧ (s.setTxn k v).seed = s.seed ∧ (s.setTxn k v).flash = s.flash ∧ (s.setTxn k v).buf = s.buf ∧
    (s.setTxn k v).ctx = s.ctx ∧ (s.setTxn k v).tmem = s.tmem ∧ (s.setTxn k v).tpriv = s.tpriv ∧ (s.setTxn k v).vnode = s.vnode ∧
    (s.setTxn k v).vnodes = s.vnodes ∧ (s.setTxn k v).cached = s.cached ∧ (s.setTxn k v).dirty = s.dirty ∧ (s.setTxn k v).dirtyWait = s.dirtyWait ∧
    (s.setTxn k v).loading = s.loading ∧ (s.setTxn k v).queues = s.queues ∧ (s.setTxn k v).chains = s.chains ∧ (s.setTxn k v).threads = s.threads ∧
    (s.setTxn k v).rakeRR = s.rakeRR ∧ (s.setTxn k v).claimTag = s.claimTag ∧ (s.setTxn k v).sources = s.sources ∧ (s.setTxn k v).furrows = s.furrows ∧
    (s.setTxn k v).xfers = s.xfers ∧ (s.setTxn k v).nextXfer = s.nextXfer ∧ (s.setTxn k v).stamp = s.stamp ∧ (s.setTxn k v).chans = s.chans ∧
    (s.setTxn k v).ports = s.ports ∧ (s.setTxn k v).ops = s.ops ∧ (s.setTxn k v).inbox = s.inbox ∧ (s.setTxn k v).ophGen = s.ophGen ∧
    (s.setTxn k v).ophUse = s.ophUse ∧ (s.setTxn k v).endedAt = s.endedAt ∧ (s.setTxn k v).slots = s.slots ∧ (s.setTxn k v).waits = s.waits ∧
    (s.setTxn k v).resq = s.resq ∧ (s.setTxn k v).recov = s.recov ∧ (s.setTxn k v).relNeeded = s.relNeeded ∧ (s.setTxn k v).jpend = s.jpend ∧
    (s.setTxn k v).jslots = s.jslots ∧ (s.setTxn k v).jpos = s.jpos ∧ (s.setTxn k v).owed = s.owed ∧ (s.setTxn k v).autoWait = s.autoWait ∧
    (s.setTxn k v).ckStart = s.ckStart ∧ (s.setTxn k v).ckFrom = s.ckFrom ∧ (s.setTxn k v).flushSt = s.flushSt ∧ (s.setTxn k v).vstage = s.vstage ∧
    (s.setTxn k v).vover = s.vover ∧ (s.setTxn k v).upd = s.upd ∧ (s.setTxn k v).bgCheck = s.bgCheck ∧ (s.setTxn k v).errs = s.errs ∧
    (s.setTxn k v).due = s.due ∧ (s.setTxn k v).conds = s.conds ∧ (s.setTxn k v).pair = s.pair ∧ (s.setTxn k v).jtagIr = s.jtagIr ∧
    (s.setTxn k v).bscan = s.bscan ∧ (s.setTxn k v).bistDom = s.bistDom ∧ (s.setTxn k v).freeCtr = s.freeCtr ∧ (s.setTxn k v).pending = s.pending := by
  repeat' constructor

@[simp] theorem State.setTxn_reads (k : Nat) (v : Txn) (j : Nat) :
    (s.setTxn k v).queue j = s.queue j ∧ (s.setTxn k v).chain j = s.chain j ∧ (s.setTxn k v).thread j = s.thread j ∧ (s.setTxn k v).src j = s.src j ∧
    (s.setTxn k v).furrow j = s.furrow j ∧ (s.setTxn k v).xfer j = s.xfer j ∧ (s.setTxn k v).chan j = s.chan j ∧ (s.setTxn k v).port j = s.port j ∧
    (s.setTxn k v).op j = s.op j ∧ (s.setTxn k v).holder j = s.holder j ∧ (s.setTxn k v).wait j = s.wait j ∧ (s.setTxn k v).fnc j = s.fnc j ∧
    (s.setTxn k v).vec j = s.vec j ∧ (s.setTxn k v).pbit j = s.pbit j ∧ (s.setTxn k v).reg j = s.reg j ∧ (s.setTxn k v).appReg j = s.appReg j := by
  repeat' constructor

/-- It reads back. -/
theorem State.txn_setTxn (h : s.Canon) (k : Nat) (v : Txn) : (s.setTxn k v).txn k = v := SMap.get_set_same k v h.txns

/-- Any other entry is as before. -/
theorem State.txn_setTxn_ne (k : Nat) (v : Txn) (j : Nat) (h : j ≠ k) : (s.setTxn k v).txn j = s.txn j := SMap.get_set_ne _ _ h

/-- A change of an entry is a replacement. -/
theorem State.modTxn_eq (k : Nat) (f : Txn → Txn) : s.modTxn k f = s.setTxn k (f (s.txn k)) := rfl

/-- An entry of `slots` replaced. -/
@[simp] theorem State.setHolder_fields (k : Nat) (v : Holder) :
    (s.setHolder k v).life = s.life ∧ (s.setHolder k v).startArgs = s.startArgs ∧ (s.setHolder k v).hostReady = s.hostReady ∧
    (s.setHolder k v).porstLow = s.porstLow ∧ (s.setHolder k v).mainGood = s.mainGood ∧ (s.setHolder k v).refclk = s.refclk ∧
    (s.setHolder k v).warnLow = s.warnLow ∧ (s.setHolder k v).warnTiming = s.warnTiming ∧ (s.setHolder k v).backupOn = s.backupOn ∧
    (s.setHolder k v).slowInternal = s.slowInternal ∧ (s.setHolder k v).errA = s.errA ∧ (s.setHolder k v).errB = s.errB ∧
    (s.setHolder k v).spiCsN = s.spiCsN ∧ (s.setHolder k v).spiClk = s.spiClk ∧ (s.setHolder k v).spiDrive = s.spiDrive ∧
    (s.setHolder k v).dack = s.dack ∧ (s.setHolder k v).dreq = s.dreq ∧ (s.setHolder k v).dackWait = s.dackWait ∧ (s.setHolder k v).time = s.time ∧
    (s.setHolder k v).rate = s.rate ∧ (s.setHolder k v).ptmOpen = s.ptmOpen ∧ (s.setHolder k v).ptmFails = s.ptmFails ∧
    (s.setHolder k v).regs = s.regs ∧ (s.setHolder k v).applied = s.applied ∧ (s.setHolder k v).fns = s.fns ∧ (s.setHolder k v).msix = s.msix ∧
    (s.setHolder k v).pba = s.pba ∧ (s.setHolder k v).hostOut = s.hostOut ∧ (s.setHolder k v).reads = s.reads ∧
    (s.setHolder k v).readWait = s.readWait ∧ (s.setHolder k v).fab = s.fab ∧ (s.setHolder k v).fbLast = s.fbLast ∧ (s.setHolder k v).reply = s.reply ∧
    (s.setHolder k v).smbAddr = s.smbAddr ∧ (s.setHolder k v).seed = s.seed ∧ (s.setHolder k v).flash = s.flash ∧ (s.setHolder k v).buf = s.buf ∧
    (s.setHolder k v).ctx = s.ctx ∧ (s.setHolder k v).tmem = s.tmem ∧ (s.setHolder k v).tpriv = s.tpriv ∧ (s.setHolder k v).vnode = s.vnode ∧
    (s.setHolder k v).vnodes = s.vnodes ∧ (s.setHolder k v).cached = s.cached ∧ (s.setHolder k v).dirty = s.dirty ∧
    (s.setHolder k v).dirtyWait = s.dirtyWait ∧ (s.setHolder k v).loading = s.loading ∧ (s.setHolder k v).queues = s.queues ∧
    (s.setHolder k v).chains = s.chains ∧ (s.setHolder k v).threads = s.threads ∧ (s.setHolder k v).rakeRR = s.rakeRR ∧
    (s.setHolder k v).claimTag = s.claimTag ∧ (s.setHolder k v).sources = s.sources ∧ (s.setHolder k v).furrows = s.furrows ∧
    (s.setHolder k v).xfers = s.xfers ∧ (s.setHolder k v).nextXfer = s.nextXfer ∧ (s.setHolder k v).stamp = s.stamp ∧
    (s.setHolder k v).chans = s.chans ∧ (s.setHolder k v).ports = s.ports ∧ (s.setHolder k v).ops = s.ops ∧ (s.setHolder k v).inbox = s.inbox ∧
    (s.setHolder k v).ophGen = s.ophGen ∧ (s.setHolder k v).ophUse = s.ophUse ∧ (s.setHolder k v).endedAt = s.endedAt ∧
    (s.setHolder k v).txns = s.txns ∧ (s.setHolder k v).waits = s.waits ∧ (s.setHolder k v).resq = s.resq ∧ (s.setHolder k v).recov = s.recov ∧
    (s.setHolder k v).relNeeded = s.relNeeded ∧ (s.setHolder k v).jpend = s.jpend ∧ (s.setHolder k v).jslots = s.jslots ∧
    (s.setHolder k v).jpos = s.jpos ∧ (s.setHolder k v).owed = s.owed ∧ (s.setHolder k v).autoWait = s.autoWait ∧
    (s.setHolder k v).ckStart = s.ckStart ∧ (s.setHolder k v).ckFrom = s.ckFrom ∧ (s.setHolder k v).flushSt = s.flushSt ∧
    (s.setHolder k v).vstage = s.vstage ∧ (s.setHolder k v).vover = s.vover ∧ (s.setHolder k v).upd = s.upd ∧ (s.setHolder k v).bgCheck = s.bgCheck ∧
    (s.setHolder k v).errs = s.errs ∧ (s.setHolder k v).due = s.due ∧ (s.setHolder k v).conds = s.conds ∧ (s.setHolder k v).pair = s.pair ∧
    (s.setHolder k v).jtagIr = s.jtagIr ∧ (s.setHolder k v).bscan = s.bscan ∧ (s.setHolder k v).bistDom = s.bistDom ∧
    (s.setHolder k v).freeCtr = s.freeCtr ∧ (s.setHolder k v).pending = s.pending := by
  repeat' constructor

@[simp] theorem State.setHolder_reads (k : Nat) (v : Holder) (j : Nat) :
    (s.setHolder k v).queue j = s.queue j ∧ (s.setHolder k v).chain j = s.chain j ∧ (s.setHolder k v).thread j = s.thread j ∧
    (s.setHolder k v).src j = s.src j ∧ (s.setHolder k v).furrow j = s.furrow j ∧ (s.setHolder k v).xfer j = s.xfer j ∧
    (s.setHolder k v).chan j = s.chan j ∧ (s.setHolder k v).port j = s.port j ∧ (s.setHolder k v).op j = s.op j ∧ (s.setHolder k v).txn j = s.txn j ∧
    (s.setHolder k v).wait j = s.wait j ∧ (s.setHolder k v).fnc j = s.fnc j ∧ (s.setHolder k v).vec j = s.vec j ∧ (s.setHolder k v).pbit j = s.pbit j ∧
    (s.setHolder k v).reg j = s.reg j ∧ (s.setHolder k v).appReg j = s.appReg j := by
  repeat' constructor

/-- It reads back. -/
theorem State.holder_setHolder (h : s.Canon) (k : Nat) (v : Holder) : (s.setHolder k v).holder k = v := SMap.get_set_same k v h.slots

/-- Any other entry is as before. -/
theorem State.holder_setHolder_ne (k : Nat) (v : Holder) (j : Nat) (h : j ≠ k) : (s.setHolder k v).holder j = s.holder j := SMap.get_set_ne _ _ h

/-- An entry of `waits` replaced. -/
@[simp] theorem State.setWait_fields (k : Nat) (v : Option Wait) :
    (s.setWait k v).life = s.life ∧ (s.setWait k v).startArgs = s.startArgs ∧ (s.setWait k v).hostReady = s.hostReady ∧
    (s.setWait k v).porstLow = s.porstLow ∧ (s.setWait k v).mainGood = s.mainGood ∧ (s.setWait k v).refclk = s.refclk ∧
    (s.setWait k v).warnLow = s.warnLow ∧ (s.setWait k v).warnTiming = s.warnTiming ∧ (s.setWait k v).backupOn = s.backupOn ∧
    (s.setWait k v).slowInternal = s.slowInternal ∧ (s.setWait k v).errA = s.errA ∧ (s.setWait k v).errB = s.errB ∧ (s.setWait k v).spiCsN = s.spiCsN ∧
    (s.setWait k v).spiClk = s.spiClk ∧ (s.setWait k v).spiDrive = s.spiDrive ∧ (s.setWait k v).dack = s.dack ∧ (s.setWait k v).dreq = s.dreq ∧
    (s.setWait k v).dackWait = s.dackWait ∧ (s.setWait k v).time = s.time ∧ (s.setWait k v).rate = s.rate ∧ (s.setWait k v).ptmOpen = s.ptmOpen ∧
    (s.setWait k v).ptmFails = s.ptmFails ∧ (s.setWait k v).regs = s.regs ∧ (s.setWait k v).applied = s.applied ∧ (s.setWait k v).fns = s.fns ∧
    (s.setWait k v).msix = s.msix ∧ (s.setWait k v).pba = s.pba ∧ (s.setWait k v).hostOut = s.hostOut ∧ (s.setWait k v).reads = s.reads ∧
    (s.setWait k v).readWait = s.readWait ∧ (s.setWait k v).fab = s.fab ∧ (s.setWait k v).fbLast = s.fbLast ∧ (s.setWait k v).reply = s.reply ∧
    (s.setWait k v).smbAddr = s.smbAddr ∧ (s.setWait k v).seed = s.seed ∧ (s.setWait k v).flash = s.flash ∧ (s.setWait k v).buf = s.buf ∧
    (s.setWait k v).ctx = s.ctx ∧ (s.setWait k v).tmem = s.tmem ∧ (s.setWait k v).tpriv = s.tpriv ∧ (s.setWait k v).vnode = s.vnode ∧
    (s.setWait k v).vnodes = s.vnodes ∧ (s.setWait k v).cached = s.cached ∧ (s.setWait k v).dirty = s.dirty ∧ (s.setWait k v).dirtyWait = s.dirtyWait ∧
    (s.setWait k v).loading = s.loading ∧ (s.setWait k v).queues = s.queues ∧ (s.setWait k v).chains = s.chains ∧ (s.setWait k v).threads = s.threads ∧
    (s.setWait k v).rakeRR = s.rakeRR ∧ (s.setWait k v).claimTag = s.claimTag ∧ (s.setWait k v).sources = s.sources ∧
    (s.setWait k v).furrows = s.furrows ∧ (s.setWait k v).xfers = s.xfers ∧ (s.setWait k v).nextXfer = s.nextXfer ∧ (s.setWait k v).stamp = s.stamp ∧
    (s.setWait k v).chans = s.chans ∧ (s.setWait k v).ports = s.ports ∧ (s.setWait k v).ops = s.ops ∧ (s.setWait k v).inbox = s.inbox ∧
    (s.setWait k v).ophGen = s.ophGen ∧ (s.setWait k v).ophUse = s.ophUse ∧ (s.setWait k v).endedAt = s.endedAt ∧ (s.setWait k v).txns = s.txns ∧
    (s.setWait k v).slots = s.slots ∧ (s.setWait k v).resq = s.resq ∧ (s.setWait k v).recov = s.recov ∧ (s.setWait k v).relNeeded = s.relNeeded ∧
    (s.setWait k v).jpend = s.jpend ∧ (s.setWait k v).jslots = s.jslots ∧ (s.setWait k v).jpos = s.jpos ∧ (s.setWait k v).owed = s.owed ∧
    (s.setWait k v).autoWait = s.autoWait ∧ (s.setWait k v).ckStart = s.ckStart ∧ (s.setWait k v).ckFrom = s.ckFrom ∧
    (s.setWait k v).flushSt = s.flushSt ∧ (s.setWait k v).vstage = s.vstage ∧ (s.setWait k v).vover = s.vover ∧ (s.setWait k v).upd = s.upd ∧
    (s.setWait k v).bgCheck = s.bgCheck ∧ (s.setWait k v).errs = s.errs ∧ (s.setWait k v).due = s.due ∧ (s.setWait k v).conds = s.conds ∧
    (s.setWait k v).pair = s.pair ∧ (s.setWait k v).jtagIr = s.jtagIr ∧ (s.setWait k v).bscan = s.bscan ∧ (s.setWait k v).bistDom = s.bistDom ∧
    (s.setWait k v).freeCtr = s.freeCtr ∧ (s.setWait k v).pending = s.pending := by
  repeat' constructor

@[simp] theorem State.setWait_reads (k : Nat) (v : Option Wait) (j : Nat) :
    (s.setWait k v).queue j = s.queue j ∧ (s.setWait k v).chain j = s.chain j ∧ (s.setWait k v).thread j = s.thread j ∧
    (s.setWait k v).src j = s.src j ∧ (s.setWait k v).furrow j = s.furrow j ∧ (s.setWait k v).xfer j = s.xfer j ∧ (s.setWait k v).chan j = s.chan j ∧
    (s.setWait k v).port j = s.port j ∧ (s.setWait k v).op j = s.op j ∧ (s.setWait k v).txn j = s.txn j ∧ (s.setWait k v).holder j = s.holder j ∧
    (s.setWait k v).fnc j = s.fnc j ∧ (s.setWait k v).vec j = s.vec j ∧ (s.setWait k v).pbit j = s.pbit j ∧ (s.setWait k v).reg j = s.reg j ∧
    (s.setWait k v).appReg j = s.appReg j := by
  repeat' constructor

/-- It reads back. -/
theorem State.wait_setWait (h : s.Canon) (k : Nat) (v : Option Wait) : (s.setWait k v).wait k = v := SMap.get_set_same k v h.waits

/-- Any other entry is as before. -/
theorem State.wait_setWait_ne (k : Nat) (v : Option Wait) (j : Nat) (h : j ≠ k) : (s.setWait k v).wait j = s.wait j := SMap.get_set_ne _ _ h

/-- An entry of `fns` replaced. -/
@[simp] theorem State.setFnc_fields (k : Nat) (v : FnCfg) :
    (s.setFnc k v).life = s.life ∧ (s.setFnc k v).startArgs = s.startArgs ∧ (s.setFnc k v).hostReady = s.hostReady ∧
    (s.setFnc k v).porstLow = s.porstLow ∧ (s.setFnc k v).mainGood = s.mainGood ∧ (s.setFnc k v).refclk = s.refclk ∧
    (s.setFnc k v).warnLow = s.warnLow ∧ (s.setFnc k v).warnTiming = s.warnTiming ∧ (s.setFnc k v).backupOn = s.backupOn ∧
    (s.setFnc k v).slowInternal = s.slowInternal ∧ (s.setFnc k v).errA = s.errA ∧ (s.setFnc k v).errB = s.errB ∧ (s.setFnc k v).spiCsN = s.spiCsN ∧
    (s.setFnc k v).spiClk = s.spiClk ∧ (s.setFnc k v).spiDrive = s.spiDrive ∧ (s.setFnc k v).dack = s.dack ∧ (s.setFnc k v).dreq = s.dreq ∧
    (s.setFnc k v).dackWait = s.dackWait ∧ (s.setFnc k v).time = s.time ∧ (s.setFnc k v).rate = s.rate ∧ (s.setFnc k v).ptmOpen = s.ptmOpen ∧
    (s.setFnc k v).ptmFails = s.ptmFails ∧ (s.setFnc k v).regs = s.regs ∧ (s.setFnc k v).applied = s.applied ∧ (s.setFnc k v).msix = s.msix ∧
    (s.setFnc k v).pba = s.pba ∧ (s.setFnc k v).hostOut = s.hostOut ∧ (s.setFnc k v).reads = s.reads ∧ (s.setFnc k v).readWait = s.readWait ∧
    (s.setFnc k v).fab = s.fab ∧ (s.setFnc k v).fbLast = s.fbLast ∧ (s.setFnc k v).reply = s.reply ∧ (s.setFnc k v).smbAddr = s.smbAddr ∧
    (s.setFnc k v).seed = s.seed ∧ (s.setFnc k v).flash = s.flash ∧ (s.setFnc k v).buf = s.buf ∧ (s.setFnc k v).ctx = s.ctx ∧
    (s.setFnc k v).tmem = s.tmem ∧ (s.setFnc k v).tpriv = s.tpriv ∧ (s.setFnc k v).vnode = s.vnode ∧ (s.setFnc k v).vnodes = s.vnodes ∧
    (s.setFnc k v).cached = s.cached ∧ (s.setFnc k v).dirty = s.dirty ∧ (s.setFnc k v).dirtyWait = s.dirtyWait ∧ (s.setFnc k v).loading = s.loading ∧
    (s.setFnc k v).queues = s.queues ∧ (s.setFnc k v).chains = s.chains ∧ (s.setFnc k v).threads = s.threads ∧ (s.setFnc k v).rakeRR = s.rakeRR ∧
    (s.setFnc k v).claimTag = s.claimTag ∧ (s.setFnc k v).sources = s.sources ∧ (s.setFnc k v).furrows = s.furrows ∧ (s.setFnc k v).xfers = s.xfers ∧
    (s.setFnc k v).nextXfer = s.nextXfer ∧ (s.setFnc k v).stamp = s.stamp ∧ (s.setFnc k v).chans = s.chans ∧ (s.setFnc k v).ports = s.ports ∧
    (s.setFnc k v).ops = s.ops ∧ (s.setFnc k v).inbox = s.inbox ∧ (s.setFnc k v).ophGen = s.ophGen ∧ (s.setFnc k v).ophUse = s.ophUse ∧
    (s.setFnc k v).endedAt = s.endedAt ∧ (s.setFnc k v).txns = s.txns ∧ (s.setFnc k v).slots = s.slots ∧ (s.setFnc k v).waits = s.waits ∧
    (s.setFnc k v).resq = s.resq ∧ (s.setFnc k v).recov = s.recov ∧ (s.setFnc k v).relNeeded = s.relNeeded ∧ (s.setFnc k v).jpend = s.jpend ∧
    (s.setFnc k v).jslots = s.jslots ∧ (s.setFnc k v).jpos = s.jpos ∧ (s.setFnc k v).owed = s.owed ∧ (s.setFnc k v).autoWait = s.autoWait ∧
    (s.setFnc k v).ckStart = s.ckStart ∧ (s.setFnc k v).ckFrom = s.ckFrom ∧ (s.setFnc k v).flushSt = s.flushSt ∧ (s.setFnc k v).vstage = s.vstage ∧
    (s.setFnc k v).vover = s.vover ∧ (s.setFnc k v).upd = s.upd ∧ (s.setFnc k v).bgCheck = s.bgCheck ∧ (s.setFnc k v).errs = s.errs ∧
    (s.setFnc k v).due = s.due ∧ (s.setFnc k v).conds = s.conds ∧ (s.setFnc k v).pair = s.pair ∧ (s.setFnc k v).jtagIr = s.jtagIr ∧
    (s.setFnc k v).bscan = s.bscan ∧ (s.setFnc k v).bistDom = s.bistDom ∧ (s.setFnc k v).freeCtr = s.freeCtr ∧ (s.setFnc k v).pending = s.pending := by
  repeat' constructor

@[simp] theorem State.setFnc_reads (k : Nat) (v : FnCfg) (j : Nat) :
    (s.setFnc k v).queue j = s.queue j ∧ (s.setFnc k v).chain j = s.chain j ∧ (s.setFnc k v).thread j = s.thread j ∧ (s.setFnc k v).src j = s.src j ∧
    (s.setFnc k v).furrow j = s.furrow j ∧ (s.setFnc k v).xfer j = s.xfer j ∧ (s.setFnc k v).chan j = s.chan j ∧ (s.setFnc k v).port j = s.port j ∧
    (s.setFnc k v).op j = s.op j ∧ (s.setFnc k v).txn j = s.txn j ∧ (s.setFnc k v).holder j = s.holder j ∧ (s.setFnc k v).wait j = s.wait j ∧
    (s.setFnc k v).vec j = s.vec j ∧ (s.setFnc k v).pbit j = s.pbit j ∧ (s.setFnc k v).reg j = s.reg j ∧ (s.setFnc k v).appReg j = s.appReg j := by
  repeat' constructor

/-- It reads back. -/
theorem State.fnc_setFnc (h : s.Canon) (k : Nat) (v : FnCfg) : (s.setFnc k v).fnc k = v := SMap.get_set_same k v h.fns

/-- Any other entry is as before. -/
theorem State.fnc_setFnc_ne (k : Nat) (v : FnCfg) (j : Nat) (h : j ≠ k) : (s.setFnc k v).fnc j = s.fnc j := SMap.get_set_ne _ _ h

/-- A change of an entry is a replacement. -/
theorem State.modFnc_eq (k : Nat) (f : FnCfg → FnCfg) : s.modFnc k f = s.setFnc k (f (s.fnc k)) := rfl

/-- An entry of `msix` replaced. -/
@[simp] theorem State.setVec_fields (k : Nat) (v : MsixEntry) :
    (s.setVec k v).life = s.life ∧ (s.setVec k v).startArgs = s.startArgs ∧ (s.setVec k v).hostReady = s.hostReady ∧
    (s.setVec k v).porstLow = s.porstLow ∧ (s.setVec k v).mainGood = s.mainGood ∧ (s.setVec k v).refclk = s.refclk ∧
    (s.setVec k v).warnLow = s.warnLow ∧ (s.setVec k v).warnTiming = s.warnTiming ∧ (s.setVec k v).backupOn = s.backupOn ∧
    (s.setVec k v).slowInternal = s.slowInternal ∧ (s.setVec k v).errA = s.errA ∧ (s.setVec k v).errB = s.errB ∧ (s.setVec k v).spiCsN = s.spiCsN ∧
    (s.setVec k v).spiClk = s.spiClk ∧ (s.setVec k v).spiDrive = s.spiDrive ∧ (s.setVec k v).dack = s.dack ∧ (s.setVec k v).dreq = s.dreq ∧
    (s.setVec k v).dackWait = s.dackWait ∧ (s.setVec k v).time = s.time ∧ (s.setVec k v).rate = s.rate ∧ (s.setVec k v).ptmOpen = s.ptmOpen ∧
    (s.setVec k v).ptmFails = s.ptmFails ∧ (s.setVec k v).regs = s.regs ∧ (s.setVec k v).applied = s.applied ∧ (s.setVec k v).fns = s.fns ∧
    (s.setVec k v).pba = s.pba ∧ (s.setVec k v).hostOut = s.hostOut ∧ (s.setVec k v).reads = s.reads ∧ (s.setVec k v).readWait = s.readWait ∧
    (s.setVec k v).fab = s.fab ∧ (s.setVec k v).fbLast = s.fbLast ∧ (s.setVec k v).reply = s.reply ∧ (s.setVec k v).smbAddr = s.smbAddr ∧
    (s.setVec k v).seed = s.seed ∧ (s.setVec k v).flash = s.flash ∧ (s.setVec k v).buf = s.buf ∧ (s.setVec k v).ctx = s.ctx ∧
    (s.setVec k v).tmem = s.tmem ∧ (s.setVec k v).tpriv = s.tpriv ∧ (s.setVec k v).vnode = s.vnode ∧ (s.setVec k v).vnodes = s.vnodes ∧
    (s.setVec k v).cached = s.cached ∧ (s.setVec k v).dirty = s.dirty ∧ (s.setVec k v).dirtyWait = s.dirtyWait ∧ (s.setVec k v).loading = s.loading ∧
    (s.setVec k v).queues = s.queues ∧ (s.setVec k v).chains = s.chains ∧ (s.setVec k v).threads = s.threads ∧ (s.setVec k v).rakeRR = s.rakeRR ∧
    (s.setVec k v).claimTag = s.claimTag ∧ (s.setVec k v).sources = s.sources ∧ (s.setVec k v).furrows = s.furrows ∧ (s.setVec k v).xfers = s.xfers ∧
    (s.setVec k v).nextXfer = s.nextXfer ∧ (s.setVec k v).stamp = s.stamp ∧ (s.setVec k v).chans = s.chans ∧ (s.setVec k v).ports = s.ports ∧
    (s.setVec k v).ops = s.ops ∧ (s.setVec k v).inbox = s.inbox ∧ (s.setVec k v).ophGen = s.ophGen ∧ (s.setVec k v).ophUse = s.ophUse ∧
    (s.setVec k v).endedAt = s.endedAt ∧ (s.setVec k v).txns = s.txns ∧ (s.setVec k v).slots = s.slots ∧ (s.setVec k v).waits = s.waits ∧
    (s.setVec k v).resq = s.resq ∧ (s.setVec k v).recov = s.recov ∧ (s.setVec k v).relNeeded = s.relNeeded ∧ (s.setVec k v).jpend = s.jpend ∧
    (s.setVec k v).jslots = s.jslots ∧ (s.setVec k v).jpos = s.jpos ∧ (s.setVec k v).owed = s.owed ∧ (s.setVec k v).autoWait = s.autoWait ∧
    (s.setVec k v).ckStart = s.ckStart ∧ (s.setVec k v).ckFrom = s.ckFrom ∧ (s.setVec k v).flushSt = s.flushSt ∧ (s.setVec k v).vstage = s.vstage ∧
    (s.setVec k v).vover = s.vover ∧ (s.setVec k v).upd = s.upd ∧ (s.setVec k v).bgCheck = s.bgCheck ∧ (s.setVec k v).errs = s.errs ∧
    (s.setVec k v).due = s.due ∧ (s.setVec k v).conds = s.conds ∧ (s.setVec k v).pair = s.pair ∧ (s.setVec k v).jtagIr = s.jtagIr ∧
    (s.setVec k v).bscan = s.bscan ∧ (s.setVec k v).bistDom = s.bistDom ∧ (s.setVec k v).freeCtr = s.freeCtr ∧ (s.setVec k v).pending = s.pending := by
  repeat' constructor

@[simp] theorem State.setVec_reads (k : Nat) (v : MsixEntry) (j : Nat) :
    (s.setVec k v).queue j = s.queue j ∧ (s.setVec k v).chain j = s.chain j ∧ (s.setVec k v).thread j = s.thread j ∧ (s.setVec k v).src j = s.src j ∧
    (s.setVec k v).furrow j = s.furrow j ∧ (s.setVec k v).xfer j = s.xfer j ∧ (s.setVec k v).chan j = s.chan j ∧ (s.setVec k v).port j = s.port j ∧
    (s.setVec k v).op j = s.op j ∧ (s.setVec k v).txn j = s.txn j ∧ (s.setVec k v).holder j = s.holder j ∧ (s.setVec k v).wait j = s.wait j ∧
    (s.setVec k v).fnc j = s.fnc j ∧ (s.setVec k v).pbit j = s.pbit j ∧ (s.setVec k v).reg j = s.reg j ∧ (s.setVec k v).appReg j = s.appReg j := by
  repeat' constructor

/-- It reads back. -/
theorem State.vec_setVec (h : s.Canon) (k : Nat) (v : MsixEntry) : (s.setVec k v).vec k = v := SMap.get_set_same k v h.msix

/-- Any other entry is as before. -/
theorem State.vec_setVec_ne (k : Nat) (v : MsixEntry) (j : Nat) (h : j ≠ k) : (s.setVec k v).vec j = s.vec j := SMap.get_set_ne _ _ h

/-- A change of an entry is a replacement. -/
theorem State.modVec_eq (k : Nat) (f : MsixEntry → MsixEntry) : s.modVec k f = s.setVec k (f (s.vec k)) := rfl

/-- An entry of `pba` replaced. -/
@[simp] theorem State.setPbit_fields (k : Nat) (v : Bool) :
    (s.setPbit k v).life = s.life ∧ (s.setPbit k v).startArgs = s.startArgs ∧ (s.setPbit k v).hostReady = s.hostReady ∧
    (s.setPbit k v).porstLow = s.porstLow ∧ (s.setPbit k v).mainGood = s.mainGood ∧ (s.setPbit k v).refclk = s.refclk ∧
    (s.setPbit k v).warnLow = s.warnLow ∧ (s.setPbit k v).warnTiming = s.warnTiming ∧ (s.setPbit k v).backupOn = s.backupOn ∧
    (s.setPbit k v).slowInternal = s.slowInternal ∧ (s.setPbit k v).errA = s.errA ∧ (s.setPbit k v).errB = s.errB ∧ (s.setPbit k v).spiCsN = s.spiCsN ∧
    (s.setPbit k v).spiClk = s.spiClk ∧ (s.setPbit k v).spiDrive = s.spiDrive ∧ (s.setPbit k v).dack = s.dack ∧ (s.setPbit k v).dreq = s.dreq ∧
    (s.setPbit k v).dackWait = s.dackWait ∧ (s.setPbit k v).time = s.time ∧ (s.setPbit k v).rate = s.rate ∧ (s.setPbit k v).ptmOpen = s.ptmOpen ∧
    (s.setPbit k v).ptmFails = s.ptmFails ∧ (s.setPbit k v).regs = s.regs ∧ (s.setPbit k v).applied = s.applied ∧ (s.setPbit k v).fns = s.fns ∧
    (s.setPbit k v).msix = s.msix ∧ (s.setPbit k v).hostOut = s.hostOut ∧ (s.setPbit k v).reads = s.reads ∧ (s.setPbit k v).readWait = s.readWait ∧
    (s.setPbit k v).fab = s.fab ∧ (s.setPbit k v).fbLast = s.fbLast ∧ (s.setPbit k v).reply = s.reply ∧ (s.setPbit k v).smbAddr = s.smbAddr ∧
    (s.setPbit k v).seed = s.seed ∧ (s.setPbit k v).flash = s.flash ∧ (s.setPbit k v).buf = s.buf ∧ (s.setPbit k v).ctx = s.ctx ∧
    (s.setPbit k v).tmem = s.tmem ∧ (s.setPbit k v).tpriv = s.tpriv ∧ (s.setPbit k v).vnode = s.vnode ∧ (s.setPbit k v).vnodes = s.vnodes ∧
    (s.setPbit k v).cached = s.cached ∧ (s.setPbit k v).dirty = s.dirty ∧ (s.setPbit k v).dirtyWait = s.dirtyWait ∧
    (s.setPbit k v).loading = s.loading ∧ (s.setPbit k v).queues = s.queues ∧ (s.setPbit k v).chains = s.chains ∧ (s.setPbit k v).threads = s.threads ∧
    (s.setPbit k v).rakeRR = s.rakeRR ∧ (s.setPbit k v).claimTag = s.claimTag ∧ (s.setPbit k v).sources = s.sources ∧
    (s.setPbit k v).furrows = s.furrows ∧ (s.setPbit k v).xfers = s.xfers ∧ (s.setPbit k v).nextXfer = s.nextXfer ∧ (s.setPbit k v).stamp = s.stamp ∧
    (s.setPbit k v).chans = s.chans ∧ (s.setPbit k v).ports = s.ports ∧ (s.setPbit k v).ops = s.ops ∧ (s.setPbit k v).inbox = s.inbox ∧
    (s.setPbit k v).ophGen = s.ophGen ∧ (s.setPbit k v).ophUse = s.ophUse ∧ (s.setPbit k v).endedAt = s.endedAt ∧ (s.setPbit k v).txns = s.txns ∧
    (s.setPbit k v).slots = s.slots ∧ (s.setPbit k v).waits = s.waits ∧ (s.setPbit k v).resq = s.resq ∧ (s.setPbit k v).recov = s.recov ∧
    (s.setPbit k v).relNeeded = s.relNeeded ∧ (s.setPbit k v).jpend = s.jpend ∧ (s.setPbit k v).jslots = s.jslots ∧ (s.setPbit k v).jpos = s.jpos ∧
    (s.setPbit k v).owed = s.owed ∧ (s.setPbit k v).autoWait = s.autoWait ∧ (s.setPbit k v).ckStart = s.ckStart ∧ (s.setPbit k v).ckFrom = s.ckFrom ∧
    (s.setPbit k v).flushSt = s.flushSt ∧ (s.setPbit k v).vstage = s.vstage ∧ (s.setPbit k v).vover = s.vover ∧ (s.setPbit k v).upd = s.upd ∧
    (s.setPbit k v).bgCheck = s.bgCheck ∧ (s.setPbit k v).errs = s.errs ∧ (s.setPbit k v).due = s.due ∧ (s.setPbit k v).conds = s.conds ∧
    (s.setPbit k v).pair = s.pair ∧ (s.setPbit k v).jtagIr = s.jtagIr ∧ (s.setPbit k v).bscan = s.bscan ∧ (s.setPbit k v).bistDom = s.bistDom ∧
    (s.setPbit k v).freeCtr = s.freeCtr ∧ (s.setPbit k v).pending = s.pending := by
  repeat' constructor

@[simp] theorem State.setPbit_reads (k : Nat) (v : Bool) (j : Nat) :
    (s.setPbit k v).queue j = s.queue j ∧ (s.setPbit k v).chain j = s.chain j ∧ (s.setPbit k v).thread j = s.thread j ∧
    (s.setPbit k v).src j = s.src j ∧ (s.setPbit k v).furrow j = s.furrow j ∧ (s.setPbit k v).xfer j = s.xfer j ∧ (s.setPbit k v).chan j = s.chan j ∧
    (s.setPbit k v).port j = s.port j ∧ (s.setPbit k v).op j = s.op j ∧ (s.setPbit k v).txn j = s.txn j ∧ (s.setPbit k v).holder j = s.holder j ∧
    (s.setPbit k v).wait j = s.wait j ∧ (s.setPbit k v).fnc j = s.fnc j ∧ (s.setPbit k v).vec j = s.vec j ∧ (s.setPbit k v).reg j = s.reg j ∧
    (s.setPbit k v).appReg j = s.appReg j := by
  repeat' constructor

/-- It reads back. -/
theorem State.pbit_setPbit (h : s.Canon) (k : Nat) (v : Bool) : (s.setPbit k v).pbit k = v := SMap.get_set_same k v h.pba

/-- Any other entry is as before. -/
theorem State.pbit_setPbit_ne (k : Nat) (v : Bool) (j : Nat) (h : j ≠ k) : (s.setPbit k v).pbit j = s.pbit j := SMap.get_set_ne _ _ h

end Sys2Proof.Machine
end

