-- ==== Sys2Proof/Tests/Slice0.lean ====
section
/-! SUPPORT. The model's own tests: states that meet the hypotheses of the statements, and a few results of the manual. -/

namespace Sys2Proof.Tests

open Sys2Proof.Machine

-- The kernel evaluations run one after another, so that the memory they take together stays small.
set_option Elab.async false

/-- Well-formedness refuses each number out of range, and takes one in range. -/
theorem test_wf_refuses :
    Instr.wf (.pollRead 8192) = false ∧ Instr.wf (.cwNop 16384) = false ∧ Instr.wf (.waitWake 1024) = false ∧
    Instr.wf (.rxData 5 0 [] ⟨0, true, true, true, 0, []⟩) = false ∧ Instr.wf (.functionLevelReset 32) = false ∧
    Instr.wf (.domainOff 14) = false ∧ Instr.wf (.flushEffect 24) = false ∧ Instr.wf (.dmaCopy 256) = false ∧
    Instr.wf (.faultReport 106 0) = false ∧ Instr.wf (.nop 0 (.short 0 .zero 1)) = false ∧
    Instr.wf (.ptmDialogue) = true ∧ Instr.wf (.pollRead 8191) = true := by decide

/-! ## Small states -/

/-- Every table in canonical form, as one Bool. -/
def canonB (s : State) : Bool :=
  s.memWf && SMap.wf regReset s.regs && SMap.wf regReset s.applied && SMap.wf (fun _ => {}) s.fns && SMap.wf (fun _ => {}) s.msix &&
  SMap.wf (fun _ => false) s.pba && SMap.wf (fun _ => {}) s.vnodes && SMap.wf (fun _ => {}) s.queues && SMap.wf (fun _ => {}) s.chains &&
  SMap.wf (fun _ => {}) s.threads && SMap.wf (fun _ => {}) s.sources && SMap.wf (fun _ => {}) s.furrows &&
  SMap.wf (fun _ => none) s.xfers && SMap.wf (fun _ => {}) s.chans && SMap.wf (fun _ => {}) s.ports && SMap.wf (fun _ => none) s.ops &&
  SMap.wf (fun _ => 0) s.ophGen && SMap.wf (fun _ => (0, 0)) s.ophUse && SMap.wf (fun _ => 0) s.endedAt && SMap.wf (fun _ => {}) s.txns &&
  SMap.wf (fun _ => .none) s.slots && SMap.wf (fun _ => none) s.waits && SMap.wf (fun _ => 0) s.recov &&
  SMap.wf (fun _ => []) s.inbox && SMap.wf (fun _ => 11) s.fbLast

theorem canon_of {s : State} (h : canonB s = true) : s.Canon := by
  simp only [canonB, State.memWf, Bool.and_eq_true] at h
  constructor <;> simp only [h]

/-- A device at work, with these registers, those at their reset values left out. -/
def live (regs : List (Nat × Word) := []) : State := { life := .live, regs := regs.filter fun e => decide (e.2 ≠ regReset e.1) }

/-- A device at work with thread 0 bound to subchannel 5. -/
def tiller (h : Thread) : State := { life := .live, threads := [(0, { h with bind := .sc 5 })] }

/-- A thread with numbers at the edges. -/
def edge : Thread := { a := 0x80000000, x := 1, y := 0xFFFF, fl := 1, sp := 0x404 }

/-- Forms: an immediate, a direct one, a short one. -/
def im (v : BitVec 16) : TForm := .long false 0 0 v
def direct (v : BitVec 16) : TForm := .long false 0 1 v
def short (k : SKind) (o : BitVec 8) : TForm := .short 0 k o

/-- Thread `t` is about to issue. -/
def issuesB (s : State) (t : Nat) : Bool :=
  s.canIssue t && !(s.thread t).fresh && (s.thread t).winGot.isEmpty && s.errs.isEmpty && s.due.isEmpty

theorem issues_of {s : State} {t : Nat} (h : issuesB s t = true) : Issues s t := by
  simp only [issuesB, Bool.and_eq_true, Bool.not_eq_true', List.isEmpty_iff] at h
  exact ⟨h.1.1.1.1, h.1.1.1.2, h.1.1.2, h.1.2, h.2⟩

theorem ready_of {s : State} {t : Nat} {f : TForm} (h : (issuesB s t && opGuard f (s.thread t)) = true) : Ready s t f := by
  simp only [Bool.and_eq_true] at h
  exact ⟨issues_of h.1, h.2⟩

/-- What a witness shows of a state: canonical tables, a thread ready for some forms. -/
def readyFor (s : State) (fs : List TForm) : Bool :=
  canonB s && fs.all fun f => issuesB s 0 && opGuard f (s.thread 0)

theorem ready_for {s : State} {fs : List TForm} (h : readyFor s fs = true) : s.Canon ∧ ∀ f ∈ fs, Ready s 0 f := by
  simp only [readyFor, Bool.and_eq_true, List.all_eq_true] at h
  exact ⟨canon_of h.1, fun f hf => ready_of (by simpa using h.2 f hf)⟩

/-- What a read gives, and what a store ends in. -/
def got : MRes → Option Bytes
  | .val b => some b
  | _ => none

theorem got_val {r : MRes} {b : Bytes} (h : got r = some b) : r = .val b := by
  cases r <;> simp_all [got]

def ended : TRes → Option State
  | .done s => some s
  | _ => none

theorem ended_done {r : TRes} (h : (ended r).isSome = true) : ∃ u, r = .done u := by
  cases r <;> simp_all [ended]

/-- A chain that runs on thread `t`, as a Bool. -/
def plainB (s : State) (sc t : Nat) : Bool :=
  (s.running && s.errs.isEmpty && (s.chain sc).ran && !(s.chain sc).fenced && (s.openTx sc).isNone) &&
  (decide (s.threadOf sc = some t) && (s.thread t).disp.isEmpty && decide (t < 1024))

theorem plain_of {s : State} {sc t : Nat} (h : plainB s sc t = true) : PlainChain s sc := by
  simp only [plainB, Bool.and_eq_true, Bool.not_eq_true', Option.isNone_iff_eq_none, decide_eq_true_eq, List.isEmpty_iff] at h
  obtain ⟨⟨⟨⟨⟨h1, h2⟩, h3⟩, h4⟩, h5⟩, ⟨h6, h7⟩, h8⟩ := h
  refine ⟨h1, h2, h3, h4, h5, fun u hu => ?_⟩
  rw [h6, Option.some.injEq] at hu
  exact hu ▸ ⟨h7, h8⟩

theorem none_of {α : Type} {o : Option α} (h : o.isNone = true) : o = none := Option.isNone_iff_eq_none.mp h

theorem all_canon {l : List State} (h : l.all canonB = true) : ∀ s ∈ l, s.Canon :=
  fun s hs => canon_of (List.all_eq_true.mp h s hs)

/-! ## Tiller instructions -/

theorem witness_TillerMovesLoadRegisters :
    let fs := [short .zero 0, short .r 0x40, short .r 0x41, short .i8 255, im 0xFFFF, im 0x8000, short .d8 0xFF]
    let s := tiller edge
    (s.Canon ∧ ∀ f ∈ fs, Ready s 0 f) ∧ okForm [.zero] [] (short .zero 0) = true ∧ okForm [.r] [] (short .r 0x41) = true ∧
    okForm [.i8, .d8] [0, 1, 2, 3] (im 0xFFFF) = true ∧ okForm [] [0] (im 0x8000) = true ∧ okForm [.i8] [] (short .i8 255) = true ∧
    Reads (s.past 0 (im 0xFFFF)) 0 (im 0xFFFF) 4 0xFFFF ∧ Reads (s.past 0 (im 0x8000)) 0 (im 0x8000) 1 0 ∧
    Reads (s.past 0 (im 0x8000)) 0 (im 0x8000) 2 0x8000 ∧ ReadsLow (s.past 0 (short .d8 255)) 0 (short .d8 255) 0 ∧
    (opImm (short .r 0x40) / 16 = 4 ∧ ¬ ((s.thread 0).readReg 0 (opImm (short .r 0x41) % 16)) % 4 = 0) ∧
    (s.thread 0).readReg 0 4 = 0x404 := by
  refine ⟨ready_for (by decide +kernel), ?_⟩
  and_intros <;> first | decide +kernel | rfl | exact ⟨_, ⟨_, rfl, rfl⟩, by decide +kernel⟩

theorem witness_TillerStoresWriteTheirBytes :
    let s := tiller edge
    (s.Canon ∧ ∀ f ∈ [direct 0xFFC, direct 0xCFFF, direct 0xFFE], Ready s 0 f) ∧ (s.thread 0).mode ≠ 1 ∧
    opEa (direct 0xFFC) (s.thread 0) = some 0xFFC ∧ okForm [.d8] [1, 2, 3] (direct 0xFFC) = true ∧ okForm [] [1] (direct 0xFFC) = true ∧
    (∃ u, (s.past 0 (direct 0xFFC)).engWr { t := 0, f := direct 0xFFC } 0xFFC (natLE 4 (s.thread 0).a.toNat) 4 = .done u) ∧
    (∃ u, (s.past 0 (direct 0xCFFF)).engWr { t := 0, f := direct 0xCFFF } 0xCFFF (natLE 1 (s.thread 0).a.toNat) 1 = .done u) ∧
    (∃ u, (s.past 0 (direct 0xFFE)).engWr { t := 0, f := direct 0xFFE } 0xFFE (natLE 2 (s.thread 0).x.toNat) 2 = .done u) ∧
    Reads (s.past 0 (direct 0xFFC)) 0 (direct 0xFFC) 4 0 := by
  refine ⟨ready_for (by decide +kernel), ?_⟩
  and_intros <;> first | decide +kernel | exact ⟨_, rfl⟩ | exact ⟨_, rfl, rfl⟩

/-- The spaces a store reaches: the context of subchannel 5, the outbound packet, and a window to host memory and one to buffer memory. -/
theorem witness_StoresBytes :
    let w := { tiller edge with ctx := [(5 * 2048 + 0x708, 4), (5 * 2048 + 0x718, 5)], regs := [(0x400, 0x40000)], fns := [(0, { bme := true })] }
    (5 ∈ w.dirty ∨ w.dirty.length < 512) ∧ (w.thread 0).bind = .sc 5 ∧ w.window 0 (w.thread 0) 0x800000 4 true = some (0, 0, 0) := by decide +kernel

theorem witness_TillerAddSubFlags :
    let s := tiller edge
    (s.Canon ∧ ∀ f ∈ [im 0xFFFF, short .d8 0, short .i8 0, short .i8 2, short .i8 3], Ready s 0 f) ∧ Reads (s.past 0 (im 0xFFFF)) 0 (im 0xFFFF) 4 0xFFFF ∧
    okForm [.i8, .d8] [0, 1, 2, 3] (im 0xFFFF) = true ∧ okForm [] [0, 1, 2, 3] (im 0xFFFF) = true ∧
    ReadsLow (s.past 0 (short .d8 0)) 0 (short .d8 0) 0 ∧ okForm [.d8] [0, 1, 2, 3] (short .d8 0) = true ∧
    okUna 0 (short .i8 0) = true ∧ okUna 2 (short .i8 2) = true ∧ okUna 3 (short .i8 3) = true :=
  ⟨ready_for (by decide +kernel), rfl, by decide +kernel, by decide +kernel, ⟨_, ⟨_, rfl, rfl⟩, by decide +kernel⟩, by decide +kernel⟩

theorem witness_TillerLogicBits :
    let s := tiller edge
    (s.Canon ∧ ∀ f ∈ [im 0x8001, short .i8 1, short .i8 7], Ready s 0 f) ∧ Reads (s.past 0 (im 0x8001)) 0 (im 0x8001) 4 0x8001 ∧
    okForm [.d8] [0, 1, 2, 3] (im 0x8001) = true ∧ okForm [] [0, 1, 2, 3] (im 0x8001) = true ∧ okUna 1 (short .i8 1) = true ∧
    okUna 7 (short .i8 7) = true :=
  ⟨ready_for (by decide +kernel), rfl, by decide +kernel⟩

/-- Amounts 0, 31, 32 and 33. -/
theorem witness_TillerShiftsAndRotates :
    let s := tiller edge
    (s.Canon ∧ ∀ f ∈ [short .i8 0, short .i8 31, short .i8 32, im 33], Ready s 0 f) ∧ Reads (s.past 0 (short .i8 0)) 0 (short .i8 0) 4 0 ∧
    Reads (s.past 0 (short .i8 32)) 0 (short .i8 32) 4 32 ∧ Reads (s.past 0 (im 33)) 0 (im 33) 4 33 ∧
    okForm [.i8] [0, 1, 2, 3] (short .i8 0) = true ∧ okForm [] [0, 1, 2, 3] (im 33) = true :=
  ⟨ready_for (by decide +kernel), rfl, rfl, rfl, by decide +kernel⟩

theorem witness_TillerIndexAndPredicates :
    let s := tiller edge
    (s.Canon ∧ ∀ f ∈ [short .s8 0x80, short .pc 0xFF, im 0x777, im 0x3000], Ready s 0 f) ∧ okForm [.s8] [] (short .s8 0x80) = true ∧
    okForm [.pc] [] (short .pc 0xFF) = true ∧ okPlog 0 (im 0x0077) = true ∧ okPlog 3 (im 0x3077) = true :=
  ⟨ready_for (by decide +kernel), by decide +kernel⟩

/-- A multiplier at rest, and a division in progress at its last step but one. -/
theorem witness_TillerMultiplyAndDivide :
    let s := tiller edge
    let busy := tiller { edge with mrdy := false, product := some 0xFFFFFFFE00000001 }
    let mid := tiller { edge with div := some { divisor := 3, signed := true, negDividend := true, negDivisor := false, count := 30 } }
    (s.Canon ∧ ∀ f ∈ [im 0xFFFF, short .zero 0], Ready s 0 f) ∧ (busy.Canon ∧ ∀ f ∈ [im 0xFFFF], Ready busy 0 f) ∧
    (mid.Canon ∧ ∀ f ∈ [short .zero 0], Ready mid 0 f) ∧ Reads (s.past 0 (im 0xFFFF)) 0 (im 0xFFFF) 4 0xFFFF ∧
    Reads (busy.past 0 (im 0xFFFF)) 0 (im 0xFFFF) 4 0xFFFF ∧ okForm [.d8] [0, 1, 2, 3] (im 0xFFFF) = true ∧ okForm [] [0, 1, 2, 3] (im 0xFFFF) = true ∧
    (s.thread 0).mrdy = true ∧ (s.thread 0).div = none ∧ (busy.thread 0).mrdy = false ∧ busy.running = true ∧
    (busy.thread 0).product = some 0xFFFFFFFE00000001 ∧ okForm [.zero] [] (short .zero 0) = true ∧ (mid.thread 0).mrdy = true ∧
    (∃ d, (mid.thread 0).div = some d ∧ d.count ≠ 31) := by
  refine ⟨ready_for (by decide +kernel), ready_for (by decide +kernel), ready_for (by decide +kernel), ?_⟩
  and_intros <;> first | decide +kernel | rfl

/-- The dividend 0x80000000, by 0xFFFF and by 0. -/
theorem witness_TillerDivisionIn32Steps :
    let s := tiller edge
    (s.Canon ∧ ∀ f ∈ [im 0xFFFF, im 0], Ready s 0 f) ∧ Reads (s.past 0 (im 0xFFFF)) 0 (im 0xFFFF) 4 0xFFFF ∧ Reads (s.past 0 (im 0)) 0 (im 0) 4 0 ∧
    (s.thread 0).mrdy = true ∧ okForm [] [0, 1, 2, 3] (im 0) = true ∧ okForm [.zero] [] (short .zero 0) = true ∧
    opGuard (short .zero 0) (s.thread 0) = true :=
  ⟨ready_for (by decide +kernel), rfl, rfl, by decide +kernel⟩

theorem witness_TillerBranches :
    let s := tiller edge
    (s.Canon ∧ ∀ f ∈ [short .b8 0x80, short .b8 0x7F, im 0xFFFF], Ready s 0 f) ∧ okForm [.b8] [] (short .b8 0x80) = true ∧
    Reads (s.past 0 (im 0xFFFF)) 0 (im 0xFFFF) 2 0xFFFF ∧ okForm [] [0, 1, 2, 3] (im 0xFFFF) = true ∧ (s.thread 0).x = 1 :=
  ⟨ready_for (by decide +kernel), by decide +kernel, rfl, by decide +kernel⟩

/-- A mask of every register from the top of the stack; no register at 0x404, the last that has room for the return word; none at 0x400. -/
theorem witness_TillerCallAndReturn :
    let s := tiller { edge with sp := 0xFC0, a := 0x12345 }
    let low := tiller edge
    let full := tiller { edge with sp := 0x400 }
    let all : TForm := .long false 0 3 0xFFFF
    (s.Canon ∧ ∀ f ∈ [all, im 0xFF], Ready s 0 f) ∧ (low.Canon ∧ ∀ f ∈ [im 0, short .m8 0xFF], Ready low 0 f) ∧
    (full.Canon ∧ ∀ f ∈ [im 0], Ready full 0 f) ∧ okForm [] [0, 1, 2, 3] all = true ∧ okForm [] [0] (im 0xFF) = true ∧
    (s.thread 0).shadow = none ∧ (low.thread 0).shadow = none ∧ (full.thread 0).shadow = none ∧ callWord all % 256 = 0xFF ∧ (s.thread 0).sp.toNat % 4 = 0 ∧ (s.thread 0).sp.toNat ≤ 0xFC0 ∧ 0x404 + slotsBelow 0xFF 8 ≤ (s.thread 0).sp.toNat ∧
    callWord (im 0) % 256 = 0 ∧ 0x404 + slotsBelow 0 8 = (low.thread 0).sp.toNat ∧ (full.thread 0).sp.toNat < 0x404 ∧
    okForm [.m8] [] (short .m8 0xFF) = true ∧ (low.thread 0).sp.toNat % 4 = 0 ∧
    (low.thread 0).sp.toNat + 4 + slotsBelow (low.tpriv.le (low.thread 0).sp.toNat 4 / 65536 % 256) 8 ≤ 0xFC0 :=
  ⟨ready_for (by decide +kernel), ready_for (by decide +kernel), ready_for (by decide +kernel), by decide +kernel⟩

/-- The registers that XCALL saved, with the PC behind it. -/
def saved : Shadow := ⟨1, 2, 3, 4, 0xFC0, 1, 0, 0, 0, 0, 4, 0⟩

theorem witness_TrapEntryAndReturn :
    let s := tiller edge
    let inTrap := tiller { edge with fl := 0x80 }
    let inRoutine := tiller { edge with fl := 0x20, shadow := some saved, budget := 64 }
    (s.Canon ∧ ∀ f ∈ [short .zero 0], Ready s 0 f) ∧ inTrap.Canon ∧ inRoutine.Canon ∧ flBit (s.thread 0).fl 7 = false ∧
    (s.thread 0).shadow = none ∧ flBit (inTrap.thread 0).fl 7 = true ∧ flBit (inRoutine.thread 0).fl 7 = false ∧
    (inRoutine.thread 0).shadow = some saved ∧ okForm [.zero] [] (short .zero 0) = true ∧ (s.thread 0).mode ≠ 1 ∧
    { inRoutine with due := [.xtrap 5] }.due = [.xtrap 5] :=
  ⟨ready_for (by decide +kernel), canon_of (by decide +kernel), canon_of (by decide +kernel), by decide +kernel⟩

/-- TRAP; a form that STA has not; LEAVE outside Cloche mode; the first and last undefined opcodes; a spent budget. -/
theorem witness_TillerInstructionsThatTrap :
    let s := tiller edge
    let inRoutine := tiller { edge with fl := 0x20, shadow := some saved, budget := 64 }
    (s.Canon ∧ ∀ f ∈ [short .i8 0xFF, im 0, formOf 0xB000 0, formOf 0xF7C0 0], Ready s 0 f) ∧ okForm [.i8] [] (short .i8 0xFF) = true ∧
    (s.thread 0).mode ≠ 1 ∧ (s.thread 0).mode ≠ 2 ∧ insnOf (.sta 0 (im 0)) = some (infoSta, 0, im 0) ∧ infoSta.cloche = false ∧ infoSta.mul = false ∧
    infoSta.legal (im 0) = false ∧ insnOf (.leave 0 (im 0)) = some (infoLeave, 0, im 0) ∧ infoLeave.cloche = true ∧ infoLeave.mul = false ∧
    (bits 0xB000 14 2 ≠ 3 ∧ 0x2C ≤ bits 0xB000 10 6) ∧ (bits 0xF7C0 14 2 = 3 ∧ bits 0xF7C0 6 8 = 0xDF) ∧ inRoutine.running = true ∧
    (inRoutine.thread 0).shadow.isSome = true ∧ (inRoutine.thread 0).budget ≠ 0 ∧ (inRoutine.thread 0).stopped = false := by
  refine ⟨ready_for (by decide +kernel), ?_⟩
  and_intros <;> first | decide +kernel | rfl

theorem witness_GuardFalseChangesNothing :
    let s := tiller edge
    insnOf (.add 0 (.long true 0 0 1)) = some (infoAdd, 0, .long true 0 0 1) ∧ Issues s 0 ∧
    opGuard (.long true 0 0 1) (s.thread 0) = false ∧ opGuard (.short 3 .i8 1) (s.thread 0) = false :=
  ⟨rfl, issues_of (by decide +kernel), by decide +kernel⟩

/-- A thread with events pending, one whose WAIT waits for them, one whose timer runs, one with two packets in its Furrow, the first read
and marked. -/
theorem witness_TillerEventsAndWait :
    let s := tiller { edge with ev := 0x7E, timer := 1 }
    let w := tiller { edge with ev := 0x40, waiting := some 0x40 }
    (s.Canon ∧ ∀ f ∈ [short .e8 0x40, short .e8 1, im 0xFFFF, short .zero 0], Ready s 0 f) ∧ w.Canon ∧ okForm [.e8] [] (short .e8 0x40) = true ∧
    (s.thread 0).mode ≠ 1 ∧ (s.pkt 0 0).isSome = false ∧ (w.thread 0).waiting = some 0x40 ∧ w.running = true ∧ (w.thread 0).stopped = false ∧
    Reads (s.past 0 (im 0xFFFF)) 0 (im 0xFFFF) 4 0xFFFF ∧ okForm [] [0, 1, 2, 3] (im 0xFFFF) = true ∧ (s.thread 0).timer ≠ 0 ∧
    okForm [.zero] [] (short .zero 0) = true := by
  refine ⟨ready_for (by decide +kernel), canon_of (by decide +kernel), ?_⟩
  and_intros <;> first | decide +kernel | rfl

theorem witness_FurrowConsumerOperations :
    let s := tiller { edge with furrow := { pkts := [{ tag := 1, data := [7] }, { tag := 2, first := true }], rd := 1, mark := some 0 } }
    let e := tiller edge
    (s.Canon ∧ ∀ f ∈ [short .zero 0], Ready s 0 f) ∧ (e.Canon ∧ ∀ f ∈ [short .zero 0], Ready e 0 f) ∧ okForm [.zero] [] (short .zero 0) = true ∧
    (s.thread 0).mode ≠ 1 ∧ (s.pkt 0 0).isSome = true ∧ (s.thread 0).furrow.mark = some 0 ∧ (e.pkt 0 0).isSome = false ∧
    (e.thread 0).furrow.mark = none :=
  ⟨ready_for (by decide +kernel), ready_for (by decide +kernel), by decide +kernel⟩

/-- A signalling NaN in FA beside 1.0, and both with their traps enabled. -/
theorem witness_FpMovesAndCompares :
    let s := { tiller { edge with fa := 0x7F800001 } with tpriv := [(0x402, 0x80), (0x403, 0x3F)] }
    (s.Canon ∧ ∀ f ∈ [direct 0x400, direct 0xFF8, im 0], Ready s 0 f) ∧ ReadsFp (s.past 0 (direct 0x400)) 0 (direct 0x400) 1 [0, 0, 0x80, 0x3F] ∧
    okForm [] [1, 2, 3] (direct 0x400) = true ∧ (s.thread 0).fpcr.toNat / 16 % 2 = 0 ∧ opEa (direct 0xFF8) (s.thread 0) = some 0xFF8 ∧
    (∃ u, (s.past 0 (direct 0xFF8)).engWr { t := 0, f := direct 0xFF8 } 0xFF8 (natLE (s.thread 0).fpBytes (s.thread 0).fa.toNat)
      (s.thread 0).fpBytes = .done u) ∧ okV 0 (im 0) = true ∧ isSnan (s.thread 0).dbl (s.thread 0).faVal = true :=
  ⟨ready_for (by decide +kernel), ⟨_, rfl, got_val (by decide +kernel)⟩, by decide +kernel, by decide +kernel, by decide +kernel, ended_done (by decide +kernel), by decide +kernel⟩

/-- The largest double plus itself, with no flag enabled and with all of them; two operands for FMA; A too large for a float. -/
theorem witness_FpResultsAndTraps :
    let big : Mem := [(0x400, 255), (0x401, 255), (0x402, 255), (0x403, 255), (0x404, 255), (0x405, 255), (0x406, 0xEF), (0x407, 0x7F)]
    let s := { tiller { edge with fa := 0x7FEFFFFFFFFFFFFF, fpcr := 4 } with tpriv := big }
    let e := { tiller { edge with fa := 0x7FEFFFFFFFFFFFFF, fpcr := 0x1F4 } with tpriv := big }
    (s.Canon ∧ ∀ f ∈ [direct 0x400, im 0], Ready s 0 f) ∧ (e.Canon ∧ ∀ f ∈ [direct 0x400, im 0], Ready e 0 f) ∧
    ReadsFp (s.past 0 (direct 0x400)) 0 (direct 0x400) 1 (natLE 8 0x7FEFFFFFFFFFFFFF) ∧ okForm [] [1, 2, 3] (direct 0x400) = true ∧
    ReadsFp (e.past 0 (direct 0x400)) 0 (direct 0x400) 2 (natLE 8 0x7FEFFFFFFFFFFFFF ++ natLE 8 0) ∧
    (natLE 8 0x7FEFFFFFFFFFFFFF).length = (e.thread 0).fpBytes ∧ okV 0 (im 0) = true ∧
    (s.thread 0).raised (fpAdd true (s.thread 0).rm (s.thread 0).faVal 0x7FEFFFFFFFFFFFFF false) &&& ((s.thread 0).fpcr.toNat / 16 % 32) = 0 ∧
    (e.thread 0).raised (fpAdd true (e.thread 0).rm (e.thread 0).faVal 0x7FEFFFFFFFFFFFFF false) &&& ((e.thread 0).fpcr.toNat / 16 % 32) ≠ 0 ∧
    (fpToInt true 0 (e.thread 0).faVal).2 &&& ((e.thread 0).fpcr.toNat / 16 % 32) ≠ 0 :=
  ⟨ready_for (by decide +kernel), ready_for (by decide +kernel), ⟨_, rfl, got_val (by decide +kernel)⟩, by decide +kernel, ⟨_, rfl, got_val (by decide +kernel)⟩, by decide +kernel⟩

/-- A result that overflows to infinity, the smallest subnormal, a signalling NaN before a quiet one, and the invalid operations. -/
theorem witness_FpResultValues :
    (roundFp false 0 false 1 128).flags &&& 4 ≠ 0 ∧ (roundFp false 0 false 1 (-149)).flags &&& 4 = 0 ∧
    [0x7F800001, 0x7FC00000].find? (isSnan false) = some 0x7F800001 ∧ [0, 0x7FC00001].find? (isSnan false) = none ∧
    [0, 0x7FC00001].find? (isNan false) = some 0x7FC00001 ∧ isInf false 0xFF800000 = true ∧ fpNeg false 0x7F800000 ≠ fpNeg false 0xFF800000 ∧
    isZero false 0x80000000 = true ∧ fpNeg false 0xBF800000 = true ∧ isZero false 0xBF800000 = false := by decide +kernel

/-- XCALL of routine 255 outside a routine; XRET with the longest output. -/
theorem witness_TransformRoutineCallAndReturn :
    let s := tiller edge
    let r := tiller { edge with fl := 0x20, a := 4096, shadow := some saved, budget := 64 }
    (s.Canon ∧ ∀ f ∈ [im 255], Ready s 0 f) ∧ (r.Canon ∧ ∀ f ∈ [short .zero 0], Ready r 0 f) ∧ Reads (s.past 0 (im 255)) 0 (im 255) 4 255 ∧
    okForm [] [0, 1, 2, 3] (im 255) = true ∧ (s.thread 0).mode ≠ 1 ∧ (s.chain 5).fwd = none ∧ (r.thread 0).shadow = some saved ∧
    okForm [.zero] [] (short .zero 0) = true ∧ (r.thread 0).a.toNat = 4096 :=
  ⟨ready_for (by decide +kernel), ready_for (by decide +kernel), rfl, by decide +kernel⟩

/-- A record of a reserved operation; a Fill of one byte; the same with four dispatches in progress; an operand in the window. -/
theorem witness_DispatchStartsTransfer :
    let at_ := direct 0x500
    let none_ := tiller edge
    let s := { tiller edge with tpriv := [(0x500, 2), (0x504, 1)] }
    let full := { tiller { edge with disp := [1, 2, 3, 4] } with tpriv := [(0x500, 2), (0x504, 1)] }
    let out := tiller { edge with bk := 2 }
    (none_.Canon ∧ ∀ f ∈ [at_], Ready none_ 0 f) ∧ (s.Canon ∧ ∀ f ∈ [at_], Ready s 0 f) ∧ (full.Canon ∧ ∀ f ∈ [at_], Ready full 0 f) ∧
    (out.Canon ∧ ∀ f ∈ [.long false 0 2 0], Ready out 0 f) ∧ okForm [] [1, 2, 3] at_ = true ∧ opEa at_ (s.thread 0) = some 0x500 ∧
    opEa (.long false 0 2 0) (out.thread 0) = some 0x20001 ∧ (s.thread 0).mode ≠ 1 ∧
    (∃ b, (none_.past 0 at_).engRdMany { t := 0, f := at_ } 0x500 8 5 = .val b ∧ leAt b 0 1 % 16 = 0) ∧
    (∃ b, (full.past 0 at_).engRdMany { t := 0, f := at_ } 0x500 8 5 = .val b ∧ leAt b 0 1 % 16 = 2) ∧ 4 ≤ full.dispCount 0 ∧ full.winStores 0 = 0 ∧
    (∃ b, (s.past 0 at_).engRdMany { t := 0, f := at_ } 0x500 8 5 = .val b ∧ leAt b 0 1 % 16 = 2 ∧
      s.badDisp (s.dispXfer 0 0x500 b) (leAt b 24 2) = false) ∧ s.dispCount 0 < 4 ∧ s.winStores 0 = 0 := by
  refine ⟨ready_for (by decide +kernel), ready_for (by decide +kernel), ready_for (by decide +kernel), ready_for (by decide +kernel), ?_⟩
  and_intros <;> first | decide +kernel | exact ⟨_, rfl, by decide +kernel⟩

/-- A thread in the service with CLAIM 0xFFFF, one of a subchannel, and one whose multiplication runs; SEND to a port that is DOWN and to one
that is ACTIVE. -/
theorem witness_TillerWorkEnds :
    let a : State := { life := .live, threads := [(0, { edge with bind := .attn 16, claim := 0xFFFF })] }
    let s := tiller edge
    let busy := tiller { edge with mrdy := false }
    let up := { tiller edge with regs := [(kp 0 0xC, 2)] }
    (a.Canon ∧ ∀ f ∈ [im 0xFFFF, im 0], Ready a 0 f) ∧ (s.Canon ∧ ∀ f ∈ [im 0, im 1, direct 0], Ready s 0 f) ∧
    (busy.Canon ∧ ∀ f ∈ [im 0, im 1], Ready busy 0 f) ∧ (up.Canon ∧ ∀ f ∈ [direct 0], Ready up 0 f) ∧
    Reads (a.past 0 (im 0xFFFF)) 0 (im 0xFFFF) 4 0xFFFF ∧ Reads (a.past 0 (im 0)) 0 (im 0) 4 0 ∧ (a.thread 0).bind = .attn 16 ∧
    (a.thread 0).claim = 0xFFFF ∧ okV 0 (im 0) = true ∧ okV 1 (im 1) = true ∧ (s.thread 0).mrdy = true ∧ (s.thread 0).bind = .sc 5 ∧ s.winStores 0 = 0 ∧ up.winStores 0 = 0 ∧ (s.thread 0).win = none ∧
    ((((s.past 0 (im 1)).modThread 0 fun h => { h with div := none }).stopXfer 5).cxFlag 5 0 = false) ∧ (busy.thread 0).mrdy = false ∧
    okForm [] [1, 2, 3] (direct 0) = true ∧ s.kpSt ((s.thread 0).out.le 0x8004 2 % 4096 / 1024 % 4) = 0 ∧
    up.kpSt ((up.thread 0).out.le 0x8004 2 % 4096 / 1024 % 4) ≠ 0 :=
  ⟨ready_for (by decide +kernel), ready_for (by decide +kernel), ready_for (by decide +kernel), ready_for (by decide +kernel), rfl, rfl,
   by decide +kernel⟩

/-- A Cloche thread alone in its Tiller and one beside another; the last block of the Seedbank, and the first offset beyond it. -/
theorem witness_ClocheModeInstructions :
    let cl : Thread := { edge with fl := 0x40, bind := .cloche }
    let s : State := { life := .live, threads := [(0, { cl with a := 0x37FFFFF })] }
    let two : State := { life := .live, threads := [(0, { cl with a := 0x3800000 }), (15, { bind := .cloche })] }
    (s.Canon ∧ ∀ f ∈ [im 0, direct 0x400], Ready s 0 f) ∧ (two.Canon ∧ ∀ f ∈ [im 0, direct 0x400], Ready two 0 f) ∧ (s.thread 0).mode = 2 ∧
    (two.thread 0).mode = 2 ∧ okV 0 (im 0) = true ∧ (∀ k, k < 16 → k ≠ 0 → (s.thread k).bind = .free) ∧ (two.thread 15).bind ≠ .free ∧
    okForm [] [1, 2, 3] (direct 0x400) = true ∧ ReadsFp (s.past 0 (direct 0x400)) 0 (direct 0x400) 1 [0, 0, 0, 0] ∧
    Reads (s.past 0 (direct 0x400)) 0 (direct 0x400) 4 0 ∧ s.seedErr 0x37FFFC0 64 ≠ 2 ∧
    (∃ u, (s.past 0 (direct 0x400)).engWr { t := 0, f := direct 0x400 } 0x400 (natLE 4 ((s.past 0 (direct 0x400)).readReg .cloche 0x37FFFFF).toNat) 4
      = .done u) ∧
    (∃ u, (s.past 0 (direct 0x400)).engWrMany { t := 0, f := direct 0x400 } 0x400 4 (s.seed.rdN 0x37FFFC0 64) 16 = .done u) ∧
    (∃ b, (s.past 0 (direct 0x400)).engRdMany { t := 0, f := direct 0x400 } 0x400 4 16 = .val b) ∧ (s.thread 0).a.toNat < 0x3800000 ∧
    0x3800000 ≤ (two.thread 0).a.toNat := by
  refine ⟨ready_for (by decide +kernel), ready_for (by decide +kernel), ?_⟩
  and_intros <;> first | decide +kernel | exact ⟨_, rfl, got_val (by decide +kernel)⟩ | exact ⟨_, rfl, rfl⟩ | exact ended_done (by decide +kernel) |
    exact ⟨List.replicate 64 0, got_val (by decide +kernel)⟩

/-- Entry 31 with one step: ADD #5, the same under a guard that fails, a table instruction, and JMP, which no step may hold; and ADD #5
with SUBST. -/
def entry (w0 fl : Nat) : State := { tiller edge with tmem := Mem.wrN [] (0x10000 + 512 * 31) (natLE 2 w0 ++ natLE 2 5 ++ [BitVec.ofNat 8 fl]) }

theorem witness_DecodeTableSteps :
    let a := 0x10000 + 512 * 31
    let add := entry 0xC400 1
    let g := formOf 0xC400 5
    ((add.Canon ∧ ∀ f ∈ [im 0xFFFF], Ready add 0 f) ∧ ∀ w ∈ [0xC420, 0xF800, 0xD000], readyFor (entry w 1) [im 0xFFFF] = true) ∧
    opSize (im 0xFFFF) = 4 ∧ (∀ w ∈ [0xC420, 0xF800, 0xD000, 0xC400], (entry w 1).tmem.le a 2 = w ∧ bitOn ((entry w 1).tmem.le (a + 4) 1) 0 = true) ∧
    bitOn ((entry 0xC400 3).tmem.le (a + 4) 1) 1 = true ∧ opGuard (formOf 0xC420 5) ((entry 0xC420 1).thread 0) = false ∧
    opGuard g (add.thread 0) = true ∧ (add.thread 0).product = none ∧ 0xE0 ≤ bits 0xF800 6 8 ∧ bits 0xF800 14 2 = 3 ∧ isTableOp 0xC400 = false ∧
    opInsn 0xC400 g 0 = some (.add 0 g) ∧ insnOf (.add 0 g) = some (infoAdd, 0, g) ∧ infoAdd.mul = false ∧ infoAdd.step = true ∧
    infoAdd.refused g (add.thread 0) true = none ∧ (∃ u, infoAdd.body (add.pcPast 0 4) { t := 0, f := g, step := true } = .done u ∧ (u.thread 0).product = none) ∧
    isTableOp 0xD000 = false ∧ opInsn 0xD000 (formOf 0xD000 5) 0 = some (.jmp 0 (formOf 0xD000 5)) ∧
    insnOf (.jmp 0 (formOf 0xD000 5)) = some (infoJmp, 0, formOf 0xD000 5) ∧ infoJmp.mul = false ∧ infoJmp.step = false := by
  refine ⟨⟨ready_for (by decide +kernel), by decide +kernel⟩, ?_⟩
  and_intros <;> first | decide +kernel | rfl | exact ⟨_, rfl, by decide +kernel⟩

/-- A window load of host memory whose data comes, one whose completion is bad, one of buffer memory and one of a node. -/
theorem witness_WindowLoadCompletes :
    let f := .long false 0 2 0
    let s := fun sp => tiller { edge with x := 0, bk := 0x80, load := some (.lda 0 f), win := some { ea := 0x800000, space := sp, addr := 64, len := 4 } }
    let i := fun sp data ok => (if sp = 0 then (s sp).readOver (.window 0) else s sp).winBrings { ea := 0x800000, space := sp, addr := 64, len := 4 } data ok
    (∀ sp, sp < 3 → canonB (s sp) = true ∧ (s sp).running = true ∧ ((s sp).thread 0).load = some (.lda 0 f) ∧
      ((s sp).thread 0).win = some { ea := 0x800000, space := sp, addr := 64, len := 4 } ∧ ((s sp).thread 0).winGot = [] ∧ (s sp).errs = [] ∧
      (s sp).furrowHit = 0 ∧ (i sp [1, 2, 3, 4] true).1.errs = [] ∧ (i sp [1, 2, 3, 4] true).1.due = [] ∧
      (i sp [1, 2, 3, 4] true).1.running = true) ∧
    (i 0 [1, 2, 3, 4] true).2 = some [1, 2, 3, 4] ∧ (i 0 [] false).2 = none ∧ (i 1 [] true).2 = some [0, 0, 0, 0] ∧ (i 2 [] true).2 = some [] ∧
    ((s 0).thread 0).bind ≠ .free ∧ ((s 0).thread 0).stopped = false ∧ ((s 0).thread 0).waiting = none ∧ ((s 0).thread 0).fresh = false ∧
    opGuard f ((s 0).thread 0) = true ∧ ((s 0).thread 0).mode ≠ 1 ∧ okForm [.i8, .d8] [0, 1, 2, 3] f = true ∧
    opEa f ((s 0).thread 0) = some 0x800000 := by decide +kernel

/-! ## Supplies, power cuts, start -/

/-- A device with every supply good and the filter of PWRWARN_N running; one with the backup regulator on and PWRWARN_N high; one flushed. -/
theorem witness_PowerEvents :
    let s := { live [(0x80000, 0x100), (0x80004, 0x7F)] with warnLow := true, warnTiming := true }
    let b := { live [(0x80004, 0x7F)] with backupOn := true }
    let f : State := { life := .flushed }
    (s.Canon ∧ s.life = .live ∧ s.warnTiming = true ∧ s.warnLow = true ∧ s.rb 0x80000 8 = true ∧ (∀ r, r < 6 → s.rb 0x80004 r = true) ∧
      s.rb 0x80004 6 = true ∧ s.errs = [] ∧ s.due = []) ∧
    (b.Canon ∧ b.warnLow = false ∧ b.backupOn = true ∧ b.rb 0x80004 2 = true ∧ b.rb 0x80004 6 = true ∧ b.conds.Nodup) ∧
    (f.Canon ∧ f.life = .flushed) :=
  ⟨⟨canon_of (by decide +kernel), by decide +kernel⟩, ⟨canon_of (by decide +kernel), by decide +kernel⟩, canon_of (by decide +kernel), rfl⟩

/-- A flush with two dirty contexts, under way after CAUSE 1. -/
theorem witness_FlushSavesDirtyContexts :
    let s : State := { life := .flushed, regs := [(0x80010, 1)], ctx := [(2048, 7), (4096, 9)], dirty := [2, 1] }
    s.Canon ∧ s.pending = [] ∧ s.life = .flushed ∧ s.rf 0x80010 3 2 = 0 ∧ s.errs = [] ∧ s.dirty[1]? = some 1 :=
  ⟨canon_of (by decide +kernel), by decide +kernel⟩

/-- A device before its first start, with each supply as the clauses name it, and one whose start waits. -/
theorem witness_DeviceStartResetsAndRuns :
    let s : State := { regs := [(0x80004, 0x7F)] }
    let low : State := { regs := [(0x80004, 0x7F)], warnLow := true }
    let bad : State := { regs := [(0x80004, 0x3F)] }
    let w : State := { life := .waiting, regs := [(0x80004, 0x7F)] }
    (s.Canon ∧ s.life ≠ .live ∧ s.life ≠ .waiting ∧ s.warnLow = false ∧ s.flushEnd.rb 0x80004 6 = true) ∧
    (low.Canon ∧ low.life ≠ .live ∧ low.life ≠ .waiting ∧ low.warnLow = true) ∧
    (bad.Canon ∧ bad.life ≠ .live ∧ bad.life ≠ .waiting ∧ bad.warnLow = false ∧ bad.flushEnd.rb 0x80004 6 = false) ∧
    (w.Canon ∧ w.life = .waiting ∧ w.rb 0x80004 6 = true ∧ w.warnLow = false) :=
  ⟨⟨canon_of (by decide +kernel), by decide +kernel⟩, ⟨canon_of (by decide +kernel), by decide +kernel⟩,
   ⟨canon_of (by decide +kernel), by decide +kernel⟩, canon_of (by decide +kernel), by decide +kernel⟩

/-! ## Queues -/

/-- A device that serves its host fully, with function 0 a bus master, and these registers. -/
def served (regs : List (Nat × Word) := []) : State := { live regs with hostReady := true, fns := [(0, { memEn := true, bme := true })] }

/-- TQ_CFG of an enabled queue of `typ` with 2^n slots, polled or not, paired with CQ 1. -/
def qcfg (typ n : Nat) (poll : Bool := false) : Word := BitVec.ofNat 32 (1 + 2 * typ + 8 * b2n poll + 256 * n + 65536)

/-- The first queue an SQ, the second a CQ, of 16 slots: the doorbell values 16 beyond what is free, and 0; the last queue in poll mode. -/
theorem witness_DoorbellMovesTailOrHead :
    let s := served [(0x80040, 0x600), (tq 0 0, qcfg 1 4), (tq 1 0, qcfg 2 4), (tq 8191 0, qcfg 3 4 true)]
    s.Canon ∧ s.memServe 0 = .full ∧ s.safe = false ∧ s.standby = false ∧ (∀ q ∈ [0, 1, 8191], s.qEn q = true ∧ s.qFn q = 0) ∧ s.qType 1 = 2 ∧
    s.badBell 1 0 = false ∧ s.badBell 1 0x1FFFF = true ∧ s.qType 8191 ≠ 2 ∧ s.polls 8191 = true ∧ s.qType 0 ≠ 2 ∧ s.polls 0 = false ∧
    s.badBell 0 0 = false ∧ s.badBell 0 0x1FFFF = true :=
  ⟨canon_of (by decide +kernel), by decide +kernel⟩

/-- Reads in flight for a queue with doorbells and for one in poll mode, with no RW_POLL.FIX; an entry of either phase; a START behind an
entry that is kept. -/
theorem witness_EntryReadsFillThePrefetch :
    let start : Bytes := natLE 2 1 ++ List.replicate 62 0
    let p := { served [(tq 0 0, qcfg 1 4)] with
      applied := [(tq 0 0x10, 0x20000)], queues := [(0, { reading := true, pf := [{ entry := start }] })],
      reads := [{ fn := 0, addr := 0, len := 64, why := .entry 0 }] }
    (p.Canon ∧ p.running = true ∧ p.readOut (.entry 0) = true ∧ (p.queue 0).reading = true ∧ p.rb 0x700A10 15 = false ∧ start.length = 64 ∧
      leAt start 0 1 = 1 ∧ p.qType 0 = 1 ∧ p.polls 0 = false ∧ p.pfDepth 0 ≠ 0 ∧ (p.queue 0).pf ≠ [] ∧ leAt start 16 1 % 2 = 0 ∧
      p.scFn (leAt start 2 2 % 16384) = p.qFn 0 ∧ p.masters (p.qFn 0) = true ∧ p.fab = [] ∧ (p.readOver (.entry 0)).hostFree 64) ∧
    let s := { served [(tq 0 0, qcfg 1 4), (tq 8191 0, qcfg 3 4 true)] with
      queues := [(0, { reading := true }), (1, { pollWait := true, errWait := true, lag := true }), (8191, { reading := true })],
      reads := [{ fn := 0, addr := 0, len := 64, why := .entry 0 }, { fn := 0, addr := 0, len := 64, why := .entry 8191 }] }
    let w := { served [(tq 1 0, qcfg 1 4)] with queues := [(1, { pollWait := true, errWait := true, lag := true })] }
    s.Canon ∧ s.running = true ∧ (∀ q ∈ [0, 8191], s.readOut (.entry q) = true ∧ (s.queue q).reading = true) ∧ s.rb 0x700A10 15 = false ∧
    (bitOn (leAt (List.replicate 64 (0 : Byte)) 63 1) 7 ≠ s.phase 0 0) ∧ (bitOn (leAt (List.replicate 64 (0x80 : Byte)) 63 1) 7 = s.phase 0 0) ∧
    s.polls 0 = false ∧ s.polls 8191 = true ∧ s.rb (tq 8191 0x10) 12 = false ∧
    (w.Canon ∧ w.running = true ∧ w.qLive 1 = true ∧ (w.queue 1).pollWait = true ∧ (w.queue 1).errWait = true ∧ (w.queue 1).lag = true) := by
  refine ⟨⟨canon_of (by decide +kernel), by unfold State.hostFree; decide +kernel⟩, ?_⟩
  and_intros <;> first | exact canon_of (by decide +kernel) | decide +kernel

/-- Queue 2, an SQ, is off, with a CQ that is enabled and with one that is not; CQ 1 is named by SQ 0, CQ 8191 by none, CQ 4 holds a status. -/
theorem witness_QueueEnableAndDisable :
    let s := { served [(tq 0 0, qcfg 1 4), (tq 1 0, qcfg 2 4), (tq 3 0, qcfg 1 4), (tq 4 0, qcfg 2 4), (tq 8191 0, qcfg 2 4)] with
      queues := [(3, { disabling := true }), (4, { held := [7] })] }
    let named := fun q => s.liveQueues.any fun k => s.qEn k && decide (s.qType k = 1 ∨ s.qType k = 3) && decide (s.qPair k = q)
    s.Canon ∧ s.standby = false ∧ s.serves_ .mgmt = true ∧ (∀ q ∈ [0, 1, 2, 4, 8191], s.reaches .mgmt (tq q 0) = true ∧ (s.queue q).stopped = false) ∧
    s.qEn 2 = false ∧ (s.softWrite .mgmt (tq 2 0) (qcfg 1 4 &&& ~~~1#32)).enableRefused 2 = false ∧
    (s.softWrite .mgmt (tq 2 0) ((qcfg 1 4 + 0x10000) &&& ~~~1#32)).enableRefused 2 = true ∧ (∀ q ∈ [0, 1, 4, 8191], s.qEn q = true) ∧
    (∀ q ∈ [1, 4, 8191], s.qType q = 2) ∧ named 1 = true ∧ (s.queue 4).held ≠ [] ∧ named 8191 = false ∧ (s.queue 8191).held = [] ∧ s.qType 0 ≠ 2 ∧
    (s.queue 3).disabling = true ∧ (∀ r ∈ s.jpend, r.eff.heads 3 = false) ∧ s.running = true ∧ 0 < s.cqFree 4 :=
  ⟨canon_of (by decide +kernel), by decide +kernel⟩

/-! ## Requests, contexts, command words -/

/-- A request of an opcode for a subchannel, of the phase of the first lap. -/
def request (op sc : Nat) : Bytes := natLE 2 op ++ natLE 2 sc ++ List.replicate 59 0 ++ [0x80]

/-- SQ 0 with this entry at its head, its CQ 1; the subchannel's context is cached, in state `st`, and its function is `fn`. -/
def asked (e : Bytes) (st : Nat) (fn : Nat := 0) (cached : List Nat := [16383]) : State :=
  { served ([(tq 0 0, qcfg 1 4), (tq 1 0, qcfg 2 4)] ++ if fn = 0 then [] else [(scOwner 16383, BitVec.ofNat 32 fn)]) with
    queues := [(0, { pf := [{ entry := e }] })], ctx := Mem.wrN [] (2048 * 16383 + 2) [BitVec.ofNat 8 st], cached }

/-- A reply whose CQ is enabled and one whose CQ is not; a START whose entry stands alone. -/
theorem witness_RequestEffects :
    let s := asked (request 1 16383) 0
    let n := served [(tq 0 0, qcfg 1 4)]
    s.Canon ∧ s.safe = false ∧ s.qEn (s.qPair 0) = true ∧ (n.Canon ∧ n.safe = false ∧ n.qEn (n.qPair 0) = false) ∧ s.errs = [] ∧
    s.candGroups (leAt (request 1 16383) 2 2 % 16384) ≠ [] ∧ s.scState (leAt (request 1 16383) 2 2 % 16384) = 0 ∧
    (s.queue 0).pf.head? = some { entry := request 1 16383 } ∧ leAt (request 1 16383) 16 1 % 2 = 0 ∧
    s.masters (s.scFn (leAt (request 1 16383) 2 2 % 16384)) = true :=
  ⟨canon_of (by decide +kernel), by decide +kernel, by decide +kernel, ⟨canon_of (by decide +kernel), by decide +kernel⟩, by decide +kernel⟩

/-- Every request in every state of the last subchannel. -/
theorem witness_RequestsByState (op st : Nat) (hop : op < 8) (hst : st < 8) :
    let e := request op 16383
    let s := asked e st
    s.Canon ∧ s.qType 0 = 1 ∧ s.headEntry 0 = some e ∧ s.notOwned 0 e = false ∧ leAt e 2 2 % 16384 ∈ s.cached ∧ leAt e 0 1 = op ∧
    s.mustWait (leAt e 2 2 % 16384) = false ∧ s.ctxErr (leAt e 2 2 % 16384) = 0 ∧ s.scState (leAt e 2 2 % 16384) = st := by
  have h : ∀ op, op < 8 → ∀ st, st < 8 → let e := request op 16383
    let s := asked e st
    canonB s = true ∧ s.qType 0 = 1 ∧ s.headEntry 0 = some e ∧ s.notOwned 0 e = false ∧ leAt e 2 2 % 16384 ∈ s.cached ∧ leAt e 0 1 = op ∧
    s.mustWait (leAt e 2 2 % 16384) = false ∧ s.ctxErr (leAt e 2 2 % 16384) = 0 ∧ s.scState (leAt e 2 2 % 16384) = st := by decide +kernel
  exact ⟨canon_of (h op hop st hst).1, (h op hop st hst).2⟩

/-- A subchannel of another function; a reserved opcode; a context that is not cached, with room in the cache and with none; one that would be
the 513th dirty one; a fence whose cause is gone and one whose cause is not. -/
theorem witness_RequestsRefused :
    let e := request 1 16383
    let s := asked e 0 31
    let w := asked e 0 0 []
    let full := { w with loading := List.range 4096 }
    let late := { asked e 0 with dirty := List.range 512 }
    (s.Canon ∧ s.qType 0 = 1 ∧ s.headEntry 0 = some e ∧ s.notOwned 0 e = true) ∧
    (w.Canon ∧ w.qType 0 = 1 ∧ w.headEntry 0 = some e ∧ w.notOwned 0 e = false ∧ 16383 ∉ w.cached ∧ 16383 ∉ w.loading ∧
      w.cached.length + w.loading.length < 4096) ∧
    (full.Canon ∧ full.headEntry 0 = some e ∧ 16383 ∉ full.loading ∧ 4096 ≤ full.cached.length + full.loading.length ∧
      ∀ k ∈ full.cached, full.evictable k = false) ∧
    (late.Canon ∧ late.headEntry 0 = some e ∧ 16383 ∈ late.cached ∧ late.mustWait 16383 = true) ∧
    ((asked (request 3 16383) 7).useCtx 16383).causeGone 16383 = true ∧
    (State.useCtx { asked (request 3 16383) 7 with regs := [(0x40008, 0xFF)] } 16383).causeGone 16383 = false :=
  ⟨⟨canon_of (by decide +kernel), by decide +kernel⟩, ⟨canon_of (by decide +kernel), by decide +kernel⟩,
   ⟨canon_of (by decide +kernel), by decide +kernel⟩, ⟨canon_of (by decide +kernel), by decide +kernel⟩, by decide +kernel⟩

/-- Dirty contexts, of which the first has a change on its way and the next is written back, for a 513th one that waits; one being loaded; one
that waits for a thread of group 7. -/
theorem witness_ContextsAndThreads :
    let s := { served [(0x60003C, 0)] with
      ctx := [(2048 * 16383, 5), (2048 * 16383 + 10, 7)], dirty := [0, 16383], dirtyWait := [3], loading := [1], cached := [16383],
      jpend := [{ jseq := 1, raw := [], eff := .fixed 0 }], chains := [(16383, { phase := .unbound })] }
    s.Canon ∧ s.life = .live ∧ s.running = true ∧ s.serves_ .mgmt = true ∧ reqAdm .mgmt = true ∧ s.dirty = [0] ++ 16383 :: [] ∧
    (∀ k ∈ [0], s.scPending k = true) ∧ s.scPending 16383 = false ∧ s.dirty.Nodup ∧ s.dirty.length ≤ 512 ∧ s.dirtyWait = 3 :: [] ∧ 3 ∉ s.dirty ∧
    s.errs = [] ∧ s.rb 0x700A10 15 = false ∧ 1 ∈ s.loading ∧ 1 ∉ s.cached ∧ (∀ q, (s.queue q).missWait = false) ∧
    (s.chain 16383).phase = .unbound ∧ s.mayChange 16383 = true ∧ s.ctxErr 16383 = 0 ∧ s.pickThread (bits (s.cx 16383 10 1) 0 3) = some 896 := by
  and_intros <;> first | exact canon_of (by decide +kernel) | decide +kernel | exact fun _ => rfl

/-- A command word: code, flags, space, count, address, node and sub-address, parameter. -/
def word (code fl sp count addr node par : Nat) : Bytes :=
  [BitVec.ofNat 8 code, BitVec.ofNat 8 fl, BitVec.ofNat 8 sp, 0] ++ natLE 4 count ++ natLE 8 addr ++ natLE 8 node ++ natLE 8 par

/-- The chain of subchannel 16383 with this current word, which has begun its operation, state byte 2 and byte 3, running on thread 1023. -/
def chain (c : Chain) (w : Bytes) (b2 b3 : Nat := 0) : State :=
  { served with ctx := Mem.wrN (Mem.wrN [] (2048 * 16383 + 2) [BitVec.ofNat 8 b2, BitVec.ofNat 8 b3]) (2048 * 16383 + 40) w,
                chains := [(16383, { c with code := leAt w 0 1, node := leAt w 16 2 % 4096, sub := leAt w 18 6 % 2 ^ 46, param := leAt w 24 4, ran := true })],
                threads := [(1023, { bind := .sc 16383, a := 9 })] }

/-- What a witness shows of a word that is to be executed, as Bools. -/
def curB (s : State) (sc code : Nat) : Bool :=
  s.running && s.errs.isEmpty && s.mayChange sc && decide ((s.chain sc).phase = .current) && decide (s.cwCode sc = code)

theorem cur_of {s : State} {sc code : Nat} (h : curB s sc code = true) : CurWord s sc code := by
  simpa [curB, CurWord, and_assoc, List.isEmpty_iff] using h

def onB (s : State) (sc : Nat) : Bool :=
  !s.cwFlag sc 0 && s.cwFlag sc 1 && !s.cwFlag sc 3 && (s.chain sc).buf.isEmpty && decide ((s.chain sc).space % 2 = 0) && s.masters (s.chainFn sc)

theorem on_of {s : State} {sc : Nat} (h : onB s sc = true) : ChainsOn s sc := by
  simpa [onB, ChainsOn, and_assoc, List.isEmpty_iff] using h

theorem witness_WordFetchesAndSuspends :
    let w := word 5 2 0 0 0 0 0
    let sus := word 5 10 0 0 0 0 0
    let f := { chain { phase := .fetching } w with reads := [{ fn := 0, addr := 0, len := 32, why := .word 16383 }] }
    let sh := { chain { phase := .fetching, space := 1 } w with buf := Mem.wrN [] 0 w }
    let a := chain { phase := .current } sus
    let b := chain { phase := .current } sus 0 1
    let r := { chain { phase := .rereading } w with reads := [{ fn := 0, addr := 0, len := 32, why := .reread 16383 }] }
    let e := chain { phase := .ending, halting := true } w
    let p := chain { phase := .paceNode } (word 11 2 0 1 0 0 1)
    let t := chain { phase := .paceTimer, due := 7 } w
    (f.Canon ∧ f.running = true ∧ f.errs = [] ∧ f.rb 0x700A10 15 = false ∧ (f.chain 16383).phase = .fetching ∧ (f.chain 16383).space % 2 = 0 ∧
      (f.chain 16383).cont = false ∧ leAt w 0 1 ≠ 8 ∧ (∃ r, (f.reads.find? fun r => decide (r.why = .word 16383)) = some r ∧ r.len = 32) ∧
      w.length = 32 ∧ f.badWord 16383 (f.chain 16383).space (f.cx 16383 32 8) w = false) ∧
    (sh.Canon ∧ sh.running = true ∧ sh.errs = [] ∧ sh.rb 0x700A10 15 = false ∧ (sh.chain 16383).phase = .fetching ∧ (sh.chain 16383).space = 1 ∧
      sh.badWord 16383 1 (sh.cx 16383 32 8) (sh.buf.rdN (sh.cx 16383 32 8) 32) = false) ∧
    (a.Canon ∧ CurWord a 16383 5 ∧ a.cwFlag 16383 3 = true ∧ a.cxFlag 16383 0 = false ∧ a.threadOf 16383 = some 1023 ∧ (a.thread 1023).disp = []) ∧
    (b.Canon ∧ CurWord b 16383 5 ∧ b.cwFlag 16383 3 = true ∧ b.cxFlag 16383 0 = true ∧ (b.chain 16383).space % 2 = 0 ∧
      b.masters (b.chainFn 16383) = true) ∧
    (r.Canon ∧ r.running = true ∧ r.errs = [] ∧ r.rb 0x700A10 15 = false ∧ (r.chain 16383).phase = .rereading ∧ r.readOut (.reread 16383) = true ∧
      (r.chain 16383).space % 2 = 0 ∧ (r.chain 16383).buf = [] ∧ r.masters (r.chainFn 16383) = true ∧ r.cwFlag 16383 0 = false ∧
      bitOn (0xF6 : Byte).toNat 0 = false ∧ bitOn (0xF6 : Byte).toNat 1 = true ∧ bitOn (0xF6 : Byte).toNat 3 = false) ∧
    (e.Canon ∧ PlainChain e 16383 ∧ (e.chain 16383).phase = .ending ∧ (e.chain 16383).halting = true) ∧
    (p.Canon ∧ PlainChain p 16383 ∧ (p.chain 16383).phase = .paceNode ∧ p.cwCount 16383 ≠ 0) ∧
    (t.Canon ∧ t.running = true ∧ t.errs = [] ∧ (t.chain 16383).phase = .paceTimer ∧ ChainsOn t 16383) :=
  ⟨⟨canon_of (by decide +kernel), by decide +kernel, rfl, by decide +kernel, rfl, by decide +kernel, rfl, by decide +kernel, ⟨_, rfl, rfl⟩,
    by decide +kernel⟩,
   ⟨canon_of (by decide +kernel), by decide +kernel⟩,
   ⟨canon_of (by decide +kernel), cur_of (by decide +kernel), by decide +kernel⟩,
   ⟨canon_of (by decide +kernel), cur_of (by decide +kernel), by decide +kernel⟩,
   ⟨canon_of (by decide +kernel), by decide +kernel⟩,
   ⟨canon_of (by decide +kernel), plain_of (t := 1023) (by decide +kernel), by decide +kernel⟩,
   ⟨canon_of (by decide +kernel), plain_of (t := 1023) (by decide +kernel), by decide +kernel⟩,
   ⟨canon_of (by decide +kernel), by decide +kernel, rfl, by decide +kernel, on_of (by decide +kernel)⟩⟩

/-- The words without data, each in the state that its clause names: with CC, with a due time to come and one that has passed, for a node with
no PACE recorded and with one; MARK to host memory and to buffer memory; END_GROUP with no group open and with group 1023. -/
theorem witness_PlainWords :
    let cur : Chain := { phase := .current }
    let nop := chain cur (word 5 2 0 0 0 0 0)
    let br := chain cur (word 8 0 0 0 0x1000 0 0)
    let soon := chain cur (word 11 2 0 1 0 0 0)
    let late := { chain cur (word 11 2 0 0 0 0 0) with time := 2 ^ 32 }
    let mark := chain cur (word 12 2 0 0 0x1000 0 0)
    let own := { chain cur (word 12 2 1 0 0 0 0) with regs := [(0x400, 0x40000)] }
    let eg := chain cur (word 13 2 0 0 0 0 0)
    let open_ := { chain cur (word 13 2 0 0 0 0 0) 0 16 with ctx := Mem.wrN (chain cur (word 13 2 0 0 0 0 0) 0 16).ctx (2048 * 16383 + 88) [0xFF, 3] }
    ([nop, br, soon, late, mark, own, eg, open_].all canonB = true ∧ (CurWord nop 16383 5 ∧ ChainsOn nop 16383)) ∧
    (CurWord br 16383 8 ∧ br.cw 16383 2 1 % 4 = 0 ∧ (br.chain 16383).buf = [] ∧ br.masters (br.chainFn 16383) = true) ∧
    (CurWord soon 16383 11 ∧ bitOn (soon.chain 16383).param 0 = false ∧ (soon.chain 16383).paced = false ∧
      soon.now ≤ soon.cx 16383 104 8 + 1000 * soon.cwCount 16383) ∧
    (CurWord late 16383 11 ∧ ChainsOn late 16383 ∧ (late.chain 16383).paced = false ∧
      late.cx 16383 104 8 + 1000 * late.cwCount 16383 < late.now) ∧
    (CurWord mark 16383 12 ∧ ChainsOn mark 16383 ∧ mark.cw 16383 2 1 % 4 = 0 ∧ mark.hostFree 32 ∧ mark.outUsed 0 + 2 ≤ outSize 0) ∧
    (CurWord own 16383 12 ∧ ChainsOn own 16383 ∧ own.cw 16383 2 1 % 4 = 1 ∧ own.shareRun 0 0 16 = 16 ∧ own.chainFn 16383 = 0) ∧
    (CurWord eg 16383 13 ∧ eg.openTx 16383 = none ∧ ChainsOn eg 16383) ∧ (CurWord open_ 16383 13 ∧ open_.openTx 16383 = some 1023) :=
  ⟨⟨by decide +kernel, cur_of (by decide +kernel), on_of (by decide +kernel)⟩, ⟨cur_of (by decide +kernel), by decide +kernel⟩,
   ⟨cur_of (by decide +kernel), by decide +kernel⟩, ⟨cur_of (by decide +kernel), on_of (by decide +kernel), by decide +kernel⟩,
   ⟨cur_of (by decide +kernel), on_of (by decide +kernel), by unfold State.hostFree; decide +kernel⟩,
   ⟨cur_of (by decide +kernel), on_of (by decide +kernel), by decide +kernel⟩,
   ⟨cur_of (by decide +kernel), by decide +kernel, on_of (by decide +kernel)⟩, cur_of (by decide +kernel), by decide +kernel⟩

/-- A device whose node 4095, at port 3, is present, enabled, not busy, with 8 operations; port 3 is enumerated and ACTIVE, and function 0 may do
everything there. -/
def noded (s : State) : State :=
  { s with regs := s.regs ++ [(kp 3 0xC, 2)], ports := [(3, { firstEnum := true })],
           seed := Mem.wrN (Mem.wrN [] (0x900000 + 256 * 4095 + 2) [3, 0, 5]) (0x900000 + 256 * 4095 + 84) [8] }

/-- WAIT_PACE for the node, with no PACE recorded, and with one from that node. -/
theorem witness_WaitPaceForNode :
    let s := noded (chain { phase := .current } (word 11 2 0 0 0 4095 1))
    let r := { s with ctx := Mem.wrN s.ctx (2048 * 16383 + 276) [0xFF, 0x8F] }
    (s.Canon ∧ CurWord s 16383 11 ∧ bitOn (s.chain 16383).param 0 = true ∧ (s.chain 16383).node = 4095 ∧ bitOn (s.cx 16383 276 2) 15 = false) ∧
    s.nodeRefused 16383 0 = none ∧
    (r.Canon ∧ CurWord r 16383 11 ∧ ChainsOn r 16383 ∧ bitOn (r.chain 16383).param 0 = true ∧ bitOn (r.cx 16383 276 2) 15 = true ∧
      r.cx 16383 276 2 % 4096 = 4095) ∧ r.nodeRefused 16383 0 = none :=
  ⟨⟨canon_of (by decide +kernel), cur_of (by decide +kernel), by decide +kernel⟩, none_of (by decide +kernel),
    ⟨canon_of (by decide +kernel), cur_of (by decide +kernel), on_of (by decide +kernel), by decide +kernel⟩, none_of (by decide +kernel)⟩

/-- Slots of the last node: all four wanted and free; two of them held. -/
theorem witness_ReserveAndRelease :
    let a := noded (chain { phase := .current } (word 9 2 0 0 0 4095 15))
    let b := { noded (chain { phase := .current } (word 10 2 0 0 0 4095 0)) with slots := [(4 * 4095, .sc 16383), (4 * 4095 + 3, .sc 16383)] }
    (a.Canon ∧ CurWord a 16383 9 ∧ (a.chain 16383).node ∉ a.relNeeded ∧ a.openTx 16383 = none ∧ a.scHolders.length < 1024 ∧
      ∀ k, k < 4 → bitOn ((a.chain 16383).param % 16) k = true → a.holder (4 * 4095 + k) = .none) ∧ a.nodeRefused 16383 3 = none ∧
    (b.Canon ∧ CurWord b 16383 10 ∧ (b.chain 16383).node ∉ b.relNeeded ∧ b.waits = [] ∧ b.holder (4 * 4095 + 3) = .sc 16383 ∧
      (b.chain 16383).param % 16 = 0) ∧ b.nodeRefused 16383 3 = none :=
  ⟨⟨canon_of (by decide +kernel), cur_of (by decide +kernel), by decide +kernel⟩, none_of (by decide +kernel),
    ⟨canon_of (by decide +kernel), cur_of (by decide +kernel), by decide +kernel⟩, none_of (by decide +kernel)⟩

/-- Each code that moves data, with COUNT 1, at the last node. -/
theorem witness_DataWordsOpenOperations (code : Nat) (h : code ∈ [1, 2, 3, 4, 0x40, 0x7F]) :
    let s := noded (chain { phase := .current } (word code 0 0 1 0 4095 0))
    s.Canon ∧ CurWord s 16383 code ∧ ((s.chain 16383).code = code ∧ (s.chain 16383).cont = false ∧ (s.chain 16383).op = none ∧
    (s.chain 16383).endStatus = none ∧ s.cw 16383 2 1 % 4 < 2 ∧ s.cwCount 16383 ≠ 0 ∧ (s.chain 16383).stg = false ∧ (s.chain 16383).xf = false ∧
    s.perm (s.chainFn 16383) 4095 (codeClass code) = true ∧ s.kpWithdrawn (nodePort 4095) = false ∧ s.gate 4095 = .go ∧ s.nodeCheck 4095 = none ∧
    4095 ∉ s.relNeeded ∧ s.isPower 16383 = false ∧ s.findOph 4095 = some (3 * 4096)) := by
  have k : ∀ code ∈ [1, 2, 3, 4, 0x40, 0x7F], let s := noded (chain { phase := .current } (word code 0 0 1 0 4095 0))
    canonB s = true ∧ curB s 16383 code = true ∧ ((s.chain 16383).code = code ∧ (s.chain 16383).cont = false ∧ (s.chain 16383).op = none ∧
    (s.chain 16383).endStatus = none ∧ s.cw 16383 2 1 % 4 < 2 ∧ s.cwCount 16383 ≠ 0 ∧ (s.chain 16383).stg = false ∧ (s.chain 16383).xf = false ∧
    s.perm (s.chainFn 16383) 4095 (codeClass code) = true ∧ s.kpWithdrawn (nodePort 4095) = false ∧ s.gate 4095 = .go ∧ s.nodeCheck 4095 = none ∧
    4095 ∉ s.relNeeded ∧ s.isPower 16383 = false ∧ s.findOph 4095 = some (3 * 4096)) := by decide +kernel
  exact ⟨canon_of (k code h).1, cur_of (k code h).2.1, (k code h).2.2⟩

/-! ## Transfers and DMA channels -/

theorem get_of {α : Type} {d : Nat → α} {P : α → Prop} {m : SMap α} (h : ∀ e ∈ m, P e.2) (hd : ∀ k, P (d k)) (k : Nat) :
    P (SMap.get d m k) := by
  induction m with
  | nil => exact hd k
  | cons e r ih =>
    simp only [SMap.get]
    split
    · exact h e (by simp)
    · exact ih fun x hx => h x (by simp [hx])

theorem xfers_of {s : State} {P : Xfer → Prop} (h : ∀ e ∈ s.xfers, ∀ v, e.2 = some v → P v) (z : Nat) (w : Xfer) (hw : s.xfer z = some w) : P w :=
  get_of (P := fun o : Option Xfer => ∀ v, o = some v → P v) h (by intro _ _ h; cases h) z w hw

/-- Two transfers of half 1 that wait, the later of higher priority; the same with no slot free there and one of lower priority bound. -/
theorem witness_BarrowTransfersBind :
    let s := { served with xfers := [(0, some { owner := .disp 512 0, half := true, age := 1 }), (9, some { owner := .disp 513 0, half := true, prio := 15, age := 2 })] }
    let full := (List.range 8).map fun i => (0x308080 + 16 * i, (0xF : Word))
    let e := { served full with xfers := [(0, some { owner := .disp 512 0, half := true, slot := some (15, 3) }), (9, some { owner := .disp 513 0, half := true, prio := 15 })] }
    (s.Canon ∧ s.running = true ∧ s.nextUnbound true = some 9 ∧ s.pickSlot true = some (8, 0)) ∧
    (e.Canon ∧ e.running = true ∧ e.nextUnbound true = some 9 ∧ e.pickSlot true = none ∧ e.victim true 15 = some 0 ∧
      ∀ z w, e.xfer z = some w → w.evicting = false) := by
  refine ⟨⟨canon_of (by decide +kernel), by decide +kernel⟩, canon_of (by decide +kernel), ?_⟩
  and_intros <;> first | decide +kernel | refine xfers_of ?_
  intro e he v hv
  simp only [List.mem_cons, List.not_mem_nil, or_false] at he
  rcases he with rfl | rfl <;> (cases hv; rfl)

/-- A paused transfer whose read of the last 64 bytes returns; a dispatch's read that fails; a dispatch that has ended, its record in bank 0, and one
whose record runs on into shared bank 0. -/
theorem witness_BarrowTransfersData :
    let p : Xfer := { owner := .chain 5, len := 64, rd := 64, want := some (.data 64), paused := true }
    let d : Xfer := { owner := .disp 1023 0xFC0, len := 64, rd := 64, want := some (.data 64) }
    let f : Xfer := { d with want := none, code := some 0, done := 64 }
    let s := { served with xfers := [(0, some p), (1, some d), (2, some f), (3, some { f with owner := .disp 1023 0xFE0 })],
                           reads := [{ fn := 0, addr := 0, len := 64, why := .xfer 0 }, { fn := 0, addr := 0, len := 64, why := .xfer 1 }],
                           threads := [(1023, { bind := .sc 5, disp := [1, 2, 3] })] }
    s.Canon ∧ s.running = true ∧ s.xfer 0 = some p ∧ s.xfer 1 = some d ∧ (∀ x ∈ [0, 1], (s.reads.find? fun r => decide (r.why = .xfer x)).isSome = true) ∧
    s.rb 0x700A10 15 = false ∧ p.code = none ∧ p.want = some (.data 64) ∧ p.op ≠ 4 ∧ p.paused = true ∧ p.done < p.len ∧ p.srcEnd = false ∧
    p.srcEnd2 = false ∧ p.srcOp = none ∧ p.dstOp = none ∧ p.evicting = false ∧ d.owner = .disp 1023 0xFC0 ∧ 1 ∈ (s.thread 1023).disp ∧ d.want2 = none ∧ d.evicting = false ∧
    s.xfer 2 = some f ∧ s.xfer 3 = some { f with owner := .disp 1023 0xFE0 } ∧ f.code = some 0 ∧ f.want = none ∧ f.want2 = none ∧
    s.crossing 2 = false ∧ s.crossing 3 = false ∧ s.errs = [] :=
  ⟨canon_of (by decide +kernel), by decide +kernel⟩

/-- A descriptor: operation, flags of byte 3 in the low bits of `fl`, length, source, destination, of the phase of the first lap. -/
def dsc (op fl len src dst : Nat) : Bytes :=
  [BitVec.ofNat 8 op, 0, 0, BitVec.ofNat 8 fl] ++ natLE 4 len ++ natLE 8 src ++ natLE 8 dst ++ List.replicate 39 0 ++ [0x80]

/-- Channel 255, enabled, in state `st`, with DQ 0, whose CQ is 1. -/
def channel (st : Word) (c : Chan := {}) (q : Queue := {}) (cfg : Word := 1) : State :=
  { served ((bwCh 255 0, cfg) :: (if st = 0 then [] else [(bwCh 255 0x10, st)]) ++ [(tq 0 0, qcfg 3 4), (tq 1 0, qcfg 2 4)]) with
    chans := if c = {} then [] else [(255, c)], queues := if q = {} then [] else [(0, q)] }

/-- Every operation's descriptor at the head of the DQ, and one of LENGTH 0. -/
theorem witness_DmaDescriptors (op : Nat) (h : op ∈ [1, 2, 3, 4, 5]) :
    let e := dsc op 0 1 0x1000 0x2000
    let s := channel 1 {} { pf := [{ entry := e }] }
    let z := channel 1 {} { pf := [{ entry := dsc op 0 0 0x1000 0x2000 }] }
    s.Canon ∧ s.dscReady 255 op = some e ∧ e.length = 64 ∧ dscOp e = op ∧ badDsc e = false ∧ (s.chan 255).halt = false ∧
    (s.chan 255).abort = false ∧ s.dscCheck 255 e = none ∧ dscNodes e = [] ∧ z.dscReady 255 op = some (dsc op 0 0 0x1000 0x2000) ∧
    z.dscCheck 255 (dsc op 0 0 0x1000 0x2000) = some 0 ∧ badDsc (dsc op 0 0 0x1000 0x2000) = false := by
  have k : ∀ op ∈ [1, 2, 3, 4, 5], let e := dsc op 0 1 0x1000 0x2000
    let s := channel 1 {} { pf := [{ entry := e }] }
    let z := channel 1 {} { pf := [{ entry := dsc op 0 0 0x1000 0x2000 }] }
    canonB s = true ∧ s.dscReady 255 op = some e ∧ e.length = 64 ∧ dscOp e = op ∧ badDsc e = false ∧ (s.chan 255).halt = false ∧
    (s.chan 255).abort = false ∧ s.dscCheck 255 e = none ∧ dscNodes e = [] ∧ z.dscReady 255 op = some (dsc op 0 0 0x1000 0x2000) ∧
    z.dscCheck 255 (dsc op 0 0 0x1000 0x2000) = some 0 ∧ badDsc (dsc op 0 0 0x1000 0x2000) = false := by decide +kernel
  exact ⟨canon_of (k op h).1, (k op h).2⟩

/-- Channel 255 with a descriptor that has ended with a record and a CQ entry asked for, and two whose transfer was aborted, HALT pending, one
on a paused channel with a read still to arrive; each of its states, its line 7, and pacing with no request and with one. -/
theorem witness_DmaChannels :
    let fin_ := channel 2 { desc := dsc 1 3 0 0 0, code := some 0 }
    let x : Xfer := { owner := .chan 255, len := 64, rd := 64, code := some 2, done := 5, slot := some (0, 0) }
    let cut := { channel 2 { desc := dsc 1 0 64 0 0, xfer := some 3, halt := true } with xfers := [(3, some x)] }
    let late := { channel 2 { desc := dsc 1 0 64 0 0, xfer := some 3, halt := true, paused := true } with xfers := [(3, some { x with want := some (.data 64) })] }
    let off := channel 0 {} {} 2
    let idle := channel 1
    let act := channel 2 { desc := dsc 1 0 1 0 0 }
    let stop := channel 5
    let line := channel 1 {} {} 0xF5
    let level := channel 1 {} {} 0x75
    let paced := fun pend => { channel 2 { desc := dsc 1 0 1 0 0, xfer := some 3 } with
      regs := [(bwCh 255 0, 9), (bwCh 255 8, 0x10000), (bwCh 255 0x10, 2)] ++ pend, xfers := [(3, some { owner := .chan 255, len := 1, paced := true })] }
    let pace := paced []
    let more := paced [(bwCh 255 0x1C, 1)]
    [fin_, cut, late, off, idle, act, stop, line, level, pace, more].all canonB = true ∧
    (fin_.running = true ∧ fin_.dscResult 255 = some (0, 0, 0) ∧ (fin_.chan 255).discard = false ∧ (fin_.chan 255).halt = false ∧ (fin_.chan 255).abort = false ∧
      (fin_.chan 255).paused = false ∧ fin_.rf (bwCh 255 0x10) 0 3 ∉ [0, 5] ∧ bitOn (fin_.dsc 255 3 1) 1 = true ∧ bitOn (fin_.dsc 255 3 1) 2 = false ∧
      fin_.masters (fin_.chFn 255) = true ∧ fin_.rb (tq (fin_.qPair (fin_.chDq 255)) 0) 4 = false ∧ bitOn (fin_.dsc 255 3 1) 0 = true ∧
      fin_.qEn (fin_.qPair (fin_.chDq 255)) = true ∧ fin_.fab = [] ∧ fin_.furrowHit = 0 ∧ fin_.outUsed 0 < outSize 0) ∧
    (∀ s ∈ [cut, late], s.running = true ∧ s.dscResult 255 = some (2, 5, 0) ∧ (s.chan 255).discard = false ∧ (s.chan 255).xfer = some 3 ∧
      (s.xfer 3).isSome = true ∧ (s.chan 255).halt = true ∧ (s.chan 255).abort = false ∧ s.rf (bwCh 255 0x10) 0 3 ∉ [0, 5]) ∧
    ((cut.chan 255).paused = false ∧ (late.chan 255).paused = true ∧ x.want = none ∧ x.want2 = none ∧ { x with want := some (.data 64) }.want ≠ none) ∧
    (∀ s ∈ [off, idle, act, stop], s.serves_ .mgmt = true ∧ s.reaches .mgmt (bwCh 255 0) = true ∧ s.reaches .mgmt (bwCh 255 0xC) = true) ∧
    (off.rb (bwCh 255 0) 0 = false ∧ (off.softWrite .mgmt (bwCh 255 0) (1 &&& ~~~1#32)).chRefused 255 = false ∧
      (off.softWrite .mgmt (bwCh 255 0) (0x10001 &&& ~~~1#32)).chRefused 255 = true ∧ (off.chan 255).desc = [] ∧ (off.chan 255).paused = false) ∧
    (idle.rb (bwCh 255 0) 0 = true ∧ idle.rf (bwCh 255 0x10) 0 3 = 1 ∧ (idle.chan 255).desc = [] ∧ (idle.chan 255).paused = false ∧
      (idle.chan 255).halt = false ∧ (idle.chan 255).abort = false ∧ (idle.chan 255).xfer = none) ∧
    (act.rb (bwCh 255 0) 0 = true ∧ act.rf (bwCh 255 0x10) 0 3 = 2 ∧ (act.chan 255).desc ≠ [] ∧ (act.chan 255).halt = false ∧ (act.chan 255).abort = false) ∧
    (stop.rf (bwCh 255 0x10) 0 3 = 5 ∧ stop.chan 255 = {}) ∧
    (line.running = true ∧ line.lineChan 7 = some 255 ∧ line.dreq.getLsbD 7 = false ∧ line.rb (bwCh 255 0) 7 = true) ∧
    (level.running = true ∧ level.lineChan 7 = some 255 ∧ level.rb (bwCh 255 0) 7 = false) ∧
    (∀ s ∈ [pace, more], s.running = true ∧ s.rf (bwCh 255 8) 16 16 ≠ 0 ∧ (s.chan 255).xfer = some 3 ∧
      s.xfer 3 = some { owner := .chan 255, len := 1, paced := true }) ∧ pace.paceReq 255 = false ∧ more.paceReq 255 = true := by
  refine ⟨?_, ?_, ?_, ?_, ?_⟩ <;> decide +kernel


/-! ## Links and flits -/

/-- KP_STATE of a port: state, lanes 0 to 3 in use unless NRZ, epoch 15, 127 hops. -/
def kstate (st : Nat) (nrz : Bool := false) (hops : Nat := 127) : Word :=
  BitVec.ofNat 32 (st + 32 * b2n nrz + 64 * 15 + 1024 * 15 + 16384 * hops)

/-- A device whose port `p` is in state `st`. -/
def linked (p st : Nat) (t : Port := {}) (regs : List (Nat × Word) := []) : State :=
  { served (if st = 0 then regs else (kp p 0xC, kstate st) :: regs) with ports := if t = {} then [] else [(p, t)] }

/-- Ports 3 and 4: each state of the link; each phase of training at its last attempt but one, and at its last; a quiesce. -/
theorem witness_LinkTraining :
    let tr := fun (tp : TrainPhase) (n : Nat) => linked 3 1 { tp, attempt := n, tgtLanes := 15 }
    let last := linked 3 1 { tp := .base, attempt := 2, tgtLanes := 1, tgtNrz := true }
    let back := linked 3 1 { tp := .base, tgtLanes := 15, tse := true }
    (back.Canon ∧ back.linkLive 3 = true ∧ back.kpSt 3 = 1 ∧ (back.port 3).tp = .base ∧ (back.port 3).tse = true) ∧ (∀ st < 4, (linked 3 st).Canon) ∧ (∀ p ∈ [TrainPhase.base, .eq, .confirm, .frame], ∀ n ∈ [0, 1, 2], (tr p n).Canon) ∧ last.Canon ∧
    (∀ st < 4, (linked 3 st).linkLive 3 = true ∧ (linked 3 st).kpSt 3 = st ∧ (linked 3 st).serves_ .mgmt = true ∧
      (linked 3 st).reaches .mgmt (kp 3 8) = true ∧ (linked 3 st).kpUsable 3 = true ∧ (linked 3 st).bestLanes 3 = some 15) ∧
    (∀ p ∈ [TrainPhase.base, .eq, .confirm, .frame], ∀ n ∈ [0, 1, 2], (tr p n).linkLive 3 = true ∧ (tr p n).kpSt 3 = 1 ∧ ((tr p n).port 3).tp = p ∧
      ((tr p n).port 3).attempt = n ∧ ((tr p n).port 3).tse = false ∧ (tr p n).rf (kp 3 0xC) 14 7 ≠ 0 ∧ ((tr p n).port 3).queuedTrain = false ∧
      ((tr p n).port 3).queuedLane = false ∧ ((tr p n).port 3).winStash = []) ∧
    (15 : BitVec 4) &&& 15 = 15 ∧ (50000 : BitVec 16).toNat ≤ 50000 ∧ 50000 < (50001 : BitVec 16).toNat ∧
    lowerCfg 15 false 3 = some (3, false) ∧ (last.linkLive 3 = true ∧ last.kpSt 3 = 1 ∧ lowerCfg 1 true 0 = none) := by
  refine ⟨⟨canon_of (by decide +kernel), by decide +kernel⟩, fun st h => canon_of ?_, fun p hp n hn => canon_of ?_, canon_of (by decide +kernel), by decide +kernel⟩
  · revert st; decide +kernel
  · revert n p; decide +kernel

/-- A window with no error, one with too many corrections, one after the run of bad windows that DEG_RUN names, one that ends in QUIESCE; lanes;
timers; TOKENs. -/
theorem witness_LinkEvents :
    let up := linked 3 2
    let run := linked 3 2 { run := 15, unpl := 3 }
    let many := linked 3 2 { winFlits := 1, winCorr := [0, 1] }
    let quiet := linked 3 3
    let owes := linked 3 2 { rxFreed := [(4 * 63 + 3, 1)] }
    let down := linked 3 0
    let tr := linked 3 1
    [up, run, many, quiet, owes, down, tr].all canonB = true ∧ (∀ s ∈ [up, run, many, quiet, owes, down, tr], s.linkLive 3 = true ∧ s.running = true) ∧
    (∀ s ∈ [up, run, many, owes], s.kpSt 3 = 2) ∧ quiet.kpSt 3 = 3 ∧ (∀ s ∈ [up, many], (s.port 3).winUncorr = 0 ∧ ¬ 3 ≤ (s.port 3).unpl) ∧
    ¬ (up.af (kp 3 4) 16 8 ≠ 0 ∧ up.af (kp 3 4) 16 8 ≤ 0) ∧ 256 * (up.port 3).winFlits / 2 ^ up.af (kp 3 4) 8 4 = 0 ∧ (up.port 3).winCorr = [] ∧
    (many.af (kp 3 4) 8 4 ≠ 0 ∧ 256 * (many.port 3).winFlits / 2 ^ many.af (kp 3 4) 8 4 < 1 ∧ bitOn (many.rf (kp 3 0xC) 6 4) 1 = true) ∧
    (up.ringIn 3 = true ∧ 256 * ((up.port 3).winFlits + 1 + 7) / 2 ^ up.af (kp 3 4) 8 4 < 255) ∧ (3 ≤ (run.port 3).unpl ∧ run.af (kp 3 4) 12 4 ≤ (run.port 3).run + 1 ∧ run.ab (kp 3 0) 3 = true ∧ run.rb (kp 3 4) 31 = false ∧
      run.rb (kp 3 0xC) 5 = false) ∧ (∀ lane < 4, up.rb (kp 3 0xC) (6 + lane) = true) ∧
    (down.kpSt 3 = 0 ∧ down.rf (kp 3 0xC) 21 1 = 0) ∧ tr.kpSt 3 = 1 ∧ (63 ∉ (owes.port 3).credits ∧
      SMap.get (fun _ => 0) (owes.port 3).rxFreed (63 * 4 + 3) ≠ SMap.get (fun _ => 0) (owes.port 3).rxSaid (63 * 4 + 3)) := by
  refine ⟨?_, ?_⟩ <;> decide +kernel

/-- A slot with a CREDIT owed, with a TOKEN due, with a flit waiting that holds credit, and with nothing to carry. -/
theorem witness_SlotOfALink :
    let f : Flit := { path := 63, body := .cmd { oph := 0, kind := 0 } }
    let c := linked 3 2 { credits := [63] }
    let k := linked 3 2 { tokenDue := true }
    let w := linked 3 2 { tx := [f], grant := [(4 * 63, 1)], rebased := [63], hist := List.replicate 4 .idle }
    let i := linked 3 2
    [c, k, w, i].all canonB = true ∧
    (∀ s ∈ [c, k, w, i], s.running = true ∧ s.kpSt 3 = 2 ∧ s.lbDepth 4 = 0 ∧ s.pair.copyPos = none ∧ ∀ g ∈ (s.port 3).tx, g.body.isCredit = false) ∧
    (c.port 3).credits = [63] ∧ ((k.port 3).credits = [] ∧ (k.port 3).tokenDue = true) ∧
    ((w.port 3).credits = [] ∧ (w.port 3).tokenDue = false ∧ w.choose 3 = (some f, false) ∧ f.err = false ∧ f.ce = false ∧
      SMap.wf (fun _ => 0) (w.port 3).sent = true ∧ f.body.vc = some 0) ∧ ((i.port 3).tokenDue = false ∧ (i.port 3).tx = []) := by
  refine ⟨?_, ?_⟩ <;> decide +kernel

/-- Ring-in at port 3 from node 4095, at path 63, with one buffer for each VC but 32767 for VC 3, or with none. -/
def ring (s : State) (room : Bool := true) : State :=
  { s with regs := s.regs ++ [(kp 3 0xC, kstate 2)],
           ports := [(3, { firstEnum := true, rxInit := if room then [1, 1, 1, 32767] else [0, 0, 0, 32768] })],
           seed := Mem.wrN [] (0x900000 + 256 * 4095 + 2) [3, 0, 63] }

/-- DATA of a READ whose transfer is paused, and of a window load, and data in the input Furrow that a bound transfer takes; STATUS of an unowned operation and of a RESERVE; an attention from the node, and one from a path
that none has; PACE for channel 255, for a chain that waits, and for one that does not. -/
theorem witness_RingInCredited :
    let none_ := ring served false
    let d : DataF := { oph := 12288, first := true, last := true, fend := true, offset := 0, data := [7] }
    let o : NOp := { node := 4095, owner := .chain 16383, read := true, fetchEnd := 1 }
    let v : Xfer := { owner := .chain 16383, len := 64, srcOp := some 12288, want := some (.data 1), paused := true }
    let data := { ring served with ops := [(12288, some o)], chains := [(16383, { xfer := some 0 })], xfers := [(0, some v)] }
    let far := { ring (tiller { edge with win := some { ea := 0x800000, space := 2, addr := 0, len := 1, op := some 12288 } }) with
      ops := [(12288, some { o with owner := .winLoad 0 })] }
    let f : InFlit := { key := 63 * 4 + 1, epoch := 15, data := [7] }
    let took := { data with inbox := [(12288, [f])], xfers := [(0, some { v with slot := some (0, 0), paused := false })] }
    let un := { ring served with ops := [(12288, some { node := 4095 })] }
    let rsv := { ring (chain { phase := .answer } (word 9 2 0 0 0 4095 15)) with ops := [(12288, some { node := 4095, kind := 4, owner := .reserve 16383 })] }
    let pace := ring (served [(bwCh 255 0, 9), (bwCh 255 8, 0xFFF)])
    let wait := ring (chain { phase := .paceNode, node := 4095 } (word 11 2 0 0 0 4095 1))
    let cur := ring (chain { phase := .current } (word 5 2 0 0 0 0 0))
    [none_, data, far, took, un, rsv, pace, wait, cur].all canonB = true ∧
    (∀ s ∈ [none_, data, far, un, rsv, pace, wait, cur], s.ringIn 3 = true ∧ s.lbDepth 4 = 0 ∧ s.errs = [] ∧ s.rb 0x700A10 15 = false) ∧
    (∀ s ∈ [data, far, un, rsv, pace, wait, cur], ∀ vc < 4, 0 < (s.port 3).room (63 * 4 + vc) ∧ (s.port 3).room (63 * 4 + vc) < 32768) ∧
    ((none_.port 3).room (63 * 4) = 0 ∧ (none_.port 3).room (63 * 4 + 3) = 32768) ∧
    (data.exchange 3 63 d.oph.toNat = some o ∧ o.read = true ∧ o.kind = 0 ∧ o.lastSeen = false ∧ o.rcvd = d.offset.toNat ∧ d.data ≠ [] ∧
      o.rcvd + d.data.length ≤ o.fetchEnd ∧ SMap.wf (fun _ => 0) (data.port 3).rxCount = true) ∧
    (far.exchange 3 63 d.oph.toNat = some { o with owner := .winLoad 0 } ∧
      (far.thread 0).win = some { ea := 0x800000, space := 2, addr := 0, len := 1, op := some (ophKey d.oph.toNat) }) ∧
    (took.xfer 0 = some { v with slot := some (0, 0), paused := false } ∧ v.op ≠ 3 ∧ v.srcOp = some 12288 ∧ took.opXfer 12288 = some (0, false) ∧
      took.op 12288 = some o ∧ took.inboxOf 12288 = [f] ∧ v.staged.length + f.data.length ≤ 4096 ∧
      v.done + v.staged.length + f.data.length ≤ v.len ∧ f.epoch = took.rf (kp 3 0xC) 10 4) ∧
    un.exchange 3 63 12288 = some { node := 4095 } ∧
    (rsv.exchange 3 63 12288 = some { node := 4095, kind := 4, owner := .reserve 16383 } ∧ (rsv.chain 16383).phase = .answer ∧ ChainsOn rsv 16383) ∧
    (pace.sender 3 63 = some 4095 ∧ pace.sender 3 0x3FFFF = none ∧ pace.srcSt (16 * 4095 + 13) = 0 ∧ (pace.src (16 * 4095 + 13)).lvl = false ∧
      pace.rf (bwCh 255 0) 2 2 = 2 ∧ pace.rb (bwCh 255 0) 0 = true ∧ pace.rf (bwCh 255 8) 0 12 = 4095) ∧
    (wait.sender 3 63 = some 4095 ∧ (wait.threadOf 16383).isSome = true ∧ (wait.chain 16383).phase = .paceNode ∧ (wait.chain 16383).node = 4095 ∧
      ChainsOn wait 16383) ∧ ((cur.threadOf 16383).isSome = true ∧ (cur.chain 16383).phase ≠ .paceNode) := by
  and_intros <;> decide +kernel

/-- CREDITs of epoch 15 and of epoch 0; the seventh uncorrectable flit in a row, and the eighth. -/
theorem witness_RingInOthers :
    let a := linked 4 2 { uncorrRun := 6 }
    let b := linked 4 2 { uncorrRun := 7, grant := [(4 * 63, 5)], sent := [(4 * 63, 5)] }
    let ok : CreditF := { cmd := 1, data := 2, decide := 3, attn := 4, epoch := 15, rebase := true, quiesce := false }
    (a.Canon ∧ a.ringIn 4 = true ∧ (a.port 4).uncorrRun < 7) ∧ (b.Canon ∧ b.ringIn 4 = true ∧ 7 ≤ (b.port 4).uncorrRun) ∧
    (ok.epoch.toNat = b.linkEpoch 4 ∧ ok.quiesce = false ∧ { ok with epoch := 0 }.epoch.toNat ≠ b.linkEpoch 4) ∧
    SMap.wf (fun _ => 0) (b.port 4).grant = true ∧ SMap.wf (fun _ => 0) (b.port 4).sent = true :=
  ⟨⟨canon_of (by decide +kernel), by decide +kernel⟩, ⟨canon_of (by decide +kernel), by decide +kernel⟩, by decide +kernel⟩

/-- A flit on one, two and four lanes; an ACTIVE port on lanes 2 and 3, its lanes 0 and 1 silent; a port in each training phase. -/
theorem witness_LanesCarryTheFlit :
    let up : State := (linked 3 2 { out := .flits, flits := 2 }).wf (kp 3 0xC) 6 4 12
    let tr := fun (tp : TrainPhase) (tse : Bool) => linked 3 1 { tp, out := .ts0, tse }
    (List.replicate 256 (7 : Byte)).length = 256 ∧ up.life = .live ∧ (up.port 3).out ≠ .elecIdle ∧ up.kpSt 3 = 2 ∧ (up.port 3).out = .flits ∧
    (up.port 3).flits ≠ 0 ∧ (physLanes (BitVec.ofNat 4 (up.rf (kp 3 0xC) 6 4)))[1]? = some 3 ∧
    1 ∉ physLanes (BitVec.ofNat 4 (up.rf (kp 3 0xC) 6 4)) ∧
    ∀ p ∈ [TrainPhase.base, .eq, .confirm], ∀ e ∈ [false, true],
      (tr p e).life = .live ∧ ((tr p e).port 3).out ≠ .elecIdle ∧ (tr p e).kpSt 3 = 1 ∧ ((tr p e).port 3).tp = p := by
  decide +kernel

/-- The four PAM4 symbols of a byte, from the pair of bits [1:0] on, and the first seed (R309, R310). -/
theorem test_symbols : symbols false [0xE4] = .pam4 [-3, -1, 3, 1] ∧ symbols true [0x05] = .nrz [true, false, true, false, false, false, false, false] ∧
    scrSeed 3 = 0x20000004 := by decide

/-- The header of the manual's example, a CMD to path (5, 12, 0) (chapter 8, after R391). -/
theorem test_header : header 2 0 false (12 * 64 + 5) = 0x74030502 := by decide +kernel


/-! ## Enumeration, answers, the journal, the fabric -/

/-- Enumeration at port 3: none yet; the second QUERY of three, its record that of node 4095 at path 63; the SETs of nodes 4095 and 4094; the third
try of an exchange. -/
theorem witness_Enumeration :
    let en := fun (e : EnumSt) (hops : Nat) => { ring served with
      regs := [(kp 3 0xC, kstate 2 false hops)], ports := if e = ({} : EnumSt) then [] else [(3, { en := e })],
      seed := Mem.wrN (Mem.wrN [] (0x900000 + 256 * 4095 + 2) [3, 0, 63]) (0x900000 + 256 * 4095 + 16) [1, 0, 2, 0, 3, 0] }
    let cap := natLE 2 1 ++ natLE 2 2 ++ natLE 2 3 ++ [0x40, 1] ++ List.replicate 56 0
    let idle := en ({} : EnumSt) 3
    let q := en { phase := 1, pos := 1 } 3
    let st := en { phase := 4, sets := [4095, 4094] } 3
    let last := en { phase := 1, pos := 1, tries := 2 } 3
    (∀ s ∈ [idle, q, st, last], s.Canon) ∧ (∀ s ∈ [idle, q, st, last], s.errs = [] ∧ s.running = true ∧ s.kpSt 3 = 2 ∧ s.rf (kp 3 0xC) 14 7 = 3 ∧ s.lbDepth 4 ≠ 5 ∧
      s.serves_ .mgmt = true) ∧
    ((idle.en 3).phase = 0 ∧ (q.en 3).phase = 1 ∧ (q.en 3).pos + 1 < 3 ∧ cap.length = 64 ∧ q.nodeAt 3 63 = some 4095 ∧ q.nodeAt 3 62 = none ∧
      q.identity 4095 cap = true ∧ q.identity 4095 (cap.set 0 2) = false ∧ (q.en 3).found = []) ∧
    ((st.en 3).phase = 4 ∧ (st.en 3).sets = [4095, 4094] ∧ st.nodePath 4095 = 63) ∧ ((q.en 3).tries < 2 ∧ 2 ≤ (last.en 3).tries) :=
  ⟨all_canon (by decide +kernel), by decide +kernel⟩

/-- An answer awaited for the first time, and for the third; a member told once, three times, and unconfirmed. -/
theorem witness_AnswersAwaited :
    let op := fun n => { ring served with ops := [(16383, some { node := 4095, gen := 3, await := some {}, tries := n })] }
    let mem := fun (m : Member) => { ring served with txns := [(1023, { used := true, members := [m], posted := true })] }
    (∀ s ∈ [op 1, op 2, mem { node := 4095, sent := true, tries := 1 }, mem { node := 4095, sent := true, tries := 2 },
      mem { node := 4095, unconf := true }], s.Canon) ∧
    (∀ n ∈ [1, 2], (op n).errs = [] ∧ (op n).running = true ∧ (op n).op (ophKey 65535) = some { node := 4095, gen := 3, await := some {}, tries := n } ∧
      3 = 65535 / 16384 ∧ (op n).kpSt (nodePort 4095) = 2) ∧
    (∀ m ∈ [({ node := 4095, sent := true, tries := 1 } : Member), { node := 4095, sent := true, tries := 2 }, { node := 4095, unconf := true }],
      (mem m).errs = [] ∧ (mem m).running = true ∧ ((mem m).txn 1023).members.find? (fun b => decide (b.node = 4095)) = some m ∧ (mem m).kpSt (nodePort 4095) = 2 ∧
      ((mem m).port (nodePort 4095)).firstEnum = true ∧ (mem m).ntFlag 4095 0 = true ∧ (mem m).ntFlag 4095 3 = false ∧
      (mem m).ntFlag 4095 1 = true ∧ ((mem m).txn 1023).posted = true ∧ ((mem m).txn 1023).used = true) :=
  ⟨all_canon (by decide +kernel), by decide +kernel⟩

/-- A record of each effect in the last slot of the journal. -/
theorem witness_JournalRecords :
    let r := fun (e : JEff) (a : Bool) => ({ jseq := 1, raw := List.replicate 64 7, eff := e, slot := some 65535, acked := a } : JRec)
    let s := fun e a => { served with jpend := [r e a] }
    ∀ e ∈ [JEff.qpub 8191 7, .decide 1023], ∀ a ∈ [true, false],
      canonB (s e a) = true ∧ (s e a).life = .live ∧ (s e a).jpend = [r e a] ∧ (r e a).slot = some 65535 ∧ (r e a).local_ = false ∧
      (r e a).raw.length = 64 ∧ (r e a).acked = a := by decide +kernel

/-- A chain that found no TXID; a chain that waits for itself, for one that waits for it, for one that waits for itself, and for none. -/
theorem witness_WaitsThatEnd :
    let t := chain { phase := .txidWait } (word 7 2 0 0 0 0 0)
    let w := fun (a : Holder) (b : Holder) => { served with
      slots := (if a = Holder.none then [] else [(0, a)]) ++ [(1, b)], waits := [(0, some ⟨0, 0⟩), (16383, some ⟨0, 1⟩)] }
    let k := served [(0x80040, 0x600)]
    (t.Canon ∧ t.running = true ∧ (t.chain 16383).phase = .txidWait ∧ (t.chain 16383).xfer = none ∧ (t.chain 16383).fwd = none ∧ PlainChain t 16383) ∧
    (∀ s ∈ [w .none (.sc 0), w (.sc 0) (.sc 0), w (.sc 16383) (.sc 0), w (.sc 16383) (.sc 16383)], s.Canon) ∧
    ((w .none (.sc 0)).waitsFor 0 = none ∧ (w (.sc 0) (.sc 0)).waitsFor 0 = some 0 ∧
      ((w (.sc 16383) (.sc 0)).waitsFor 0 = some 16383 ∧ (w (.sc 16383) (.sc 0)).waitsFor 16383 = some 0) ∧
      (w (.sc 16383) (.sc 16383)).waitsFor 16383 = some 16383 ∧ ∀ sc ∈ [0, 16383], ((w (.sc 16383) (.sc 0)).wait sc).isSome = true) ∧
    (k.Canon ∧ k.running = true ∧ k.standby = false ∧ k.ckFrom = none ∧ 6 ≤ k.startStep) := by
  and_intros <;> first | exact canon_of (by decide +kernel) | exact all_canon (by decide +kernel) | decide +kernel

/-- Furrow 23 empty, with a packet open, and with a FLUSH that waits for one; a packet that has become stale; tuning at output 11, its least and
greatest backlog; a DLLP. -/
theorem witness_FabricAndFurrows :
    let open_ := { served with furrows := [(23, { opens := [{}] })] }
    let fl := { served [(fu 23 0, 1)] with furrows := [(23, { flush := true, opens := [{ old := true }] })] }
    let done := { served [(fu 23 0, 1)] with furrows := [(23, { flush := true, opens := [{}] })] }
    let stale := { served with applied := [(0x280000, 0x10006)], furrows := [(22, { pkts := [{ out := 1 }] })] }
    let tune := { served with applied := [(0x200400 + 16 * 11, 2)] }
    (∀ s ∈ [served, open_, fl, done, stale, tune], s.Canon) ∧
    ((open_.furrow 23).opens ≠ [] ∧ (served.furrow 23).opens = [] ∧ open_.serves_ .mgmt = true ∧ open_.reaches .mgmt (fu 23 0) = true ∧
      (open_.furrow 23).flush = false) ∧ (fl.running = true ∧ (fl.furrow 23).flush = true) ∧
    (done.running = true ∧ (done.furrow 23).flush = true ∧ ∀ o ∈ (done.furrow 23).opens, o.old = false) ∧
    (stale.running = true ∧ stale.af 0x280000 16 16 ≠ 0 ∧ stale.fuVisible 22 = true ∧ (stale.furrow 22).staleRaised = false ∧
      stale.srcSt (intSrc 22) = 0 ∧ stale.srcTgt (intSrc 22) = false) ∧
    (tune.running = true ∧ tune.ab (0x200400 + 16 * 11) 1 = true ∧ tune.rb 0x200500 31 = false) ∧
    (served.serves_ .mgmt = true ∧ served.reaches .mgmt (fbPrio 11 11) = true ∧ served.life = .live) :=
  ⟨all_canon (by decide +kernel), by decide +kernel⟩

/-! ## Rake -/

/-- The last internal source and the last node's last source in each state; source 65599 of PRIO 15 PENDING and not masked, its claim going to
Tiller 56; a hold-off. -/
theorem witness_AttentionSources :
    let i := fun (st : Nat) => served [(0x180100 + 8 * 63, BitVec.ofNat 32 (2 ^ 27 * st + 15)), (0x60003C, 0)]
    let n := fun (st : Nat) => { served [(0x190000 + 4 * 4095, BitVec.ofNat 32 (2 ^ 30 * st))] with sources := [(65535, { lvl := true, hold := true })] }
    let c := { i 1 with sources := [(65599, { ord := 1, since := 5 })] }
    (∀ st < 4, (i st).Canon ∧ (n st).Canon) ∧ (∀ st < 4, (i st).srcSt 65599 = st ∧ (n st).srcSt 65535 = st ∧ (i st).srcTgt 65599 = false ∧
      (n st).srcTgt 65535 = false ∧ ((i st).src 65599).lvl ≠ true ∧ ((n st).src 65535).lvl ≠ false ∧ ((n st).src 65535).hold = true) ∧
    (c.Canon ∧ c.running = true ∧ c.nextClaim 0 = some (65599, 56) ∧ c.nextClaim 0x80 = none ∧ c.freeThread 56 = some 896 ∧ c.claimTag < 65536) ∧
    (c.serves_ .mgmt = true ∧ c.reaches .mgmt (0x188004 + 8 * 4095) = true ∧ c.reaches .mgmt (isrcA 65599) = true) := by
  refine ⟨fun st h => ⟨canon_of ?_, canon_of ?_⟩, by decide +kernel, ⟨canon_of (by decide +kernel), by decide +kernel⟩, by decide +kernel⟩ <;>
    (revert st; decide +kernel)

/-- The last vector of the last function: MSI-X off, masked, and sent; CQ 8191 coalescing with a count and an interval, its vector in the
table and beyond it. -/
theorem witness_MessagesAndCoalescing :
    let m := fun (on mask : Bool) => { served with
      fns := [(0, { memEn := true, bme := true, vfEn := true }), (31, { memEn := true, bme := true, msixEn := on })],
      msix := if mask then [] else [(31 * 2048 + 63, { mask := false, addr := 0xFEE00000, data := 1 })], pba := [(31 * 2048 + 63, true)] }
    let q := fun (vec : Nat) => { m true false with
      regs := [(0x80040, 0x600), (cqi 8191, BitVec.ofNat 32 (0x10800 + vec)), (cqi 8191 + 4, 0x10001), (tq 8191 0xC, 31)], queues := [(8191, { timer := true })] }
    (∀ on mask, (m on mask).Canon) ∧ (∀ v ∈ [63, 64], (q v).Canon) ∧
    (∀ on mask, (m on mask).life = .live ∧ (m on mask).safe = false ∧ 63 < msixSize 31 ∧ (m on mask).masters 31 = true ∧
      ((m on mask).fnc 31).msixEn = on ∧ ((m on mask).vec (31 * 2048 + 63)).mask = mask ∧ ((m on mask).fnc 31).fmask = false) ∧
    (∀ v ∈ [63, 64], (q v).running = true ∧ ((q v).queue 8191).timer = true ∧ (q v).rb (cqi 8191) 11 = true ∧ (q v).rf (cqi 8191 + 4) 0 16 ≠ 0 ∧
      (q v).rf (cqi 8191 + 4) 16 8 ≠ 0 ∧ (q v).qFn 8191 = 31 ∧ (q v).rf (cqi 8191) 0 11 = v ∧ (q v).serves_ .mgmt = true ∧
      (q v).reaches .mgmt (cqi 8191) = true ∧ (q v).serves_ (.fn 31) = true ∧ (q v).pbit (31 * 2048 + 63) = true) ∧
    served.rb (cqi 8191) 11 = false := by
  refine ⟨fun on mask => canon_of ?_, fun v h => canon_of ?_, by decide +kernel⟩
  · revert on mask; decide +kernel
  · revert v; decide +kernel

/-! ## The host port, the register bus, the Vault -/

/-- A port before a start, before it is ready, ready with no VF, and with the last VF, whose reset is under way; reads in flight; PTM. -/
theorem witness_HostPortFunctionsAndTime :
    let off : State := {}
    let early := live [(0x80040, 0x500)]
    let vf := { served [(0x80040, 0x600)] with
      fns := [(0, { memEn := true, bme := true, vfEn := true, ptm := true }), (31, { resetting := true, flr := true })] }
    let w := { chain { phase := .fetching } (word 5 2 0 0 0 0 0) with reads := [{ fn := 0, addr := 0, len := 32, why := .word 16383 }] }
    let e := { served with queues := [(8191, { reading := true })], reads := [{ fn := 0, addr := 0, len := 64, why := .entry 8191 }] }
    let ptm := { served with ptmOpen := true, ptmFails := 2 }
    let step := { ptm with regs := [(0x10000C, 0xA03)] }
    let slew := served [(0x100010, 3)]
    (∀ s ∈ [off, early, served, vf, w, e, ptm, step, slew], s.Canon) ∧ off.portThere = false ∧ (early.portThere = true ∧ early.hostReady = false ∧ early.startStep < 6) ∧
    (served.portThere = true ∧ served.hostReady = true ∧ served.fnExists 31 = false ∧ served.fnExists 0 = true ∧ served.owed = []) ∧
    (vf.portThere = true ∧ vf.hostReady = true ∧ vf.fnExists 31 = true ∧ (vf.fnc 0).vfEn = true ∧ (vf.fnc 31).resetting = true ∧ (vf.fnc 31).flr = true ∧
      vf.life = .live ∧ (vf.fnc 0).ptm = true ∧ vf.rb 0x10000C 0 = true) ∧
    (∃ q, w.reads[0]? = some q ∧ w.life = .live ∧ (w.fnc q.fn).cplDis = false ∧ q.why = .word 16383 ∧ (w.chain 16383).phase = .fetching ∧ PlainChain w 16383) ∧
    (∃ q, e.reads[0]? = some q ∧ e.life = .live ∧ (e.fnc q.fn).cplDis = false ∧ q.why = .entry 8191 ∧ (e.queue 8191).reading = true) ∧
    (ptm.life = .live ∧ ptm.ptmOpen = true ∧ (1000#64 - BitVec.ofNat 64 ptm.now).toInt = 1000 ∧ (1001#64 - BitVec.ofNat 64 ptm.now).toInt = 1001 ∧
      ((0 - 1001#64) - BitVec.ofNat 64 ptm.now).toInt = -1001 ∧ ptm.rb 0x10000C 1 = false ∧ ∀ sc, (ptm.chain sc).phase ≠ .paceTimer) ∧ (step.ptmOpen = true ∧ step.rb 0x10000C 1 = true) ∧
    (slew.life = .live ∧ slew.rb 0x100010 1 = true) := by
  refine ⟨all_canon (by decide +kernel), ?_⟩
  and_intros <;> first | decide +kernel | exact ⟨_, rfl, rfl, rfl, rfl, rfl, plain_of (t := 1023) (by decide +kernel)⟩ |
    exact ⟨_, rfl, rfl, rfl, rfl, rfl⟩ | exact fun _ h => by cases h

/-- FU_CFG from the management port; a narrow access; a register of queue 8191 from a VF that does not own it; RK_STATUS with SEQ 255 and a source
that sets, or none; GLB_UPDATE; the last node's permissions; the last word of a drained Tiller region, a reserved one, and one not drained. -/
theorem witness_RegisterBus :
    let vf := { served [(0x80040, 0x600)] with fns := [(0, { memEn := true, bme := true, vfEn := true }), (31, { memEn := true })] }
    let rk := served [(0x180004, 0xFF000001)]
    let te := served [(0x80040, 0x600), (0x60003C, 0x10000)]
    let chk := { served [(0x80040, 0x600)] with fns := [(0, { memEn := true, ecrcChk := true })] }
    (∀ s ∈ [served, vf, rk, te, chk], s.Canon) ∧ (chk.serves_ (.fn 0) = true ∧ (chk.fnc 0).ecrcChk = true ∧ (te.fnc 0).ecrcChk = false) ∧
    (served.serves_ .mgmt = true ∧ reqAdm .mgmt = true ∧ served.reaches .mgmt 0x280000 = true ∧ (∃ r, regAt 0x280000 = some r) ∧
      served.deaf .mgmt 0x280000 = false) ∧ served.openWrite .mgmt 0x280000 4 = none ∧ served.guardedWrite 0x280000 4 = none ∧ updGroup 0x280000 = some 8 ∧
    (vf.serves_ (.fn 31) = true ∧ vf.reaches (.fn 31) (tq 8191 0) = false ∧ tq 8191 0 < 0x1000000 ∧ tq 8191 0 % 4 = 0) ∧
    (isRcs 0x180004 = true ∧ rk.serves_ .mgmt = true ∧ rk.reaches .mgmt 0x180004 = true ∧ rk.rf 0x180004 24 8 = 255 ∧ bitOn (rcsMask 0x180004) 0 = true ∧
      (1 : BitVec 24).getLsbD 0 = true ∧ (∀ k, ¬ ((0 : BitVec 24).getLsbD k = true)) ∧ (0x180004 < 0x40010 ∨ 0x40024 ≤ 0x180004)) ∧
    ((0x100 : Word).getLsbD 8 = true ∧ (0xFE00 : Word).getLsbD 8 = false ∧ served.standby = false ∧ served.errs = [] ∧ served.rb 0x700A10 15 = false) ∧
    (te.errs = [] ∧ te.serves_ (.fn 0) = true ∧ te.rb (0x600004 + 8 * (0xFFFFFC / 0x200000)) 16 = true ∧ te.rb (0x600004 + 8 * (0x1FFFFC / 0x200000)) 16 = false ∧
      teReserved (0xE2BFFC % 0x40000) = false ∧ teReserved (0xFFFFFC % 0x40000) = true) := by
  refine ⟨all_canon (by decide +kernel), ?_⟩
  and_intros <;> first | exact none_of (by decide +kernel) | decide +kernel | exact ⟨_, rfl⟩ | simp

/-- The offset of GLB_ID's neighbour FU_CFG held by the management port, and one that no register has. -/
theorem witness_ManagementPort :
    let s := { served with smbAddr := 0x280000 }
    let o := { served with smbAddr := 0x2000000 }
    s.Canon ∧ o.Canon ∧ s.life = .live ∧ smbReach s.smbAddr.toNat = true ∧ smbReach o.smbAddr.toNat = false ∧ (∃ r, regAt s.smbAddr.toNat = some r) ∧
    s.deaf .mgmt s.smbAddr.toNat = false ∧ s.openWrite .mgmt s.smbAddr.toNat 4 = none ∧ s.guardedWrite s.smbAddr.toNat 4 = none := by
  and_intros <;> first | exact canon_of (by decide +kernel) | exact none_of (by decide +kernel) | decide +kernel | exact ⟨_, rfl⟩

/-- No update; an open one with the last block staged; a full one; one being copied home. -/
theorem witness_Vault :
    let vs := fun (st : Nat) (l : List (Nat × Nat)) => { served [(0x80040, 0x600), (0xC0044, BitVec.ofNat 32 (st + 4 * l.length))] with vstage := l }
    let one := vs 1 [(8191, 0)]
    let full := vs 1 ((List.range 256).map fun i => (i, i))
    let copy := vs 3 [(8191, 255), (0, 0)]
    (∀ s ∈ [vs 0 [], one, vs 1 [], full, copy], s.Canon) ∧
    (∀ s ∈ [vs 0 [], one, vs 1 [], full, copy], s.memServe 0 = .full ∧ s.serves_ .mgmt = true ∧ s.safe = false ∧ s.standby = false ∧ s.life = .live ∧ s.errs = [] ∧
      s.rb 0x700A10 15 = false ∧ s.vover = false ∧ s.rb 0xC0000 4 = false) ∧
    ((vs 0 []).vst = 0 ∧ one.vst = 1 ∧ one.vstage ≠ [] ∧ (vs 1 []).vstage = [] ∧ full.vst = 1 ∧ copy.vst = 3) ∧
    (one.staged 8191 = some 0 ∧ one.staged 0 = none ∧ one.vstage.length < 256 ∧ full.staged 8191 = none ∧ 256 ≤ full.vstage.length) ∧
    (0x1FFFFFF < 0x2000000 ∧ 0x1FFFFFF % 4096 + [(1 : Byte)].length ≤ 4096 ∧ one.seedErr (0x1600000 + 0x1FFFFFF) 1 = 0) ∧
    ({ one with errs := [⟨.seedbank, 0, 33, false⟩] }.seedErr 0 1 = 2 ∧ { one with errs := [⟨.seedbank, 0, 32, false⟩] }.seedErr 0 1 = 1) ∧
    ((∀ r ∈ copy.jpend, r.eff ≠ .vdone) ∧ (∀ e ∈ copy.vstage, e.1 < 8192 ∧ e.2 < 256) ∧ (copy.vstage.map Prod.fst).Nodup) :=
  ⟨all_canon (by decide +kernel), by decide +kernel⟩

/-! ## Power domains, image updates, faults -/

/-- Domain `d` in state `st`, with its REQ, its unit fenced or not. -/
def domain (d st : Nat) (req fenced : Bool) : State :=
  served [(0x40008, BitVec.ofNat 32 (if fenced then 2 ^ (if d < 4 then 10 + d else d - 4) else 0)),
    (0x80020, BitVec.ofNat 32 (if req then 2 ^ d else 0)), (0x80024, BitVec.ofNat 32 (st * 4 ^ d))]

/-- Each domain ON, DRAINING, OFF and powering up, with REQ 0 and 1, fenced and not. -/
theorem witness_PowerDomains (d st : Nat) (hd : d < 14) (hs : st < 4) (req fenced : Bool) :
    let s := domain d st req fenced
    s.Canon ∧ s.serves_ .mgmt = true ∧ s.life = .live ∧ s.rb 0x80020 d = req ∧ s.pdom d = st ∧ s.domFenced d = fenced ∧ s.rf 0x700904 0 3 ≠ 1 ∧
    s.inFlight d = false ∧ (12 ≤ d → s.rb 0x80020 (25 - d) = false) ∧ s.xfers = [] ∧ s.threads = [] ∧ s.chains = [] ∧ s.txns = [] ∧ s.chans = [] ∧
    (d < 4 → s.lbDepth (d + 1) = 0) := by
  have h : ∀ d < 14, ∀ st < 4, ∀ req fenced, canonB (domain d st req fenced) = true ∧ (domain d st req fenced).serves_ .mgmt = true ∧
      (domain d st req fenced).life = .live ∧ (domain d st req fenced).rb 0x80020 d = req ∧ (domain d st req fenced).pdom d = st ∧
      (domain d st req fenced).domFenced d = fenced ∧ (domain d st req fenced).rf 0x700904 0 3 ≠ 1 ∧ (domain d st req fenced).inFlight d = false ∧
      (12 ≤ d → (domain d st req fenced).rb 0x80020 (25 - d) = false) ∧ (d < 4 → (domain d st req fenced).lbDepth (d + 1) = 0) := by decide +kernel
  obtain ⟨h0, h1, h2, h3, h4, h5, h6, h7, h8, h9⟩ := h d hd st hs req fenced
  exact ⟨canon_of h0, h1, h2, h3, h4, h5, h6, h7, h8, rfl, rfl, rfl, rfl, rfl, h9⟩

/-- Both halves: the second is refused. -/
theorem witness_SecondBarrowHalf : (served [(0x80020, 0x2000)]).rb 0x80020 12 = false ∧ (served [(0x80020, 0x2000)]).rb 0x80020 (25 - 12) = true ∧
    (served [(0x80020, 0x2000)]).Canon := ⟨by decide +kernel, by decide +kernel, canon_of (by decide +kernel)⟩

/-- No update; each step of one of 8 KiB to copy B: the header asked for and the image, an erase, a program, a check, the header's pages and its
check; each with a flash command or a read in progress; an ABORT that waits for its command. -/
theorem witness_ImageUpdates :
    let up := fun (st : Nat) (u : Upd) (rd : Bool) => { served [(0x80064, BitVec.ofNat 32 (st + 64))] with
      upd := u, reads := if rd then [{ fn := 0, addr := 0, len := 4096, why := .image }] else [] }
    let h : Bytes := List.replicate 13 0 ++ [32] ++ List.replicate 4082 0
    let bg := { served with bgCheck := true }
    (∀ s ∈ [served, up 1 {} true, up 1 { hdr := h, img := List.replicate 4096 0 } true, up 2 { hdr := h } false,
      up 1 { hdr := h } true, up 3 { hdr := h } true, up 3 { hdr := h, img := List.replicate 256 7, pos := 7936 } false, up 4 { hdr := h, pos := 4096 } false, up 4 { hdr := h, abort := true } false,
      up 5 { hdr := h, pos := 3840 } false, up 5 { hdr := h, back := true } false, bg], s.Canon) ∧
    (served.serves_ .mgmt = true ∧ served.updating = false ∧ served.masters 0 = true) ∧
    ((up 1 {} true).updating = true ∧ (up 1 {} true).readOut .image = true ∧ (up 1 {} true).suSt = 1 ∧ (up 1 {} true).upd.hdr = [] ∧
      (up 1 {} true).rb 0x700A10 15 = false ∧ (up 1 {} true).masters 0 = true ∧ (up 1 {} true).life = .live) ∧
    ((up 1 { hdr := h } true).upd.img.length + 4096 < (up 1 { hdr := h } true).suLen ∧ (up 3 { hdr := h } true).suSt = 3 ∧
      (up 3 { hdr := h } true).readOut .image = true) ∧
    (h.length = 4096 ∧ headerOk (fun i => h.getD i 0) = false ∧ (up 1 { hdr := h, img := List.replicate 4096 0 } true).suLen = 8192) ∧
    ((up 2 { hdr := h } false).suFlash = true ∧ (up 2 { hdr := h } false).suSt = 2 ∧ (up 2 { hdr := h } false).upd.abort = false ∧ (up 2 { hdr := h } false).upd.back = false ∧
      (up 2 { hdr := h } false).suTarget = 1) ∧
    ((up 3 { hdr := h, img := List.replicate 256 7, pos := 7936 } false).suFlash = true ∧
      (up 3 { hdr := h, img := List.replicate 256 7, pos := 7936 } false).suLen ≤ 7936 + 256) ∧
    ((up 4 { hdr := h, pos := 4096 } false).suFlash = true ∧ (up 4 { hdr := h, pos := 4096 } false).suLen ≤ 4096 + 4096 ∧
      (up 4 { hdr := h, abort := true } false).upd.pos + 4096 < (up 4 { hdr := h, abort := true } false).suLen) ∧
    ((up 5 { hdr := h, pos := 3840 } false).suFlash = true ∧ (up 5 { hdr := h, pos := 3840 } false).suSt = 5 ∧ 3840 + 256 ≤ 4096 ∧
      (up 5 { hdr := h, back := true } false).suFlash = true) ∧ (bg.life = .live ∧ bg.bgCheck = true) :=
  ⟨all_canon (by decide +kernel), by decide +kernel⟩

/-- Sources with each reaction: 86 only logs, 75 stops the device, 0 fences group 0, with another group in and with none, 40 and 41 the two Barrow
halves; condition 97 held and not held; temperatures; a corrected and an uncorrected word. -/
theorem witness_FaultReports :
    let alone := served [(0x40008, 0xFE)]
    let half := served [(0x40008, 0x100)]
    let held := { served with conds := [97] }
    let e := fun (b : Nat) => { served with errs := [⟨.furrow, 5, b, false⟩] }
    (∀ s ∈ [served, alone, half, held, e 32, e 33], s.Canon ∧ s.life = .live) ∧
    (served.react 86 = 0 ∧ srcIsCond 86 = false ∧ served.react 75 = 2 ∧ srcIsCond 75 = false ∧ served.react 97 = 0 ∧ srcIsCond 97 = true ∧ 97 ∉ served.conds ∧
      97 ∈ held.conds) ∧
    (srcUnit 0 = .tg 0 ∧ served.react 0 = 1 ∧ served.tgIn 7 = true ∧ served.threads = [] ∧ served.chains = [] ∧ ∀ k, k < 8 → k ≠ 0 → alone.tgIn k = false) ∧
    (served.react 40 = 1 ∧ served.bwIn (41 - 40) = true ∧ served.xfers = [] ∧ half.bwIn (41 - 41) = false ∧ half.react 41 = 1) ∧
    (served.serves_ .mgmt = true ∧ srcUnit 105 = .none ∧ served.react 105 = 2 ∧ served.conds = []) ∧
    ((880 : BitVec 12).toInt ≤ 880 ∧ 880 < (881 : BitVec 12).toInt ∧ (1000 : BitVec 12).toInt ≤ 1000 ∧ 1000 < (1001 : BitVec 12).toInt ∧ served.react 102 = 0) ∧
    ((e 32).rb 0x700A00 31 = false ∧ ((e 32).errs.find? fun e => decide (e.region = .furrow ∧ e.idx = 5)) = some ⟨.furrow, 5, 32, false⟩ ∧
      (e 32).react (scrubCe .furrow 5) = 0 ∧ (scrubUe .furrow 5).1 = 85 ∧ (e 33).react 85 = 0 ∧
      ((e 32).errs.find? fun e => decide (e.region = .furrow ∧ e.idx = 6)) = none) := by
  refine ⟨?_, by decide +kernel⟩
  have h : (([served, served [(0x40008, 0xFE)], served [(0x40008, 0x100)], { served with conds := [97] },
    { served with errs := [⟨.furrow, 5, 32, false⟩] }, { served with errs := [⟨.furrow, 5, 33, false⟩] }] : List State).all
      fun s => canonB s && decide (s.life = .live)) = true := by decide +kernel
  intro s hs
  have := List.all_eq_true.mp h s hs
  simp only [Bool.and_eq_true, decide_eq_true_eq] at this
  exact ⟨canon_of this.1, this.2⟩

/-! ## The redundant pair -/

/-- A BEAT of the partner in a role, INSYNC or not, of an epoch, with the hash of an empty Seed image copy. -/
def beat (role : BitVec 3) (ep : Word) (insync : Bool := false) : BeatF :=
  { pairId := true, role, insync, tepoch := ep, bseq := 0, jseq := 0, imageSha := List.replicate 32 0 }

/-- A paired device in a role, its twin link ACTIVE, all its ports in PORTS, of epoch 5, with other bits of TW_STATE. -/
def paired (role : Nat) (p : Pair := {}) (bits_ : Nat := 0) (regs : List (Nat × Word) := [(kp 4 0xC, kstate 2)]) : State :=
  { served ((0x80040, 0x600) :: regs ++ [(0x481008, BitVec.ofNat 32 (role + bits_)), (0x481010, 5)]) with applied := [(0x481000, 0x1F)], pair := p }

/-- Beats and their loss; mirrored blocks and their MACK; TOKENs; each stage of a claim; the arbitration pin; an operator's commands. -/
theorem witness_RedundantPair :
    let m := paired 1
    let sb := paired 2
    let st := paired 0
    let mir := { paired 1 { beat := some (beat 2 5 true) } 0x10 with jpend := [{ jseq := 1, raw := [], eff := .decide 0, local_ := true, mseq := some 7 }] }
    let copied := { (paired 2).wb 0x48100C 8 true with ports := [(4, { rxInit := [0, 1, 0, 0] })] }
    let told := (paired 1 { copyLast := some 7 } 0x20).wb 0x48100C 8 true
    let solo := paired 1 { goSolo := true } 0 [(kp 3 0xC, kstate 2), (kp 4 0xC, kstate 2)]
    let fwd := { paired 2 {} 0x18 [(kp 3 0xC, kstate 2)] with pair := { syncEp := 5 } }
    let w := fun (c : Claim) (arb : Bool) => paired 3 { claim := c } (if arb then 0x40 else 0)
    let f := fun (arb : Bool) => paired 2 { syncEp := 5, maxTok := 5 } (if arb then 0x48 else 8)
    (∀ s ∈ [m, sb, st, mir, copied, told, solo, fwd, w .wait2 false, w .wait2 true, w .wait10 false, w .wait10 true, f false, f true], s.Canon) ∧
    (∀ s ∈ [m, sb, st, mir, copied, told, solo], s.ringIn 4 = true ∧ s.kpSt 4 = 2 ∧ s.paired = true ∧ (beat 1 6).pairId ≠ s.pairId ∧ s.life = .live ∧ s.serves_ .mgmt = true) ∧
    (m.role = 1 ∧ sb.role = 2 ∧ st.role = 0 ∧ 6 ≤ st.startStep ∧ st.rb 0x481008 6 = false ∧ (m.rn 0x481010 < (beat 1 6).tepoch.toNat) ∧
      ((beat 2 5).tepoch.toNat = st.rn 0x481010 ∧ st.pairId = false) ∧ m.pair.copyPos = none ∧ m.pair.copyLast = none ∧ st.pair.claim = .none) ∧
    (mir.mirroring = true ∧ mir.safe = false ∧ mir.pair.goSolo = false ∧ mir.rb 0x481008 4 = true ∧ mir.react 71 = 0 ∧ (mir.jpend.any fun r => !r.acked) = true ∧ mir.jpend.map (fun r => (r.local_, r.acked, r.mseq, r.eff)) = [(true, false, some 7, .decide 0)] ∧
      covers 7 7 = true ∧ covers 6 7 = false ∧ mir.pair.copyLast = none) ∧
    (copied.role = 2 ∧ copied.errs = [] ∧ copied.rb 0x700A10 15 = false ∧ (copied.port 4).room 1 = 1 ∧ copyFrom (0x37FFFC0 + 64) = none ∧
      (List.replicate 64 (7 : Byte)).length = 64 ∧ copied.rb 0x48100C 5 = false ∧ copied.rb 0x48100C 8 = true) ∧
    (told.role = 1 ∧ told.jpend = [] ∧ told.pair.copyLast = some 7 ∧ told.rb 0x48100C 8 = true) ∧
    (solo.pair.goSolo = true ∧ solo.role = 1 ∧ solo.ringIn 3 = true ∧ solo.jpend = [] ∧ solo.rn 0x481010 = 5) ∧
    (fwd.running = true ∧ fwd.forwards 3 = true ∧ fwd.rb 0x481008 3 = true) ∧
    (∀ c ∈ [Claim.wait2, .wait10], ∀ a, (w c a).life = .live ∧ (w c a).pair.claim = c ∧ (w c a).rb 0x481008 6 = a ∧ (w c a).pairId = false) ∧
    (∀ a, (f a).running = true ∧ (f a).paired = true ∧ ¬ (f a).pair.syncEp < (f a).pair.maxTok ∧ (f a).pair.claim = .none ∧ (f a).role = 2 ∧
      (f a).rb 0x481008 3 = true ∧ (f a).rb 0x481008 4 = false ∧ (f a).rb 0x481008 6 = a ∧ (f a).safe = false) ∧
    (st.pair.beat = none ∧ st.pairValid = false) := by
  refine ⟨all_canon (by decide +kernel), ?_, ?_, ?_, ?_⟩ <;> decide +kernel

/-! ## Loopback, test, JTAG -/

/-- No loopback, and one at each interface; a flash read-back; a BIST of a domain that is OFF. -/
theorem witness_TestFunctions :
    let lb := fun (i : Nat) => served [(lbReg i, 0x10003)]
    let su := served [(0x80064, 2)]
    let spi := served [(0x70080C, 1)]
    let off := served [(0x80024, 0x8000000)]
    let fenced := served [(0x40008, 0x400)]
    let bist := { served [(0x80024, 0x8000000), (0x700904, 1)] with bistDom := 13 }
    (∀ i < 6, (lb i).Canon) ∧ (∀ s ∈ [served, su, spi, off, fenced, bist], s.Canon) ∧ fenced.lbUnitOut 1 = true ∧
    (∀ i < 6, (lb i).lbDepth i = 3 ∧ (lb i).rf (lbReg i) 8 16 ≠ 0 ∧ (lb i).serves_ .mgmt = true ∧ (lb i).life = .live) ∧
    (∀ i < 6, 0 < i → served.lbDepth i = 0 ∧ ∀ depth < 5, 0 < depth → served.lbRefused i depth 0 = false) ∧ (served.lbDepth 0 = 0 ∧ served.lbRefused 0 2 0 = false) ∧ served.lbRefused 5 7 3 = true ∧
    (su.updating = true ∧ served.updating = false ∧ spi.rf 0x70080C 0 2 = 1 ∧ spi.life = .live ∧ served.rf 0x70080C 0 2 ≠ 1) ∧
    (off.pdom 13 = 2 ∧ off.rf 0x700904 0 3 ≠ 1 ∧ off.pdom 0 ≠ 2 ∧ bist.rf 0x700904 0 3 = 1 ∧ bist.bistDom < 14 ∧ bistSources 13 = [41]) := by
  refine ⟨fun i h => canon_of ?_, all_canon (by decide +kernel), by decide +kernel⟩
  revert i
  decide +kernel

/-! ## Steps and a few results, by hand from the rules -/

theorem witness_Steps :
    State.reset.Canon ∧ State.reset.pending = [] ∧ State.reset.life ≠ .live ∧ State.reset.life ≠ .flushed ∧
    ({ State.reset with pending := [.idcode, .bypass] } : State).pending = .idcode :: [.bypass] ∧ (live).life = .live ∧
    exec .idcode State.reset = .next State.reset :=
  ⟨canon_of (by decide +kernel), rfl, by decide +kernel, by decide +kernel, rfl, rfl, rfl⟩

/-- The thread after one instruction of thread 0. -/
def after (i : Instr) (s : State) : Option Thread :=
  match exec i s with
  | .next u => some (u.thread 0)
  | _ => none

/-- R219, R220: the largest positive number plus 1 overflows; 0 − 1 borrows. -/
theorem test_add_sub_flags :
    (after (.add 0 (im 1)) (tiller { a := 0x7FFFFFFF })).map (fun h => (h.a, h.fl)) = some (0x80000000, 0x0C) ∧
    (after (.sub 0 (im 1)) (tiller {})).map (fun h => (h.a, h.fl)) = some (0xFFFFFFFF, 0x04) := by decide +kernel

/-- R147, R169, R178: ADX of −128 wraps X; DBNZ of −2 with X 2 goes back two halfwords from the next instruction. -/
theorem test_index_and_branch :
    (after (.adx 0 (short .s8 0x80)) (tiller { x := 1 })).map (fun h => h.x) = some 0xFF81 ∧
    (after (.dbnz 0 (short .b8 0xFE)) (tiller { x := 2, pc := 0x100 })).map (fun h => (h.x, h.pc)) = some (1, 0xFE) := by decide +kernel

/-- IEEE 754: 1 / 3 to nearest and toward zero, the largest float doubled, the least subnormal halved, −0 from 1 − 1 rounding down; with their flags. -/
theorem test_float :
    let r := fun (x : FRes) => (x.bits, x.flags)
    r (fpDiv false 0 0x3F800000 0x40400000) = (0x3EAAAAAB, 16) ∧ r (fpDiv false 1 0x3F800000 0x40400000) = (0x3EAAAAAA, 16) ∧
    r (fpAdd false 0 0x7F7FFFFF 0x7F7FFFFF false) = (0x7F800000, 20) ∧ (fpMul false 0 1 0x3F000000).bits = 0 ∧
    r (fpAdd false 3 0x3F800000 0x3F800000 true) = (0x80000000, 0) := by decide +kernel

/-- R332: the half that locked, else NRZ, else the lower half, else none. -/
theorem test_lower_configuration :
    lowerCfg 0xF false 0x3 = some (0x3, false) ∧ lowerCfg 0xF true 0xC = some (0xC, true) ∧ lowerCfg 0xF false 0 = some (0xF, true) ∧
    lowerCfg 0xF true 0 = some (0x3, true) ∧ lowerCfg 0xC true 0 = some (0x4, true) ∧ lowerCfg 0x1 true 0 = none := by decide

/-- R225, R227: 0xFFFFFFFF times itself, unsigned and signed. -/
theorem test_multiply :
    (after (.mul 0 (direct 0x400)) { tiller { a := 0xFFFFFFFF } with tpriv := [(0x400, 255), (0x401, 255), (0x402, 255), (0x403, 255)] }).map
      (fun h => h.product) = some (some 0xFFFFFFFE00000001) ∧
    (after (.muls 0 (direct 0x400)) { tiller { a := 0xFFFFFFFF } with tpriv := [(0x400, 255), (0x401, 255), (0x402, 255), (0x403, 255)] }).map
      (fun h => h.product) = some (some 1) := by decide +kernel

end Sys2Proof.Tests
end

section
/-! PROOFS. What later proofs about Tiller instructions share: two canonical tables that read alike are one table, so that changes of one
thread come to a single change; bytes and numbers; the outcome of an instruction that changes registers of its thread. -/

namespace Sys2Proof.Machine

/-! ## Canonical tables -/

section Tables

variable {α : Type} [DecidableEq α] {d : Nat → α}

/-- Two canonical tables that read alike at every key are the same table, from any bound. -/
theorem SMap.eq_of_get_from (m n : SMap α) (a : Nat) (wm : SMap.wfFrom d a m = true) (wn : SMap.wfFrom d a n = true)
    (h : ∀ k, SMap.get d m k = SMap.get d n k) : m = n := by
  induction m generalizing n a with
  | nil =>
    cases n with
    | nil => rfl
    | cons f n =>
      simp only [SMap.wfFrom, Bool.and_eq_true, decide_eq_true_eq] at wn
      exact absurd (by simpa [SMap.get] using (h f.1).symm) wn.1.2
  | cons e m ih =>
    cases n with
    | nil =>
      simp only [SMap.wfFrom, Bool.and_eq_true, decide_eq_true_eq] at wm
      exact absurd (by simpa [SMap.get] using h e.1) wm.1.2
    | cons f n =>
      obtain ⟨x, v⟩ := e
      obtain ⟨y, w⟩ := f
      simp only [SMap.wfFrom, Bool.and_eq_true, decide_eq_true_eq] at wm wn
      obtain ⟨⟨_, hv⟩, wm⟩ := wm
      obtain ⟨⟨_, hw⟩, wn⟩ := wn
      rcases Nat.lt_trichotomy x y with hlt | rfl | hgt
      · have e := h x
        simp only [SMap.get, if_neg (Nat.ne_of_gt hlt)] at e
        exact absurd (by simpa using e.trans (SMap.get_below n (by omega) wn)) hv
      · have e : v = w := by simpa [SMap.get] using h x
        rw [e, ih n (x + 1) wm wn fun k => ?_]
        by_cases hk : x = k
        · rw [SMap.get_below m (by omega) wm, SMap.get_below n (by omega) wn]
        · simpa [SMap.get, hk] using h k
      · have e := (h y).symm
        simp only [SMap.get, if_neg (Nat.ne_of_gt hgt)] at e
        exact absurd (by simpa using e.trans (SMap.get_below m (by omega) wm)) hw

/-- Two canonical tables that read alike at every key are the same table. -/
theorem SMap.eq_of_get {m n : SMap α} (wm : SMap.wf d m = true) (wn : SMap.wf d n = true) (h : ∀ k, SMap.get d m k = SMap.get d n k) :
    m = n := SMap.eq_of_get_from m n 0 wm wn h

/-- What a table reads at any key after a write. -/
theorem SMap.get_set {m : SMap α} (wm : SMap.wf d m = true) (k : Nat) (v : α) (j : Nat) :
    SMap.get d (SMap.set d m k v) j = if j = k then v else SMap.get d m j := by
  split
  · subst j; exact SMap.get_set_same k v wm
  · next h => exact SMap.get_set_ne m v h

/-- Of two writes to one key the later stands. -/
theorem SMap.set_set {m : SMap α} (wm : SMap.wf d m = true) (k : Nat) (v w : α) :
    SMap.set d (SMap.set d m k v) k w = SMap.set d m k w := by
  have wv := SMap.set_wf k v wm
  refine SMap.eq_of_get (SMap.set_wf k w wv) (SMap.set_wf k w wm) fun j => ?_
  rw [SMap.get_set wv, SMap.get_set wm, SMap.get_set wm]
  split <;> rfl

/-- Writing what is there changes nothing. -/
theorem SMap.set_get {m : SMap α} (wm : SMap.wf d m = true) (k : Nat) : SMap.set d m k (SMap.get d m k) = m := by
  refine SMap.eq_of_get (SMap.set_wf k _ wm) wm fun j => ?_
  rw [SMap.get_set wm]
  split
  · next h => rw [h]
  · rfl

end Tables

/-! ## One thread changed several times -/

section Threads

variable {s : State} (hc : s.Canon)
include hc

theorem State.setThread_canon (t : Nat) (h : Thread) : (s.setThread t h).Canon :=
  (State.setThread_keeps (κ := {}) s t h .rfl).canon hc

/-- Of two replacements of one thread the later stands. -/
theorem State.setThread_setThread (t : Nat) (h k : Thread) : (s.setThread t h).setThread t k = s.setThread t k := by
  simp only [State.setThread, SMap.set_set hc.threads]

/-- Replacing a thread by itself changes nothing. -/
theorem State.setThread_thread (t : Nat) : s.setThread t (s.thread t) = s := by
  simp only [State.setThread, State.thread, SMap.set_get hc.threads]

theorem State.modThread_id (t : Nat) : s.modThread t id = s := State.setThread_thread hc t

end Threads

/-- Two changes of a thread that agree on what it is now are the same change. -/
theorem State.modThread_congr {s : State} {t : Nat} {g g' : Thread → Thread} (h : g (s.thread t) = g' (s.thread t)) :
    s.modThread t g = s.modThread t g' := by
  rw [State.modThread_eq, State.modThread_eq, h]

/-! ## The look at a packet (R455) -/

/-- The thread Furrow after an instruction has read a word at an engine address: in the window, the packet is no longer stale. -/
def Furrow.looked (ea : Option Nat) (fu : Furrow) : Furrow :=
  let bank := ea.elim 0 fun a => a / 65536 % 256
  let off := ea.elim 0 fun a => a % 65536
  if 0x10 ≤ bank ∧ bank < 0x20 ∧ off < 0x1010 then { fu with staleRaised := false } else fu

/-- An instruction with no memory operand looks at no packet. -/
@[simp] theorem Furrow.looked_none (fu : Furrow) : fu.looked none = fu := rfl

/-- A look at a packet leaves the packets and the read position as they are. -/
@[simp] theorem Furrow.looked_pkts (ea : Option Nat) (fu : Furrow) : (fu.looked ea).pkts = fu.pkts ∧ (fu.looked ea).rd = fu.rd := by
  unfold Furrow.looked
  extract_lets bank off
  split <;> exact ⟨rfl, rfl⟩

/-- An access outside memory looks at no packet. -/
@[simp] theorem State.windowRead_none (s : State) (t : Nat) : s.windowRead t none = s := rfl

/-- A look at a packet makes no codeword error and no trap fall due. -/
@[simp] theorem State.windowRead_due (s : State) (t : Nat) (ea : Option Nat) : (s.windowRead t ea).due = s.due := by
  unfold State.windowRead
  extract_lets bank off
  split <;> rfl

/-- A thread with its Furrow replaced. -/
def Thread.withFurrow (h : Thread) (fu : Furrow) : Thread := { h with furrow := fu }

@[simp] theorem Thread.withFurrow_self (h : Thread) : h.withFurrow h.furrow = h := rfl

@[simp] theorem Thread.withFurrow_withFurrow (h : Thread) (fu fu' : Furrow) : (h.withFurrow fu).withFurrow fu' = h.withFurrow fu' := rfl

@[simp] theorem Thread.withFurrow_fields (h : Thread) (fu : Furrow) :
    (h.withFurrow fu).furrow = fu ∧ (h.withFurrow fu).winGot = h.winGot ∧
    (h.withFurrow fu).mode = h.mode ∧ (h.withFurrow fu).sc? = h.sc? ∧ (h.withFurrow fu).out = h.out := ⟨rfl, rfl, rfl, rfl, rfl⟩

/-- The thread Furrow names no operand. -/
@[simp] theorem opEa_withFurrow (f : TForm) (h : Thread) (fu : Furrow) : opEa f (h.withFurrow fu) = opEa f h := rfl

/-- A look at a packet is a change of the thread's Furrow alone. -/
theorem State.windowRead_eq {s : State} (hc : s.Canon) (t : Nat) (ea : Option Nat) :
    s.windowRead t ea = s.setThread t ((s.thread t).withFurrow ((s.thread t).furrow.looked ea)) := by
  unfold State.windowRead Furrow.looked
  extract_lets bank off
  by_cases hw : 0x10 ≤ bank ∧ bank < 0x20 ∧ off < 0x1010
  · rw [if_pos hw]
    cases hs : (s.thread t).furrow.staleRaised
    · rw [if_neg (by simp), ← hs]
      exact (State.setThread_thread hc t).symm
    · rw [if_pos ⟨hw.1, hw.2.1, hw.2.2, rfl⟩]
      rfl
  · rw [if_neg hw, if_neg fun h => hw ⟨h.1, h.2.1, h.2.2.1⟩]
    exact (State.setThread_thread hc t).symm

/-! ## The state in which an instruction acts -/

section Past

variable {s : State} {t : Nat} {f : TForm}

/-- An immediate form: the state in which it acts is that with PC past it. -/
theorem State.past_of_imm (h : ∀ th, opEa f th = none) : s.past t f = s.pcPast t (opSize f) := by
  rw [State.past, h, State.windowRead_none]

theorem State.pcPast_canon (hc : s.Canon) (n : Nat) : (s.pcPast t n).Canon := State.setThread_canon hc _ _

theorem State.past_canon (hc : s.Canon) (t : Nat) (f : TForm) : (s.past t f).Canon := by
  have hp := State.pcPast_canon (t := t) hc (opSize f)
  rw [State.past, State.windowRead_eq hp]
  exact State.setThread_canon hp _ _

/-- PC is the only register that moving past an instruction changes. -/
theorem State.thread_pcPast (hc : s.Canon) (n : Nat) :
    (s.pcPast t n).thread t = { s.thread t with pc := (s.thread t).pc + BitVec.ofNat 16 n } := State.thread_setThread s hc _ _

/-- A short form of a kind other than a direct word names no memory. -/
theorem opEa_of_okForm_short {ks : List SKind} (hl : okForm ks [] f = true) (hk : SKind.d8 ∉ ks) (th : Thread) : opEa f th = none := by
  cases f with
  | short g k o => cases k <;> simp_all [okForm, opEa]
  | long => simp [okForm] at hl

/-- PLOG's form is an immediate. -/
theorem opEa_of_okPlog {k : Nat} (hl : okPlog k f = true) (th : Thread) : opEa f th = none := by
  cases f with
  | short => simp [okPlog] at hl
  | long a b m v =>
    simp only [okPlog, decide_eq_true_eq] at hl
    simp [opEa, hl.1]

end Past

/-! ## The outcome of an instruction -/

section Runs

variable {s s' : State} {t : Nat} {f : TForm} {ins : Instr} {i : TInfo}

/-- An instruction whose effect is done, and reaches no other unit. -/
theorem tRun_done_here (h : Ready s t f) (hm : i.mul = true → (s.thread t).mrdy = true) (hu : i.unit = false)
    (hr : i.refused f (s.thread t) false = none) (hb : i.body (s.pcPast t (opSize f)) { t, f } = .done s')
    (hw : ((s'.windowRead t (i.ea? f (s.thread t))).thread t).winGot = [])
    (hd : (s'.windowRead t (i.ea? f (s.thread t))).due = []) :
    tRun ins i t f s = .next (s'.windowRead t (i.ea? f (s.thread t))) := by
  rw [tRun_done h hm hr hb, State.winClear_none hw, hu, tEnd, hd]
  rfl

/-- An instruction that waits for MRDY where it has to does not wait (R229). -/
theorem mulWaits_eq_false (hm : i.mul = true → (s.thread t).mrdy = true) : (i.mul && !(s.thread t).mrdy) = false := by
  cases hi : i.mul
  · rfl
  · simp [hm hi]

/-- An instruction that stalls leaves the thread at it. -/
theorem tRun_stall (h : Ready s t f) (hm : i.mul = true → (s.thread t).mrdy = true) (hr : i.refused f (s.thread t) false = none)
    (hb : i.body (s.pcPast t (opSize f)) { t, f } = .stall) : tRun ins i t f s = .next s := by
  obtain ⟨hi, hg⟩ := h
  obtain ⟨_, _, _, _, hdue⟩ := id hi
  rw [tRun_issues hi]
  simp [tExec, hg, mulWaits_eq_false hm, hr, hb, tEnd, hdue]

/-- An instruction that traps before it has done anything, of a cause that removes no packet. -/
theorem tRun_trap_plain (h : Ready s t f) (hm : i.mul = true → (s.thread t).mrdy = true) (hr : i.refused f (s.thread t) false = none)
    {c n : Nat} (hc : c ≠ 9) (hb : i.body (s.pcPast t (opSize f)) { t, f } = .trap c n) :
    tRun ins i t f s = .next (s.doTrap t c n (opSize f) 0).finish := by
  obtain ⟨⟨_, _, hgot, _⟩, _⟩ := id h
  rw [tRun_trap h hm hr hb, State.badPkt, if_neg (fun h => hc h.1), State.winClear_none hgot]
  rfl

/-- An instruction that traps with what it has already moved (R181): the trap is taken at the instruction. -/
theorem tRun_trapAt (h : Ready s t f) (hm : i.mul = true → (s.thread t).mrdy = true) (hr : i.refused f (s.thread t) false = none)
    {c n : Nat} (hw : (s'.thread t).winGot = []) (hb : i.body (s.pcPast t (opSize f)) { t, f } = .trapAt s' c n) :
    tRun ins i t f s = .next ((s'.modThread t fun k => { k with pc := (s.thread t).pc }).doTrap t c n (opSize f) 0).finish := by
  obtain ⟨hi, hg⟩ := h
  rw [tRun_issues hi]
  simp [tExec, hg, mulWaits_eq_false hm, hr, hb, State.winClear_none hw, fin]

/-- An instruction with a change `g` of registers as its effect, which neither looks at the thread's Furrow nor changes it: in the state
past the instruction, that change. -/
theorem tRun_modThread (hc : s.Canon) (h : Ready s t f) (hm : i.mul = true → (s.thread t).mrdy = true) (hu : i.unit = false)
    (ho : i.operand = true) (hr : i.refused f (s.thread t) false = none) (g : Thread → Thread)
    (hb : i.body (s.pcPast t (opSize f)) { t, f } = .done ((s.pcPast t (opSize f)).modThread t g))
    (hg : ∀ h fu, g (h.withFurrow fu) = (g h).withFurrow fu) (hw : ∀ h, (g h).winGot = h.winGot) :
    tRun ins i t f s = .next ((s.past t f).modThread t g) := by
  obtain ⟨⟨_, _, hgot, _, hdue⟩, _⟩ := id h
  have hfu : ∀ h, (g h).furrow = h.furrow := fun h => (congrArg Thread.furrow (hg h h.furrow) :)
  have hp := State.pcPast_canon (t := t) hc (opSize f)
  have hx : ((s.pcPast t (opSize f)).modThread t g).windowRead t (i.ea? f (s.thread t)) = (s.past t f).modThread t g := by
    simp only [TInfo.ea?, ho, if_true, State.past, State.windowRead_eq hp, State.modThread_eq, State.thread_setThread _ hp,
      State.windowRead_eq (State.setThread_canon hp _ _), State.setThread_setThread hp, hfu, hg]
  rw [tRun_done_here h hm hu hr hb, hx] <;> rw [hx]
  · simp only [State.past, State.windowRead_eq hp, State.modThread_eq, State.setThread_setThread hp, State.thread_setThread _ hp, hw,
      Thread.withFurrow_fields, State.thread_pcPast hc, hgot]
  · simp only [State.past, State.modThread_eq, State.setThread_fields, State.windowRead_due, State.pcPast, hdue]

end Runs

/-! ## Operands read in the state past the instruction -/

section Operands

variable {s : State} {x : TArg} {b : Bytes}

/-- A window load gives no value at once. -/
theorem State.winLoad_ne_val (t : Nat) (th : Thread) (ea n sp a node : Nat) : s.winLoad t th ea n sp a node ≠ .val b := by
  unfold State.winLoad
  extract_lets w put
  intro h
  split at h
  · cases h
  split at h
  · cases h
  split at h
  · cases h
  split at h <;> cases h

theorem MRes.val_of_ite {c : Prop} [Decidable c] {p p' q q' : MRes} (hp : p = .val b → p' = .val b) (hq : q = .val b → q' = .val b) :
    (if c then p else q) = .val b → (if c then p' else q') = .val b := by
  split <;> assumption

/-- What a read gives after a look at a packet it gives without it too: a look changes no byte. -/
theorem State.engRd_val_of_windowRead (hc : s.Canon) (hw : (s.thread x.t).winGot = []) {e : Option Nat} {ea n al : Nat} :
    (s.windowRead x.t e).engRd x ea n al = .val b → s.engRd x ea n al = .val b := by
  rw [State.windowRead_eq hc]
  unfold State.engRd
  simp only [State.thread_setThread s hc, State.setThread_fields, Thread.withFurrow_fields, hw, List.find?_nil]
  have hp : ∀ k, (s.setThread x.t ((s.thread x.t).withFurrow ((s.thread x.t).furrow.looked e))).pktAt x.t k = s.pktAt x.t k := fun k => by
    simp only [State.pktAt, State.pkt, State.thread_setThread s hc, Thread.withFurrow_fields, Furrow.looked_pkts]
  simp only [hp]
  iterate 7 refine MRes.val_of_ite id ?_
  intro h
  split at h
  · cases h
  · exact (State.winLoad_ne_val _ _ _ _ _ _ _ h).elim

/-- An operand that reads in the state in which the instruction acts reads the same right past the instruction. -/
theorem Reads.pcPast {s : State} {t : Nat} {f : TForm} {n v : Nat} (hc : s.Canon) (h : Ready s t f) (hr : Reads (s.past t f) t f n v) :
    Reads (s.pcPast t (opSize f)) t f n v := by
  obtain ⟨⟨_, _, hgot, _⟩, _⟩ := h
  have hp := State.pcPast_canon (t := t) hc (opSize f)
  have he : opEa f ((s.past t f).thread t) = opEa f ((s.pcPast t (opSize f)).thread t) := by
    rw [State.past, State.windowRead_eq hp, State.thread_setThread _ hp]
    rfl
  unfold Reads at hr ⊢
  rw [he] at hr
  cases ho : opEa f ((s.pcPast t (opSize f)).thread t) with
  | none => simpa only [ho] using hr
  | some ea =>
    simp only [ho] at hr ⊢
    obtain ⟨b, hb, rfl⟩ := hr
    exact ⟨b, State.engRd_val_of_windowRead hp (by rw [State.thread_pcPast hc, hgot]) hb, rfl⟩

end Operands

end Sys2Proof.Machine
end

section
/-! PROOFS. Index arithmetic, predicates and branches (R146, R169, R173 to R175, R177, R178, R221). -/

namespace Sys2Proof.Machine

variable {s : State} {t : Nat} {f : TForm}

/-! ## Bits of FL and PR -/

/-- A bit of FL or PR replaced: that bit, and every other as before. -/
theorem flBit_setFl (fl : Byte) {d k : Nat} (hk : k < 8) (b : Bool) : flBit (setFl fl d b) k = if k = d then b else flBit fl k := by
  by_cases hkd : k = d
  · subst hkd
    cases b <;> simp [flBit, setFl, hk]
  · cases b <;> simp [flBit, setFl, hk, hkd] <;> omega

/-- P0 reads 1 (R146). -/
theorem flBit_or_one (pr : Byte) {k : Nat} : flBit (pr ||| 1) k = (decide (k = 0) || flBit pr k) := by
  rw [flBit, BitVec.getLsbD_or, show (1 : Byte) = 1#8 from rfl, BitVec.getLsbD_one, Bool.or_comm]
  simp [flBit]

/-- A predicate read from PR with P0 at 1. -/
theorem flBit_or_one_eq_predBit (th : Thread) (k : Nat) : flBit (th.pr ||| 1) k = predBit th k := flBit_or_one th.pr

/-- A predicate written, P0 staying 1 (R146). -/
theorem flBit_setFl_or_one (pr : Byte) {d k : Nat} (hk : k < 8) (b : Bool) :
    flBit (setFl pr d b ||| 1) k = if k = 0 then true else if k = d then b else flBit pr k := by
  rw [flBit_or_one, flBit_setFl pr hk]
  by_cases h : k = 0 <;> simp [h]

/-- The condition codes are the table of R173. -/
theorem condTrue_iff (fl : Byte) (code : Nat) : condTrue fl code = true ↔ CondHolds fl code := by
  unfold condTrue CondHolds
  split <;> simp

/-! ## Index registers and branch targets -/

/-- The index arithmetic of R221: a signed byte is added modulo 2^16. -/
theorem add_immS8 (x : BitVec 16) (f : TForm) : x + immS8 f = BitVec.ofInt 16 (x.toInt + (BitVec.ofNat 8 (opImm f)).toInt) := by
  rw [BitVec.ofInt_add, BitVec.ofInt_toInt]
  rfl

/-- A branch goes a signed number of halfwords from the next instruction (R169). -/
theorem branchTo_eq (h : Thread) (f : TForm) : branchTo h f = h.pc + BitVec.ofInt 16 (2 * (BitVec.ofNat 8 (opImm f)).toInt) := by
  rw [BitVec.ofInt_mul, branchTo, immS8, BitVec.signExtend, BitVec.shiftLeft_eq_mul_twoPow, BitVec.mul_comm]
  rfl

/-! ## The instructions -/

/-- An instruction that writes predicate `k` of its operand, of a form with no memory operand. -/
theorem setsP_of_body (hc : s.Canon) (h : Ready s t f) {ins : Instr} {i : TInfo} {d : Nat} {b : Bool} (he : exec ins s = tRun ins i t f s)
    (hm : i.mul = false) (hu : i.unit = false) (ho : i.operand = true) (hr : i.refused f (s.thread t) false = none)
    (hb : i.body (s.pcPast t (opSize f)) { t, f } =
      .done ((s.pcPast t (opSize f)).modThread t fun h => { h with pr := setFl (s.thread t).pr d b ||| 1 })) :
    SetsP s t f ins d b :=
  ⟨_, fun _ hk => flBit_setFl_or_one _ hk _,
    he.trans (tRun_modThread hc h (by simp [hm]) hu ho hr _ hb (fun _ _ => rfl) fun _ => rfl)⟩

/-- PSET (R173). -/
theorem pset_setsP (hc : s.Canon) (h : Ready s t f) (hl : okForm [.pc] [] f = true) :
    SetsP s t f (.pset t f) (opImm f / 16 % 8)
      (condTrue (s.thread t).fl (opImm f % 16) && (decide (opImm f < 128) || predBit (s.thread t) (opImm f / 16 % 8))) := by
  refine setsP_of_body hc h (i := infoPset) rfl rfl rfl rfl (refused_none rfl hl (.inl rfl)) ?_
  refine congrArg TRes.done (State.modThread_congr ?_)
  rw [State.thread_pcPast hc]
  simp only [flBit_or_one_eq_predBit]
  by_cases ho : opImm f < 128
  · simp [ho, Nat.not_le.mpr ho]
  · simp [ho, Nat.not_lt.mp ho, predBit, Bool.and_comm]

/-- PLOG's four rows, each with its combination of two predicates (R175). -/
theorem plog_setsP (hc : s.Canon) (h : Ready s t f) {ins : Instr} {n : Nat} (k : Bool → Bool → Bool)
    (he : exec ins s = tRun ins { legal := okPlog n, body := plogOp k } t f s) (hl : okPlog n f = true) :
    SetsP s t f ins (opImm f % 8) (k (predBit (s.thread t) (opImm f / 16 % 8)) (predBit (s.thread t) (opImm f / 256 % 8))) := by
  refine setsP_of_body hc h he rfl rfl rfl (refused_none rfl hl (.inl rfl)) ?_
  refine congrArg TRes.done (State.modThread_congr ?_)
  rw [State.thread_pcPast hc]
  simp only [flBit_or_one_eq_predBit]

/-- Settles O10: each row's effect is one change of registers; PSET and PLOG by the bits of PR. -/
theorem tillerIndexAndPredicates : Obligations.TillerIndexAndPredicates := by
  intro s t f hc h
  have run := fun {ins i} => @tRun_modThread s t f ins i hc h
  refine ⟨fun hl => ⟨?_, ?_⟩, fun hl => ⟨_, condTrue_iff _ _, pset_setsP hc h hl⟩, plog_setsP hc h and rfl, plog_setsP hc h or rfl,
    plog_setsP hc h bne rfl, plog_setsP hc h (fun a b => a && !b) rfl⟩
  · refine run (i := infoAdx) nofun rfl rfl (refused_none rfl hl (.inl rfl)) _ ?_ (fun _ _ => rfl) fun _ => rfl
    simp only [infoAdx, TArg.upd, add_immS8]
  · refine run (i := infoAdy) nofun rfl rfl (refused_none rfl hl (.inl rfl)) _ ?_ (fun _ _ => rfl) fun _ => rfl
    simp only [infoAdy, TArg.upd, add_immS8]

/-- Settles O13: the next instruction's address is PC in the state past the branch; JMP's operand reads there as it does right past it. -/
theorem tillerBranches : Obligations.TillerBranches := by
  intro s t f hc h next target
  have run := fun {ins i} => @tRun_modThread s t f ins i hc h
  refine ⟨fun hl => ?_, fun v hr hl => ?_⟩
  · have hp : s.past t f = s.pcPast t (opSize f) := State.past_of_imm (opEa_of_okForm_short hl (by decide))
    have bra : exec (.bra t f) s = .next ((s.past t f).modThread t fun h => { h with pc := branchTo h f }) :=
      run (i := infoBra) nofun rfl rfl (refused_none rfl hl (.inl rfl)) _ rfl (fun _ _ => rfl) fun _ => rfl
    have dbnz : exec (.dbnz t f) s = .next ((s.past t f).modThread t fun h =>
        { h with x := h.x - 1, pc := if h.x - 1 = 0 then h.pc else branchTo h f }) :=
      run (i := infoDbnz) nofun rfl rfl (refused_none rfl hl (.inl rfl)) _ rfl (fun _ _ => rfl) fun _ => rfl
    refine ⟨bra.trans ?_, dbnz.trans ?_⟩
    · exact congrArg _ (State.modThread_congr (by simp only [branchTo_eq]; rfl))
    · refine congrArg _ (State.modThread_congr ?_)
      have hx : ((s.past t f).thread t).x = (s.thread t).x := by rw [hp, State.thread_pcPast hc]
      simp only [branchTo_eq, sub_eq_zero, hx]
      rfl
  · refine run (i := infoJmp) nofun rfl rfl (refused_none rfl hl (.inl rfl)) _ ?_ (fun _ _ => rfl) fun _ => rfl
    exact State.operand_reads (hr.pcPast hc h) fun v => TArg.upd { t, f } (s.pcPast t (opSize f)) fun h => { h with pc := codeAddr v }

end Sys2Proof.Machine
end

section
/-! PROOFS. Little-endian numbers in a memory, and what a store leaves: `Wrote`. -/

namespace Sys2Proof.Machine

/-! ## Bytes and numbers (R3) -/

@[simp] theorem natLE_length (n v : Nat) : (natLE n v).length = n := by
  induction n generalizing v with
  | zero => rfl
  | succ n ih => simp [natLE, ih]

/-- The bytes of a number give the number back, as far as they hold it. -/
theorem leNat_natLE (n v : Nat) : leNat (natLE n v) = v % 2 ^ (8 * n) := by
  induction n generalizing v with
  | zero => simp [natLE, leNat, Nat.mod_one]
  | succ n ih =>
    rw [natLE, leNat, ih, BitVec.toNat_ofNat, show 2 ^ (8 * (n + 1)) = 2 ^ 8 * 2 ^ (8 * n) by ring, Nat.mod_mul]
    rfl

/-- The number of two runs of bytes. -/
theorem leNat_append (b c : Bytes) : leNat (b ++ c) = leNat b + 2 ^ (8 * b.length) * leNat c := by
  induction b with
  | nil => simp [leNat]
  | cons x b ih =>
    rw [List.cons_append, leNat, ih, leNat, List.length_cons, show 2 ^ (8 * (b.length + 1)) = 256 * 2 ^ (8 * b.length) by ring]
    ring

theorem Mem.rdN_length (m : Mem) (a n : Nat) : (m.rdN a n).length = n := by
  induction n generalizing a with
  | zero => rfl
  | succ n ih => simp [Mem.rdN, ih]

/-- Bytes from an address on, in two parts. -/
theorem Mem.rdN_add (m : Mem) (a n k : Nat) : m.rdN a (n + k) = m.rdN a n ++ m.rdN (a + n) k := by
  induction n generalizing a with
  | zero => simp [Mem.rdN]
  | succ n ih => rw [Nat.succ_add, Mem.rdN, ih, Mem.rdN, List.cons_append, Nat.add_assoc, Nat.add_comm 1]

/-- Bytes that two memories share are read alike. -/
theorem Mem.rdN_congr {m m' : Mem} {a n : Nat} (h : ∀ k, a ≤ k → k < a + n → m.rd k = m'.rd k) : m.rdN a n = m'.rdN a n := by
  induction n generalizing a with
  | zero => rfl
  | succ n ih => rw [Mem.rdN, Mem.rdN, h a (Nat.le_refl _) (by omega), ih fun k hk hk' => h k (by omega) (by omega)]

/-- A number in two parts. -/
theorem Mem.le_add (m : Mem) (a n k : Nat) : m.le a (n + k) = m.le a n + 2 ^ (8 * n) * m.le (a + n) k := by
  rw [Mem.le, Mem.rdN_add, leNat_append, Mem.rdN_length, Mem.le, Mem.le]

/-- The parts of a run of bytes, read one by one. -/
theorem Mem.rdN_append {m : Mem} {a : Nat} {b c : Bytes} (h : m.rdN a (b ++ c).length = b ++ c) :
    m.rdN a b.length = b ∧ m.rdN (a + b.length) c.length = c := by
  rw [List.length_append, Mem.rdN_add] at h
  exact List.append_inj h (Mem.rdN_length ..)

/-- A number read where its bytes lie. -/
theorem Mem.le_of_rdN {m : Mem} {a n v : Nat} (h : m.rdN a n = natLE n v) (hv : v < 2 ^ (8 * n)) : m.le a n = v := by
  rw [Mem.le, h, leNat_natLE, Nat.mod_eq_of_lt hv]

/-- One byte read where it lies. -/
theorem Mem.rd_of_rdN {m : Mem} {a : Nat} {b : Byte} (h : m.rdN a 1 = [b]) : m.rd a = b := by
  simpa [Mem.rdN] using h

/-! ## Stores -/

/-- A store holds its bytes and leaves every other byte alone. -/
theorem Mem.wrN_wrote {m : Mem} (w : Memory.wf m = true) (a : Nat) (b : Bytes) : Wrote m (m.wrN a b) a b :=
  ⟨Mem.rdN_wrN w a b, fun k => Mem.rd_wrN_out m a b k⟩

/-- A store right below another one: together they are one store. -/
theorem Wrote.append {m₀ m m' : Mem} {a : Nat} {b c : Bytes} (h : Wrote m₀ m (a + b.length) c) (k : Wrote m m' a b) :
    Wrote m₀ m' a (b ++ c) := by
  obtain ⟨hin, hout⟩ := h
  obtain ⟨kin, kout⟩ := k
  constructor
  · rw [List.length_append, Mem.rdN_add, kin]
    congr 1
    exact (Mem.rdN_congr fun j hj _ => kout j (.inr hj)).trans hin
  · intro j hj
    rw [List.length_append] at hj
    rw [kout j (by omega), hout j (by omega)]

end Sys2Proof.Machine
end

section
/-! PROOFS. Taking a trap and RTE (R4, R182 to R186, R216). -/

namespace Sys2Proof.Machine

variable {s : State} {t cause info step : Nat}

/-- The bytes of a trap frame (R184, R216): `ret`: RETPC; `rpc`: the routine's PC, 0 outside a routine. -/
def trapFrame (ret cause step info : Nat) (fl pr : Byte) (rpc : Nat) : Bytes :=
  natLE 2 ret ++ natLE 1 cause ++ natLE 1 step ++ natLE 4 info ++ [fl, pr] ++ natLE 2 rpc ++ natLE 4 0

/-- The fields of a trap frame in the memory that holds it. -/
structure HoldsFrame (m : Mem) (a ret cause step info : Nat) (fl pr : Byte) (rpc : Nat) : Prop where
  ret : m.le a 2 = ret
  cause : m.le (a + 2) 1 = cause
  step : m.le (a + 3) 1 = step
  info : m.le (a + 4) 4 = info
  fl : m.rd (a + 8) = fl
  pr : m.rd (a + 9) = pr
  rpc : m.le (a + 10) 2 = rpc
  zero : m.le (a + 12) 4 = 0

/-- A memory in which a trap frame was stored holds its fields, each in the width it has. -/
theorem HoldsFrame.of_wrote {m₀ m : Mem} {a ret rpc : Nat} {fl pr : Byte} (hm : Wrote m₀ m a (trapFrame ret cause step info fl pr rpc))
    (hret : ret < 2 ^ 16) (hcause : cause < 16) (hstep : step < 64) (hinfo : info < 2 ^ 32) (hrpc : rpc < 2 ^ 16) :
    HoldsFrame m a ret cause step info fl pr rpc := by
  obtain ⟨h, zero⟩ := Mem.rdN_append hm.1
  obtain ⟨h, rpc⟩ := Mem.rdN_append h
  obtain ⟨h, bytes⟩ := Mem.rdN_append h
  obtain ⟨h, info⟩ := Mem.rdN_append h
  obtain ⟨h, step⟩ := Mem.rdN_append h
  obtain ⟨ret, cause⟩ := Mem.rdN_append h
  obtain ⟨fl, pr⟩ := Mem.rdN_append (b := [fl]) (c := [pr]) bytes
  simp only [List.length_append, natLE_length, List.length_cons, List.length_nil, Nat.add_assoc, Nat.reduceAdd] at *
  exact {
    ret := Mem.le_of_rdN ret hret
    cause := Mem.le_of_rdN cause (by omega)
    step := Mem.le_of_rdN step (by omega)
    info := Mem.le_of_rdN info hinfo
    fl := Mem.rd_of_rdN fl
    pr := Mem.rd_of_rdN pr
    rpc := Mem.le_of_rdN rpc hrpc
    zero := Mem.le_of_rdN zero (by decide) }

/-- The threads' own banks with a trap frame of thread `t` stored: its FL and PR are those at the trap. -/
def State.framed (s : State) (t ret cause step info rpc : Nat) : Mem :=
  s.tpriv.wrN (t * 4096 + 0xFF0) (trapFrame ret cause step info (s.thread t).fl (s.thread t).pr rpc)

/-! ## The cases of a trap -/

/-- A trap outside a routine (R182 to R184). -/
theorem doTrap_plain {size : Nat} (hf : flBit (s.thread t).fl 7 = false) (hs : (s.thread t).shadow = none) :
    s.doTrap t cause info size step =
      (let ret := if cause = 10 then (s.thread t).pc + BitVec.ofNat 16 size else (s.thread t).pc
       { s with tpriv := s.framed t ret.toNat cause step info 0 }.modThread t
        fun k => { k with fl := k.fl ||| 0x80, pc := BitVec.ofNat 16 (4 * cause) }) := by
  rw [State.doTrap, if_neg (by simp [hf])]
  extract_lets ret a
  split
  · next c h => cases hs.symm.trans h
  · rfl

/-- What follows for the subchannel bound to a thread, by the thread's binding. -/
theorem Thread.sc?_elim {h : Thread} {α : Type} (x : α) (g : Nat → α) :
    h.sc?.elim x g = (match h.bind with | .sc n => g n | _ => x) := by
  unfold Thread.sc?
  cases h.bind <;> rfl

/-- A trap in a routine (R216): the chain of the thread, if it has one, is to end. -/
theorem doTrap_routine {size : Nat} {c : Shadow} (hf : flBit (s.thread t).fl 7 = false) (hs : (s.thread t).shadow = some c) :
    s.doTrap t cause info size step =
      (let u := { s with tpriv := s.framed t (c.pc - 4).toNat cause step info (s.thread t).pc.toNat }.setThread t
          { (s.thread t).unshadow c with fl := ((s.thread t).unshadow c).fl ||| 0x80, pc := 12 }
       match (s.thread t).bind with | .sc sc => u.owe (.xtrap sc) | _ => u) := by
  rw [State.doTrap, if_neg (by simp [hf])]
  extract_lets ret a u
  split
  · next c' h =>
    cases Option.some.inj (hs.symm.trans h)
    exact Thread.sc?_elim (h := (s.thread t).unshadow c) ..
  · next h => cases hs.symm.trans h

/-- A trap during a trap (R186). -/
theorem doTrap_double {size : Nat} (hf : flBit (s.thread t).fl 7 = true) :
    s.doTrap t cause info size step = (s.modThread t fun k => { k with stopped := true }).report (8 + groupOf t) := by
  rw [State.doTrap, if_pos hf]

/-- A chain that is to end with UC and TRANSFORM_TRAP ends so (R216). -/
theorem State.dueGo_xtrap {sc n : Nat} (h : s.due = [.xtrap sc]) :
    State.dueGo (n + 1) s = State.dueGo n ({ s with due := [] }.endChain sc { bits := 4, code := 7, info := 0 }) := by
  rw [State.dueGo, h]

/-- What follows a trap in a routine: its chain ends first (R216). -/
theorem finish_xtrap {sc : Nat} (h : s.due = [.xtrap sc]) :
    s.finish = (State.dueGo 9 ({ s with due := [] }.endChain sc { bits := 4, code := 7, info := 0 })).wake.settle := by
  rw [State.finish, h, List.length_singleton, State.dueGo_xtrap h]

/-! ## RTE -/

/-- FL and PR after RTE, bit by bit: FL[4:0] of the frame, MODE as it was, TIP clear (R185). -/
theorem flBit_rte (fl x : Byte) (k : Nat) :
    flBit ((fl &&& 0x60) ||| (x &&& 0x1F)) k = if k < 5 then flBit x k else decide (k ≠ 7) && flBit fl k := by
  by_cases hk : k < 8
  · interval_cases k <;> simp [flBit]
  · simp [flBit, show ¬ k < 5 by omega, BitVec.getLsbD_of_ge fl k (by omega), BitVec.getLsbD_of_ge x k (by omega)]

/-- RTE returns to the frame's RETPC with the frame's FL[4:0] and PR (R185). -/
theorem exec_rte (hc : s.Canon) {f : TForm} (h : Ready s t f) (hl : okForm [.zero] [] f = true) (hm : (s.thread t).mode ≠ 1) :
    exec (.rte t f) s = .next ((s.past t f).modThread t fun h => { h with
      fl := ((s.thread t).fl &&& 0x60) ||| (s.tpriv.rd (t * 4096 + 0xFF0 + 8) &&& 0x1F)
      pr := s.tpriv.rd (t * 4096 + 0xFF0 + 9) ||| 1
      pc := codeAddr (s.tpriv.le (t * 4096 + 0xFF0) 2) }) := by
  refine tRun_modThread (i := infoRte) hc h nofun rfl rfl (refused_none rfl hl (.inr hm)) _ ?_ (fun _ _ => rfl) fun _ => rfl
  exact congrArg TRes.done (State.modThread_congr (by rw [State.thread_pcPast hc]; rfl))

/-- Settles O15, by the cases of a trap: the frame's fields are those of the bytes stored. -/
theorem trapEntryAndReturn : Obligations.TrapEntryAndReturn := by
  constructor
  · intro s t cause info size step hc hcause hstep hinfo h a
    have wrote : ∀ ret rpc, Wrote s.tpriv (s.framed t ret cause step info rpc) a (trapFrame ret cause step info h.fl h.pr rpc) :=
      fun _ _ => Mem.wrN_wrote hc.tpriv ..
    have out : ∀ {ret rpc k}, k < a ∨ a + 16 ≤ k → (s.framed t ret cause step info rpc).rd k = s.tpriv.rd k :=
      fun hk => (wrote ..).2 _ hk
    refine ⟨fun hf hs => ?_, fun c hf hs => ?_, doTrap_double, fun sc => finish_xtrap⟩
    · have ret_lt := BitVec.isLt (if cause = 10 then h.pc + BitVec.ofNat 16 size else h.pc)
      obtain ⟨ret, cause, step, info, fl, pr, rpc, zero⟩ := HoldsFrame.of_wrote (wrote _ 0) ret_lt hcause hstep hinfo (by decide)
      refine ⟨_, doTrap_plain hf hs, ret.trans (apply_ite ..), cause, step, info, fl, pr, ?_, fun _ => out⟩
      rw [Mem.le_add _ _ 2 4, rpc, zero]
      rfl
    · obtain ⟨ret, cause, step, info, fl, pr, rpc, zero⟩ :=
        HoldsFrame.of_wrote (wrote _ _) (BitVec.isLt (c.pc - 4)) hcause hstep hinfo (BitVec.isLt h.pc)
      exact ⟨_, doTrap_routine hf hs, ret, cause, step, info, fl, pr, rpc, zero, fun _ => out⟩
  · intro s t f hc h hl hm a
    refine ⟨_, _, flBit_rte _ _, fun k => ?_, exec_rte hc h hl hm⟩
    rw [flBit_or_one]
    by_cases hk : k = 0
    · simp [hk]
    · simp [hk, a]

end Sys2Proof.Machine
end

section
/-! PROOFS. Events, WAIT, the thread timer and FENCE (R165, R174, R187, R188). -/

namespace Sys2Proof.Machine

variable {s : State} {t : Nat} {f : TForm}

/-- The pending events, bit by bit: event 0 a packet at the read position, the others latched (R187). -/
theorem flBit_events (s : State) (t k : Nat) :
    flBit (s.events t) k = if k = 0 then (s.pkt t 0).isSome else decide (k < 7) && flBit (s.thread t).ev k := by
  unfold State.events
  by_cases hk : k < 8
  · cases (s.pkt t 0).isSome <;> interval_cases k <;> simp [flBit]
  · have hout : ∀ x : Byte, flBit x k = false := fun x => BitVec.getLsbD_of_ge x k (by omega)
    simp [hout, show k ≠ 0 by omega]

/-- Moving past an instruction raises no event and takes none away. -/
theorem State.events_pcPast (hc : s.Canon) (n : Nat) : (s.pcPast t n).events t = s.events t := by
  simp only [State.events, State.pkt, State.thread_pcPast hc]
  rfl

/-- WAIT completes with the pending events it names, or waits for them (R188). -/
theorem exec_wait (hc : s.Canon) (h : Ready s t f) (hl : okForm [.e8] [] f = true) (hm : (s.thread t).mode ≠ 1) :
    exec (.wait t f) s = .next ((s.past t f).modThread t fun h =>
      if s.events t &&& BitVec.ofNat 8 (opImm f) = 0 then { h with waiting := some (BitVec.ofNat 8 (opImm f)) }
      else { h with
        a := (s.events t &&& BitVec.ofNat 8 (opImm f)).setWidth 32
        ev := h.ev &&& ~~~(s.events t &&& BitVec.ofNat 8 (opImm f))
        waiting := none }) := by
  refine tRun_modThread (i := infoWait) hc h nofun rfl rfl (refused_none rfl hl (.inr hm)) _ ?_ (fun h fu => ?_) fun h => ?_
  · simp only [infoWait, bodyWait, State.events_pcPast hc]
    split
    · rfl
    · rw [State.waitDone, State.events_pcPast hc]
  all_goals split <;> rfl

/-- WAIT_WAKE completes a waiting WAIT one of whose events is pending (R188). -/
theorem exec_waitWake {m : Byte} (hm : (s.thread t).waiting = some m) (hr : s.running = true) (ht : t < 1024)
    (hs : (s.thread t).stopped = false) (he : s.events t &&& m ≠ 0) : exec (.waitWake t) s = .next (s.waitDone t m) := by
  change execWaitWake t s = _
  unfold execWaitWake
  split
  · next m' h =>
    cases Option.some.inj (hm.symm.trans h)
    rw [if_pos (by simpa [hr, ht, hs] using he)]
  · next h => cases hm.symm.trans h

/-- TMR sets the thread timer (R175, R187). -/
theorem exec_tmr {v : Nat} (hc : s.Canon) (h : Ready s t f) (hv : Reads (s.past t f) t f 4 v) (hl : okForm [] [0, 1, 2, 3] f = true)
    (hm : (s.thread t).mode ≠ 1) :
    exec (.tmr t f) s = .next ((s.past t f).modThread t fun h => { h with timer := BitVec.ofNat 32 v }) := by
  refine tRun_modThread (i := infoTmr) hc h nofun rfl rfl (refused_none rfl hl (.inr hm)) _ ?_ (fun _ _ => rfl) fun _ => rfl
  exact State.operand_reads (hv.pcPast hc h) fun v => TArg.upd { t, f } (s.pcPast t (opSize f)) fun h => { h with timer := BitVec.ofNat 32 v }

/-- The thread timer's expiry latches TIMER (R187). -/
theorem exec_threadTimerExpiry (hc : s.Canon) (hr : s.running = true) (ht : t < 1024) (hn : (s.thread t).timer ≠ 0) :
    exec (.threadTimerExpiry t) s = .next (s.modThread t fun h => { h with timer := 0, ev := h.ev ||| 4 }) := by
  change execThreadTimerExpiry t s = _
  rw [execThreadTimerExpiry, if_pos (by simpa [hr, ht] using hn)]
  simp only [State.latch, State.modThread_eq, State.thread_setThread s hc, State.setThread_setThread hc]
  rfl

/-- FENCE stalls while a window store of the thread waits for its node (R165). -/
theorem exec_fence (hc : s.Canon) (h : Ready s t f) (hl : okForm [.zero] [] f = true) (hm : (s.thread t).mode ≠ 1) :
    exec (.fence t f) s = .next (if s.winStores t = 0 then s.past t f else s) := by
  have hr : infoFence.refused f (s.thread t) false = none := refused_none rfl hl (.inr hm)
  by_cases hw : s.winStores t = 0
  · have hp := State.pcPast_canon (t := t) hc (opSize f)
    rw [if_pos hw, ← State.modThread_id (State.past_canon hc t f) t]
    refine tRun_modThread (i := infoFence) hc h nofun rfl rfl hr id ?_ (fun _ _ => rfl) fun _ => rfl
    rw [State.modThread_id hp]
    exact if_neg (not_not.mpr hw)
  · rw [if_neg hw]
    exact tRun_stall (i := infoFence) h nofun hr (if_pos hw)

/-- Settles O18: each clause is one rule above. -/
theorem tillerEventsAndWait : Obligations.TillerEventsAndWait := by
  intro s t hc
  refine ⟨⟨s.events t, flBit_events s t, fun f h hl hm => ⟨fun he => ?_, fun he => ?_⟩,
    fun m hw hr ht hs he => exec_waitWake hw hr ht hs he⟩,
    fun f v h hv hl hm => exec_tmr hc h hv hl hm, exec_threadTimerExpiry hc, fun f h hl hm => exec_fence hc h hl hm⟩
  · simpa only [he, if_false] using exec_wait hc h hl hm
  · simpa only [he, if_true] using exec_wait hc h hl hm

end Sys2Proof.Machine
end

section
/-! PROOFS. The stack in the thread's own bank (R179, R181): pushes of several slots are one store below the stack pointer, and each slot
reads back where the mask puts it. -/

namespace Sys2Proof.Machine

/-! ## The thread's own bank -/

section Bank

variable {s : State} {x : TArg}

theorem State.priv_canon (hc : s.Canon) {m : Mem} (hm : Memory.wf m = true) : { s with tpriv := m }.Canon :=
  (State.keeps_tpriv (κ := {}) .rfl m fun _ => hm).canon hc

/-- A store below the attention frame goes to the thread's own bank, in every mode (R153, R154, R213). -/
theorem State.engWr_priv {ea al : Nat} (b : Bytes) (hea : ea < 0xFC0) (hal : ea % al = 0) :
    s.engWr x ea b al = .done { s with tpriv := s.tpriv.wrN (x.t * 4096 + ea) b } := by
  have hb : ea / 65536 = 0 := Nat.div_eq_of_lt (by omega)
  have ho : ea % 65536 = ea := Nat.mod_eq_of_lt (by omega)
  simp [State.engWr, hb, ho, hal, hea]

/-- A read of the thread's own bank (R153, R154). -/
theorem State.engRd_priv {ea n al : Nat} (hea : ea < 0x1000) (hal : ea % al = 0) :
    s.engRd x ea n al = .val (s.tpriv.rdN (x.t * 4096 + ea) n) := by
  have hb : ea / 65536 = 0 := Nat.div_eq_of_lt (by omega)
  have ho : ea % 65536 = ea := Nat.mod_eq_of_lt (by omega)
  simp [State.engRd, hb, ho, hal, hea]

end Bank

/-! ## Pushes -/

section Pushes

variable {s : State} {x : TArg}

/-- A slot on the stack: some words. -/
def IsSlot (b : Bytes) : Prop := 0 < b.length ∧ b.length % 4 = 0

/-- A push for which there is room. -/
theorem State.push_done {b : Bytes} (hb : IsSlot b) (hal : (s.thread x.t).sp.toNat % 4 = 0) (hhi : (s.thread x.t).sp.toNat ≤ 0xFC0)
    (hlo : 0x400 + b.length ≤ (s.thread x.t).sp.toNat) :
    s.push x b = .done ({ s with tpriv := s.tpriv.wrN (x.t * 4096 + ((s.thread x.t).sp.toNat - b.length)) b }.modThread x.t
      fun h => { h with sp := BitVec.ofNat 16 ((s.thread x.t).sp.toNat - b.length) }) := by
  obtain ⟨hpos, hmod⟩ := hb
  rw [State.push, if_neg (by omega)]
  simp only [State.engWr_priv (s := s) (x := x) (ea := (s.thread x.t).sp.toNat - b.length) (al := 4) b (by omega) (by omega)]
  rfl

/-- A push for which there is no room traps STACK (R181). -/
theorem State.push_full {b : Bytes} (h : (s.thread x.t).sp.toNat < 0x400 + b.length) : s.push x b = .trapAt s 7 0 := by
  rw [State.push, if_pos h]

/-- Pushes for which there is room: one store right below the stack pointer, the last push lowest. -/
theorem State.pushAll_done (hc : s.Canon) (bs : List Bytes) (hbs : ∀ b ∈ bs, IsSlot b) (hal : (s.thread x.t).sp.toNat % 4 = 0)
    (hhi : (s.thread x.t).sp.toNat ≤ 0xFC0) (hlo : 0x400 + bs.flatten.length ≤ (s.thread x.t).sp.toNat) :
    ∃ m, Memory.wf m = true ∧ Wrote s.tpriv m (x.t * 4096 + ((s.thread x.t).sp.toNat - bs.flatten.length)) bs.reverse.flatten ∧
      State.pushAll x bs s = .done ({ s with tpriv := m }.modThread x.t
        fun h => { h with sp := BitVec.ofNat 16 ((s.thread x.t).sp.toNat - bs.flatten.length) }) := by
  induction bs generalizing s with
  | nil =>
    refine ⟨s.tpriv, hc.tpriv, ⟨rfl, fun _ _ => rfl⟩, ?_⟩
    have hsame : (s.thread x.t).sp = BitVec.ofNat 16 ((s.thread x.t).sp.toNat - 0) := by simp
    rw [State.pushAll, List.flatten_nil, List.length_nil, ← hsame]
    exact congrArg _ (State.setThread_thread hc x.t).symm
  | cons b bs ih =>
    simp only [List.flatten_cons, List.length_append] at hlo
    have hb := hbs b (by simp)
    have hw := Mem.wrN_wf (x.t * 4096 + ((s.thread x.t).sp.toNat - b.length)) b hc.tpriv
    have hc1 := State.priv_canon hc hw
    have hp := State.push_done (s := s) (x := x) hb hal hhi (by omega)
    generalize hs1 : State.modThread _ _ _ = s1 at hp
    have hsp : (s1.thread x.t).sp.toNat = (s.thread x.t).sp.toNat - b.length := by
      rw [← hs1, State.modThread_eq, State.thread_setThread _ hc1, BitVec.toNat_ofNat, Nat.mod_eq_of_lt (by omega)]
    have hm1 : s1.tpriv = s.tpriv.wrN (x.t * 4096 + ((s.thread x.t).sp.toNat - b.length)) b := by
      rw [← hs1]; rfl
    obtain ⟨hpos, hmod⟩ := hb
    obtain ⟨m, wf, wrote, done⟩ := ih (s := s1) (by rw [← hs1]; exact State.setThread_canon hc1 _ _) (fun b h => hbs b (by simp [h]))
      (by omega) (by omega) (by omega)
    have hlen : bs.reverse.flatten.length = bs.flatten.length := by simp [List.length_flatten]
    rw [hm1, hsp] at wrote
    refine ⟨m, wf, ?_, ?_⟩
    · rw [List.reverse_cons, List.flatten_append, List.flatten_singleton, List.flatten_cons, List.length_append, Nat.sub_add_eq]
      refine Wrote.append ?_ wrote
      rw [hlen, show x.t * 4096 + ((s.thread x.t).sp.toNat - b.length - bs.flatten.length) + bs.flatten.length =
        x.t * 4096 + ((s.thread x.t).sp.toNat - b.length) by omega]
      exact Mem.wrN_wrote hc.tpriv _ _
    · have hcm := State.priv_canon hc wf
      have hs1' : ({ s1 with tpriv := m } : State) = ({ s with tpriv := m } : State).setThread x.t (s1.thread x.t) := by
        rw [← hs1, State.modThread_eq, State.thread_setThread _ hc1]
        rfl
      simp only [State.pushAll, hp, done, hsp, hs1', State.modThread_eq, State.setThread_setThread hcm, State.thread_setThread _ hcm]
      rw [← hs1, State.modThread_eq, State.thread_setThread _ hc1, List.flatten_cons, List.length_append, Nat.sub_add_eq]
      rfl

end Pushes

/-! ## The slots of a mask (R179) -/

theorem slotsBelow_mono (mask : Nat) {j k : Nat} (h : j ≤ k) : slotsBelow mask j ≤ slotsBelow mask k :=
  monotone_nat_of_le_succ (f := slotsBelow mask) (fun _ => Nat.le_add_right _ _) h

theorem slotSize_mod (k : Nat) : 0 < slotSize k ∧ slotSize k % 4 = 0 := by
  unfold slotSize
  split <;> decide

theorem slotsBelow_mod (mask k : Nat) : slotsBelow mask k % 4 = 0 := by
  induction k with
  | zero => rfl
  | succ k ih =>
    have := (slotSize_mod k).2
    rw [slotsBelow]
    split <;> omega

/-- A register that a mask names fits its slot. -/
theorem Thread.slot_lt (h : Thread) (k : Nat) : h.slot k < 2 ^ (8 * slotSize k) := by
  have := h.a.isLt; have := h.x.isLt; have := h.y.isLt; have := h.bk.isLt; have := h.fl.isLt; have := (h.pr ||| 1).isLt
  have := h.fa.isLt; have := h.fpcr.isLt
  unfold Thread.slot
  split
  case h_8 => unfold slotSize; split <;> omega
  all_goals simp only [slotSize, Nat.reduceEqDiff, if_false, if_true, Nat.reduceMul]; omega

/-- The slots that a mask saves below bit `j`, in the order of the pushes. -/
def Thread.slots (h : Thread) (mask j : Nat) : List Bytes :=
  ((List.range j).filter fun k => bitOn mask k).map fun k => natLE (slotSize k) (h.slot k)

theorem Thread.slots_succ (h : Thread) (mask j : Nat) :
    h.slots mask (j + 1) = h.slots mask j ++ if bitOn mask j then [natLE (slotSize j) (h.slot j)] else [] := by
  simp only [Thread.slots, List.range_succ, List.filter_append, List.map_append, List.filter_cons, List.filter_nil]
  split <;> rfl

theorem Thread.slots_isSlot {h : Thread} {mask j : Nat} {b : Bytes} (hb : b ∈ h.slots mask j) : IsSlot b := by
  obtain ⟨k, _, rfl⟩ := List.mem_map.mp hb
  simpa [IsSlot] using slotSize_mod k

theorem Thread.slots_length (h : Thread) (mask j : Nat) : (h.slots mask j).flatten.length = slotsBelow mask j := by
  induction j with
  | zero => rfl
  | succ j ih =>
    rw [Thread.slots_succ, List.flatten_append, List.length_append, ih, slotsBelow]
    split <;> simp

/-- The slots of a mask, stored below `top` with the last push lowest, each hold their register. -/
theorem Thread.slot_of_rdN (h : Thread) {m : Mem} {mask j top : Nat} (ht : slotsBelow mask j ≤ top)
    (hr : m.rdN (top - slotsBelow mask j) (h.slots mask j).reverse.flatten.length = (h.slots mask j).reverse.flatten)
    {k : Nat} (hk : k < j) (hb : bitOn mask k = true) : m.le (top - slotsBelow mask (k + 1)) (slotSize k) = h.slot k := by
  induction j with
  | zero => omega
  | succ j ih =>
    rw [Thread.slots_succ] at hr
    by_cases hj : bitOn mask j = true
    · simp only [hj, if_true, List.reverse_append, List.reverse_singleton, List.singleton_append, List.flatten_cons] at hr
      obtain ⟨slot, rest⟩ := Mem.rdN_append hr
      rw [natLE_length] at slot rest
      rcases Nat.lt_succ_iff_lt_or_eq.mp hk with hlt | rfl
      · refine ih ?_ ?_ hlt
        · exact (slotsBelow_mono mask (Nat.le_succ j)).trans ht
        · rwa [show top - slotsBelow mask (j + 1) + slotSize j = top - slotsBelow mask j by
            rw [slotsBelow, if_pos hj] at ht ⊢; omega] at rest
      · exact Mem.le_of_rdN slot (h.slot_lt k)
    · simp only [hj, Bool.false_eq_true, if_false, List.append_nil] at hr
      have hs : slotsBelow mask (j + 1) = slotsBelow mask j := by rw [slotsBelow, if_neg hj]; rfl
      rw [hs] at hr ht
      exact ih ht hr (Nat.lt_of_le_of_ne (Nat.lt_succ_iff.mp hk) (by rintro rfl; exact hj hb))

end Sys2Proof.Machine
end

section
/-! PROOFS. CALL, CALLA and RET (R175, R179 to R181, R213). -/

namespace Sys2Proof.Machine

variable {s : State} {x : TArg} {t : Nat} {f : TForm} {ins : Instr} {i : TInfo}

/-! ## A routine's own code (R213) -/

/-- A target is inside: the thread is in no routine, or it is in the routine's own code. -/
theorem Thread.leaves_eq_false {h : Thread} {target : Nat} :
    h.leaves target = false ↔ ∀ c, h.shadow = some c → Config.ownCode c.entry.toNat target = true := by
  unfold Thread.leaves
  cases h.shadow <;> simp

theorem Thread.leaves_eq_true {h : Thread} {target : Nat} :
    h.leaves target = true ↔ ¬ ∀ c, h.shadow = some c → Config.ownCode c.entry.toNat target = true := by
  rw [← Thread.leaves_eq_false, Bool.not_eq_false]

/-! ## CALL and CALLA -/

/-- The thread's own bank after a call: the return word at the new stack pointer, above it the slots of the mask, nothing else changed. -/
structure Called (s : State) (t mask ret sp : Nat) (m : Mem) : Prop where
  ret : m.le (t * 4096 + (sp - slotsBelow mask 8 - 4)) 4 = ret + 65536 * mask
  slot : ∀ k, k < 8 → bitOn mask k = true → m.le (t * 4096 + (sp - slotsBelow mask (k + 1))) (slotSize k) = (s.thread t).slot k
  other : ∀ a, a < t * 4096 + (sp - slotsBelow mask 8 - 4) ∨ t * 4096 + sp ≤ a → m.rd a = s.tpriv.rd a

/-- What one store of the return word below the slots of a mask comes to. -/
theorem Called.of_wrote {mask ret sp : Nat} {m : Mem} (hret : ret < 65536) (hmask : mask < 256) (hsp : slotsBelow mask 8 + 4 ≤ sp)
    (h : Wrote s.tpriv m (t * 4096 + (sp - slotsBelow mask 8 - 4))
      (natLE 4 (ret + 65536 * mask) ++ ((s.thread t).slots mask 8).reverse.flatten)) : Called s t mask ret sp m := by
  obtain ⟨hin, hout⟩ := h
  have hlen : ((s.thread t).slots mask 8).reverse.flatten.length = slotsBelow mask 8 := by
    rw [← Thread.slots_length (s.thread t) mask 8]
    simp [List.length_flatten]
  rw [List.length_append, natLE_length, hlen] at hout
  clear hlen
  obtain ⟨word, slots⟩ := Mem.rdN_append hin
  rw [natLE_length] at word slots
  rw [show t * 4096 + (sp - slotsBelow mask 8 - 4) + 4 = t * 4096 + sp - slotsBelow mask 8 by omega] at slots
  refine ⟨Mem.le_of_rdN word (by omega), fun k hk hb => ?_, fun a ha => hout a (ha.imp_right fun h => ?_)⟩
  rotate_left
  · rwa [Nat.sub_sub, Nat.add_comm 4, Nat.add_assoc, Nat.sub_add_cancel hsp]
  have below : slotsBelow mask (k + 1) ≤ sp := (slotsBelow_mono mask hk).trans (Nat.le_of_add_right_le hsp)
  rw [← Nat.add_sub_assoc below]
  exact (s.thread t).slot_of_rdN (by omega) slots hk hb

/-- A call out of a routine's own code (R213). -/
theorem callTo_leaves {target mask : Nat} (h : (s.thread x.t).leaves target = true) : callTo target mask s x = .trap 4 0 := by
  rw [callTo, if_pos h]

/-- A call with room for the mask's slots and the return word (R179). -/
theorem callTo_done (hc : s.Canon) {target mask : Nat} (hmask : mask < 256) (h : (s.thread x.t).leaves target = false)
    (hal : (s.thread x.t).sp.toNat % 4 = 0) (hhi : (s.thread x.t).sp.toNat ≤ 0xFC0)
    (hlo : 0x404 + slotsBelow mask 8 ≤ (s.thread x.t).sp.toNat) :
    ∃ m, Called s x.t mask (s.thread x.t).pc.toNat (s.thread x.t).sp.toNat m ∧ Memory.wf m = true ∧
      callTo target mask s x = .done ({ s with tpriv := m }.modThread x.t fun k =>
        { k with sp := BitVec.ofNat 16 ((s.thread x.t).sp.toNat - slotsBelow mask 8 - 4), pc := codeAddr target }) := by
  set bs := (s.thread x.t).slots mask 8 ++ [natLE 4 ((s.thread x.t).pc.toNat + 65536 * (mask % 256))] with hbs
  have hlen : bs.flatten.length = slotsBelow mask 8 + 4 := by
    rw [hbs, List.flatten_append, List.length_append, Thread.slots_length, List.flatten_singleton, natLE_length]
  have hslots : ∀ b ∈ bs, IsSlot b := by
    intro b hb
    rcases List.mem_append.mp hb with hb | hb
    · exact Thread.slots_isSlot hb
    · rw [List.mem_singleton.mp hb, IsSlot, natLE_length]
      decide
  obtain ⟨m, wf, wrote, done⟩ := State.pushAll_done (x := x) hc bs hslots hal hhi (by omega)
  rw [hlen, Nat.sub_add_eq] at wrote done
  refine ⟨m, Called.of_wrote (BitVec.isLt _) hmask (by omega) ?_, wf, ?_⟩
  · simpa [hbs, Nat.mod_eq_of_lt hmask] using wrote
  · have hcm := State.priv_canon hc wf
    rw [callTo, if_neg (by simp [h])]
    change (match State.pushAll x bs s with | .done s => _ | r => r) = _
    rw [done]
    simp only [TArg.upd, State.modThread_eq, State.thread_setThread _ hcm, State.setThread_setThread hcm]

/-- A call of an empty mask with no room for the return word (R181). -/
theorem callTo_full {target : Nat} (h : (s.thread x.t).leaves target = false) (hlo : (s.thread x.t).sp.toNat < 0x404) :
    callTo target 0 s x = .trapAt s 7 0 := by
  have hs : ((List.range 8).filter fun k => bitOn 0 k) = [] := by decide
  have hp : ∀ v, s.push x (natLE 4 v) = .trapAt s 7 0 := fun v => State.push_full (by rw [natLE_length]; exact hlo)
  rw [callTo, if_neg (by simp [h])]
  simp only [hs, List.map_nil, List.nil_append, State.pushAll, hp]

/-- What CALL and CALLA share: a long form, a row that no mode refuses, and a call of their target with their mask as their effect. -/
structure Calls (s : State) (t : Nat) (f : TForm) (ins : Instr) (i : TInfo) (mask target : Nat) : Prop where
  runs : exec ins s = tRun ins i t f s
  mul : i.mul = true → (s.thread t).mrdy = true
  unit : i.unit = false
  noOperand : i.ea? f (s.thread t) = none
  allowed : i.refused f (s.thread t) false = none
  size : opSize f = 4
  mask_lt : mask < 256
  body : i.body (s.pcPast t (opSize f)) { t, f } = callTo target mask (s.pcPast t (opSize f)) { t, f }

theorem calls_call (hl : okForm [] [0, 1, 2, 3] f = true) :
    Calls s t f (.call t f) infoCall (callWord f % 256) (callWord f / 256 * 64) := by
  refine ⟨rfl, nofun, rfl, rfl, refused_none rfl hl (.inl rfl), ?_, Nat.mod_lt _ (by decide), ?_⟩ <;> cases f with
  | short => simp [okForm] at hl
  | long a b m v => ?_
  · rfl
  · have hw : (m.toNat * 65536 + v.toNat) / 256 % 1024 = (m.toNat * 65536 + v.toNat) / 256 := Nat.mod_eq_of_lt (by omega)
    simp only [infoCall, bodyCall, hw, callWord]

theorem calls_calla (hc : s.Canon) (hl : okForm [] [0] f = true) :
    Calls s t f (.calla t f) infoCalla (opImm f % 256) ((s.thread t).a.toNat % 65536) := by
  have hbody : infoCalla.body (s.pcPast t (opSize f)) { t, f } =
      callTo ((s.thread t).a.toNat % 65536) (opImm f % 256) (s.pcPast t (opSize f)) { t, f } := by
    simp only [infoCalla, State.thread_pcPast hc]
  cases f with
  | short => simp [okForm] at hl
  | long a b m v =>
    refine ⟨rfl, nofun, rfl, ?_, refused_none rfl hl (.inl rfl), rfl, Nat.mod_lt _ (by decide), hbody⟩
    have hm : m.toNat = 0 := by simpa [okForm] using hl
    simp [TInfo.ea?, opEa, hm]

section Call

variable {mask target : Nat} (k : Calls s t f ins i mask target) (hc : s.Canon) (h : Ready s t f)
include k hc h

/-- A call out of a routine's own code traps ILLEGAL (R213). -/
theorem Calls.leaves (hl : (s.thread t).leaves target = true) : exec ins s = .next (s.doTrap t 4 0 (opSize f) 0).finish := by
  rw [k.runs]
  refine tRun_trap_plain h k.mul k.allowed (by decide) (k.body.trans (callTo_leaves ?_))
  rwa [State.thread_pcPast hc]

/-- A call with room for its slots (R179). -/
theorem Calls.done (hl : (s.thread t).leaves target = false) (hal : (s.thread t).sp.toNat % 4 = 0) (hhi : (s.thread t).sp.toNat ≤ 0xFC0)
    (hlo : 0x404 + slotsBelow mask 8 ≤ (s.thread t).sp.toNat) :
    ∃ m, Called s t mask ((s.pcPast t (opSize f)).thread t).pc.toNat (s.thread t).sp.toNat m ∧
      exec ins s = .next ({ s.pcPast t (opSize f) with tpriv := m }.modThread t fun k =>
        { k with sp := BitVec.ofNat 16 ((s.thread t).sp.toNat - slotsBelow mask 8 - 4), pc := codeAddr target }) := by
  obtain ⟨⟨_, _, hgot, _, hdue⟩, _⟩ := id h
  have hp := State.pcPast_canon (t := t) hc (opSize f)
  have ht := State.thread_pcPast (t := t) hc (opSize f)
  have hsp : ((s.pcPast t (opSize f)).thread t).sp = (s.thread t).sp := by rw [ht]
  obtain ⟨m, ⟨ret, slot, other⟩, wf, done⟩ := callTo_done (x := { t, f }) (target := target) hp k.mask_lt (by rw [ht]; exact hl)
    (by rw [hsp]; exact hal) (by rw [hsp]; exact hhi) (by rw [hsp]; exact hlo)
  simp only [hsp] at ret slot other done
  have hslot : ((s.pcPast t (opSize f)).thread t).slot = (s.thread t).slot := by rw [ht]; rfl
  rw [hslot] at slot
  refine ⟨m, ⟨ret, slot, other⟩, ?_⟩
  have hr := tRun_done_here (ins := ins) h k.mul k.unit k.allowed (k.body.trans done)
  rw [k.noOperand, State.windowRead_none] at hr
  rw [k.runs]
  refine hr ?_ hdue
  rw [State.modThread_eq, State.thread_setThread _ (State.priv_canon hp wf)]
  exact (congrArg Thread.winGot ht).trans hgot

/-- A call of an empty mask with no room for the return word traps STACK at the instruction (R181). -/
theorem Calls.full (hl : (s.thread t).leaves target = false) (hm : mask = 0) (hlo : (s.thread t).sp.toNat < 0x404) :
    exec ins s = .next (((s.pcPast t (opSize f)).modThread t fun k => { k with pc := (s.thread t).pc }).doTrap t 7 0 4 0).finish := by
  obtain ⟨⟨_, _, hgot, _⟩, _⟩ := id h
  have ht := State.thread_pcPast (t := t) hc (opSize f)
  have hb := callTo_full (s := s.pcPast t (opSize f)) (x := { t, f }) (target := target) (by rw [ht]; exact hl) (by rw [ht]; exact hlo)
  subst hm
  rw [k.runs, tRun_trapAt h k.mul k.allowed (by rw [ht]; exact hgot) (k.body.trans hb), k.size]

end Call

end Sys2Proof.Machine
end

section
/-! PROOFS. RET: the pops of a call mask, and which registers they restore (R180); the settled statement on calls and returns. -/

namespace Sys2Proof.Machine

variable {s : State} {x : TArg} {t : Nat} {f : TForm}

/-! ## Restored registers -/

/-- A thread with its stack pointer replaced. -/
def Thread.withSp (h : Thread) (sp : BitVec 16) : Thread := { h with sp }

@[simp] theorem Thread.withSp_sp (h : Thread) (sp : BitVec 16) : (h.withSp sp).sp = sp := rfl

@[simp] theorem Thread.withSp_withSp (h : Thread) (sp sp' : BitVec 16) : (h.withSp sp).withSp sp' = h.withSp sp' := rfl

/-- A slot restored leaves the stack pointer alone. -/
theorem Thread.unslot_withSp (h : Thread) (sp : BitVec 16) (k v : Nat) : (h.withSp sp).unslot k v = (h.unslot k v).withSp sp := by
  unfold Thread.unslot
  split <;> rfl

/-- The registers after RET has restored, from bit `j - 1` down, the slots that `on` names, with the values `v`. -/
def Thread.unslots (on : Nat → Bool) (v : Nat → Nat) : Nat → Thread → Thread
  | 0, h => h
  | k + 1, h => Thread.unslots on v k (if on k then h.unslot k (v k) else h)

theorem Thread.unslots_withSp (on : Nat → Bool) (v : Nat → Nat) (j : Nat) (h : Thread) (sp : BitVec 16) :
    Thread.unslots on v j (h.withSp sp) = (Thread.unslots on v j h).withSp sp := by
  induction j generalizing h with
  | zero => rfl
  | succ j ih =>
    rw [Thread.unslots, Thread.unslots, ← ih, Thread.unslot_withSp]
    split <;> rfl

/-- Each slot is one register's (R179). -/
theorem Thread.unslot_if (h : Thread) (c : Bool) (v : Nat) :
    (if c then h.unslot 0 v else h) = { h with a := if c then BitVec.ofNat 32 v else h.a } ∧
    (if c then h.unslot 1 v else h) = { h with x := if c then BitVec.ofNat 16 v else h.x } ∧
    (if c then h.unslot 2 v else h) = { h with y := if c then BitVec.ofNat 16 v else h.y } ∧
    (if c then h.unslot 3 v else h) = { h with bk := if c then BitVec.ofNat 8 v else h.bk } ∧
    (if c then h.unslot 4 v else h) = { h with fl := if c then (h.fl &&& 0xE0) ||| (BitVec.ofNat 8 v &&& 0x1F) else h.fl } ∧
    (if c then h.unslot 5 v else h) = { h with pr := if c then BitVec.ofNat 8 v ||| 1 else h.pr } ∧
    (if c then h.unslot 6 v else h) = { h with fa := if c then BitVec.ofNat 64 v else h.fa } ∧
    (if c then h.unslot 7 v else h) = { h with fpcr := if c then BitVec.ofNat 32 v &&& 0x1F7 else h.fpcr } := by
  cases c <;> exact ⟨rfl, rfl, rfl, rfl, rfl, rfl, rfl, rfl⟩

/-- Each bit of a mask restores its own register (R179, R180). -/
theorem Thread.unslots_eight (on : Nat → Bool) (v : Nat → Nat) (h : Thread) :
    Thread.unslots on v 8 h = { h with
      a := if on 0 then BitVec.ofNat 32 (v 0) else h.a
      x := if on 1 then BitVec.ofNat 16 (v 1) else h.x
      y := if on 2 then BitVec.ofNat 16 (v 2) else h.y
      bk := if on 3 then BitVec.ofNat 8 (v 3) else h.bk
      fl := if on 4 then (h.fl &&& 0xE0) ||| (BitVec.ofNat 8 (v 4) &&& 0x1F) else h.fl
      pr := if on 5 then BitVec.ofNat 8 (v 5) ||| 1 else h.pr
      fa := if on 6 then BitVec.ofNat 64 (v 6) else h.fa
      fpcr := if on 7 then BitVec.ofNat 32 (v 7) &&& 0x1F7 else h.fpcr } := by
  simp only [Thread.unslots, Thread.unslot_if]

/-- FL after its slot was restored: FL[4:0] of the slot, the rest as it was (R148, R180). -/
theorem flBit_unslot (fl : Byte) (v k : Nat) :
    flBit ((fl &&& 0xE0) ||| (BitVec.ofNat 8 v &&& 0x1F)) k = if k < 5 then v.testBit k else flBit fl k := by
  have hv : k < 5 → v.testBit k = flBit (BitVec.ofNat 8 v) k := fun hk => by
    rw [flBit, BitVec.getLsbD_ofNat, decide_eq_true (by omega), Bool.true_and]
  by_cases hk : k < 8
  · split
    · next h => rw [hv h]; interval_cases k <;> simp [flBit]
    · interval_cases k <;> simp_all [flBit]
  · simp [flBit, show ¬ k < 5 by omega, BitVec.getLsbD_of_ge fl k (by omega), BitVec.getLsbD_of_ge (BitVec.ofNat 8 v) k (by omega)]

/-- FL[4:0] are restored if both masks name them. -/
theorem flBit_unslot_if (c : Bool) (fl : Byte) (v k : Nat) :
    flBit (if c then (fl &&& 0xE0) ||| (BitVec.ofNat 8 v &&& 0x1F) else fl) k = if c && decide (k < 5) then v.testBit k else flBit fl k := by
  cases c
  · rfl
  · simpa using flBit_unslot fl v k

/-! ## Pops -/

/-- A pop within the stack (R180). -/
theorem State.pop_done {n : Nat} (k : State → Nat → TRes) (hal : (s.thread x.t).sp.toNat % 4 = 0) (hn : 0 < n)
    (hhi : (s.thread x.t).sp.toNat + n ≤ 0xFC0) :
    s.pop x n k = k (s.setThread x.t ((s.thread x.t).withSp (BitVec.ofNat 16 ((s.thread x.t).sp.toNat + n))))
      (s.tpriv.le (x.t * 4096 + (s.thread x.t).sp.toNat) n) := by
  have hr := State.engRd_priv (s := s) (x := x) (ea := (s.thread x.t).sp.toNat) (n := n) (al := 4) (by omega) hal
  rw [State.pop, if_neg (by omega)]
  simp only [hr]
  rfl

/-- The value in the slot of bit `k`, where the slots of a call mask lie from `b` on in a thread's own bank, that of bit 7 lowest (R179). -/
def slotAt (m : Mem) (t b call k : Nat) : Nat := m.le (t * 4096 + (b + (slotsBelow call 8 - slotsBelow call (k + 1)))) (slotSize k)

/-- The pops of a call mask's slots below bit `j`, where the slots from there up have been popped from `b` on: each register that both
masks name has its slot's value, and execution goes on at the return address (R180). -/
theorem State.popSlots_done (hc : s.Canon) {call own ret b j : Nat} (hj : j ≤ 8) (hal : b % 4 = 0) (hhi : b + slotsBelow call 8 ≤ 0xFC0)
    (hsp : (s.thread x.t).sp = BitVec.ofNat 16 (b + (slotsBelow call 8 - slotsBelow call j))) :
    State.popSlots x call own ret (List.range j).reverse s = .done (s.setThread x.t
      { (Thread.unslots (fun k => bitOn call k && bitOn own k) (slotAt s.tpriv x.t b call) j (s.thread x.t)).withSp
          (BitVec.ofNat 16 (b + slotsBelow call 8)) with pc := codeAddr ret }) := by
  induction j generalizing s with
  | zero =>
    have hs : (s.thread x.t).withSp (BitVec.ofNat 16 (b + slotsBelow call 8)) = s.thread x.t := by
      rw [show b + slotsBelow call 8 = b + (slotsBelow call 8 - slotsBelow call 0) from rfl, ← hsp]
      rfl
    rw [Thread.unslots, hs]
    rfl
  | succ j ih =>
    have hmono := slotsBelow_mono call hj
    have hmod := slotsBelow_mod call 8
    have hmodj := slotsBelow_mod call (j + 1)
    rw [List.range_succ, List.reverse_append, List.reverse_singleton, List.singleton_append, State.popSlots, Thread.unslots]
    by_cases hb : bitOn call j = true
    · have hs : slotsBelow call (j + 1) = slotsBelow call j + slotSize j := by rw [slotsBelow, if_pos hb]
      obtain ⟨hpos, _⟩ := slotSize_mod j
      have hat : (s.thread x.t).sp.toNat = b + (slotsBelow call 8 - slotsBelow call (j + 1)) := by
        rw [hsp, BitVec.toNat_ofNat, Nat.mod_eq_of_lt (by omega)]
      have htop : b + (slotsBelow call 8 - slotsBelow call (j + 1)) + slotSize j = b + (slotsBelow call 8 - slotsBelow call j) := by omega
      rw [if_pos hb, State.pop_done _ (by omega) hpos (by omega), hat, htop]
      have hs1 : ∀ (sp : BitVec 16) (v : Nat),
          (if bitOn own j then (s.setThread x.t ((s.thread x.t).withSp sp)).modThread x.t fun h => h.unslot j v
            else s.setThread x.t ((s.thread x.t).withSp sp)) =
          s.setThread x.t ((if bitOn call j && bitOn own j then (s.thread x.t).unslot j v else s.thread x.t).withSp sp) := by
        intro sp v
        rw [hb, Bool.true_and]
        split
        · rw [State.modThread_eq, State.thread_setThread s hc, State.setThread_setThread hc, Thread.unslot_withSp]
        · rfl
      dsimp only
      rw [hs1, ih (State.setThread_canon hc _ _) (by omega) (by rw [State.thread_setThread s hc, Thread.withSp_sp]),
        State.setThread_setThread hc, State.thread_setThread s hc, Thread.unslots_withSp, Thread.withSp_withSp]
      rfl
    · have hs : slotsBelow call (j + 1) = slotsBelow call j := by rw [slotsBelow, if_neg hb]; rfl
      rw [hs] at hsp
      rw [if_neg hb, ih hc (by omega) hsp]
      simp [hb]

/-! ## RET -/

/-- What RET's body comes to once the return word is popped (R180, R213). -/
theorem bodyRet_eq {w : Nat} (hal : (s.thread x.t).sp.toNat % 4 = 0) (hhi : (s.thread x.t).sp.toNat + 4 ≤ 0xFC0)
    (hw : s.tpriv.le (x.t * 4096 + (s.thread x.t).sp.toNat) 4 = w) :
    bodyRet s x = if (s.thread x.t).leaves (w % 65536) then .trap 4 0
      else State.popSlots x (w / 65536 % 256) (opImm x.f) (w % 65536) (List.range 8).reverse
        (s.setThread x.t ((s.thread x.t).withSp (BitVec.ofNat 16 ((s.thread x.t).sp.toNat + 4)))) := by
  rw [bodyRet, State.pop_done _ hal (by decide) hhi, hw]
  rfl

section Ret

variable (hc : s.Canon) (h : Ready s t f) (hl : okForm [.m8] [] f = true) {w : Nat}
  (hw : s.tpriv.le (t * 4096 + (s.thread t).sp.toNat) 4 = w) (hal : (s.thread t).sp.toNat % 4 = 0)
include hc h hl hw hal

/-- RET out of a routine's own code traps ILLEGAL (R213). -/
theorem exec_ret_leaves (hhi : (s.thread t).sp.toNat + 4 ≤ 0xFC0) (ho : (s.thread t).leaves (w % 65536) = true) :
    exec (.ret t f) s = .next (s.doTrap t 4 0 (opSize f) 0).finish := by
  have ht := State.thread_pcPast (t := t) hc (opSize f)
  refine tRun_trap_plain (i := infoRet) h nofun (refused_none rfl hl (.inl rfl)) (by decide) ?_
  have hb := bodyRet_eq (s := s.pcPast t (opSize f)) (x := { t, f }) (w := w) (by rw [ht]; exact hal) (by rw [ht]; exact hhi)
    (by rw [ht]; exact hw)
  exact hb.trans (if_pos (by rw [ht]; exact ho))

/-- RET pops the return word and the slots of the call mask, and restores the registers in both masks (R180). -/
theorem exec_ret_done {call : Nat} (hcall : w / 65536 % 256 = call) (hhi : (s.thread t).sp.toNat + 4 + slotsBelow call 8 ≤ 0xFC0)
    (ho : (s.thread t).leaves (w % 65536) = false) :
    exec (.ret t f) s = .next ((s.past t f).setThread t
      { (Thread.unslots (fun k => bitOn call k && bitOn (opImm f) k) (slotAt s.tpriv t ((s.thread t).sp.toNat + 4) call) 8
          ((s.pcPast t (opSize f)).thread t)).withSp (BitVec.ofNat 16 ((s.thread t).sp.toNat + 4 + slotsBelow call 8)) with
        pc := codeAddr (w % 65536) }) := by
  obtain ⟨⟨_, _, hgot, _, hdue⟩, _⟩ := id h
  have hp := State.pcPast_canon (t := t) hc (opSize f)
  have ht := State.thread_pcPast (t := t) hc (opSize f)
  have hsp : ((s.pcPast t (opSize f)).thread t).sp = (s.thread t).sp := by rw [ht]
  have hea : ∀ th, opEa f th = none := opEa_of_okForm_short hl (by decide)
  have hb := bodyRet_eq (s := s.pcPast t (opSize f)) (x := { t, f }) (w := w) (by rw [hsp]; exact hal) (by rw [hsp]; omega)
    (by rw [hsp]; exact hw)
  have pops := State.popSlots_done (x := { t, f }) (call := call) (own := opImm f) (ret := w % 65536) (b := (s.thread t).sp.toNat + 4)
    (State.setThread_canon hp t (((s.pcPast t (opSize f)).thread t).withSp (BitVec.ofNat 16 ((s.thread t).sp.toNat + 4)))) (Nat.le_refl 8)
    (by omega) hhi (by rw [State.thread_setThread _ hp, Thread.withSp_sp, Nat.sub_self])
  rw [if_neg (by rw [ht]; exact Bool.eq_false_iff.mp ho), hcall, hsp, pops, State.setThread_setThread hp, State.thread_setThread _ hp,
    Thread.unslots_withSp, Thread.withSp_withSp] at hb
  have run := tRun_done_here (ins := .ret t f) (i := infoRet) h nofun rfl (refused_none rfl hl (.inl rfl)) hb
  rw [TInfo.ea?, hea, ite_self, State.windowRead_none] at run
  rw [State.past_of_imm hea]
  refine run ?_ hdue
  rw [State.thread_setThread _ hp, Thread.unslots_eight]
  exact (congrArg Thread.winGot ht).trans hgot

end Ret

/-- Settles O14: CALL and CALLA by the one store their pushes come to, RET by the registers its pops restore. -/
theorem tillerCallAndReturn : Obligations.TillerCallAndReturn := by
  constructor
  · intro s t f hc h p sp ins mask target hins inside
    have hcalls : ∃ i, Calls s t f ins i mask target := by
      rcases hins with ⟨rfl, hl, rfl, rfl⟩ | ⟨rfl, hl, rfl, rfl⟩
      · exact ⟨_, calls_call hl⟩
      · exact ⟨_, calls_calla hc hl⟩
    obtain ⟨i, k⟩ := hcalls
    refine ⟨fun ho => k.leaves hc h (Thread.leaves_eq_true.mpr ho), fun hi hal hhi hlo => ?_,
      fun hi hm hlo => k.full hc h (Thread.leaves_eq_false.mpr hi) hm hlo⟩
    obtain ⟨m, ⟨ret, slot, other⟩, run⟩ := k.done hc h (Thread.leaves_eq_false.mpr hi) hal hhi hlo
    exact ⟨m, run, ret, slot, other⟩
  · intro s t f hc h hl sp w call slot both inside hal hhi
    refine ⟨fun ho => exec_ret_leaves hc h hl rfl hal (Nat.le_of_add_right_le hhi) (Thread.leaves_eq_true.mpr ho), fun hi => ?_⟩
    have run := exec_ret_done hc h hl rfl hal rfl hhi (Thread.leaves_eq_false.mpr hi)
    rw [Thread.unslots_eight, State.thread_pcPast hc] at run
    refine ⟨_, run, rfl, ?_, rfl, rfl, rfl, rfl, fun k => ?_, rfl, rfl, rfl, rfl, rfl, rfl, rfl, rfl, rfl⟩
    · have : sp + 4 + slotsBelow call 8 < 2 ^ 16 := Nat.lt_of_le_of_lt hhi (by decide)
      exact Nat.mod_eq_of_lt this
    · exact flBit_unslot_if ..

end Sys2Proof.Machine
end

section
/-! PROOFS. What instructions that change registers of their thread share: the state past one as a change of its thread, the outcome of a
row of the opcode tables, its operands, and the flags. -/

namespace Sys2Proof.Machine

/-! ## The state past an instruction as a change of one thread -/

/-- A thread past an instruction: PC is past it, and a packet that its operand names has been looked at (R142, R455). -/
def Thread.past (f : TForm) (h : Thread) : Thread :=
  { h with pc := h.pc + BitVec.ofNat 16 (opSize f), furrow := h.furrow.looked (opEa f h) }

section Past

variable {s : State} (hc : s.Canon)
include hc

/-- The state in which an instruction acts differs from the one before it in one thread. -/
theorem State.past_eq (t : Nat) (f : TForm) : s.past t f = s.setThread t ((s.thread t).past f) := by
  rw [State.past, State.windowRead_eq (State.pcPast_canon hc _), State.thread_pcPast hc, State.pcPast, State.modThread_eq,
    State.setThread_setThread hc]
  rfl

theorem State.thread_past (t : Nat) (f : TForm) : (s.past t f).thread t = (s.thread t).past f := by
  rw [State.past_eq hc, State.thread_setThread s hc]

/-- A change of registers past an instruction, as one change of the state before it. -/
theorem State.modThread_past (t : Nat) (f : TForm) (g : Thread → Thread) :
    (s.past t f).modThread t g = s.setThread t (g ((s.thread t).past f)) := by
  rw [State.modThread_eq, State.thread_past hc, State.past_eq hc, State.setThread_setThread hc]

end Past

/-! ## The outcome of a row -/

section Rows

variable {s : State} {t v : Nat} {f : TForm} {ins : Instr} (hc : s.Canon) (h : Ready s t f)
include hc h

/-- A row that changes registers of its thread alone. -/
theorem exec_row {legal : TForm → Bool} {cyc : Nat} {body : State → TArg → TRes}
    (he : exec ins s = tRun ins { legal, cyc, body } t f s) (hl : legal f = true)
    (g : Thread → Thread) (hb : body (s.pcPast t (opSize f)) { t, f } = .done ((s.pcPast t (opSize f)).modThread t g))
    (hg : ∀ h fu, g (h.withFurrow fu) = (g h).withFurrow fu) (hw : ∀ h, (g h).winGot = h.winGot) :
    exec ins s = .next ((s.past t f).modThread t g) := by
  rw [he]
  exact tRun_modThread hc h (fun e => absurd e Bool.false_ne_true) rfl rfl (refused_none rfl hl (.inl rfl)) g hb hg hw

/-- An operand that LDX, LDY, CPX and CPY read in the state in which they act reads the same right past them. -/
theorem ReadsLow.pcPast (hv : ReadsLow (s.past t f) t f v) : ReadsLow (s.pcPast t (opSize f)) t f v := by
  cases f with
  | short g k o =>
    obtain ⟨w, hw, e⟩ := hv
    exact ⟨w, hw.pcPast hc h, e⟩
  | long n p m w => exact Reads.pcPast hc h hv

end Rows

/-! ## Floating-point operands in the state past the instruction -/

/-- Consecutive elements read after a look at a packet read the same without it. -/
theorem State.engRdMany_val_of_windowRead {s : State} {b : Bytes} {x : TArg} (hc : s.Canon) (hw : (s.thread x.t).winGot = [])
    {e : Option Nat} {n k ea : Nat} :
    (s.windowRead x.t e).engRdMany x ea n k = .val b → s.engRdMany x ea n k = .val b := by
  induction k generalizing ea b with
  | zero => exact id
  | succ k ih =>
    intro h
    rw [State.engRdMany] at h ⊢
    split at h
    · next b₁ h₁ =>
      rw [State.engRd_val_of_windowRead hc hw h₁]
      dsimp only
      split at h
      · next b₂ h₂ => rw [ih h₂]; exact h
      · next m hm => exact absurd h (hm _)
    · next m hm => exact absurd h (hm _)

/-- Floating-point operands read in the state in which the instruction acts read the same right past it. -/
theorem ReadsFp.pcPast {s : State} {t : Nat} {f : TForm} {b : Bytes} {k : Nat} (hc : s.Canon) (h : Ready s t f)
    (hr : ReadsFp (s.past t f) t f k b) : ReadsFp (s.pcPast t (opSize f)) t f k b := by
  obtain ⟨⟨_, _, hgot, _⟩, _⟩ := h
  obtain ⟨ea, hea, hb⟩ := hr
  rw [State.thread_past hc] at hea hb
  refine ⟨ea, ?_, ?_⟩
  · rw [State.thread_pcPast hc]
    exact hea
  · rw [State.thread_pcPast hc]
    exact State.engRdMany_val_of_windowRead (State.pcPast_canon hc _) (by rw [State.thread_pcPast hc, hgot]) hb

/-! ## The flags -/

/-- A bit of FL replaced: that bit, and every other as before, those beyond FL too. -/
theorem flBit_setFl_of_lt (fl : Byte) {d : Nat} (hd : d < 8) (b : Bool) (k : Nat) :
    flBit (setFl fl d b) k = if k = d then b else flBit fl k := by
  by_cases hk : k < 8
  · exact flBit_setFl fl hk b
  · have hout : ∀ x : Byte, flBit x k = false := fun x => BitVec.getLsbD_of_ge x k (by omega)
    rw [hout, hout, if_neg (by omega)]

/-- N, Z, C and V written one after the other. -/
theorem flagsAre_setFl (fl : Byte) (n z c v : Bool) : FlagsAre fl (setFl (setFl (setFl (setFl fl 2 n) 1 z) 0 c) 3 v) n z c v := by
  have bit := fun fl d b k (hd : d < 8) => flBit_setFl_of_lt fl hd b k
  refine ⟨?_, ?_, ?_, ?_, fun k hk => ?_⟩
  iterate 4 simp [bit]
  simp [bit, show k ≠ 0 by omega, show k ≠ 1 by omega, show k ≠ 2 by omega, show k ≠ 3 by omega]

end Sys2Proof.Machine
end

section
/-! PROOFS. Addition, subtraction, comparison, shifts and rotates: results and flags (R219, R220, R222 to R224). -/

namespace Sys2Proof.Machine

/-! ## Addition and subtraction -/

/-- The result of an addition (R219, R220). -/
theorem addFlags_fst (fl : Byte) (a b : Word) (c : Bool) : (addFlags fl a b c).1 = a + b + BitVec.ofNat 32 (b2n c) := by
  rw [addFlags, BitVec.ofNat_add, BitVec.ofNat_add, BitVec.ofNat_toNat, BitVec.ofNat_toNat, BitVec.setWidth_eq, BitVec.setWidth_eq]

theorem addFlags_snd (fl : Byte) (a b : Word) (c : Bool) : AddFlags fl (addFlags fl a b c).2 a b (b2n c) := by
  rw [AddFlags, ← addFlags_fst fl]
  exact flagsAre_setFl ..

theorem subFlags_snd (fl : Byte) (a b : Word) (c : Bool) : SubFlags fl (subFlags fl a b c).2 a b (b2n c) := flagsAre_setFl ..

theorem cmp16Flags_spec (fl : Byte) (x y : BitVec 16) : Sub16Flags fl (cmp16Flags fl x y) x y := flagsAre_setFl ..

/-! ## Rows with an operand -/

section Rows

variable {s : State} {t v : Nat} {f : TForm} {ins : Instr} (hc : s.Canon) (h : Ready s t f)
include hc h

variable {k : Byte → Word → Nat → Word × Byte} {u : Byte → Word → Word × Byte} {legal : TForm → Bool} {fl : Byte}
  (r : Byte → Word → Word)

/-- A row that gives A and FL from A and a word operand: A as `r` has it. -/
theorem exec_aluOp (hv : Reads (s.past t f) t f 4 v) (he : exec ins s = tRun ins { legal, body := aluOp k } t f s) (hl : legal f = true)
    (hr : (k (s.thread t).fl (s.thread t).a v).1 = r (s.thread t).fl (s.thread t).a)
    (hf : (k (s.thread t).fl (s.thread t).a v).2 = fl) :
    exec ins s = .next ((s.past t f).modThread t fun h => { h with a := r h.fl h.a, fl }) := by
  refine exec_row hc h he hl _ ?_ (fun _ _ => rfl) fun _ => rfl
  rw [aluOp, State.operand_reads (hv.pcPast hc h)]
  refine congrArg TRes.done (State.modThread_congr ?_)
  rw [State.thread_pcPast hc]
  simp only [hr, hf]

/-- A row that gives FL alone from A and a word operand. -/
theorem exec_flagOp {k : Byte → Word → Nat → Byte} (hv : Reads (s.past t f) t f 4 v)
    (he : exec ins s = tRun ins { legal, body := flagOp k } t f s) (hl : legal f = true) (hf : k (s.thread t).fl (s.thread t).a v = fl) :
    exec ins s = .next ((s.past t f).modThread t fun h => { h with fl }) := by
  refine exec_row hc h he hl _ ?_ (fun _ _ => rfl) fun _ => rfl
  rw [flagOp, State.operand_reads (hv.pcPast hc h)]
  refine congrArg TRes.done (State.modThread_congr ?_)
  rw [State.thread_pcPast hc]
  simp only [hf]

/-- A row of UNA: A as `r` has it. -/
theorem exec_unaOp (he : exec ins s = tRun ins { legal, body := unaOp u } t f s) (hl : legal f = true)
    (hr : (u (s.thread t).fl (s.thread t).a).1 = r (s.thread t).fl (s.thread t).a) (hf : (u (s.thread t).fl (s.thread t).a).2 = fl) :
    exec ins s = .next ((s.past t f).modThread t fun h => { h with a := r h.fl h.a, fl }) := by
  refine exec_row hc h he hl _ ?_ (fun _ _ => rfl) fun _ => rfl
  refine congrArg TRes.done (State.modThread_congr ?_)
  rw [State.thread_pcPast hc]
  simp only [hr, hf]

/-- A comparison of an index register with 16 bits. -/
theorem exec_compareIndex {x : Thread → BitVec 16} (hv : ReadsLow (s.past t f) t f v) (hx : ∀ h pc, x { h with pc } = x h)
    (he : exec ins s = tRun ins { legal, body := fun s y => s.operandLow y 2 fun v => y.upd s fun h =>
      { h with fl := cmp16Flags h.fl (x h) (BitVec.ofNat 16 v) } } t f s) (hl : legal f = true) :
    exec ins s = .next ((s.past t f).modThread t fun h =>
      { h with fl := cmp16Flags (s.thread t).fl (x (s.thread t)) (BitVec.ofNat 16 v) }) := by
  refine exec_row hc h he hl _ ?_ (fun _ _ => rfl) fun _ => rfl
  rw [State.operandLow_reads (hv.pcPast hc h)]
  refine congrArg TRes.done (State.modThread_congr ?_)
  rw [State.thread_pcPast hc, hx]

end Rows

/-- Settles O7: each row's result and flags are those of its addition or subtraction. -/
theorem tillerAddSubFlags : Obligations.TillerAddSubFlags := by
  intro s t f hc h
  refine ⟨fun v hv => ⟨fun hl => ⟨?_, ?_, ?_⟩, fun hl => ⟨?_, ?_⟩⟩, fun v hv hl => ⟨?_, ?_⟩,
    fun hl => ?_, fun hl => ?_, fun hl => ?_⟩
  · refine ⟨_, addFlags_snd _ _ _ false, exec_aluOp hc h (fun _ a => a + BitVec.ofNat 32 v) hv rfl hl ?_ rfl⟩
    exact (addFlags_fst ..).trans (BitVec.add_zero _)
  · refine ⟨_, subFlags_snd _ _ _ false, exec_aluOp hc h (fun _ a => a - BitVec.ofNat 32 v) hv rfl hl ?_ rfl⟩
    exact BitVec.sub_zero _
  · exact ⟨_, subFlags_snd _ _ _ false, exec_flagOp hc h hv rfl hl rfl⟩
  · exact ⟨_, addFlags_snd .., exec_aluOp hc h (fun fl a => a + BitVec.ofNat 32 v + BitVec.ofNat 32 (b2n (flBit fl 0))) hv rfl hl
      (addFlags_fst ..) rfl⟩
  · have borrow : ∀ c, b2n (!c) = 1 - b2n c := by decide
    refine ⟨_, borrow _ ▸ subFlags_snd .., exec_aluOp hc h
      (fun fl a => a - BitVec.ofNat 32 v - BitVec.ofNat 32 (1 - b2n (flBit fl 0))) hv rfl hl ?_ rfl⟩
    simp only [← borrow]
    rfl
  · exact ⟨_, cmp16Flags_spec .., exec_compareIndex (x := Thread.x) hc h hv (fun _ _ => rfl) rfl hl⟩
  · exact ⟨_, cmp16Flags_spec .., exec_compareIndex (x := Thread.y) hc h hv (fun _ _ => rfl) rfl hl⟩
  · refine ⟨_, subFlags_snd _ _ _ false, exec_unaOp hc h (fun _ a => 0 - a) rfl hl ?_ rfl⟩
    exact BitVec.sub_zero _
  · refine ⟨_, addFlags_snd _ _ _ false, exec_unaOp hc h (fun _ a => a + 1) rfl hl ?_ rfl⟩
    exact (addFlags_fst ..).trans (BitVec.add_zero _)
  · refine ⟨_, subFlags_snd _ _ _ false, exec_unaOp hc h (fun _ a => a - 1) rfl hl ?_ rfl⟩
    exact BitVec.sub_zero _

/-! ## Shifts and rotates (R222, R223) -/

/-- FL after a shift by `n` with result `r`: N and Z, and C unless the amount is 0. -/
def shiftFl (fl : Byte) (n : Nat) (r : Word) (c : Bool) : Byte := if n = 0 then flNZ fl r else setFl (flNZ fl r) 0 c

theorem flBit_flNZ (fl : Byte) (r : Word) (k : Nat) :
    flBit (flNZ fl r) k = if k = 1 then r == 0 else if k = 2 then r.msb else flBit fl k := by
  rw [flNZ, flBit_setFl_of_lt _ (by decide), flBit_setFl_of_lt _ (by decide)]

theorem flBit_shiftFl (fl : Byte) (n : Nat) (r : Word) (c : Bool) (k : Nat) :
    flBit (shiftFl fl n r c) k = if k = 0 then (if n = 0 then flBit fl 0 else c) else flBit (flNZ fl r) k := by
  unfold shiftFl
  split
  · rw [flBit_flNZ]
    split <;> simp_all
  · rw [flBit_setFl_of_lt _ (by decide)]

/-- A shift, by its result and flags. -/
theorem shifts_of_aluOp {s : State} {t n : Nat} {f : TForm} {ins : Instr} {k : Byte → Word → Nat → Word × Byte}
    {legal : TForm → Bool} {r : Word} {c : Bool} {g : Nat → Bool} (hc : s.Canon) (h : Ready s t f) (hv : Reads (s.past t f) t f 4 n)
    (he : exec ins s = tRun ins { legal, body := aluOp k } t f s) (hl : legal f = true)
    (hk : k (s.thread t).fl (s.thread t).a n = (r, shiftFl (s.thread t).fl n r c)) (hg : ∀ k, k < 32 → r.getLsbD k = g k) :
    Shifts s t f n ins g c := by
  refine ⟨r, _, hg, ?_, ?_, ?_, fun k hk => ?_, exec_aluOp hc h (fun _ _ => r) hv he hl (by rw [hk]) (by rw [hk])⟩
  · rw [flBit_shiftFl, flBit_flNZ]
    rfl
  · rw [flBit_shiftFl, flBit_flNZ]
    rfl
  · rw [flBit_shiftFl]
    rfl
  · rw [flBit_shiftFl, flBit_flNZ, if_neg (by omega), if_neg (by omega), if_neg (by omega)]

section Shift

variable (fl : Byte) (a : Word) (n : Nat)

theorem shlFlags_eq : shlFlags fl a n =
    (if n ≤ 31 then a <<< n else 0, shiftFl fl n (if n ≤ 31 then a <<< n else 0) (decide (n ≤ 32) && a.getLsbD (32 - n))) := by
  unfold shlFlags shiftFl
  split
  · next h => simp [h]
  · rfl

theorem shrFlags_eq : shrFlags fl a n =
    (if n ≤ 31 then a >>> n else 0, shiftFl fl n (if n ≤ 31 then a >>> n else 0) (decide (n ≤ 32) && a.getLsbD (n - 1))) := by
  unfold shrFlags shiftFl
  split
  · next h => simp [h]
  · rfl

theorem sarFlags_eq : sarFlags fl a n =
    (a.sshiftRight (min n 32), shiftFl fl n (a.sshiftRight (min n 32)) (a.getLsbD (min (n - 1) 31))) := by
  have last : (if n ≤ 32 then a.getLsbD (n - 1) else a.msb) = a.getLsbD (min (n - 1) 31) := by
    rw [BitVec.msb_eq_getLsbD_last, ← apply_ite a.getLsbD]
    congr 1
    split <;> omega
  unfold sarFlags shiftFl
  split
  · next h => simp [h]
  · rw [last]

variable {a n} {k : Nat} (hk : k < 32)

/-! ### The bits of the results -/

include hk

theorem getLsbD_shl : (if n ≤ 31 then a <<< n else 0).getLsbD k = (decide (n ≤ k) && a.getLsbD (k - n)) := by
  split
  · rw [BitVec.getLsbD_shiftLeft, decide_eq_true hk, Bool.true_and, ← decide_not, decide_eq_decide.mpr Nat.not_lt]
  · rw [decide_eq_false (by omega), Bool.false_and]
    exact BitVec.getLsbD_zero

theorem getLsbD_sar : (a.sshiftRight (min n 32)).getLsbD k = a.getLsbD (min (k + n) 31) := by
  rw [BitVec.getLsbD_sshiftRight, decide_eq_false (by omega), Bool.not_false, Bool.true_and, BitVec.msb_eq_getLsbD_last,
    ← apply_ite a.getLsbD]
  congr 1
  split <;> omega

theorem getLsbD_rol : (a.rotateLeft (n % 32)).getLsbD k = a.getLsbD ((k + 32 - n % 32) % 32) := by
  rw [BitVec.getLsbD_rotateLeft, decide_eq_true hk, Bool.true_and, Bool.cond_decide, ← apply_ite a.getLsbD]
  congr 1
  split <;> omega

theorem getLsbD_ror : (a.rotateRight (n % 32)).getLsbD k = a.getLsbD ((k + n) % 32) := by
  rw [BitVec.getLsbD_rotateRight, decide_eq_true hk, Bool.true_and, Bool.cond_decide, ← apply_ite a.getLsbD]
  congr 1
  split <;> omega

omit hk

theorem getLsbD_shr : (if n ≤ 31 then a >>> n else 0).getLsbD k = a.getLsbD (k + n) := by
  split
  · rw [BitVec.getLsbD_ushiftRight, Nat.add_comm]
  · rw [BitVec.getLsbD_of_ge a _ (by omega)]
    exact BitVec.getLsbD_zero

theorem rolFlags_eq : rolFlags fl a n =
    (a.rotateLeft (n % 32), shiftFl fl n (a.rotateLeft (n % 32)) (a.getLsbD ((32 - n % 32) % 32))) := by
  rw [rolFlags, getLsbD_rol (by decide), Nat.zero_add]
  rfl

theorem rorFlags_eq : rorFlags fl a n =
    (a.rotateRight (n % 32), shiftFl fl n (a.rotateRight (n % 32)) (a.getLsbD ((31 + n) % 32))) := by
  rw [rorFlags, BitVec.msb_eq_getLsbD_last, getLsbD_ror (by decide)]
  rfl

end Shift

/-- Settles O9: each row's result bit by bit, and its carry. -/
theorem tillerShiftsAndRotates : Obligations.TillerShiftsAndRotates := by
  intro s t f n hc h hv
  have shifts := fun {ins k legal r c g} => @shifts_of_aluOp s t n f ins k legal r c g hc h hv
  refine ⟨fun hl => ⟨?_, ?_, ?_, ?_⟩, fun hl => ?_⟩
  · exact shifts rfl hl (shlFlags_eq ..) fun k => getLsbD_shl
  · exact shifts rfl hl (shrFlags_eq ..) fun k _ => getLsbD_shr
  · exact shifts rfl hl (sarFlags_eq ..) fun k => getLsbD_sar
  · exact shifts rfl hl (rolFlags_eq _) fun k => getLsbD_rol
  · exact shifts rfl hl (rorFlags_eq _) fun k => getLsbD_ror

end Sys2Proof.Machine
end

section
/-! PROOFS. Step division (R231 to R233, R236): what 32 steps leave, by the partial quotient and remainder after each step. -/

namespace Sys2Proof.Machine

/-! ## A thread that goes on issuing -/

/-- Two threads alike in all that decides whether the next instruction issues, and in A. -/
structure IssuesAlike (h k : Thread) : Prop where
  bind : k.bind = h.bind
  stopped : k.stopped = h.stopped
  waiting : k.waiting = h.waiting
  load : k.load = h.load
  fresh : k.fresh = h.fresh
  winGot : k.winGot = h.winGot
  pr : k.pr = h.pr
  mrdy : k.mrdy = h.mrdy
  a : k.a = h.a

theorem opGuard_congr {g : TForm} {h k : Thread} (e : k.pr = h.pr) : opGuard g k = opGuard g h := by
  cases g <;> simp only [opGuard, e]

/-- Where one thread issues, one like it does in its place. -/
theorem Issues.setThread {s : State} {t : Nat} {k : Thread} (hc : s.Canon) (h : Issues s t) (e : IssuesAlike (s.thread t) k) :
    Issues (s.setThread t k) t := by
  obtain ⟨hi, hf, hw, he, hd⟩ := h
  refine ⟨?_, ?_, ?_, he, hd⟩
  · have hr : (s.setThread t k).running = s.running := rfl
    simpa only [State.canIssue, hr, State.thread_setThread s hc, e.bind, e.stopped, e.waiting, e.load] using hi
  · rw [State.thread_setThread s hc, e.fresh, hf]
  · rw [State.thread_setThread s hc, e.winGot, hw]

/-! ## DSTEP -/

/-- The shift and the 33-bit compare of a step (R232). -/
def Thread.divShift (h : Thread) (d : Division) : Thread :=
  let mh := h.mh <<< 1 ||| (h.ml >>> 31)
  let ml := h.ml <<< 1
  let one := h.mh.msb || decide (d.divisor.toNat ≤ mh.toNat)
  { h with
    mh := if one then mh - d.divisor else mh, ml := if one then ml ||| 1 else ml, fl := setFl h.fl 0 one,
    div := some { d with count := d.count + 1 } }

/-- A step shifts and compares, and the 32nd finishes the division (R232, R233). -/
theorem divStep_some {h : Thread} {d : Division} (e : h.div = some d) :
    divStep h = if d.count + 1 = 32 then (h.divShift d).divEnd d else h.divShift d := by
  rw [divStep, e]
  rfl

/-- A step with the thread Furrow replaced. -/
theorem divStep_withFurrow (h : Thread) (fu : Furrow) : divStep (h.withFurrow fu) = (divStep h).withFurrow fu := by
  cases e : h.div with
  | none => rw [divStep, divStep, e, show (h.withFurrow fu).div = none from e]
  | some d =>
    rw [divStep_some e, divStep_some (h := h.withFurrow fu) e]
    split <;> rfl

/-- A step lets the thread go on, and leaves A alone. -/
theorem IssuesAlike.divStep (h : Thread) : IssuesAlike h (divStep h) := by
  cases e : h.div with
  | none => rw [Machine.divStep, e]; constructor <;> rfl
  | some d => rw [divStep_some e]; split <;> constructor <;> rfl

theorem IssuesAlike.trans {h k l : Thread} (a : IssuesAlike h k) (b : IssuesAlike k l) : IssuesAlike h l :=
  ⟨b.bind.trans a.bind, b.stopped.trans a.stopped, b.waiting.trans a.waiting, b.load.trans a.load, b.fresh.trans a.fresh,
    b.winGot.trans a.winGot, b.pr.trans a.pr, b.mrdy.trans a.mrdy, b.a.trans a.a⟩

/-- The thread after DSTEP of form `g`. -/
def Thread.dstep (g : TForm) (h : Thread) : Thread := divStep (h.past g)

theorem IssuesAlike.dstep (g : TForm) (h : Thread) : IssuesAlike h (h.dstep g) :=
  IssuesAlike.trans (k := h.past g) (by constructor <;> rfl) (.divStep _)

section Run

variable {s : State} {t : Nat} {g : TForm}

/-- DSTEP changes its thread alone. -/
theorem exec_dstep (hc : s.Canon) (h : Ready s t g) (hm : (s.thread t).mrdy = true) (hl : okForm [.zero] [] g = true) :
    exec (.dstep t g) s = .next (s.setThread t ((s.thread t).dstep g)) := by
  refine (tRun_modThread (i := infoDstep) hc h (fun _ => hm) rfl rfl (refused_none rfl hl (.inl rfl)) _ rfl divStep_withFurrow
    fun h => (IssuesAlike.divStep h).winGot).trans ?_
  rw [State.modThread_past hc]
  rfl

/-- Some DSTEPs in a row. -/
theorem runAll_dsteps (hc : s.Canon) (h : Ready s t g) (hm : (s.thread t).mrdy = true) (hl : okForm [.zero] [] g = true) (n : Nat) :
    runAll (List.replicate n (.dstep t g)) s = some (s.setThread t ((Thread.dstep g)^[n] (s.thread t))) := by
  induction n generalizing s with
  | zero => rw [List.replicate_zero, runAll, Function.iterate_zero, id, State.setThread_thread hc]
  | succ n ih =>
    have alike := IssuesAlike.dstep g (s.thread t)
    have ht := State.thread_setThread s hc t ((s.thread t).dstep g)
    have ready : Ready (s.setThread t ((s.thread t).dstep g)) t g :=
      ⟨h.1.setThread hc alike, by rw [ht, opGuard_congr alike.pr]; exact h.2⟩
    simp only [List.replicate_succ, runAll, exec_dstep hc h hm hl]
    rw [ih (State.setThread_canon hc _ _) ready (by rw [ht, alike.mrdy, hm]), ht, State.setThread_setThread hc, Function.iterate_succ_apply]

end Run

/-! ## The arithmetic of the steps -/

/-- The partial quotient of `n` by `v` after `k` steps: of a zero divisor, ones (R236). -/
def partQuot (n v k : Nat) : Nat := if v = 0 then 2 ^ k - 1 else n / 2 ^ (32 - k) / v

/-- A division of `n` by the divisor of `d` after `k` steps: MH holds the partial remainder, ML the partial quotient below the bits of `n`
that are still to come. -/
structure DivAt (d : Division) (n k : Nat) (h : Thread) : Prop where
  div : h.div = some { d with count := k }
  mh : h.mh.toNat = n / 2 ^ (32 - k) % d.divisor.toNat
  ml : h.ml.toNat = n % 2 ^ (32 - k) * 2 ^ k + partQuot n d.divisor.toNat k

/-- A step in numbers: the 33 bits that are compared, the remainder, and the quotient's new bit (R232). -/
theorem Thread.divShift_toNat (h : Thread) (d : Division) {r w b : Nat} (hr : h.mh.toNat = r) (hw : h.ml.toNat = b * 2 ^ 31 + w)
    (hlt : w < 2 ^ 31) :
    (h.divShift d).mh.toNat = (if d.divisor.toNat ≤ 2 * r + b then 2 * r + b - d.divisor.toNat else 2 * r + b) % 2 ^ 32 ∧
    (h.divShift d).ml.toNat = 2 * w + if d.divisor.toNat ≤ 2 * r + b then 1 else 0 := by
  have hml := h.ml.isLt
  have hmh := h.mh.isLt
  have hv := d.divisor.isLt
  have hb : h.ml.toNat / 2 ^ 31 = b := by omega
  have mh : (h.mh <<< 1 ||| h.ml >>> 31).toNat = (2 * r + b) % 2 ^ 32 := by
    have := Nat.two_pow_add_eq_or_of_lt (i := 1) (b := b) (by omega) (r % 2 ^ 31)
    rw [BitVec.toNat_or, BitVec.toNat_shiftLeft, BitVec.toNat_ushiftRight, Nat.shiftLeft_eq, Nat.shiftRight_eq_div_pow, hb, hr,
      show r * 2 ^ 1 % 2 ^ 32 = 2 ^ 1 * (r % 2 ^ 31) by omega, ← this]
    omega
  have ml : (h.ml <<< 1).toNat = 2 * w := by
    rw [BitVec.toNat_shiftLeft, Nat.shiftLeft_eq, hw]
    omega
  have ml1 : (h.ml <<< 1 ||| 1).toNat = 2 * w + 1 := by
    rw [BitVec.toNat_or, ml]
    exact (Nat.two_pow_add_eq_or_of_lt (i := 1) (b := 1) (by omega) w).symm
  have one : (h.mh.msb || decide (d.divisor.toNat ≤ (h.mh <<< 1 ||| h.ml >>> 31).toNat)) = decide (d.divisor.toNat ≤ 2 * r + b) := by
    rw [mh, BitVec.msb_eq_decide, hr, ← Bool.decide_or]
    exact decide_eq_decide.mpr (by omega)
  simp only [Thread.divShift, one, decide_eq_true_eq]
  split
  · exact ⟨by rw [BitVec.toNat_sub, mh]; omega, ml1⟩
  · exact ⟨mh, ml⟩

/-- The next bit of a dividend joins the bits before it. -/
theorem div_two_pow_eq (n j : Nat) : n / 2 ^ j = 2 * (n / 2 ^ (j + 1)) + n / 2 ^ j % 2 := by
  rw [Nat.pow_succ, ← Nat.div_div_eq_div_mul]
  exact (Nat.div_add_mod _ 2).symm

/-- Long division by one more bit, where the divisor may be zero. -/
theorem two_mul_add_div_mod {m v b : Nat} (hb : b < 2) :
    (2 * m + b) % v = (if v ≤ 2 * (m % v) + b then 2 * (m % v) + b - v else 2 * (m % v) + b) ∧
    (v ≠ 0 → (2 * m + b) / v = 2 * (m / v) + if v ≤ 2 * (m % v) + b then 1 else 0) := by
  rcases Nat.eq_zero_or_pos v with rfl | hv
  · simp
  have hr := Nat.mod_lt m hv
  have hm : 2 * m + b = v * (2 * (m / v)) + (2 * (m % v) + b) := by
    have := Nat.div_add_mod m v
    rw [Nat.mul_left_comm]
    omega
  generalize m / v = q at *
  generalize m % v = r at *
  rw [hm, Nat.mul_add_mod, Nat.mul_add_div hv]
  by_cases h : v ≤ 2 * r + b
  · have quot : (2 * r + b) / v = 1 := Nat.div_eq_of_lt_le (by omega) (by omega)
    rw [if_pos h, if_pos h, quot, Nat.mod_eq_sub_mod h, Nat.mod_eq_of_lt (by omega)]
    exact ⟨rfl, fun _ => rfl⟩
  · rw [if_neg h, if_neg h, Nat.mod_eq_of_lt (by omega), Nat.div_eq_of_lt (by omega)]
    exact ⟨rfl, fun _ => rfl⟩

theorem partQuot_lt {n : Nat} (hn : n < 2 ^ 32) (v : Nat) {k : Nat} (hk : k ≤ 32) : partQuot n v k < 2 ^ k := by
  unfold partQuot
  split
  · exact Nat.sub_lt (Nat.two_pow_pos k) one_pos
  · refine (Nat.div_le_self _ _).trans_lt (Nat.div_lt_of_lt_mul ?_)
    rwa [← Nat.pow_add, Nat.sub_add_cancel hk]

/-- The quotient's next bit tells whether the divisor goes into the remainder with the dividend's next bit. -/
theorem partQuot_succ (n v : Nat) {j k : Nat} (hjk : j + k = 31) :
    partQuot n v (k + 1) =
      2 * partQuot n v k + if v ≤ 2 * (n / 2 ^ (j + 1) % v) + n / 2 ^ j % 2 then 1 else 0 := by
  unfold partQuot
  split
  · next h =>
    have := Nat.two_pow_pos k
    rw [if_pos (by omega), Nat.pow_succ]
    omega
  · next h =>
    rw [show 32 - (k + 1) = j by omega, show 32 - k = j + 1 by omega, div_two_pow_eq n j]
    simpa using (two_mul_add_div_mod (m := n / 2 ^ (j + 1)) (Nat.mod_lt (n / 2 ^ j) two_pos)).2 h

/-- One more step of a division. -/
theorem DivAt.divShift {d : Division} {n k : Nat} {h : Thread} (hn : n < 2 ^ 32) (hk : k < 32) (e : DivAt d n k h) :
    DivAt d n (k + 1) (h.divShift { d with count := k }) := by
  obtain ⟨_, hmh, hml⟩ := e
  obtain ⟨j, hjk⟩ : ∃ j, j + k = 31 := ⟨31 - k, by omega⟩
  have hbit := div_two_pow_eq n j
  have hq := partQuot_lt hn d.divisor.toNat hk.le
  have hlow : n % 2 ^ j * 2 ^ k + partQuot n d.divisor.toNat k < 2 ^ 31 := by
    rw [← hjk, Nat.pow_add]
    have := Nat.mul_le_mul_right (2 ^ k) (Nat.mod_lt n (Nat.two_pow_pos j))
    rw [Nat.succ_mul] at this
    omega
  rw [show 32 - k = j + 1 by omega] at hmh hml
  have hml' : h.ml.toNat = n / 2 ^ j % 2 * 2 ^ 31 + (n % 2 ^ j * 2 ^ k + partQuot n d.divisor.toNat k) := by
    rw [hml, Nat.mod_pow_succ, ← hjk]
    ring
  obtain ⟨mh, ml⟩ := Thread.divShift_toNat h { d with count := k } hmh hml' hlow
  have hrem := (two_mul_add_div_mod (m := n / 2 ^ (j + 1)) (v := d.divisor.toNat) (Nat.mod_lt (n / 2 ^ j) two_pos)).1
  rw [← hbit] at hrem
  have hj : 32 - (k + 1) = j := by omega
  refine ⟨rfl, ?_, ?_⟩
  · rw [mh, ← hrem, hj]
    exact Nat.mod_eq_of_lt (((Nat.mod_le _ _).trans (Nat.div_le_self _ _)).trans_lt hn)
  · rw [ml, partQuot_succ n _ hjk, hj]
    ring

/-- What a completed division leaves for the signs: the remainder, and the quotient, of a zero divisor all ones (R236). -/
structure Divides (n v : Nat) (h : Thread) : Prop where
  mh : h.mh.toNat = n % v
  ml : h.ml.toNat = if v = 0 then 2 ^ 32 - 1 else n / v

theorem DivAt.divides {d : Division} {n : Nat} {h : Thread} (e : DivAt d n 32 h) : Divides n d.divisor.toNat h := by
  obtain ⟨_, mh, ml⟩ := e
  simp only [Nat.sub_self, Nat.pow_zero, Nat.div_one, Nat.mod_one, Nat.zero_mul, Nat.zero_add, partQuot] at mh ml
  exact ⟨mh, ml⟩

/-! ## 32 steps -/

theorem Thread.divShift_dz (h : Thread) (d : Division) : flBit (h.divShift d).fl 4 = flBit h.fl 4 :=
  flBit_setFl h.fl (by decide) _

/-- The steps before the last: the division is that far, and DZ is as the setup left it. -/
theorem DivAt.dsteps {d : Division} {n : Nat} {h : Thread} (hn : n < 2 ^ 32) (g : TForm) (e : DivAt d n 0 h) {k : Nat} (hk : k < 32) :
    DivAt d n k ((Thread.dstep g)^[k] h) ∧ flBit ((Thread.dstep g)^[k] h).fl 4 = flBit h.fl 4 := by
  induction k with
  | zero => exact ⟨e, rfl⟩
  | succ k ih =>
    obtain ⟨at_k, dz⟩ := ih (by omega)
    rw [Function.iterate_succ_apply']
    generalize (Thread.dstep g)^[k] h = h' at at_k dz ⊢
    have moved : DivAt d n k (h'.past g) := ⟨at_k.div, at_k.mh, at_k.ml⟩
    rw [Thread.dstep, divStep_some moved.div, if_neg (by simpa using hk.ne)]
    exact ⟨moved.divShift hn (by omega), (Thread.divShift_dz ..).trans dz⟩

/-- 32 steps: the quotient and remainder of the magnitudes are there, and get their signs (R233). -/
theorem DivAt.dsteps_end {d : Division} {n : Nat} {h : Thread} (hn : n < 2 ^ 32) (g : TForm) (e : DivAt d n 0 h) :
    ∃ k, (Thread.dstep g)^[32] h = k.divEnd d ∧ Divides n d.divisor.toNat k ∧ flBit k.fl 4 = flBit h.fl 4 := by
  obtain ⟨at_k, dz⟩ := e.dsteps hn g (k := 31) (by decide)
  rw [Function.iterate_succ_apply']
  generalize (Thread.dstep g)^[31] h = h' at at_k dz ⊢
  have moved : DivAt d n 31 (h'.past g) := ⟨at_k.div, at_k.mh, at_k.ml⟩
  rw [Thread.dstep, divStep_some moved.div, if_pos rfl]
  exact ⟨_, rfl, (moved.divShift hn (by decide)).divides, (Thread.divShift_dz ..).trans dz⟩

theorem IssuesAlike.dsteps (g : TForm) (h : Thread) (k : Nat) : IssuesAlike h ((Thread.dstep g)^[k] h) := by
  induction k with
  | zero => constructor <;> rfl
  | succ k ih =>
    rw [Function.iterate_succ_apply']
    exact ih.trans (.dstep g _)

/-! ## The setup -/

/-- The division of `a` by `b` as a setup begins it (R231). -/
def Division.ofSetup (signed : Bool) (a b : Word) : Division :=
  { divisor := magnitude signed b, signed, negDividend := signed && a.msb, negDivisor := signed && b.msb }

/-- The thread after a setup (R231). -/
def Thread.divBegin (signed : Bool) (b : Word) (h : Thread) : Thread :=
  { h with mh := 0, ml := magnitude signed h.a, fl := setFl h.fl 4 (b == 0), div := some (.ofSetup signed h.a b) }

theorem Thread.divBegin_at (signed : Bool) (b : Word) (h : Thread) :
    DivAt (.ofSetup signed h.a b) (magnitude signed h.a).toNat 0 (h.divBegin signed b) := by
  have lt := (magnitude signed h.a).isLt
  refine ⟨rfl, ?_, ?_⟩
  · rw [Nat.div_eq_of_lt lt, Nat.zero_mod]
    rfl
  · rw [partQuot, Nat.div_eq_of_lt lt, Nat.zero_div, Nat.mod_eq_of_lt lt]
    simp [Thread.divBegin]

/-- A setup and 32 steps: the thread as the last step leaves it. -/
theorem runAll_division {s : State} {t v : Nat} {f g : TForm} {ins : Instr} {i : TInfo} {signed : Bool} (hc : s.Canon) (h : Ready s t f)
    (hv : Reads (s.past t f) t f 4 v) (hm : (s.thread t).mrdy = true) (hl : okForm [.zero] [] g = true)
    (hg : opGuard g (s.thread t) = true) (he : exec ins s = tRun ins i t f s) (hu : i.unit = false) (ho : i.operand = true)
    (hr : i.refused f (s.thread t) false = none) (hb : i.body = divSetup signed) :
    let a := (s.thread t).a
    let b := BitVec.ofNat 32 v
    ∃ u k, runAll (ins :: List.replicate 32 (.dstep t g)) s = some u ∧ (u.thread t).a = a ∧
      u.thread t = k.divEnd (.ofSetup signed a b) ∧ Divides (magnitude signed a).toNat (magnitude signed b).toNat k ∧
      flBit k.fl 4 = (b == 0) := by
  intro a b
  set h₀ := ((s.thread t).past f).divBegin signed b with hh
  have setup : exec ins s = .next (s.setThread t h₀) := by
    rw [hh, ← State.modThread_past hc]
    refine he.trans (tRun_modThread hc h (fun _ => hm) hu ho hr _ ?_ (fun _ _ => rfl) fun _ => rfl)
    rw [hb]
    exact State.operand_reads (hv.pcPast hc h) fun v =>
      TArg.upd { t, f } (s.pcPast t (opSize f)) (Thread.divBegin signed (BitVec.ofNat 32 v))
  have alike : IssuesAlike (s.thread t) h₀ := by constructor <;> rfl
  have ht := State.thread_setThread s hc t h₀
  have ready : Ready (s.setThread t h₀) t g := ⟨h.1.setThread hc alike, by rw [ht, opGuard_congr alike.pr]; exact hg⟩
  have run := runAll_dsteps (State.setThread_canon hc t h₀) ready (by rw [ht, alike.mrdy, hm]) hl 32
  rw [ht, State.setThread_setThread hc] at run
  obtain ⟨k, hend, divides, dz⟩ := (Thread.divBegin_at signed b ((s.thread t).past f)).dsteps_end (magnitude signed a).isLt g
  refine ⟨s.setThread t ((Thread.dstep g)^[32] h₀), k, by simp only [runAll, setup, run], ?_, ?_, divides, ?_⟩
  · rw [State.thread_setThread s hc, (IssuesAlike.dsteps g h₀ 32).a, alike.a]
  · rw [State.thread_setThread s hc, hend]
    rfl
  · rw [dz]
    exact flBit_setFl _ (by decide) _

/-- The flags of a completed division (R233). -/
theorem Thread.divEnd_flags (h : Thread) (d : Division) :
    flBit (h.divEnd d).fl 2 = (h.divEnd d).ml.msb ∧ flBit (h.divEnd d).fl 1 = ((h.divEnd d).ml == 0) ∧
    flBit (h.divEnd d).fl 3 = (d.signed && !(d.negDividend != d.negDivisor) && ((h.divEnd d).ml == 0x80000000)) ∧
    flBit (h.divEnd d).fl 4 = flBit h.fl 4 := by
  simp [Thread.divEnd, flNZ, flBit_setFl]

/-- MH and ML of a completed division: the remainder with the dividend's sign, the quotient with the product of the signs (R233). -/
theorem Thread.divEnd_ofSetup (h : Thread) (signed : Bool) (a b : Word) :
    (h.divEnd (.ofSetup signed a b)).mh = (if signed && a.msb then -h.mh else h.mh) ∧
    (h.divEnd (.ofSetup signed a b)).ml = (if signed && (a.msb != b.msb) then -h.ml else h.ml) := by
  cases signed <;> exact ⟨rfl, rfl⟩

/-! ## Signs -/

/-- The truncated quotient and the remainder of its dividend's sign, from those of the magnitudes (R231, R233). -/
theorem ofInt_tdiv_tmod (a b : Word) :
    BitVec.ofInt 32 (a.toInt.tdiv b.toInt) =
      (if a.msb != b.msb then -(magnitude true a / magnitude true b) else magnitude true a / magnitude true b) ∧
    BitVec.ofInt 32 (a.toInt.tmod b.toInt) =
      (if a.msb then -(magnitude true a % magnitude true b) else magnitude true a % magnitude true b) := by
  have quot : BitVec.ofInt 32 (a.toInt.tdiv b.toInt) = a.sdiv b :=
    BitVec.eq_of_toInt_eq (by rw [BitVec.toInt_ofInt, BitVec.toInt_sdiv])
  rw [quot, ← BitVec.toInt_srem, BitVec.ofInt_toInt, BitVec.sdiv_eq, BitVec.srem_eq]
  cases ha : a.msb <;> cases hb : b.msb <;> simp [magnitude, ha, hb]

/-- The magnitude of a signed word (R231). -/
theorem toNat_magnitude_true (a : Word) :
    (magnitude true a).toNat = if a.msb then 2 ^ 32 - a.toNat else a.toNat := by
  rw [← BitVec.toNat_abs]
  rfl

/-- A divisor and its magnitude are zero together. -/
theorem magnitude_eq_zero {signed : Bool} {b : Word} : magnitude signed b = 0 ↔ b = 0 := by
  unfold magnitude
  split
  · exact BitVec.neg_eq_zero_iff
  · rfl

/-- The one overflow of a signed division: a quotient of 2^31 with no sign (R236). -/
theorem magnitude_div_eq_min {a b : Word} (hs : a.msb = b.msb) (hb : b ≠ 0) :
    magnitude true a / magnitude true b = 0x80000000 ↔ a = 0x80000000 ∧ b = 0xFFFFFFFF := by
  constructor
  · intro h
    have hle := Nat.div_mul_le_self (magnitude true a).toNat (magnitude true b).toNat
    rw [← BitVec.toNat_udiv, h] at hle
    have hb' : (magnitude true b).toNat ≠ 0 := fun e => hb (magnitude_eq_zero.mp (BitVec.eq_of_toNat_eq e))
    have ha := a.isLt
    simp only [← BitVec.toNat_inj, toNat_magnitude_true, BitVec.msb_eq_decide, decide_eq_true_eq, decide_eq_decide,
      show BitVec.toNat (0x80000000 : Word) = 2 ^ 31 from rfl, show BitVec.toNat (0xFFFFFFFF : Word) = 2 ^ 32 - 1 from rfl] at *
    by_cases hn : 2 ^ (32 - 1) ≤ a.toNat
    · rw [if_pos hn, if_pos (hs.mp hn)] at *
      omega
    · rw [if_neg hn, if_neg (mt hs.mpr hn)] at *
      omega
  · rintro ⟨rfl, rfl⟩
    decide

/-- What 32 steps leave, as words. -/
theorem Divides.words {x y : Word} {h : Thread} (e : Divides x.toNat y.toNat h) :
    h.mh = x % y ∧ h.ml = if y = 0 then 0xFFFFFFFF else x / y := by
  obtain ⟨mh, ml⟩ := e
  refine ⟨BitVec.eq_of_toNat_eq (by rw [mh, BitVec.toNat_umod]), BitVec.eq_of_toNat_eq ?_⟩
  have hz : y.toNat = 0 ↔ y = 0 := BitVec.toNat_inj (y := 0)
  rw [ml]
  split
  · next hy =>
    rw [if_pos (hz.mp hy)]
    rfl
  · next hy => rw [if_neg (mt hz.mpr hy), BitVec.toNat_udiv]

/-- A remainder by zero is the dividend, with its sign again (R236). -/
theorem neg_magnitude (a : Word) : (if a.msb then -magnitude true a else magnitude true a) = a := by
  cases h : a.msb <;> simp [magnitude, h]

/-- The registers after an unsigned division (R233, R236). -/
theorem Divides.unsigned {a b : Word} {h : Thread} (e : Divides (magnitude false a).toNat (magnitude false b).toNat h) :
    let k := h.divEnd (.ofSetup false a b)
    (b ≠ 0 → k.ml = a / b ∧ k.mh = a % b) ∧ (b = 0 → k.ml = 0xFFFFFFFF ∧ k.mh = a) := by
  intro k
  obtain ⟨mh, ml⟩ := h.divEnd_ofSetup false a b
  obtain ⟨hmh, hml⟩ := e.words
  refine ⟨fun hb => ⟨ml.trans (hml.trans (if_neg hb)), mh.trans hmh⟩,
    fun hb => ⟨ml.trans (hml.trans (if_pos hb)), mh.trans (hmh.trans ?_)⟩⟩
  rw [hb]
  exact BitVec.umod_zero

/-- The registers after a signed division, and V (R233, R236). -/
theorem Divides.signed {a b : Word} {h : Thread} (e : Divides (magnitude true a).toNat (magnitude true b).toNat h) :
    let k := h.divEnd (.ofSetup true a b)
    (b ≠ 0 → k.ml = BitVec.ofInt 32 (a.toInt.tdiv b.toInt) ∧ k.mh = BitVec.ofInt 32 (a.toInt.tmod b.toInt)) ∧
    (b = 0 → k.ml = (if a.msb then 1 else 0xFFFFFFFF) ∧ k.mh = a) ∧
    (!(a.msb != b.msb) && k.ml == 0x80000000) = (a == 0x80000000 && b == 0xFFFFFFFF) := by
  intro k
  obtain ⟨mh, ml⟩ := h.divEnd_ofSetup true a b
  obtain ⟨hmh, hml⟩ := e.words
  obtain ⟨quot, rem⟩ := ofInt_tdiv_tmod a b
  change k.mh = _ at mh
  change k.ml = _ at ml
  simp only [magnitude_eq_zero, Bool.true_and] at mh ml hmh hml
  rw [mh, ml, hml, hmh]
  by_cases hb : b = 0
  · subst hb
    simp only [if_true]
    refine ⟨fun h => absurd rfl h, fun _ => ⟨?_, ?_⟩, ?_⟩
    · cases a.msb <;> decide
    · rw [show magnitude true 0 = 0#32 from rfl, BitVec.umod_zero]
      exact neg_magnitude a
    · rw [show ((0 : Word) == 0xFFFFFFFF) = false by decide, Bool.and_false, show (0 : Word).msb = false from rfl]
      cases a.msb <;> decide
  · rw [if_neg hb]
    refine ⟨fun _ => ⟨quot.symm, rem.symm⟩, fun h => absurd h hb, Bool.eq_iff_iff.mpr ?_⟩
    rw [Bool.and_eq_true, Bool.and_eq_true, beq_iff_eq, beq_iff_eq, beq_iff_eq]
    by_cases hs : a.msb = b.msb
    · rw [hs, bne_self_eq_false, if_neg Bool.false_ne_true, magnitude_div_eq_min hs hb]
      exact and_iff_right rfl
    · rw [bne_iff_ne.mpr hs]
      refine ⟨nofun, ?_⟩
      rintro ⟨rfl, rfl⟩
      exact absurd (by decide) hs

/-- Settles O12: the thread that 32 steps leave, by the invariant of the partial quotient and remainder; the signs at the end. -/
theorem tillerDivisionIn32Steps : Obligations.TillerDivisionIn32Steps := by
  intro s t f g v hc h hv hm hf hl hg a b
  have ends := fun {i ins signed} => @runAll_division s t v f g ins i signed hc h hv hm hl hg
  constructor
  · obtain ⟨u, k, run, ha, hend, divides, dz⟩ :=
      ends (i := infoDsetup) (ins := .dsetup t f) rfl rfl rfl (refused_none rfl hf (.inl rfl)) rfl
    obtain ⟨hn, hz, hv, hd⟩ := k.divEnd_flags (.ofSetup false a b)
    obtain ⟨values, zero⟩ := divides.unsigned
    refine ⟨u, run, ?_⟩
    rw [hend] at ha ⊢
    exact ⟨rfl, ha, values, zero, hn, hz, hv, hd.trans dz⟩
  · obtain ⟨u, k, run, ha, hend, divides, dz⟩ :=
      ends (i := infoDsetups) (ins := .dsetups t f) rfl rfl rfl (refused_none rfl hf (.inl rfl)) rfl
    obtain ⟨hn, hz, hv, hd⟩ := k.divEnd_flags (.ofSetup true a b)
    obtain ⟨values, zero, overflow⟩ := divides.signed
    refine ⟨u, run, ?_⟩
    rw [hend] at ha ⊢
    exact ⟨rfl, ha, values, zero, hn, hz, hv.trans overflow, hd.trans dz⟩

end Sys2Proof.Machine
end

section
/-! PROOFS. One rounding (R238, R241, R242): how far a rounded value is from the exact one, and on which side. -/

namespace Sys2Proof.Machine

/-! ## Patterns and their fields (R149) -/

section Formats

variable (d : Bool)

/-- The encoding of infinity: the exponent field's ones, all but the sign and the fraction. -/
theorem fpInf_lt : fpInf d < 2 ^ fpS d := by cases d <;> decide

/-- A pattern's sign and magnitude: those it was put together from. -/
theorem fpMag_withSign {n : Nat} (neg : Bool) (h : n < 2 ^ fpS d) : fpMag d (withSign d neg n) = n := by
  rw [fpMag, withSign, Nat.add_mul_mod_self_right, Nat.mod_eq_of_lt h]

theorem fpNeg_withSign {n : Nat} (neg : Bool) (h : n < 2 ^ fpS d) : fpNeg d (withSign d neg n) = neg := by
  rw [fpNeg, bitOn, withSign, Nat.add_mul_div_right _ _ (Nat.two_pow_pos _), Nat.div_eq_of_lt h]
  cases neg <;> rfl

/-- The value of a magnitude that counts `r` units of exponent `fpMin + k`: below the smallest normal value all have exponent `fpMin`. -/
theorem fpM_mul_fpE {x k r : Nat} (hx : fpMag d x = k * 2 ^ fpF d + r) (hr : r ≤ 2 ^ (fpF d + 1)) (hk : k = 0 ∨ 2 ^ fpF d ≤ r) :
    (fpM d x : ℚ) * (2 : ℚ) ^ fpE d x = r * (2 : ℚ) ^ (fpMin d + k) := by
  have hpos := Nat.two_pow_pos (fpF d)
  have hfield : ∀ j f, f < 2 ^ fpF d → fpMag d x = j * 2 ^ fpF d + f →
      fpM d x = (if j = 0 then f else f + 2 ^ fpF d) ∧ fpE d x = fpMin d + if j = 0 then 0 else (j : Int) - 1 := by
    intro j f hf e
    have hdiv : fpMag d x / 2 ^ fpF d = j := by
      rw [e, Nat.add_comm, Nat.add_mul_div_right _ _ hpos, Nat.div_eq_of_lt hf, Nat.zero_add]
    have hmod : fpMag d x % 2 ^ fpF d = f := by rw [e, Nat.add_comm, Nat.add_mul_mod_self_right, Nat.mod_eq_of_lt hf]
    simp only [fpM, fpE, hdiv, hmod, and_self]
  rw [Nat.pow_succ] at hr
  rcases Nat.lt_or_ge r (2 ^ fpF d) with hlt | hge
  · obtain rfl : k = 0 := hk.resolve_right (by omega)
    obtain ⟨hm, he⟩ := hfield 0 r hlt hx
    rw [hm, he]
    rfl
  rcases hr.lt_or_eq with hlt | rfl
  · obtain ⟨hm, he⟩ := hfield (k + 1) (r - 2 ^ fpF d) (by omega) (by rw [Nat.add_mul]; omega)
    rw [hm, he, if_neg (Nat.succ_ne_zero k), if_neg (Nat.succ_ne_zero k), Nat.sub_add_cancel hge]
    push_cast
    ring_nf
  · obtain ⟨hm, he⟩ := hfield (k + 2) 0 hpos (by rw [Nat.add_mul]; omega)
    rw [hm, he, if_neg (Nat.succ_ne_zero _), if_neg (Nat.succ_ne_zero _), Nat.zero_add,
      show fpMin d + ((k + 2 : Nat) - 1 : Int) = fpMin d + k + 1 by push_cast; ring, zpow_add_one₀ two_ne_zero]
    push_cast
    ring

end Formats

/-! ## A multiple of a power of two -/

/-- `v` is `x`, the magnitude of a value of sign `neg`, rounded in mode `rm` to a multiple of `u` (R238, R241). -/
structure RoundsTo (rm : Nat) (neg : Bool) (x v u : ℚ) (exact : Bool) : Prop where
  lt : |v - x| < u
  exact_iff : exact = true ↔ v = x
  nearest : rm = 0 → 2 * |v - x| ≤ u
  zero : rm = 1 → v ≤ x
  up : rm = 2 → if neg then v ≤ x else x ≤ v
  down : rm = 3 → if neg then x ≤ v else v ≤ x

/-- What is a multiple already is rounded to itself. -/
theorem RoundsTo.refl {rm : Nat} {neg : Bool} {x u : ℚ} (hu : 0 < u) : RoundsTo rm neg x x u true := by
  constructor <;> simp [hu, hu.le]

/-- A value rounded toward zero by `t` of `w` parts of its last unit. -/
theorem RoundsTo.of_sub_eq_neg {rm t w : Nat} {neg odd : Bool} {x v z : ℚ} (hz : 0 < z) (ht : t < w) (hv : v - x = -(t * z))
    (hup : roundsUp rm neg odd (2 * t) w = false) (hrm : rm < 4) : RoundsTo rm neg x v (w * z) (decide (t = 0)) := by
  have htz : 0 ≤ t * z := mul_nonneg t.cast_nonneg hz.le
  have hle : v ≤ x := by linarith
  have habs : |v - x| = t * z := by rw [hv, abs_neg, abs_of_nonneg htz]
  have heq : t = 0 → v = x := fun h => by simpa [h, sub_eq_zero] using hv
  refine ⟨?_, ?_, ?_, fun _ => hle, ?_, ?_⟩
  · rw [habs]
    exact mul_lt_mul_of_pos_right (by exact_mod_cast ht) hz
  · rw [decide_eq_true_eq]
    refine ⟨heq, fun h => ?_⟩
    rw [h, sub_self, zero_eq_neg] at hv
    simpa [hz.ne'] using hv
  · rintro rfl
    have : 2 * t ≤ w := by
      simp only [roundsUp, Bool.or_eq_false_iff, decide_eq_false_iff_not] at hup
      omega
    rw [habs, ← mul_assoc]
    exact mul_le_mul_of_nonneg_right (by exact_mod_cast this) hz.le
  · rintro rfl
    split
    · exact hle
    · next hn => exact (heq (by simpa [roundsUp, hn] using hup)).ge
  · rintro rfl
    split
    · next hn => exact (heq (by simpa [roundsUp, hn] using hup)).ge
    · exact hle

/-- A value rounded away from zero by `w - t` of `w` parts of its last unit. -/
theorem RoundsTo.of_sub_eq {rm t w : Nat} {neg odd : Bool} {x v z : ℚ} (hz : 0 < z) (ht : t < w) (hv : v - x = (w - t) * z)
    (hup : roundsUp rm neg odd (2 * t) w = true) (hrm : rm < 4) : RoundsTo rm neg x v (w * z) (decide (t = 0)) := by
  have hpos : 0 < t := by
    interval_cases rm <;> simp [roundsUp] at hup <;> omega
  have htw : (t : ℚ) < w := by exact_mod_cast ht
  have hlt : x < v := by
    have := mul_pos (sub_pos.mpr htw) hz
    linarith
  have habs : |v - x| = (w - t) * z := by rw [abs_of_pos (sub_pos.mpr hlt), hv]
  refine ⟨?_, ?_, ?_, ?_, ?_, ?_⟩
  · rw [habs]
    exact mul_lt_mul_of_pos_right (sub_lt_self _ (by exact_mod_cast hpos)) hz
  · rw [decide_eq_true_eq]
    exact ⟨fun h => absurd h hpos.ne', fun h => absurd h hlt.ne'⟩
  · rintro rfl
    have : (w : ℚ) ≤ 2 * t := by
      simp only [roundsUp, Bool.or_eq_true, Bool.and_eq_true, decide_eq_true_eq] at hup
      exact_mod_cast (show w ≤ 2 * t by omega)
    rw [habs, ← mul_assoc]
    exact mul_le_mul_of_nonneg_right (by linarith) hz.le
  · rintro rfl
    simp [roundsUp] at hup
  · rintro rfl
    simp only [roundsUp, Bool.and_eq_true, Bool.not_eq_true'] at hup
    rw [hup.1]
    exact hlt.le
  · rintro rfl
    simp only [roundsUp, Bool.and_eq_true] at hup
    rw [hup.1]
    exact hlt.le

/-- A significand rounded to a multiple of 2^q (R238). -/
theorem roundAt_roundsTo {rm : Nat} (hrm : rm < 4) (neg : Bool) (m : Nat) (e q : Int) :
    RoundsTo rm neg (m * (2 : ℚ) ^ e) ((roundAt rm neg m e q).1 * (2 : ℚ) ^ q) ((2 : ℚ) ^ q) (roundAt rm neg m e q).2 := by
  unfold roundAt
  have two : (2 : ℚ) ≠ 0 := two_ne_zero
  split
  · next h =>
    have hx : ((m * 2 ^ (e - q).toNat : Nat) : ℚ) * (2 : ℚ) ^ q = m * (2 : ℚ) ^ e := by
      rw [Nat.cast_mul, Nat.cast_pow, Nat.cast_ofNat, ← zpow_natCast, mul_assoc, ← zpow_add₀ two, Int.toNat_of_nonneg (by omega),
        sub_add_cancel]
    rw [hx]
    exact .refl (zpow_pos two_pos q)
  · next h =>
    extract_lets w r t
    have hz : (0 : ℚ) < (2 : ℚ) ^ e := zpow_pos two_pos e
    have hu : (2 : ℚ) ^ q = w * (2 : ℚ) ^ e := by
      rw [Nat.cast_pow, Nat.cast_ofNat, ← zpow_natCast, ← zpow_add₀ two, Int.toNat_of_nonneg (by omega), sub_add_cancel]
    have ht : t < w := Nat.mod_lt _ (Nat.two_pow_pos _)
    have hm : (m : ℚ) = w * r + t := by exact_mod_cast (Nat.div_add_mod m w).symm
    rw [hu]
    cases hup : roundsUp rm neg (decide (r % 2 = 1)) (2 * t) w with
    | false => exact .of_sub_eq_neg hz ht (by rw [hm]; simp only [b2n]; push_cast; ring) hup hrm
    | true => exact .of_sub_eq hz ht (by rw [hm]; simp only [b2n]; push_cast; ring) hup hrm

/-! ## One rounding to a format -/

theorem two_pow_bitLen {m : Nat} (hm : m ≠ 0) : 2 ^ (bitLen m - 1) ≤ m ∧ m < 2 ^ bitLen m ∧ 0 < bitLen m := by
  rw [bitLen, if_neg hm]
  exact ⟨Nat.log2_self_le hm, Nat.lt_log2_self, Nat.succ_pos _⟩

/-- A significand of `p + 1` bits or fewer above 2^q is rounded to at most 2^(p + 1). -/
theorem roundAt_le {rm : Nat} {neg : Bool} {m p : Nat} {e q : Int} (hm : m ≠ 0) (h : e + bitLen m ≤ q + (p + 1 : Nat)) :
    (roundAt rm neg m e q).1 ≤ 2 ^ (p + 1) := by
  obtain ⟨_, hlt, _⟩ := two_pow_bitLen hm
  unfold roundAt
  split
  · refine (Nat.mul_le_mul_right _ hlt.le).trans ?_
    rw [← Nat.pow_add]
    exact Nat.pow_le_pow_right two_pos (by omega)
  · have hq : m / 2 ^ (q - e).toNat < 2 ^ (p + 1) := by
      refine Nat.div_lt_of_lt_mul (hlt.trans_le ?_)
      rw [← Nat.pow_add]
      exact Nat.pow_le_pow_right two_pos (by omega)
    have hup : ∀ b, b2n b ≤ 1 := by decide
    exact (Nat.add_le_add_left (hup _) _).trans hq

/-- A significand of `p + 1` bits or more above 2^q is rounded to no less than 2^p. -/
theorem le_roundAt {rm : Nat} {neg : Bool} {m p : Nat} {e q : Int} (hm : m ≠ 0) (h : q + (p + 1 : Nat) ≤ e + bitLen m) :
    2 ^ p ≤ (roundAt rm neg m e q).1 := by
  obtain ⟨hge, _, _⟩ := two_pow_bitLen hm
  unfold roundAt
  split
  · refine le_trans ?_ (Nat.mul_le_mul_right _ hge)
    rw [← Nat.pow_add]
    exact Nat.pow_le_pow_right two_pos (by omega)
  · refine le_trans ((Nat.le_div_iff_mul_le (Nat.two_pow_pos _)).mpr (le_trans ?_ hge)) (Nat.le_add_right _ _)
    rw [← Nat.pow_add]
    exact Nat.pow_le_pow_right two_pos (by omega)

/-- The exponent of the last place of a value m × 2^e in a format (R149). -/
def lastPlace (d : Bool) (m : Nat) (e : Int) : Int := max (e + bitLen m - (fpF d + 1 : Nat)) (fpMin d)

/-- A value's magnitude rounded once, as a pattern before overflow. -/
def roundMag (d : Bool) (rm : Nat) (neg : Bool) (m : Nat) (e : Int) : Nat :=
  (lastPlace d m e - fpMin d).toNat * 2 ^ fpF d + (roundAt rm neg m e (lastPlace d m e)).1

/-- The pattern has the rounded value. -/
theorem roundMag_value (d : Bool) (rm : Nat) (neg : Bool) {m : Nat} (e : Int) (hm : m ≠ 0) {x : Nat}
    (hx : fpMag d x = roundMag d rm neg m e) :
    (fpM d x : ℚ) * (2 : ℚ) ^ fpE d x = (roundAt rm neg m e (lastPlace d m e)).1 * (2 : ℚ) ^ lastPlace d m e := by
  have hmin : fpMin d ≤ lastPlace d m e := le_max_right ..
  have hk : (lastPlace d m e - fpMin d).toNat = 0 ∨ 2 ^ fpF d ≤ (roundAt rm neg m e (lastPlace d m e)).1 := by
    rcases le_total (e + bitLen m - (fpF d + 1 : Nat)) (fpMin d) with h | h
    · exact .inl (by rw [lastPlace, max_eq_right h, sub_self, Int.toNat_zero])
    · exact .inr (le_roundAt hm (by rw [lastPlace, max_eq_left h]; omega))
  have hle := roundAt_le (rm := rm) (neg := neg) (p := fpF d) (e := e) (q := lastPlace d m e) hm
    (by have : e + bitLen m - (fpF d + 1 : Nat) ≤ lastPlace d m e := le_max_left ..; omega)
  rw [fpM_mul_fpE d hx hle hk, Int.toNat_of_nonneg (by omega), add_sub_cancel]

/-- A rounding that overflows (R242). -/
theorem roundFp_overflow {d : Bool} {rm : Nat} {neg : Bool} {m : Nat} {e : Int} (h : fpInf d ≤ roundMag d rm neg m e) :
    roundFp d rm neg m e = { bits := overflowed d rm neg, flags := 20 } := if_pos h

/-- A rounding that does not overflow: its pattern, and inexact where it is. -/
theorem roundFp_finite {d : Bool} {rm : Nat} {neg : Bool} {m : Nat} {e : Int} (h : roundMag d rm neg m e < fpInf d) :
    (roundFp d rm neg m e).bits = withSign d neg (roundMag d rm neg m e) ∧ (roundFp d rm neg m e).flags &&& 4 = 0 ∧
    ((roundFp d rm neg m e).flags &&& 16 = 0 ↔ (roundAt rm neg m e (lastPlace d m e)).2 = true) := by
  have hr : ∃ tiny, roundFp d rm neg m e = {
      bits := withSign d neg (roundMag d rm neg m e)
      flags := (if (roundAt rm neg m e (lastPlace d m e)).2 then 0 else 16) +
        (if tiny && !(roundAt rm neg m e (lastPlace d m e)).2 then 8 else 0)
      tiny := tiny } := ⟨_, if_neg (Nat.not_le.mpr h)⟩
  obtain ⟨tiny, hr⟩ := hr
  rw [hr]
  generalize (roundAt rm neg m e (lastPlace d m e)).2 = exact
  refine ⟨rfl, ?_⟩
  clear hr
  dsimp only
  revert tiny exact
  decide

/-- The overflowed result by the mode and the sign (R242). -/
theorem overflowed_eq (d : Bool) {rm : Nat} (hrm : rm < 4) (neg : Bool) : overflowed d rm neg = withSign d neg
    (if rm = 0 ∨ (rm = 2 ∧ neg = false) ∨ (rm = 3 ∧ neg = true) then fpInf d else fpInf d - 1) := by
  interval_cases rm <;> cases neg <;> rfl

/-- One rounding: a result that does not overflow is finite, of the sign given, and rounds the exact value; else the overflowed one. -/
theorem roundFp_spec (d : Bool) {rm : Nat} (neg : Bool) {m : Nat} (e : Int) (hm : m ≠ 0) (hrm : rm < 4) :
    let r := roundFp d rm neg m e
    let x : ℚ := m * (2 : ℚ) ^ e
    let v : ℚ := fpM d r.bits * (2 : ℚ) ^ fpE d r.bits
    (r.flags &&& 4 = 0 → fpNeg d r.bits = neg ∧ isInf d r.bits = false ∧ isNan d r.bits = false ∧
      ∃ exact, (r.flags &&& 16 = 0 ↔ exact = true) ∧ RoundsTo rm neg x v ((2 : ℚ) ^ lastPlace d m e) exact) ∧
    (r.flags &&& 4 ≠ 0 → r.flags = 20 ∧ r.bits = overflowed d rm neg) := by
  intro r x v
  rcases Nat.lt_or_ge (roundMag d rm neg m e) (fpInf d) with h | h
  · obtain ⟨hbits, hov, hex⟩ := roundFp_finite h
    refine ⟨fun _ => ?_, fun hne => absurd hov hne⟩
    have hlt := h.trans (fpInf_lt d)
    have hmag : fpMag d r.bits = roundMag d rm neg m e := by rw [hbits, fpMag_withSign d neg hlt]
    refine ⟨by rw [hbits, fpNeg_withSign d neg hlt], ?_, ?_, ?_⟩
    · rw [isInf, hmag, decide_eq_false h.ne]
    · rw [isNan, hmag, decide_eq_false h.not_gt]
    · have hv : v = _ := roundMag_value d rm neg e hm hmag
      exact ⟨_, hex, hv ▸ roundAt_roundsTo hrm neg m e _⟩
  · have hr : r = _ := roundFp_overflow h
    rw [hr]
    exact ⟨fun h => absurd (show 20 &&& 4 = 0 from h) (by decide), fun _ => ⟨rfl, rfl⟩⟩

/-! ## NaN operands and invalid operations -/

theorem find_isSnan_none_of {d : Bool} {xs : List Nat} (h : xs.find? (isNan d) = none) : xs.find? (isSnan d) = none := by
  simp only [List.find?_eq_none, isSnan, Bool.and_eq_true, not_and] at h ⊢
  exact fun x hx hn => absurd hn (h x hx)

/-- The first signalling NaN, made quiet (R246). -/
theorem nanOf_snan {d inv : Bool} {xs : List Nat} {n : Nat} (h : xs.find? (isSnan d) = some n) :
    nanOf d xs inv = some { bits := n ||| 2 ^ (fpF d - 1), flags := 1 } := by
  have any : xs.any (isSnan d) = true := List.any_eq_true.mpr ⟨n, List.mem_of_find?_eq_some h, List.find?_some h⟩
  simp only [nanOf, h, any, Bool.or_true, if_true]

/-- With no signalling NaN, the first quiet one (R246). -/
theorem nanOf_qnan {d inv : Bool} {xs : List Nat} {n : Nat} (hs : xs.find? (isSnan d) = none) (h : xs.find? (isNan d) = some n) :
    nanOf d xs inv = some { bits := n, flags := if inv then 1 else 0 } := by
  have any : xs.any (isSnan d) = false := by simpa [List.find?_eq_none] using hs
  simp only [nanOf, hs, h, any, Bool.or_false, Option.map_some]

theorem nanOf_none {d inv : Bool} {xs : List Nat} (h : ∀ x ∈ xs, isNan d x = false) : nanOf d xs inv = none := by
  have hq : xs.find? (isNan d) = none := List.find?_eq_none.mpr fun x hx => by simp [h x hx]
  simp only [nanOf, find_isSnan_none_of hq, hq, Option.map_none]

/-- An operation that looks for a NaN among its operands `xs` before all else (R246). -/
theorem nan_first {d inv : Bool} {xs : List Nat} {r q : FRes} (h : r = match nanOf d xs inv with | some r => r | none => q) :
    (∀ n, xs.find? (isSnan d) = some n → r.bits = n ||| 2 ^ (fpF d - 1) ∧ r.flags = 1) ∧
    (∀ n, xs.find? (isSnan d) = none → xs.find? (isNan d) = some n → r.bits = n ∧ r.flags = if inv then 1 else 0) := by
  refine ⟨fun n hs => ?_, fun n hs hq => ?_⟩
  · rw [h, nanOf_snan hs]
    exact ⟨rfl, rfl⟩
  · rw [h, nanOf_qnan hs hq]
    exact ⟨rfl, rfl⟩

theorem nanOf_pair {d : Bool} {x y : Nat} (hx : isNan d x = false) (hy : isNan d y = false) : nanOf d [x, y] = none :=
  nanOf_none (by simp [hx, hy])

/-- The invalid operations with no NaN (R247). -/
theorem invalid_operations {d : Bool} (rm : Nat) {x y : Nat} (hx : isNan d x = false) (hy : isNan d y = false) :
    (isInf d x = true → isInf d y = true → fpNeg d x ≠ fpNeg d y → fpAdd d rm x y false = invalid d) ∧
    (isInf d x = true → isInf d y = true → fpNeg d x = fpNeg d y → fpAdd d rm x y true = invalid d) ∧
    (isInf d x = true → isZero d y = true → fpMul d rm x y = invalid d ∧ fpMul d rm y x = invalid d) ∧
    (isInf d x = true → isInf d y = true → fpDiv d rm x y = invalid d) ∧
    (isZero d x = true → isZero d y = true → fpDiv d rm x y = invalid d) ∧
    (fpNeg d x = true → isZero d x = false → fpSqrt d rm x = invalid d) := by
  have zero_fin : ∀ {z}, isZero d z = true → isInf d z = false := by
    intro z hz
    rw [isZero, decide_eq_true_eq] at hz
    rw [isInf, hz]
    cases d <;> rfl
  have hsqrt : nanOf d [x] = none := nanOf_none (by simp [hx])
  refine ⟨fun ix iy hs => ?_, fun ix iy hs => ?_, fun ix zy => ⟨?_, ?_⟩, fun ix iy => ?_, fun zx zy => ?_, fun neg nz => ?_⟩
  · simp [fpAdd, nanOf_pair hx hy, ix, iy, hs]
  · simp [fpAdd, nanOf_pair hx hy, ix, iy, hs]
  · simp [fpMul, nanOf_pair hx hy, ix, zy]
  · simp [fpMul, nanOf_pair hy hx, ix, zy]
  · simp [fpDiv, nanOf_pair hx hy, ix, iy]
  · simp [fpDiv, nanOf_pair hx hy, zero_fin zx, zero_fin zy, zx, zy]
  · simp [fpSqrt, hsqrt, neg, nz]

/-- Settles O22: one rounding by its distance from the exact value; each operation looks for a NaN among its operands first. -/
theorem fpResultValues : Obligations.FpResultValues := by
  refine ⟨fun d rm neg m e hm hrm => ?_, fun d rm x y c => ?_⟩
  · obtain ⟨finite, overflow⟩ := roundFp_spec d neg e hm hrm
    refine ⟨fun h => ?_, fun h => (overflow h).imp_right (·.trans (overflowed_eq d hrm neg))⟩
    obtain ⟨hneg, hinf, hnan, exact, hex, ⟨lt, exact_iff, nearest, zero, up, down⟩⟩ := finite h
    exact ⟨hneg, hinf, hnan, lt, hex.trans exact_iff, nearest, zero, up, down⟩
  · refine ⟨nan_first rfl, nan_first rfl, nan_first rfl, nan_first rfl, nan_first rfl, fun a ha => ?_, nan_first rfl,
      invalid_operations rm, ?_, rfl⟩
    · have first := nan_first (r := fpFmaa d rm a y c) (inv := decide (a = 0) && isInf d y) rfl
      rwa [decide_eq_false ha, Bool.false_and] at first
    · cases d <;> rfl

end Sys2Proof.Machine
end

section
/-! PROOFS. Floating-point moves and FCMP (R149, R150, R249, R250). -/

namespace Sys2Proof.Machine

/-! ## Patterns in order -/

section Order

variable (d : Bool)

/-- The magnitude of a pattern's value (R238). -/
def fpAbs (x : Nat) : ℚ := fpM d x * (2 : ℚ) ^ fpE d x

/-- A magnitude counts units of the exponent of its place: the least exponent, below the first normal value whose exponent is greater. -/
theorem fpMag_places (x : Nat) :
    ∃ k r, fpMag d x = k * 2 ^ fpF d + r ∧ r < 2 ^ (fpF d + 1) ∧ (k = 0 ∨ 2 ^ fpF d ≤ r) := by
  have hdiv := Nat.div_add_mod (fpMag d x) (2 ^ fpF d)
  have hmod := Nat.mod_lt (fpMag d x) (Nat.two_pow_pos (fpF d))
  rw [Nat.pow_succ]
  rcases Nat.eq_zero_or_pos (fpMag d x / 2 ^ fpF d) with h | h
  · exact ⟨0, fpMag d x, by omega, by rw [h] at hdiv; omega, .inl rfl⟩
  · obtain ⟨k, hk⟩ := Nat.exists_eq_succ_of_ne_zero h.ne'
    refine ⟨k, 2 ^ fpF d + fpMag d x % 2 ^ fpF d, ?_, by omega, .inr (Nat.le_add_right ..)⟩
    rw [hk, Nat.mul_succ, Nat.mul_comm] at hdiv
    omega

variable {d} {x y : Nat}

/-- A greater magnitude has a greater value. -/
theorem fpAbs_lt (h : fpMag d x < fpMag d y) : fpAbs d x < fpAbs d y := by
  obtain ⟨k, r, hx, hr, hk⟩ := fpMag_places d x
  obtain ⟨l, q, hy, hq, hl⟩ := fpMag_places d y
  have hxv := fpM_mul_fpE d hx hr.le hk
  have hyv := fpM_mul_fpE d hy hq.le hl
  rw [fpAbs, fpAbs, hxv, hyv, zpow_add₀ two_ne_zero, zpow_add₀ two_ne_zero, mul_left_comm, mul_left_comm (q : ℚ)]
  refine mul_lt_mul_of_pos_left ?_ (zpow_pos two_pos _)
  rw [zpow_natCast, zpow_natCast]
  norm_cast
  rw [hx, hy] at h
  have hpos := Nat.two_pow_pos (fpF d)
  rw [Nat.pow_succ] at hr hq
  rcases Nat.lt_trichotomy k l with hkl | rfl | hkl
  · have hle : 2 ^ (k + 1) ≤ 2 ^ l := Nat.pow_le_pow_right two_pos hkl
    have hqF : 2 ^ fpF d ≤ q := hl.resolve_left (by omega)
    calc r * 2 ^ k < 2 ^ fpF d * 2 * 2 ^ k := Nat.mul_lt_mul_of_pos_right hr (Nat.two_pow_pos k)
      _ = 2 ^ fpF d * 2 ^ (k + 1) := by ring
      _ ≤ q * 2 ^ l := Nat.mul_le_mul hqF hle
  · exact Nat.mul_lt_mul_of_pos_right (by omega) (Nat.two_pow_pos k)
  · have hrF : 2 ^ fpF d ≤ r := hk.resolve_left (by omega)
    have := Nat.mul_le_mul_right (2 ^ fpF d) hkl
    rw [Nat.succ_mul] at this
    omega

theorem fpAbs_congr (h : fpMag d x = fpMag d y) : fpAbs d x = fpAbs d y := by
  simp only [fpAbs, fpM, fpE, h]

theorem fpAbs_of_zero (h : fpMag d x = 0) : fpAbs d x = 0 := by
  have : fpM d x = 0 := by simp [fpM, h]
  rw [fpAbs, this, Nat.cast_zero, zero_mul]

theorem fpAbs_nonneg : 0 ≤ fpAbs d x := mul_nonneg (Nat.cast_nonneg _) (zpow_nonneg two_pos.le _)

theorem fpAbs_pos (h : 0 < fpMag d x) : 0 < fpAbs d x := by
  have zero : fpMag d 0 = 0 := Nat.zero_mod _
  rw [← fpAbs_of_zero zero]
  exact fpAbs_lt (zero ▸ h)

theorem fpVal_eq : fpVal d x = if fpNeg d x then -fpAbs d x else fpAbs d x := by
  unfold fpVal fpAbs
  split <;> ring

/-- Patterns are ordered as their values, zeros of both signs alike. -/
theorem fpVal_lt (h : fpOrd d x < fpOrd d y) : fpVal d x < fpVal d y := by
  have hx := fpAbs_nonneg (d := d) (x := x)
  have hy := fpAbs_nonneg (d := d) (x := y)
  rw [fpVal_eq, fpVal_eq]
  unfold fpOrd at h
  cases hsx : fpNeg d x <;> cases hsy : fpNeg d y <;> simp only [hsx, hsy, if_true, if_false, Bool.false_eq_true] at h ⊢
  · exact fpAbs_lt (by exact_mod_cast h)
  · omega
  · rcases Nat.eq_zero_or_pos (fpMag d x) with h0 | h0
    · have := fpAbs_pos (d := d) (x := y) (by omega)
      linarith
    · have := fpAbs_pos h0
      linarith
  · exact neg_lt_neg (fpAbs_lt (by omega))

theorem fpVal_congr (h : fpOrd d x = fpOrd d y) : fpVal d x = fpVal d y := by
  rw [fpVal_eq, fpVal_eq]
  unfold fpOrd at h
  cases hsx : fpNeg d x <;> cases hsy : fpNeg d y <;> simp only [hsx, hsy, if_true, if_false, Bool.false_eq_true] at h ⊢
  · exact fpAbs_congr (by omega)
  · rw [fpAbs_of_zero (x := x) (by omega), fpAbs_of_zero (x := y) (by omega), neg_zero]
  · rw [fpAbs_of_zero (x := x) (by omega), fpAbs_of_zero (x := y) (by omega), neg_zero]
  · rw [fpAbs_congr (x := x) (y := y) (by omega)]

theorem fpVal_lt_iff : fpVal d x < fpVal d y ↔ fpOrd d x < fpOrd d y := by
  refine ⟨fun h => ?_, fpVal_lt⟩
  rcases lt_trichotomy (fpOrd d x) (fpOrd d y) with o | o | o
  · exact o
  · exact absurd (fpVal_congr o) h.ne
  · exact absurd (fpVal_lt o) h.asymm

theorem fpVal_eq_iff : fpVal d x = fpVal d y ↔ fpOrd d x = fpOrd d y := by
  refine ⟨fun h => ?_, fpVal_congr⟩
  rcases lt_trichotomy (fpOrd d x) (fpOrd d y) with o | o | o
  · exact absurd h (fpVal_lt o).ne
  · exact o
  · exact absurd h (fpVal_lt o).ne'

end Order

/-! ## FCMP (R250) -/

section Compare

variable {d : Bool} {x y : Nat} {fl : Byte}

/-- A pattern's bits: its magnitude and its sign. -/
theorem mod_two_pow_fpS (d : Bool) (x : Nat) : x % 2 ^ (fpS d + 1) = fpMag d x + 2 ^ fpS d * b2n (fpNeg d x) := by
  rw [Nat.mod_pow_succ, fpMag, fpNeg, bitOn]
  rcases Nat.mod_two_eq_zero_or_one (x / 2 ^ fpS d) with h | h <;> simp [h, b2n]

theorem fpCmp_of_nan (h : isNan d x = true ∨ isNan d y = true) : FlagsAre fl (fpCmp d fl x y).1 false false true true := by
  rw [fpCmp, if_pos (by simpa using h)]
  exact flagsAre_setFl ..

theorem fpCmp_of_lt (hx : isNan d x = false) (hy : isNan d y = false) (h : fpOrd d x < fpOrd d y) :
    FlagsAre fl (fpCmp d fl x y).1 true false false false := by
  rw [fpCmp, if_neg (by simp [hx, hy]), if_pos h]
  exact flagsAre_setFl ..

theorem fpCmp_of_eq (hx : isNan d x = false) (hy : isNan d y = false) (h : fpOrd d x = fpOrd d y) :
    FlagsAre fl (fpCmp d fl x y).1 false true true false := by
  rw [fpCmp, if_neg (by simp [hx, hy]), if_neg h.not_lt, if_pos h]
  exact flagsAre_setFl ..

theorem fpCmp_of_gt (hx : isNan d x = false) (hy : isNan d y = false) (h : fpOrd d y < fpOrd d x) :
    FlagsAre fl (fpCmp d fl x y).1 false false true false := by
  rw [fpCmp, if_neg (by simp [hx, hy]), if_neg h.not_gt, if_neg h.ne']
  exact flagsAre_setFl ..

theorem isNan_of_isInf (h : isInf d x = true) : isNan d x = false := by
  rw [isInf, decide_eq_true_eq] at h
  rw [isNan, h, decide_eq_false (lt_irrefl _)]

/-- An infinity is beyond every other pattern that is no NaN, on the side of its sign. -/
theorem fpOrd_of_isInf (hx : isInf d x = true) (hy : isNan d y = false) (h : x % 2 ^ (fpS d + 1) ≠ y % 2 ^ (fpS d + 1)) :
    if fpNeg d x then fpOrd d x < fpOrd d y else fpOrd d y < fpOrd d x := by
  rw [isInf, decide_eq_true_eq] at hx
  rw [isNan, decide_eq_false_iff_not, Nat.not_lt] at hy
  rw [mod_two_pow_fpS, mod_two_pow_fpS] at h
  have hinf : 0 < fpInf d := by cases d <;> decide
  unfold fpOrd
  cases hsx : fpNeg d x <;> cases hsy : fpNeg d y <;> simp only [hsx, hsy, if_true, if_false, Bool.false_eq_true] at h ⊢ <;> omega

/-- FCMP orders its operands: by their values, infinities beyond all, a NaN unordered. -/
theorem fpCmp_fpOrder (d : Bool) (fl : Byte) (x y : Nat) : FpOrder d x y fl (fpCmp d fl x y).1 := by
  refine ⟨fpCmp_of_nan, fun hx hy => ⟨fun h => ?_, fun h => ?_, fun h => ?_⟩, fun hx hy h => ?_, fun hy hx h => ?_, fun hx h => ?_⟩
  · exact fpCmp_of_lt hx.1 hy.1 (fpVal_lt_iff.mp h)
  · exact fpCmp_of_eq hx.1 hy.1 (fpVal_eq_iff.mp h)
  · exact fpCmp_of_gt hx.1 hy.1 (fpVal_lt_iff.mp h)
  · have order := fpOrd_of_isInf hx hy h
    have hx := isNan_of_isInf hx
    split
    · next hs => exact fpCmp_of_lt hx hy (by rwa [if_pos hs] at order)
    · next hs => exact fpCmp_of_gt hx hy (by rwa [if_neg hs] at order)
  · have order := fpOrd_of_isInf hy hx h.symm
    have hy := isNan_of_isInf hy
    split
    · next hs => exact fpCmp_of_gt hx hy (by rwa [if_pos hs] at order)
    · next hs => exact fpCmp_of_lt hx hy (by rwa [if_neg hs] at order)
  · have same : ∀ z, fpMag d z = z % 2 ^ (fpS d + 1) % 2 ^ fpS d := fun z =>
      (Nat.mod_mod_of_dvd z (Nat.pow_dvd_pow 2 (Nat.le_succ _))).symm
    have mag : fpMag d y = fpMag d x := by rw [same, same, h]
    have sign : b2n (fpNeg d x) = b2n (fpNeg d y) := by
      rw [mod_two_pow_fpS, mod_two_pow_fpS, mag] at h
      exact Nat.eq_of_mul_eq_mul_left (Nat.two_pow_pos _) (Nat.add_left_cancel h)
    have neg : fpNeg d x = fpNeg d y := by
      revert sign
      cases fpNeg d x <;> cases fpNeg d y <;> simp [b2n]
    refine fpCmp_of_eq (isNan_of_isInf hx) (isNan_of_isInf ?_) ?_
    · rwa [isInf, mag]
    · rw [fpOrd, fpOrd, mag, neg]

/-- FCMP raises invalid only for a signalling NaN. -/
theorem fpCmp_snd (d : Bool) (fl : Byte) (x y : Nat) :
    (fpCmp d fl x y).2 = if isSnan d x = true ∨ isSnan d y = true then 1 else 0 := by
  simp only [fpCmp, Bool.or_eq_true]
  split
  · rfl
  split
  · rfl
  split <;> rfl

end Compare

/-! ## FNEG and FABS (R249) -/

/-- A magnitude is the pattern of sign 0. -/
theorem fpMag_eq_withSign (d : Bool) (x : Nat) : withSign d false (fpMag d x) = fpMag d x := by
  rw [withSign, b2n, if_neg Bool.false_ne_true, Nat.zero_mul, Nat.add_zero]

/-- The bits of a pattern made of a magnitude and a sign. -/
theorem testBit_withSign (d : Bool) (neg : Bool) (x k : Nat) :
    (withSign d neg (fpMag d x)).testBit k = if k = fpS d then neg else decide (k < fpS d) && x.testBit k := by
  rw [withSign, Nat.add_comm, Nat.mul_comm, fpMag, Nat.testBit_two_pow_mul_add _ (Nat.mod_lt _ (Nat.two_pow_pos _)), Nat.testBit_mod_two_pow]
  by_cases hk : k < fpS d
  · rw [if_pos hk, if_neg hk.ne]
  · rw [if_neg hk, decide_eq_false hk, Bool.false_and]
    split
    · next h => cases neg <;> simp [h, b2n]
    · next h =>
      obtain ⟨j, hj⟩ := Nat.exists_eq_succ_of_ne_zero (n := k - fpS d) (by omega)
      cases neg <;> simp [hj, b2n, Nat.testBit_succ]

theorem fpNeg_eq_testBit (d : Bool) (x : Nat) : fpNeg d x = x.testBit (fpS d) := by
  rw [Nat.testBit_eq_decide_div_mod_eq]
  rfl

/-- FA in the format in force, bit by bit (R240). -/
theorem Thread.testBit_faVal (h : Thread) {k : Nat} (hk : k ≤ fpS h.dbl) : h.faVal.testBit k = h.fa.getLsbD k := by
  unfold Thread.faVal
  cases hd : h.dbl with
  | true => rfl
  | false =>
    rw [hd, fpS] at hk
    simp only [Bool.false_eq_true, if_false] at hk ⊢
    rw [Nat.testBit_mod_two_pow, decide_eq_true (by omega), Bool.true_and]
    rfl

/-- FA with a sign of its own put in its place, bit by bit. -/
theorem Thread.getLsbD_withSign (h : Thread) (neg : Bool) (k : Nat) :
    (BitVec.ofNat 64 (withSign h.dbl neg (fpMag h.dbl h.faVal))).getLsbD k =
      if k = fpS h.dbl then neg else decide (k < fpS h.dbl) && h.fa.getLsbD k := by
  have hS : fpS h.dbl < 64 := by cases h.dbl <;> decide
  rw [BitVec.getLsbD_ofNat, testBit_withSign]
  by_cases hk : k < fpS h.dbl
  · rw [h.testBit_faVal hk.le, decide_eq_true (by omega), Bool.true_and]
  · rw [decide_eq_false hk, Bool.false_and, Bool.false_and]
    split
    · rw [decide_eq_true (by omega), Bool.true_and]
    · exact Bool.and_false _

end Sys2Proof.Machine
end

section
/-! PROOFS. A store leaves the window data of every thread as it is (R165): of a thread, only its Furrow can change, by a packet that
crosses the fabric meanwhile. -/

namespace Sys2Proof.Machine

/-- From `ρ` on, every table is in canonical form, and every thread has the window data it had. -/
structure State.KeepsGot (ρ s : State) : Prop where
  canon : s.Canon
  got : ∀ t, (s.thread t).winGot = (ρ.thread t).winGot

variable {ρ s : State}

theorem State.KeepsGot.refl (hc : s.Canon) : s.KeepsGot s := ⟨hc, fun _ => rfl⟩

/-- A change that leaves the threads alone. -/
theorem State.KeepsGot.of_threads {u : State} (h : ρ.KeepsGot s) (hk : s.Keeps {} u) (e : u.threads = s.threads) : ρ.KeepsGot u :=
  ⟨hk.canon h.canon, fun t => by rw [← h.got t, State.thread, State.thread, e]⟩

/-! ## What leaves the threads alone -/

section Threads

variable (s : State)

theorem State.setFbWait_threads (o r v : Nat) : (s.setFbWait o r v).threads = s.threads := by
  unfold State.setFbWait
  split <;> rfl

theorem State.fabDecide_threads (o : Nat) (e : List Nat) (w : Nat) (forced : Bool) : (s.fabDecide o e w forced).threads = s.threads := by
  have waits : ∀ (f : State → Nat → Nat) (e : List Nat) (s : State),
      (e.foldl (fun s r => s.setFbWait o r (f s r)) s).threads = s.threads := by
    intro f e
    induction e with
    | nil => exact fun _ => rfl
    | cons r e ih => exact fun s => (ih _).trans (s.setFbWait_threads ..)
  unfold State.fabDecide
  extract_lets s₁ s₂ s₃
  have h₁ : s₁.threads = s.threads := waits (fun s r => if r = w then 0 else min (s.fbWait o r + 1) 255) e s
  have h₃ : s₃.threads = s₂.threads := by
    unfold s₃
    split <;> rfl
  split <;> exact h₃.trans h₁

theorem State.setBit_threads (o k : Nat) : (s.setBit o k).threads = s.threads := by
  unfold State.setBit State.setStatus
  extract_lets v m
  split <;> rfl

theorem State.metErr_threads (r : MemRegion) (i w : Nat) : (s.metErr r i w).threads = s.threads := by
  unfold State.metErr
  split
  · rfl
  split <;> rfl

theorem State.injDone_threads : s.injDone.threads = s.threads := State.setBit_threads _ _ _

theorem State.furrowPass_threads (f : Nat) : (s.furrowPass f).1.threads = s.threads := by
  unfold State.furrowPass
  extract_lets h
  split
  · rfl
  split
  · exact (State.metErr_threads ..).trans s.injDone_threads
  · exact (State.metErr_threads ..).trans ((State.setBit_threads s.injDone ..).trans s.injDone_threads)

theorem State.tlpOut_threads (t : Tlp) (r : Option ReadReq) : (s.tlpOut t r).threads = s.threads := s.furrowPass_threads 1

theorem State.flitOut_threads (p : Nat) (f : Flit) : (s.flitOut p f).threads = s.threads := by
  unfold State.flitOut
  extract_lets h u
  unfold u
  split
  · rfl
  · exact s.injDone_threads

theorem State.dropPkts_threads (t n : Nat) : (s.dropPkts t n).threads = s.threads := by
  unfold State.dropPkts
  split
  · rfl
  · exact State.setBit_threads ..

theorem State.modOp_threads (k : Nat) (f : NOp → NOp) : (s.modOp k f).threads = s.threads := by
  unfold State.modOp
  split <;> rfl

theorem State.touch_threads (sc : Nat) : (s.touch sc).threads = s.threads := by
  unfold State.touch
  extract_lets u
  split
  · rfl
  split
  · rfl
  split <;> rfl

end Threads

namespace State.KeepsGot

/-! ## The fabric -/

/-- A packet that crosses to a thread changes the thread's Furrow alone. -/
theorem pktIn (h : ρ.KeepsGot s) (t : Nat) (bd : Binding) (p : Pkt) : ρ.KeepsGot (s.pktIn t bd p) := by
  unfold State.pktIn
  split
  · exact h.of_threads (State.dropPkts_keeps _ _ _ .rfl) (State.dropPkts_threads ..)
  · extract_lets hit s₁ s₂
    have h₁ : ρ.KeepsGot s₁ := by
      unfold s₁
      split
      · exact h
      · exact h.of_threads (State.injDone_keeps s .rfl) s.injDone_threads
    have h₂ : ρ.KeepsGot s₂ := by
      unfold s₂
      split
      · exact h₁.of_threads (State.metErr_keeps _ _ _ _ (State.bumpSat_keeps _ _ _ .rfl)) (State.metErr_threads ..)
      · exact h₁
    refine ⟨State.setThread_canon h₂.canon _ _, fun k => ?_⟩
    rw [State.modThread_eq, ← h₂.got k]
    by_cases hk : k = t
    · rw [hk, State.thread_setThread _ h₂.canon]
    · rw [State.thread_setThread_ne _ _ _ _ hk]

theorem arrived (h : ρ.KeepsGot s) (k : FPkt) : ρ.KeepsGot (s.arrived k) := by
  unfold State.arrived
  split
  · exact h.of_threads (State.tlpOut_keeps _ _ _ .rfl) (State.tlpOut_threads ..)
  · exact h.of_threads (State.tlpOut_keeps _ _ _ .rfl) (State.tlpOut_threads ..)
  · exact h.of_threads (State.flitOut_keeps _ _ _ .rfl) (State.flitOut_threads ..)
  · exact h.pktIn ..

theorem fab (h : ρ.KeepsGot s) (l : List FPkt) : ρ.KeepsGot { s with fab := l } :=
  h.of_threads (State.keeps_fab .rfl l) rfl

theorem fabRun (o n : Nat) (h : ρ.KeepsGot s) : ρ.KeepsGot (State.fabRun o n s) := by
  induction n generalizing s with
  | zero => exact h
  | succ n ih =>
    rw [State.fabRun]
    split
    · exact h
    · next w forced _ =>
      split
      · exact h
      · have decided : ρ.KeepsGot (s.fabDecide o (s.fabElig o) w forced) :=
          h.of_threads (State.fabDecide_keeps _ _ _ _ _ .rfl) (State.fabDecide_threads ..)
        extract_lets s₁
        split
        · exact ih (decided.fab _)
        · exact ih ((decided.fab _).arrived _)

theorem offer (h : ρ.KeepsGot s) (k : FPkt) : ρ.KeepsGot (s.offer k) := (h.fab _).fabRun _ _

/-! ## Exchanges with nodes -/

theorem modOp (h : ρ.KeepsGot s) (k : Nat) (f : NOp → NOp) : ρ.KeepsGot (s.modOp k f) :=
  h.of_threads (State.modOp_keeps _ _ _ .rfl) (State.modOp_threads ..)

theorem sendCmd (h : ρ.KeepsGot s) (k : Nat) (c : CmdF) (await : Bool) : ρ.KeepsGot (s.sendCmd k c await) := by
  unfold State.sendCmd
  split
  · exact h
  · exact (h.offer _).modOp ..

theorem openEx (h : ρ.KeepsGot s) (oph : Nat) (o : NOp) : ρ.KeepsGot (s.openEx oph o) :=
  h.of_threads (State.openEx_keeps _ _ _ .rfl) rfl

theorem sendData (k : Nat) (last : Bool) (src : Nat) (x : Option Nat) (n : Nat) (b : Bytes) (h : ρ.KeepsGot s) :
    ρ.KeepsGot (State.sendData k last src x n b s) := by
  induction n generalizing s b with
  | zero => exact h
  | succ n ih =>
    rw [State.sendData]
    split
    · exact h
    extract_lets c r l d s₁ s₂ s₃
    split
    · exact h
    have h₂ : ρ.KeepsGot s₂ := (h.offer _).modOp ..
    have h₃ : ρ.KeepsGot s₃ := by
      unfold s₃
      split
      · exact h₂.modOp ..
      · exact h₂
    split
    · exact h₃
    · exact ih _ h₃

theorem resGo (l kept : List ResReq) (h : ρ.KeepsGot s) : ρ.KeepsGot (State.resGo l kept s) := by
  induction l generalizing s kept with
  | nil => exact h.of_threads (State.resGo_keeps [] kept s .rfl) rfl
  | cons r rs ih =>
    rw [State.resGo]
    split
    · exact ih _ h
    · exact ih _ h
    · split
      · exact ih _ h
      · split
        · exact ih _ h
        · exact ih _ ((h.openEx ..).sendCmd ..)

theorem firstRelease (h : ρ.KeepsGot s) (node : Nat) : ρ.KeepsGot (s.firstRelease node) := by
  unfold State.firstRelease
  split
  · extract_lets s₁
    have h₁ : ρ.KeepsGot s₁ := h.of_threads (State.keeps_relNeeded .rfl _) rfl
    split
    · exact resGo _ _ (h₁.of_threads (State.keeps_resq .rfl _) rfl)
    · exact h₁
  · exact h

theorem winOpen {node a n : Nat} {o : NOp} {code : Nat} {p : State × Nat} (h : ρ.KeepsGot s) (e : s.winOpen node a n o code = some p) :
    ρ.KeepsGot p.1 := by
  unfold State.winOpen at e
  split at e
  · cases e
  · obtain ⟨oph, _, rfl⟩ := Option.map_eq_some_iff.mp e
    exact ((h.firstRelease node).openEx ..).sendCmd ..

end State.KeepsGot

/-! ## Stores -/

/-- Where an effect is done, every thread has the window data it had. -/
def TRes.KeepsGot (ρ : State) (r : TRes) : Prop := ∀ u, r = .done u → ρ.KeepsGot u

namespace TRes.KeepsGot

theorem done (h : ρ.KeepsGot s) : TRes.KeepsGot ρ (.done s) := by
  rintro u ⟨⟩
  exact h

theorem trap (c n : Nat) : TRes.KeepsGot ρ (.trap c n) := fun _ h => by cases h

theorem stall : TRes.KeepsGot ρ .stall := fun _ h => by cases h

theorem of_ite {c : Prop} [Decidable c] {p q : TRes} (hp : TRes.KeepsGot ρ p) (hq : TRes.KeepsGot ρ q) :
    TRes.KeepsGot ρ (if c then p else q) := by
  split <;> assumption

end TRes.KeepsGot

section Store

open TRes.KeepsGot

/-- Where no codeword error lies in the memories, a store into a protected memory is the store (R24). -/
theorem State.cwStore_clean (he : s.errs = []) (r : MemRegion) (idx : Nat → Nat) (wr : Nat → Bytes → State → State) (a : Nat) (b : Bytes) :
    State.cwStore r idx wr a b s = wr a b s := by
  rw [State.cwStore, if_pos (by rw [he]; rfl)]

variable (hc : s.Canon) (he : s.errs = [])
include hc he

theorem State.cxPut_keepsGot (sc off : Nat) (b : Bytes) : s.KeepsGot (s.cxPut sc off b) := by
  refine (State.KeepsGot.refl hc).of_threads (State.cxPut_keeps _ _ _ _ .rfl) ?_
  unfold State.cxPut
  rw [State.touch_threads, State.cwStore_clean he]
  split <;> rfl

theorem State.winStore_keepsGot (t : Nat) (th : Thread) (b : Bytes) (sp a node : Nat) : TRes.KeepsGot s (s.winStore t th b sp a node) := by
  have refl := State.KeepsGot.refl hc
  have buf : s.KeepsGot (s.bufPut a b) := by
    refine refl.of_threads (State.bufPut_keeps _ _ _ .rfl) ?_
    rw [State.bufPut, State.cwStore_clean he]
  refine of_ite stall (of_ite (done (refl.offer _)) (of_ite (done buf) ?_))
  split
  · next e => exact done ((refl.winOpen e).sendData ..)
  · exact stall

/-- A store where no codeword error lies in the memories leaves the window data of every thread alone (R165). -/
theorem State.engWr_keepsGot (x : TArg) (ea al : Nat) (b : Bytes) : TRes.KeepsGot s (s.engWr x ea b al) := by
  have refl := State.KeepsGot.refl hc
  have own := fun m hm => done (refl.of_threads (State.keeps_tpriv .rfl m hm) rfl)
  have shared : ∀ a, s.KeepsGot (s.tmemPut a b) := fun a => by
    refine refl.of_threads (State.tmemPut_keeps _ _ _ .rfl) ?_
    rw [State.tmemPut, State.cwStore_clean he]
  unfold State.engWr
  extract_lets th n bank off rout
  refine of_ite (trap _ _) (of_ite (of_ite (own _ fun h => Mem.wrN_wf _ _ h) (of_ite (done (shared _)) (trap _ _))) (of_ite ?context
    (of_ite ?out (of_ite (trap _ _) (of_ite (trap _ _) ?window)))))
  case context =>
    split
    · exact of_ite (of_ite stall (done (State.cxPut_keepsGot hc he ..))) (trap _ _)
    · exact trap _ _
  case out =>
    refine done ⟨State.setThread_canon hc _ _, fun k => ?_⟩
    by_cases hk : k = x.t
    · rw [hk, State.thread_setThread s hc]
    · rw [State.thread_setThread_ne _ _ _ _ hk]
  case window =>
    split
    · exact trap _ _
    · exact State.winStore_keepsGot hc he _ _ _ _ _ _

end Store

/-! ## A row that stores -/

/-- An engine address at which a look at a packet changes something: in the inbound window. -/
def InWindow (ea : Nat) : Prop := 0x10 ≤ ea / 65536 % 256 ∧ ea / 65536 % 256 < 0x20 ∧ ea % 65536 < 0x1010

theorem State.windowRead_outside {ea : Nat} (h : ¬ InWindow ea) (s : State) (t : Nat) : s.windowRead t (some ea) = s :=
  if_neg fun ⟨hlo, hhi, hoff, _⟩ => h ⟨hlo, hhi, hoff⟩

/-- No store to the inbound window is done (R158). -/
theorem State.engWr_inWindow {ea : Nat} (h : InWindow ea) (x : TArg) (b : Bytes) (al : Nat) (u : State) : s.engWr x ea b al ≠ .done u := by
  obtain ⟨hlo, hhi, hoff⟩ := h
  unfold State.engWr
  extract_lets th n bank off rout
  have hout : (bank = 0x10 && 0x8000 ≤ off && off + n ≤ 0x9010 && !(rout && off < 0x8010)) = false := by
    rw [show decide (0x8000 ≤ off) = false from decide_eq_false (by omega), Bool.and_false, Bool.false_and, Bool.false_and]
  rw [if_neg (by omega : bank ≠ 0), if_neg (by omega : ¬ bank < 0x10), hout]
  intro e
  split at e
  · cases e
  · rw [if_neg Bool.false_ne_true, if_pos (by simp; omega)] at e
    cases e

/-- A row whose effect is a store that is done. -/
theorem exec_store {t : Nat} {f : TForm} {ins : Instr} {legal : TForm → Bool} {body : State → TArg → TRes}
    {ea al : Nat} {b : Bytes} {u : State}
    (hc : s.Canon) (h : Ready s t f) (he : exec ins s = tRun ins { legal, wr := true, body } t f s) (hl : legal f = true)
    (hea : opEa f (s.thread t) = some ea)
    (hb : body (s.pcPast t (opSize f)) { t, f } = (s.pcPast t (opSize f)).storeOp { t, f } b al)
    (hu : (s.past t f).engWr { t, f } ea b al = .done u) :
    exec ins s = .next (if u.due = [] then u else u.finish) := by
  obtain ⟨⟨_, _, hgot, herrs, _⟩, _⟩ := id h
  have hout : ¬ InWindow ea := fun hw => State.engWr_inWindow hw _ _ _ _ hu
  have hpast : s.past t f = s.pcPast t (opSize f) := by rw [State.past, hea, State.windowRead_outside hout]
  have hp := State.pcPast_canon (t := t) hc (opSize f)
  rw [hpast] at hu
  have heaP : opEa f ((s.pcPast t (opSize f)).thread t) = some ea := by
    rw [State.thread_pcPast hc]
    exact hea
  have done : body (s.pcPast t (opSize f)) { t, f } = .done u := by
    rw [hb, State.storeOp, heaP]
    exact hu
  have got : (u.thread t).winGot = [] := by
    rw [(State.engWr_keepsGot hp herrs _ _ _ _ u hu).got t, State.thread_pcPast hc, hgot]
  rw [he, tRun_done h (fun e => absurd e Bool.false_ne_true) (refused_none rfl hl (.inl rfl)) done, TInfo.ea?, if_pos rfl, hea,
    State.windowRead_outside hout, State.winClear_none got, tEnd]
  cases hd : u.due <;> rfl

end Sys2Proof.Machine
end

section
/-! PROOFS. The floating-point moves and FCMP as instructions (R249, R250). -/

namespace Sys2Proof.Machine

variable {s : State} {t : Nat} {f : TForm} {b : Bytes}

/-- A number's low bytes are those of its remainder. -/
theorem natLE_mod (n v : Nat) : natLE n (v % 2 ^ (8 * n)) = natLE n v := by
  induction n generalizing v with
  | zero => rfl
  | succ n ih =>
    have hpow : 2 ^ (8 * (n + 1)) = 256 * 2 ^ (8 * n) := by rw [Nat.mul_succ, Nat.pow_add, Nat.mul_comm]
    rw [natLE, natLE, hpow, Nat.mod_mul_right_div_self, ih]
    congr 1
    refine BitVec.eq_of_toNat_eq ?_
    rw [BitVec.toNat_ofNat, BitVec.toNat_ofNat]
    exact Nat.mod_mod_of_dvd v ⟨_, rfl⟩

/-- FA's bytes in the format in force (R240). -/
theorem Thread.natLE_faVal (h : Thread) : natLE h.fpBytes h.faVal = natLE h.fpBytes h.fa.toNat := by
  unfold Thread.fpBytes Thread.faVal
  split
  · rfl
  · exact natLE_mod 4 _

variable (hc : s.Canon) (h : Ready s t f)
include hc h

/-- FLD loads the operand's bits (R249). -/
theorem exec_fld (hb : ReadsFp (s.past t f) t f 1 b) (hl : okForm [] [1, 2, 3] f = true) :
    exec (.fld t f) s = .next ((s.past t f).modThread t fun h => { h with fa := BitVec.ofNat 64 (leNat b) }) := by
  refine exec_row hc h (body := bodyFld) rfl hl _ ?_ (fun _ _ => rfl) fun _ => rfl
  rw [bodyFld, State.fpOperand_reads (hb.pcPast hc h)]
  rfl

/-- FCMP, where the flag it raises is not enabled (R241, R250). -/
theorem exec_fcmp (hb : ReadsFp (s.past t f) t f 1 b) (hl : okForm [] [1, 2, 3] f = true)
    (ht : (fpCmp (s.thread t).dbl (s.thread t).fl (s.thread t).faVal (leNat b)).2 &&& (s.thread t).fpcr.toNat / 16 % 32 = 0) :
    exec (.fcmp t f) s = .next ((s.past t f).modThread t fun h => { h with
      fl := (fpCmp (s.thread t).dbl (s.thread t).fl (s.thread t).faVal (leNat b)).1
      fpsr := h.fpsr ||| BitVec.ofNat 32 (fpCmp (s.thread t).dbl (s.thread t).fl (s.thread t).faVal (leNat b)).2 }) := by
  refine exec_row hc h (body := bodyFcmp) rfl hl _ ?_ (fun _ _ => rfl) fun _ => rfl
  rw [bodyFcmp, State.fpOperand_reads (hb.pcPast hc h)]
  dsimp only
  rw [State.thread_pcPast hc, fpFlags, State.thread_pcPast hc]
  exact if_neg (not_not.mpr ht)

/-- FNEG and FABS put a sign into FA's place for it (R249). -/
theorem exec_fpSign {ins : Instr} {k : Bool → Nat → Nat} (he : exec ins s = tRun ins { legal := okV 0, body := fpSign k } t f s)
    (hl : okV 0 f = true) :
    exec ins s = .next ((s.past t f).modThread t fun h => { h with fa := BitVec.ofNat 64 (k (s.thread t).dbl (s.thread t).faVal) }) := by
  refine exec_row hc h he hl _ ?_ (fun _ _ => rfl) fun _ => rfl
  refine congrArg TRes.done (State.modThread_congr ?_)
  rw [State.thread_pcPast hc]
  rfl

omit hc h

/-- Settles O20: FLD, FST, FNEG and FABS by the bits they move, FCMP by the order of its operands' values. -/
theorem fpMovesAndCompares : Obligations.FpMovesAndCompares := by
  intro s t f hc h th
  refine ⟨fun b hb hl => ⟨exec_fld hc h hb hl, fun hen => ?_⟩, fun ea u hea hl hu => ?_, fun hl => ?_⟩
  · refine ⟨_, fpCmp_fpOrder .., (exec_fcmp hc h hb hl ?_).trans ?_⟩
    · rw [fpCmp_snd]
      split
      · next hs => rw [Nat.one_and_eq_mod_two, Nat.mod_mod_of_dvd _ (by decide)]; exact hen.resolve_right (not_not.mpr hs)
      · exact Nat.zero_and _
    · rw [fpCmp_snd, apply_ite (BitVec.ofNat 32)]
      rfl
  · refine exec_store (legal := okForm [] [1, 2, 3]) (body := bodyFst) hc h rfl hl hea ?_ hu
    rw [bodyFst, State.thread_pcPast hc]
    exact congrArg (fun b => State.storeOp _ _ b _) th.natLE_faVal
  · refine ⟨_, _, exec_fpSign hc h rfl hl, exec_fpSign hc h rfl hl, fun k => ⟨?_, ?_⟩⟩
    · rw [Thread.getLsbD_withSign, fpNeg_eq_testBit, Thread.testBit_faVal _ le_rfl]
      split
      · next hk => rw [hk]
      · rfl
    · rw [← fpMag_eq_withSign, Thread.getLsbD_withSign]
      split
      · next hk => rw [hk, decide_eq_false (lt_irrefl _), Bool.false_and]
      · rfl

end Sys2Proof.Machine
end

section
/-! PROOFS. What a crossing of the fabric leaves alone, and the TLPs on their way to the host (R440, R461, R492). -/

namespace Sys2Proof.Machine

/-! ## Registers of low offset -/

/-- The part of a table below a key. -/
def SMap.below {α : Type} (n : Nat) (m : SMap α) : SMap α := m.filter fun e => decide (e.1 < n)

/-- A table and its part below a key read alike there. -/
theorem SMap.get_below_eq {α : Type} (d : Nat → α) (m : SMap α) {n k : Nat} (h : k < n) : SMap.get d (m.below n) k = SMap.get d m k := by
  induction m with
  | nil => rfl
  | cons e m ih =>
    by_cases he : e.1 = k
    · rw [SMap.below, List.filter_cons_of_pos (by simpa [he] using h), SMap.get, SMap.get, if_pos he, if_pos he]
    · rw [SMap.get, if_neg he, ← ih, SMap.below, List.filter_cons]
      split
      · rw [SMap.get, if_neg he, SMap.below]
      · rfl

/-- A write from a key on leaves the part below it. -/
theorem SMap.below_set {α : Type} [DecidableEq α] (d : Nat → α) (m : SMap α) {n k : Nat} (v : α) (h : n ≤ k) :
    (SMap.set d m k v).below n = m.below n := by
  have out : ∀ (w : α) (l : SMap α), SMap.below n ((k, w) :: l) = l.below n := fun w l =>
    List.filter_cons_of_neg (by simpa using h)
  induction m with
  | nil =>
    unfold SMap.set
    split
    · rfl
    · exact out v []
  | cons e m ih =>
    obtain ⟨a, b⟩ := e
    unfold SMap.set
    split
    · split
      · rfl
      · exact out v _
    · split
      · next ha =>
        rw [← ha, out]
        split
        · rfl
        · exact out v _
      · have cons : ∀ l : SMap α, SMap.below n ((a, b) :: l) = if a < n then (a, b) :: l.below n else l.below n := fun l => by
          simp [SMap.below, List.filter_cons]
        rw [cons, cons, ih]

/-! ## What a crossing leaves alone -/

/-- The state without all that a packet changes on its way through the fabric: the packets, Furrows and TLPs themselves, the exchanges and
ports, what threads hold, reports that fall due, and the registers from 0x20_0000 on. -/
def State.still (s : State) : State :=
  { s with fab := [], fbLast := [], furrows := [], hostOut := [], reads := [], ports := [], ops := [], threads := [], due := [],
           regs := s.regs.below 0x200000 }

variable (s : State) {u : State}

/-- A register of low offset. -/
theorem State.reg_of_still {s : State} (h : u.still = s.still) {p : Nat} (hp : p < 0x200000) : u.reg p = s.reg p := by
  have hr : u.regs.below 0x200000 = s.regs.below 0x200000 := congrArg State.regs h
  rw [State.reg, ← SMap.get_below_eq _ _ hp, hr, SMap.get_below_eq _ _ hp, State.reg]

theorem State.vec_of_still {s : State} (h : u.still = s.still) (j : Nat) : u.vec j = s.vec j := (congrArg (State.vec · j) h :)

theorem State.pbit_of_still {s : State} (h : u.still = s.still) (j : Nat) : u.pbit j = s.pbit j := (congrArg (State.pbit · j) h :)

section Registers

variable {o : Nat} (ho : 0x200000 ≤ o)
include ho

theorem State.setReg_still (w : Word) : (s.setReg o w).still = s.still :=
  congrArg (fun r => { s.still with regs := r }) (SMap.below_set _ _ w ho)

theorem State.setBit_still (k : Nat) : (s.setBit o k).still = s.still := by
  unfold State.setBit State.setStatus
  extract_lets v m
  split
  · rfl
  · exact s.setReg_still ho _

theorem State.bump_still (n : Nat) : (s.bump o n).still = s.still :=
  (State.setReg_still _ (Nat.le_add_right_of_le ho) _).trans (s.setReg_still ho _)

end Registers

theorem State.metErr_still (r : MemRegion) (i w : Nat) : (s.metErr r i w).still = s.still := by
  unfold State.metErr
  split
  · rfl
  split <;> rfl

theorem State.injDone_still : s.injDone.still = s.still :=
  (State.setBit_still _ (by decide) _).trans (s.setReg_still (by decide) _)

theorem State.setFbWait_still (o r v : Nat) : (s.setFbWait o r v).still = s.still := by
  unfold State.setFbWait
  split
  · rfl
  · exact s.setReg_still (by unfold fbPrio; omega) _

theorem State.fabDecide_still (o : Nat) (e : List Nat) (w : Nat) (forced : Bool) : (s.fabDecide o e w forced).still = s.still := by
  unfold State.fabDecide
  extract_lets s₁ s₂ s₃
  have h₁ : s₁.still = s.still :=
    List.foldlRecOn e _ (motive := fun u : State => u.still = s.still) rfl fun u hu r _ => (u.setFbWait_still ..).trans hu
  have h₃ : s₃.still = s₂.still := by
    unfold s₃
    split <;> rfl
  split
  · exact (s₃.bump_still (by unfold fbOut; omega) 1).trans (h₃.trans h₁)
  · exact h₃.trans h₁

theorem State.furrowPass_still (f : Nat) : (s.furrowPass f).1.still = s.still := by
  unfold State.furrowPass
  extract_lets h
  split
  · rfl
  split
  · exact (State.metErr_still ..).trans ((State.setReg_still _ (by unfold fu; omega) _).trans s.injDone_still)
  · exact (State.metErr_still ..).trans ((State.bump_still _ (by unfold fu; omega) 1).trans
      ((State.setBit_still _ (by unfold fu; omega) 1).trans s.injDone_still))

theorem State.flitOut_still (p : Nat) (f : Flit) : (s.flitOut p f).still = s.still := by
  unfold State.flitOut
  extract_lets h u
  unfold u
  split
  · rfl
  · exact s.injDone_still

theorem State.dropPkts_still (t n : Nat) : (s.dropPkts t n).still = s.still := by
  unfold State.dropPkts
  split
  · rfl
  · exact (State.setBit_still _ (by unfold fuTg; omega) 3).trans (State.setReg_still _ (by unfold fuTg; omega) _)

theorem State.pktIn_still (t : Nat) (bd : Binding) (p : Pkt) : (s.pktIn t bd p).still = s.still := by
  unfold State.pktIn
  split
  · exact s.dropPkts_still t 1
  · extract_lets hit s₁ s₂
    have h₁ : s₁.still = s.still := by
      unfold s₁
      split
      · rfl
      · exact s.injDone_still
    have h₂ : s₂.still = s₁.still := by
      unfold s₂
      split
      · exact (State.metErr_still ..).trans (s₁.setReg_still (by unfold fuTg; omega) _)
      · rfl
    exact h₂.trans h₁

theorem State.arrived_still (k : FPkt) : (s.arrived k).still = s.still := by
  unfold State.arrived
  split
  · exact s.furrowPass_still 1
  · exact s.furrowPass_still 1
  · exact s.flitOut_still _ _
  · exact s.pktIn_still _ _ _

theorem State.fabRun_still (o n : Nat) : (State.fabRun o n s).still = s.still := by
  induction n generalizing s with
  | zero => rfl
  | succ n ih =>
    rw [State.fabRun]
    split
    · rfl
    · split
      · rfl
      · extract_lets s₁
        have h₁ : s₁.still = s.still := s.fabDecide_still ..
        split
        · exact (ih _).trans h₁
        · exact ((ih _).trans (State.arrived_still _ _)).trans h₁

/-- A packet handed to the fabric. -/
theorem State.offer_still (k : FPkt) : (s.offer k).still = s.still := State.fabRun_still _ _ _

theorem State.hostWrite_still (fn addr : Nat) (b : Bytes) (data : Bool) (src : Nat) (x : Option Nat) :
    (s.hostWrite fn addr b data src x).still = s.still := s.offer_still _

/-! ## What is on its way to the host -/

/-- What a TLP that leaves meets: the packets of the fabric, the TLPs in the output Furrow, and the armed injection. -/
def State.outbound (s : State) : List FPkt × List Tlp × Word := (s.fab, s.hostOut, s.reg 0x700A10)

/-- The TLP that a packet carries. -/
def FPkt.tlp? (k : FPkt) : Option Tlp :=
  match k.body with
  | .write t => some t
  | .read t _ => some t
  | _ => none

theorem State.waitingTlps_eq : s.waitingTlps = s.hostOut ++ s.fab.filterMap FPkt.tlp? := rfl

/-- A TLP on its way, between states that differ in nothing it meets. -/
theorem SendsTlp.congr {s s' m m' : State} {t : Tlp} (hs : s'.outbound = s.outbound) (hm : m'.outbound = m.outbound) (h : SendsTlp s m t) :
    SendsTlp s' m' t := by
  simp only [State.outbound, Prod.mk.injEq] at hs hm
  obtain ⟨sfab, sout, sreg⟩ := hs
  obtain ⟨mfab, mout, _⟩ := hm
  have hit : s'.furrowHit = s.furrowHit := by
    unfold State.furrowHit State.injBurst State.rb State.rf State.rn
    rw [sreg]
  have used : s'.outUsed 0 = s.outUsed 0 := by simp only [State.outUsed, if_pos, sfab, sout]
  unfold SendsTlp at h ⊢
  rwa [hit, State.waitingTlps_eq, State.waitingTlps_eq, used, sfab, sout, mfab, mout]

section Registers

variable {o : Nat}

theorem State.setReg_outbound (ho : o ≠ 0x700A10) (w : Word) : (s.setReg o w).outbound = s.outbound :=
  congrArg (fun r => (s.fab, s.hostOut, r)) (s.reg_setReg_ne w ho.symm)

theorem State.setBit_outbound (ho : o ≠ 0x700A10) (k : Nat) : (s.setBit o k).outbound = s.outbound := by
  unfold State.setBit State.setStatus
  extract_lets v m
  split
  · rfl
  · exact s.setReg_outbound ho _

theorem State.bump_outbound (ho : o ≠ 0x700A10) (ho' : o + 4 ≠ 0x700A10) (n : Nat) : (s.bump o n).outbound = s.outbound :=
  (State.setReg_outbound _ ho' _).trans (s.setReg_outbound ho _)

end Registers

theorem State.setFbWait_outbound {r : Nat} (hr : r < 12) (v : Nat) : (s.setFbWait 0 r v).outbound = s.outbound := by
  unfold State.setFbWait
  split
  · rfl
  · exact s.setReg_outbound (by unfold fbPrio; omega) _

theorem State.dropPkts_outbound (t n : Nat) : (s.dropPkts t n).outbound = s.outbound := by
  unfold State.dropPkts
  split
  · rfl
  · exact (State.setBit_outbound _ (by unfold fuTg; omega) 3).trans (State.setReg_outbound _ (by unfold fuTg; omega) _)

theorem State.fabDecide_outbound (e : List Nat) (he : ∀ r ∈ e, r < 12) (w : Nat) (forced : Bool) :
    (s.fabDecide 0 e w forced).outbound = s.outbound := by
  unfold State.fabDecide
  extract_lets s₁ s₂ s₃
  have h₁ : s₁.outbound = s.outbound :=
    List.foldlRecOn e _ (motive := fun u : State => u.outbound = s.outbound) rfl fun u hu r hr => (u.setFbWait_outbound (he r hr) _).trans hu
  have h₃ : s₃.outbound = s₂.outbound := by
    unfold s₃
    split <;> rfl
  split
  · exact (s₃.bump_outbound (by decide) (by decide) 1).trans (h₃.trans h₁)
  · exact h₃.trans h₁

/-- What arrives where no injection is armed: a TLP goes to the end of the output Furrow. -/
theorem State.arrived_outbound (h : s.furrowHit = 0) (k : FPkt) :
    (s.arrived k).outbound = (s.fab, s.hostOut ++ k.tlp?.toList, s.reg 0x700A10) := by
  have pass : s.furrowPass 1 = (s, true) := if_pos h
  have tlp : ∀ (t : Tlp) (r : Option ReadReq), (s.tlpOut t r).outbound = (s.fab, s.hostOut ++ [t], s.reg 0x700A10) := fun t r => by
    simp only [State.tlpOut, pass]
    rfl
  obtain ⟨src, dst, words, moved, x, body⟩ := k
  unfold State.arrived FPkt.tlp?
  cases body with
  | write t => exact tlp t none
  | read t r => exact tlp t (some r)
  | flit p f =>
    simp only [Option.toList, List.append_nil, State.flitOut, h, if_true]
    rfl
  | pkt t b p =>
    simp only [Option.toList, List.append_nil, State.pktIn, h, if_true]
    split
    · exact s.dropPkts_outbound t 1
    · rfl

/-- A state in which no injection is armed for a Furrow stays one as long as the armed injection is. -/
theorem State.furrowHit_of_reg {s : State} (h : u.reg 0x700A10 = s.reg 0x700A10) : u.furrowHit = s.furrowHit := by
  unfold State.furrowHit State.injBurst State.rb State.rf State.rn
  rw [h]

theorem State.mem_inPkts {r : Nat} {k : FPkt} (h : k ∈ s.inPkts r) : k ∈ s.fab := by
  have sub : ∀ (l : List FPkt) (w : Nat), k ∈ inFurrow r w l → k ∈ l := by
    intro l
    induction l with
    | nil => exact fun _ h => h
    | cons j l ih =>
      intro w h
      unfold inFurrow at h
      split at h
      · exact List.mem_cons_of_mem _ (ih _ h)
      split at h
      · rcases List.mem_cons.mp h with rfl | h
        · exact List.mem_cons_self
        · exact List.mem_cons_of_mem _ (ih _ h)
      · cases h
  exact sub _ _ h

/-- The packet that a requester offers is one of the sequence that it is chosen from. -/
theorem mem_of_fabFirst {ok : FPkt → Bool} {k : FPkt} {l : List FPkt} {seen : List Nat} (h : fabFirst ok seen l = some k) : k ∈ l := by
  induction l generalizing seen with
  | nil => cases h
  | cons j l ih =>
    unfold fabFirst at h
    split at h
    · exact List.mem_cons_of_mem _ (ih h)
    split at h
    · cases h
      exact List.mem_cons_self
    · exact List.mem_cons_of_mem _ (ih h)

/-- The packet that a requester offers waits before the fabric. -/
theorem State.mem_fab_of_fabHead {o r : Nat} {k : FPkt} (h : s.fabHead o r = some k) : k ∈ s.fab :=
  s.mem_inPkts (List.mem_of_mem_filter (mem_of_fabFirst h))

/-- A packet's next word crosses: it carries the same TLP. -/
theorem filterMap_tlp_replace (l : List FPkt) (k : FPkt) (n : Nat) :
    (l.replace k { k with moved := n }).filterMap FPkt.tlp? = l.filterMap FPkt.tlp? := by
  induction l with
  | nil => rfl
  | cons j l ih =>
    rw [List.replace_cons]
    split
    · next h =>
      rw [eq_of_beq h]
      rfl
    · rw [List.filterMap_cons, List.filterMap_cons, ih]

/-- No TLP is lost or made while packets cross to the host port, where no injection is armed. -/
theorem State.fabRun_waitingTlps (h : s.furrowHit = 0) (n : Nat) : (State.fabRun 0 n s).waitingTlps.Perm s.waitingTlps := by
  induction n generalizing s with
  | zero => exact .refl _
  | succ n ih =>
    rw [State.fabRun]
    split
    · exact .refl _
    next w forced _ =>
    split
    · exact .refl _
    next k hk =>
    extract_lets s₁
    have same : s₁.outbound = s.outbound := s.fabDecide_outbound _ (fun r hr => List.mem_range.mp (List.mem_of_mem_filter hr)) w forced
    simp only [State.outbound, Prod.mk.injEq] at same
    obtain ⟨hfab, hout, hreg⟩ := same
    have hit : s₁.furrowHit = 0 := (State.furrowHit_of_reg hreg).trans h
    split
    · refine (ih { s₁ with fab := s₁.fab.replace k { k with moved := k.moved + 1 } } hit).trans (.of_eq ?_)
      simp only [State.waitingTlps_eq, filterMap_tlp_replace, hfab, hout]
    · have arrived := State.arrived_outbound { s₁ with fab := s₁.fab.erase k } hit k
      simp only [State.outbound, Prod.mk.injEq] at arrived
      obtain ⟨afab, aout, areg⟩ := arrived
      refine (ih _ ((State.furrowHit_of_reg areg).trans hit)).trans ?_
      rw [State.waitingTlps_eq, State.waitingTlps_eq, afab, aout, hfab, hout, List.append_assoc]
      refine List.Perm.append_left _ ?_
      refine .trans ?_ ((List.perm_cons_erase (s.mem_fab_of_fabHead hk)).symm.filterMap _)
      rw [List.filterMap_cons]
      cases k.tlp? <;> rfl

/-! ## A TLP with nothing in its way -/

/-- With no requester, none is chosen. -/
theorem rrBest_none (last : Nat) (score : Nat → Nat) {e : List Nat} (he : ∀ r, r ∉ e) : rrBest last score e = none := by
  simp [rrBest, he]

/-- With one requester, that one is chosen. -/
theorem rrBest_single (last : Nat) (score : Nat → Nat) {e : List Nat} {w : Nat} (he : ∀ r, r ∈ e ↔ r = w) (hw : w < 12) :
    rrBest last score e = some w := by
  have turn : ∀ (l : List Nat) (best : Option Nat), (best = none ∨ best = some w) →
      (best = some w ∨ ∃ i ∈ l, (last + 1 + i) % 12 = w) →
      l.foldl (fun best i =>
        let r := (last + 1 + i) % 12
        if r ∉ e then best
        else match best with
          | some b => if score b < score r then some r else some b
          | none => some r) best = some w := by
    intro l
    induction l with
    | nil => exact fun best _ h => h.elim id fun ⟨i, hi, _⟩ => nomatch hi
    | cons i l ih =>
      intro best hb h
      rw [List.foldl_cons]
      by_cases hi : (last + 1 + i) % 12 = w
      · refine ih _ (.inr ?_) (.inl ?_) <;> rcases hb with rfl | rfl <;> simp [he, hi]
      · rw [if_pos (by simpa [he] using hi)]
        exact ih best hb (h.imp_right fun ⟨j, hj, e⟩ => ⟨j, (List.mem_cons.mp hj).resolve_left fun c => hi (c ▸ e), e⟩)
  exact turn _ _ (.inl rfl) (.inr ⟨(w + 11 - last % 12) % 12, List.mem_range.mpr (Nat.mod_lt _ (by decide)), by omega⟩)

/-- With one requester, that one wins, forced or not. -/
theorem State.fabPick_single (o : Nat) {e : List Nat} {w : Nat} (he : ∀ r, r ∈ e ↔ r = w) (hw : w < 12) :
    ∃ forced, s.fabPick o e = some (w, forced) := by
  unfold State.fabPick
  extract_lets f
  by_cases hf : s.fbLimit o ≤ s.fbWait o w
  · have : ∀ r, r ∈ f ↔ r = w := fun r => by simpa [f, he] using fun h => h ▸ hf
    rw [rrBest_single _ _ this hw]
    exact ⟨true, rfl⟩
  · have : ∀ r, r ∉ f := fun r hr => by
      simp only [f, List.mem_filter, he, decide_eq_true_eq] at hr
      exact hf (hr.1 ▸ hr.2)
    rw [rrBest_none _ _ this, rrBest_single _ _ he hw]
    exact ⟨false, rfl⟩

/-- Nothing crosses where no packet waits. -/
theorem State.fabRun_of_empty {s : State} (h : s.fab = []) (o n : Nat) : State.fabRun o n s = s := by
  have head : ∀ r, s.fabHead o r = none := fun r => by simp [State.fabHead, State.inPkts, h, inFurrow, fabFirst]
  have elig : s.fabElig o = [] := by simp [State.fabElig, head]
  cases n with
  | zero => rfl
  | succ n => simp [State.fabRun, elig, State.fabPick, rrBest_none]

/-- A packet of one word that waits alone, with room for it in the output Furrow, is offered by its own requester and by no other. -/
theorem State.fabHead_lone {s : State} {k : FPkt} {t : Tlp} (hs : s.fab = [k]) (hd : k.dst = 0) (hw : k.words = 1) (hm : k.moved = 0)
    (ht : k.tlp? = some t) (room : s.outUsed 0 + 1 ≤ outSize 0) (r : Nat) :
    s.fabHead 0 r = if r = k.src then some k else none := by
  have size : 1 ≤ inSize r := by
    unfold inSize
    split_ifs <;> decide
  have fits : s.hasRoom k = true := by
    unfold State.hasRoom
    rw [hd, hw, decide_eq_true room, Bool.true_and]
    unfold FPkt.tlp? at ht
    split <;> first | rfl | simp_all
  have free : k.oph? = none := by
    unfold FPkt.tlp? at ht
    unfold FPkt.oph?
    split <;> simp_all
  unfold State.fabHead State.inPkts
  rw [hs]
  by_cases hr : r = k.src
  · simp [inFurrow, hr ▸ size, hd, hw, hm, fabFirst, fits, free, hr]
  · simp [inFurrow, hr, Ne.symm hr, fabFirst]

/-- A TLP of one word that waits alone, with room for it in the output Furrow, crosses at once. -/
theorem State.fabRun_lone {s : State} {k : FPkt} {t : Tlp} (hs : s.fab = [k]) (hd : k.dst = 0) (hw : k.words = 1) (hm : k.moved = 0)
    (ht : k.tlp? = some t) (hsrc : k.src < 12) (room : s.outUsed 0 + 1 ≤ outSize 0) (hit : s.furrowHit = 0) (n : Nat) :
    (State.fabRun 0 (n + 1) s).hostOut = s.hostOut ++ [t] := by
  have head := State.fabHead_lone hs hd hw hm ht room
  have elig : ∀ r, r ∈ s.fabElig 0 ↔ r = k.src := fun r => by
    rw [State.fabElig, List.mem_filter, List.mem_range, head]
    by_cases hr : r = k.src <;> simp [hr, hsrc]
  obtain ⟨forced, pick⟩ := s.fabPick_single 0 elig hsrc
  have same : (s.fabDecide 0 (s.fabElig 0) k.src forced).outbound = s.outbound :=
    s.fabDecide_outbound _ (fun r hr => (elig r).mp hr ▸ hsrc) _ forced
  simp only [State.outbound, Prod.mk.injEq] at same
  obtain ⟨hfab, hout, hreg⟩ := same
  have arrived := State.arrived_outbound { s.fabDecide 0 (s.fabElig 0) k.src forced with fab := [] }
    ((State.furrowHit_of_reg hreg).trans hit) k
  simp only [State.outbound, Prod.mk.injEq] at arrived
  obtain ⟨afab, aout, _⟩ := arrived
  rw [State.fabRun]
  simp only [pick, head, if_true]
  rw [if_neg (by simp [hw]), hfab, hs, List.erase_cons_head, State.fabRun_of_empty afab, aout, ht, hout]
  rfl

/-- A TLP of one word that a fabric port hands to the fabric is one more on its way. -/
theorem State.offer_sends {k : FPkt} {t : Tlp} (ht : k.tlp? = some t) (hd : k.dst = 0) (hk : k.words = t.words) (hw : t.words = 1)
    (hm : k.moved = 0) (hsrc : k.src < 12) : SendsTlp s (s.offer k) t := by
  intro hit
  have crosses : s.offer k = State.fabRun 0 ((s.fab ++ [k]).foldl (fun a k => a + k.words) 1) { s with fab := s.fab ++ [k] } := by
    rw [State.offer, hd]
    rfl
  rw [crosses]
  constructor
  · refine (State.fabRun_waitingTlps { s with fab := s.fab ++ [k] } hit _).trans ?_
    rw [State.waitingTlps_eq, State.waitingTlps_eq, List.filterMap_append, ← List.append_assoc, List.filterMap_cons, ht]
    exact List.perm_append_singleton ..
  · intro hfab room
    have used : State.outUsed { s with fab := [k] } 0 = s.outUsed 0 := by simp [State.outUsed, hfab, hm]
    rw [hfab, List.nil_append, List.foldl_cons, List.foldl_nil, hk, hw]
    exact State.fabRun_lone (s := { s with fab := [k] }) rfl hd (hk.trans hw) hm ht hsrc (by rwa [used, ← hw]) hit 1

/-- A write of at most 48 bytes from a fabric port is one more TLP on its way. -/
theorem State.hostWrite_sends (fn addr : Nat) {b : Bytes} (hb : b.length ≤ 48) (data : Bool) {src : Nat} (hsrc : src < 12) (x : Option Nat) :
    SendsTlp s (s.hostWrite fn addr b data src x) (.write fn addr b (data && (s.fnc fn).relaxed) (s.fnc fn).ecrc) :=
  State.offer_sends s rfl rfl rfl (by simp only [Tlp.words, pktWords]; omega) rfl hsrc

end Sys2Proof.Machine
end

section
/-! PROOFS. MSI-X messages, the MSI-X table and CQ coalescing (R489, R490, R492, R493). -/

namespace Sys2Proof.Machine

/-! ## Bits of registers -/

theorem bitOn_eq_testBit (v k : Nat) : bitOn v k = v.testBit k := by
  rw [Nat.testBit_eq_decide_div_mod_eq]
  rfl

/-- A field of a register of which a write replaces the bits of a mask: where the mask has the whole field, it is the field written. -/
theorem bits_merge (old v m : Word) {lo w : Nat} (h : ∀ i < w, m.getLsbD (lo + i) = true) :
    bits ((old &&& ~~~m) ||| (v &&& m)).toNat lo w = bits v.toNat lo w := by
  refine Nat.eq_of_testBit_eq fun i => ?_
  simp only [bits, Nat.testBit_mod_two_pow, Nat.testBit_div_two_pow, BitVec.testBit_toNat]
  by_cases hi : i < w
  · have hm := h i hi
    rw [Nat.add_comm] at hm
    simp [hi, hm]
  · simp [hi]

variable {s : State}

theorem State.reg_bump_ne (s : State) {o p : Nat} (h : p ≠ o) (h' : p ≠ o + 4) (n : Nat) : (s.bump o n).reg p = s.reg p :=
  (State.reg_setReg_ne _ _ h').trans (s.reg_setReg_ne _ h)

theorem State.reg_setBit_ne (s : State) {o p : Nat} (h : p ≠ o) (k : Nat) : (s.setBit o k).reg p = s.reg p := by
  unfold State.setBit State.setStatus
  extract_lets v m
  split
  · rfl
  · exact s.reg_setReg_ne _ h

/-- A status bit that is set reads 1 (R653). -/
theorem State.rb_setBit (hc : s.Canon) (o : Nat) {k : Nat} (hk : k < 24) : (s.setBit o k).rb o k = true := by
  have hm : (BitVec.ofNat 32 (2 ^ k % 2 ^ 24)).getLsbD k = true := by
    rw [BitVec.getLsbD_ofNat, Nat.testBit_mod_two_pow, Nat.testBit_two_pow_self, decide_eq_true hk, decide_eq_true (by omega)]
    rfl
  have low : (0xFFFFFF : Word).getLsbD k = true := (by decide : ∀ k < 24, (0xFFFFFF : Word).getLsbD k = true) k hk
  rw [State.rb, State.rn, bitOn_eq_testBit, BitVec.testBit_toNat]
  unfold State.setBit State.setStatus
  extract_lets v m
  change m.getLsbD k = true at hm
  split
  · next h =>
    have bit : (m &&& ~~~v).getLsbD k = false := by rw [h]; exact BitVec.getLsbD_zero
    rw [BitVec.getLsbD_and, hm, Bool.true_and, BitVec.getLsbD_not, decide_eq_true (by omega : k < 32), Bool.true_and,
      Bool.not_eq_false'] at bit
    exact bit
  · rw [State.reg_setReg hc.regs, BitVec.getLsbD_or, BitVec.getLsbD_and, BitVec.getLsbD_or, hm, Bool.or_true, Bool.true_and]
    exact (congrArg (· || _) low).trans (Bool.true_or _)

/-! ## A message falls due (R492, R511) -/

section Message

variable (s) (fn vec : Nat)

/-- A function with MSI-X disabled sends nothing, and nothing waits. -/
theorem State.message_disabled {fn : Nat} (h : (s.fnc fn).msixEn = false) : s.message fn vec = s := by
  unfold State.message
  extract_lets k
  rw [if_pos (by simp [h])]

/-- What a message does: nothing; it waits as a pending bit; or it is sent. -/
theorem State.message_cases :
    s.message fn vec = s ∨ s.message fn vec = (s.setPbit (fn * 2048 + vec) true).bump (cnt 0x180040 6) ∨
    s.message fn vec = (s.hostWrite fn (s.vec (fn * 2048 + vec)).addr.toNat (natLE 4 (s.vec (fn * 2048 + vec)).data.toNat)).bump
      (cnt 0x180040 5) := by
  unfold State.message
  extract_lets k
  split
  · exact .inl rfl
  split
  · exact .inr (.inl rfl)
  · exact .inr (.inr rfl)

/-- A message writes no register of a CQ's coalescing, and no queue's hidden state. -/
theorem State.message_frame : (s.message fn vec).queues = s.queues ∧ ∀ p, 0x180100 ≤ p → p < 0x200000 → (s.message fn vec).reg p = s.reg p := by
  have bump : ∀ (u : State) k p, k < 8 → 0x180100 ≤ p → (u.bump (cnt 0x180040 k)).reg p = u.reg p := fun u k p hk hp =>
    u.reg_bump_ne (by unfold cnt; omega) (by unfold cnt; omega) 1
  rcases s.message_cases fn vec with e | e | e <;> rw [e]
  · exact ⟨rfl, fun _ _ _ => rfl⟩
  · exact ⟨rfl, fun p hp _ => bump _ 6 p (by decide) hp⟩
  · have still := s.hostWrite_still fn (s.vec (fn * 2048 + vec)).addr.toNat (natLE 4 (s.vec (fn * 2048 + vec)).data.toNat) false 11 none
    exact ⟨(congrArg State.queues still :), fun p hp hp' => (bump _ 5 p (by decide) hp).trans (State.reg_of_still still hp')⟩

variable {s fn vec} (hl : s.life = .live) (hs : s.safe = false) (hv : vec < msixSize fn) (he : (s.fnc fn).msixEn = true)
include hl hs hv he

/-- A message on a masked vector waits. -/
theorem State.message_masked (h : (s.vec (fn * 2048 + vec)).mask = true ∨ (s.fnc fn).fmask = true) :
    s.message fn vec = (s.setPbit (fn * 2048 + vec) true).bump (cnt 0x180040 6) := by
  unfold State.message
  extract_lets k
  rw [if_neg (by simp [hl, hs, he, hv]), if_pos (by rcases h with h | h <;> simp [k, h])]

/-- A message that nothing masks is sent. -/
theorem State.message_unmasked (hm : s.masters fn = true) (h : (s.vec (fn * 2048 + vec)).mask = false) (hf : (s.fnc fn).fmask = false) :
    s.message fn vec = (s.hostWrite fn (s.vec (fn * 2048 + vec)).addr.toNat (natLE 4 (s.vec (fn * 2048 + vec)).data.toNat)).bump
      (cnt 0x180040 5) := by
  unfold State.message
  extract_lets k
  rw [if_neg (by simp [hl, hs, he, hv]), if_neg (by simp [k, h, hf, hm])]

end Message

/-- The TLP of a message (R492), with ECRC where the function generates it (R522). -/
def State.messageTlp (s : State) (fn : Nat) (e : MsixEntry) : Tlp := .write fn e.addr.toNat (natLE 4 e.data.toNat) false (s.fnc fn).ecrc

/-- An entry's data, written to its address, is on its way. -/
theorem State.vector_sends (s : State) (fn : Nat) (e : MsixEntry) {m : State}
    (hm : m.outbound = (s.hostWrite fn e.addr.toNat (natLE 4 e.data.toNat)).outbound) : SendsTlp s m (s.messageTlp fn e) :=
  SendsTlp.congr rfl hm (s.hostWrite_sends fn _ (by simp) false (by decide) none)

theorem State.message_sends {fn vec : Nat} (hl : s.life = .live) (hs : s.safe = false) (hv : vec < msixSize fn)
    (he : (s.fnc fn).msixEn = true) (hm : s.masters fn = true) (h : (s.vec (fn * 2048 + vec)).mask = false) (hf : (s.fnc fn).fmask = false) :
    SendsTlp s (s.message fn vec) (s.messageTlp fn (s.vec (fn * 2048 + vec))) :=
  s.vector_sends fn _ (by
    rw [State.message_unmasked hl hs hv he hm h hf]
    exact State.bump_outbound _ (by decide) (by decide) 1)

/-! ## CQ coalescing (R489, R490) -/

/-- A CQ whose U returns to 0, and whose interval runs no more. -/
def State.cqCleared (s : State) (q : Nat) : State := (s.wf (cqi q + 4) 16 8 0).modQueue q fun k => { k with timer := false }

theorem State.cqSignal_eq (s : State) (q : Nat) :
    s.cqSignal q = if msixSize (s.qFn q) ≤ s.rf (cqi q) 0 11 then (s.cqCleared q).setBit 0x180004 5
      else (s.cqCleared q).message (s.qFn q) (s.rf (cqi q) 0 11) := rfl

theorem cqi_bounds {q : Nat} (hq : q < 8192) : 0x1A0000 ≤ cqi q ∧ cqi q < 0x1B0000 := by unfold cqi; omega

theorem State.cqCleared_canon (hc : s.Canon) (q : Nat) : (s.cqCleared q).Canon :=
  (State.modQueue_keeps (κ := {}) _ _ _ (State.wf_keeps _ _ _ _ _ .rfl)).canon hc

theorem State.cqCleared_reads (hc : s.Canon) (q : Nat) :
    (s.cqCleared q).rf (cqi q + 4) 16 8 = 0 ∧ (s.cqCleared q).rf (cqi q + 4) 0 16 = s.rf (cqi q + 4) 0 16 ∧
    ((s.cqCleared q).queue q).timer = false := by
  refine ⟨State.rf_wf hc.regs _ _ _ _ (by decide), State.rf_wf_other hc.regs _ _ _ _ _ _ (by decide) (.inr (by decide)), ?_⟩
  have wf : (s.wf (cqi q + 4) 16 8 0).Canon := (State.wf_keeps (κ := {}) _ _ _ _ _ .rfl).canon hc
  exact congrArg Queue.timer (State.queue_setQueue _ wf q _)

/-- What a CQ's signal does to its coalescing, whatever its vector brings. -/
theorem State.cqSignal_reads (hc : s.Canon) {q : Nat} (hq : q < 8192) :
    (s.cqSignal q).rf (cqi q + 4) 16 8 = 0 ∧ ((s.cqSignal q).queue q).timer = false := by
  obtain ⟨hu, _, ht⟩ := State.cqCleared_reads hc q
  have ⟨hlo, hhi⟩ := cqi_bounds hq
  have same : (s.cqSignal q).queues = (s.cqCleared q).queues ∧ (s.cqSignal q).reg (cqi q + 4) = (s.cqCleared q).reg (cqi q + 4) := by
    rw [State.cqSignal_eq]
    split
    · refine ⟨?_, State.reg_setBit_ne _ (by omega) 5⟩
      unfold State.setBit State.setStatus
      extract_lets v m
      split <;> rfl
    · have ⟨queues, regs⟩ := (s.cqCleared q).message_frame (s.qFn q) (s.rf (cqi q) 0 11)
      exact ⟨queues, regs _ (by omega) (by omega)⟩
  constructor
  · rw [State.rf, State.rn, same.2]
    exact hu
  · rw [State.queue, same.1]
    exact ht

/-- The row of RK_CQI_CFG. -/
def cqiRow : RegRow := ⟨"RK_CQI_CFG", 0x1A0000, 8192, 0x8, 1, 1, 0x10000, [⟨0, 11, .rw, false⟩, ⟨11, 1, .rw, false⟩, ⟨16, 8, .rw, false⟩], false⟩

/-- A row has no register behind its last. -/
theorem RegRow.has_behind {r : RegRow} {off : Nat} (hs : 0 < r.s1) (h : r.base + r.n1 * r.s1 ≤ off) : r.has off = false := by
  have : r.n1 ≤ (r.ix off).1 := (Nat.le_div_iff_mul_le hs).mpr (Nat.le_sub_of_add_le' h)
  simp [RegRow.has, Nat.not_lt.mpr this]

theorem regAt_cqi {q : Nat} (hq : q < 8192) : regAt (cqi q) = some cqiRow := by
  have ⟨hlo, hhi⟩ := cqi_bounds hq
  have block : regBlock (cqi q) = regsRk := by
    unfold regBlock
    simp only [show ¬ cqi q < 0x40000 by omega, show ¬ cqi q < 0x80000 by omega, show ¬ cqi q < 0xC0000 by omega,
      show ¬ cqi q < 0x100000 by omega, show ¬ cqi q < 0x180000 by omega, show cqi q < 0x200000 by omega, if_true, if_false]
  have has : cqiRow.has (cqi q) = true := by simp [RegRow.has, RegRow.ix, cqiRow, cqi, hq]
  have earlier : ∀ r ∈ regsRk.take 9, 0 < r.s1 ∧ r.base + r.n1 * r.s1 ≤ 0x1A0000 := by decide
  rw [regAt, block]
  refine List.find?_eq_some_iff_append.mpr ⟨has, regsRk.take 9, regsRk.drop 10, rfl, fun r hr => ?_⟩
  rw [RegRow.has_behind (earlier r hr).1 ((earlier r hr).2.trans hlo)]
  rfl

/-- The bits of RK_CQI_CFG that a write replaces, whoever writes it. -/
theorem cqiRow_writable (adm : Bool) (v : Word) : cqiRow.writable adm v = 0xFF0FFF := by
  have none : (0 : Word) &&& (v >>> 16) = 0 := BitVec.zero_and
  cases adm <;> exact (congrArg (_ ||| ·) none).trans rfl

/-- RK_CQI_CFG with the bits of its fields replaced. -/
def State.cqiSet (s : State) (q : Nat) (v : Word) : State := s.setReg (cqi q) ((s.reg (cqi q) &&& ~~~0xFF0FFF) ||| (v &&& 0xFF0FFF))

/-- A write of RK_CQI_CFG replaces its fields and starts its CQ's coalescing anew (R490). -/
theorem State.cqiWrite_eq (s : State) (who : Req) {q : Nat} (hq : q < 8192) (v : Word) :
    s.cqiWrite who q v = (s.cqiSet q v).cqCleared q := by
  have ⟨hlo, hhi⟩ := cqi_bounds hq
  have apart : ∀ adm : Bool, (cqiRow.mask fun f => (adm || !f.g) && decide (f.acc = .rwu)) = 0 := by decide
  have plain : s.softWrite who (cqi q) v = s.cqiSet q v := by
    unfold State.softWrite
    rw [regAt_cqi hq]
    simp only [cqiRow_writable, apart, if_true]
    rw [if_neg (by omega)]
    rfl
  rw [State.cqiWrite, plain]
  rfl

/-- The fields of RK_CQI_CFG after a write, and the coalescing they govern. -/
theorem State.cqiSet_reads (hc : s.Canon) {q : Nat} (v : Word) :
    let m := (s.cqiSet q v).cqCleared q
    m.rf (cqi q + 4) 16 8 = 0 ∧ m.rf (cqi q + 4) 0 16 = s.rf (cqi q + 4) 0 16 ∧ (m.queue q).timer = false ∧
    m.rf (cqi q) 0 11 = v.toNat % 2048 ∧ m.rb (cqi q) 11 = v.getLsbD 11 ∧ m.rf (cqi q) 16 8 = bits v.toNat 16 8 := by
  intro m
  obtain ⟨hu, ht, hrun⟩ := State.cqCleared_reads ((State.setReg_keeps (κ := {}) _ _ _ .rfl).canon hc : (s.cqiSet q v).Canon) q
  have cfg : m.reg (cqi q) = (s.reg (cqi q) &&& ~~~0xFF0FFF) ||| (v &&& 0xFF0FFF) :=
    (State.reg_wf_ne _ 16 8 0 (by omega : cqi q ≠ cqi q + 4)).trans (State.reg_setReg hc.regs ..)
  have field : ∀ lo w, (∀ i < w, (0xFF0FFF : Word).getLsbD (lo + i) = true) → m.rf (cqi q) lo w = bits v.toNat lo w := fun lo w h => by
    rw [State.rf, State.rn, cfg]
    exact bits_merge _ _ _ h
  have time : (s.cqiSet q v).rf (cqi q + 4) 0 16 = s.rf (cqi q + 4) 0 16 := by
    rw [State.rf, State.rn, State.cqiSet, State.reg_setReg_ne s _ (by omega)]
    rfl
  refine ⟨hu, ht.trans time, hrun, ?_, ?_, field 16 8 (by decide)⟩
  · rw [field 0 11 (by decide), bits, Nat.pow_zero, Nat.div_one]
    rfl
  · rw [State.rb, bitOn_eq_bits, ← State.rf, field 11 1 (by decide), ← bitOn_eq_bits, bitOn_eq_testBit, BitVec.testBit_toNat]

/-! ## The MSI-X table (R493) -/

/-- The low half of an address replaced. -/
theorem lowHalf_replaced (a : BitVec 64) (w : Word) :
    let r := (a &&& 0xFFFFFFFF00000000#64) ||| w.setWidth 64
    r.setWidth 32 = w ∧ (r >>> 32).setWidth 32 = (a >>> 32).setWidth 32 := by
  have high : ∀ i < 64, (0xFFFFFFFF00000000#64).getLsbD i = decide (32 ≤ i) := by decide
  constructor <;> refine BitVec.eq_of_getLsbD_eq fun i hi => ?_
  · simp only [BitVec.getLsbD_setWidth, BitVec.getLsbD_or, BitVec.getLsbD_and, high i (by omega)]
    simp [hi, Nat.not_le.mpr hi, show i < 64 by omega]
  · simp only [BitVec.getLsbD_setWidth, BitVec.getLsbD_or, BitVec.getLsbD_and, BitVec.getLsbD_ushiftRight, high (32 + i) (by omega)]
    simp

/-- The high half of an address replaced. -/
theorem highHalf_replaced (a : BitVec 64) (w : Word) :
    let r := (a &&& 0xFFFFFFFF#64) ||| (w.setWidth 64 <<< 32)
    r.setWidth 32 = a.setWidth 32 ∧ (r >>> 32).setWidth 32 = w := by
  have low : ∀ i < 64, (0xFFFFFFFF#64).getLsbD i = decide (i < 32) := by decide
  constructor <;> refine BitVec.eq_of_getLsbD_eq fun i hi => ?_
  · simp only [BitVec.getLsbD_setWidth, BitVec.getLsbD_or, BitVec.getLsbD_and, BitVec.getLsbD_shiftLeft, low i (by omega)]
    simp [hi]
  · simp only [BitVec.getLsbD_setWidth, BitVec.getLsbD_or, BitVec.getLsbD_and, BitVec.getLsbD_ushiftRight, BitVec.getLsbD_shiftLeft,
      low (32 + i) (by omega)]
    simp [hi, show i < 64 by omega, show 32 + i < 64 by omega]

/-- The four words of an entry after a write of one of them. -/
theorem MsixEntry.put_words (e : MsixEntry) {word : Nat} (hw : word < 4) (v : Word) :
    ((e.put word v).addr.setWidth 32 = if word = 0 then v &&& 0xFFFFFFFC#32 else e.addr.setWidth 32) ∧
    (((e.put word v).addr >>> 32).setWidth 32 = if word = 1 then v else (e.addr >>> 32).setWidth 32) ∧
    (e.put word v).data = (if word = 2 then v else e.data) ∧ (e.put word v).mask = if word = 3 then v.getLsbD 0 else e.mask := by
  match word, hw with
  | 0, _ => exact ⟨(lowHalf_replaced e.addr _).1, (lowHalf_replaced e.addr _).2, rfl, rfl⟩
  | 1, _ => exact ⟨(highHalf_replaced e.addr v).1, (highHalf_replaced e.addr v).2, rfl, rfl⟩
  | 2, _ => exact ⟨rfl, rfl, rfl, rfl⟩
  | 3, _ => exact ⟨rfl, rfl, rfl, rfl⟩

/-- The message of a vector that waits can be sent (R493, R511); in safe state only the Pruner's (R615). -/
def State.canSend (s : State) (fn vec : Nat) : Bool :=
  s.pbit (fn * 2048 + vec) && (s.fnc fn).msixEn && !(s.vec (fn * 2048 + vec)).mask && !(s.fnc fn).fmask && s.masters fn &&
    (!s.safe || (decide (fn = 0 ∧ vec = s.af 0x40000 0 11) && s.ab 0x40000 11))

theorem State.sendPending_eq (s : State) (fn vec : Nat) :
    s.sendPending fn vec =
      if s.canSend fn vec then
        ((s.hostWrite fn (s.vec (fn * 2048 + vec)).addr.toNat (natLE 4 (s.vec (fn * 2048 + vec)).data.toNat)).setPbit
          (fn * 2048 + vec) false).bump (cnt 0x180040 5)
      else s := rfl

/-- A pending vector that is offered: no entry changes, and no other vector's pending bit. -/
theorem State.sendPending_frame (s : State) (fn vec : Nat) :
    (∀ j, (s.sendPending fn vec).vec j = s.vec j) ∧ ∀ j, j ≠ fn * 2048 + vec → (s.sendPending fn vec).pbit j = s.pbit j := by
  rw [State.sendPending_eq]
  split
  · have still := s.hostWrite_still fn (s.vec (fn * 2048 + vec)).addr.toNat (natLE 4 (s.vec (fn * 2048 + vec)).data.toNat) false 11 none
    generalize s.hostWrite .. = u at still ⊢
    exact ⟨fun j => show u.vec j = s.vec j from State.vec_of_still still j, fun j hj => (State.pbit_setPbit_ne u _ _ _ hj).trans (State.pbit_of_still still j)⟩
  · exact ⟨fun _ => rfl, fun _ _ => rfl⟩

/-- A pending vector that nothing masks sends its message, and waits no more. -/
theorem State.sendPending_sends (hc : s.Canon) {fn vec : Nat} (h : s.canSend fn vec = true) :
    (s.sendPending fn vec).pbit (fn * 2048 + vec) = false ∧
    SendsTlp s (s.sendPending fn vec) (s.messageTlp fn (s.vec (fn * 2048 + vec))) := by
  rw [State.sendPending_eq, if_pos h]
  refine ⟨State.pbit_setPbit _ ((State.hostWrite_keeps (κ := {}) _ _ _ _ _ _ _ .rfl).canon hc) _ _, s.vector_sends fn _ ?_⟩
  exact State.bump_outbound (State.setPbit ..) (by decide) (by decide) 1

/-! ## The commands -/

/-- CQ_COALESCE_TIMER signals the CQ's vector (R489). -/
theorem exec_cqCoalesceTimer {q : Nat} (hq : q < 8192) (hr : s.running = true) (ht : (s.queue q).timer = true) (he : s.rb (cqi q) 11 = true)
    (hi : s.rf (cqi q + 4) 0 16 ≠ 0) (hu : s.rf (cqi q + 4) 16 8 ≠ 0) : exec (.cqCoalesceTimer q) s = .next (s.cqSignal q).finish := by
  change execCqCoalesceTimer q s = _
  rw [execCqCoalesceTimer, if_pos (by simp [hr, hq, ht, he, hi, hu])]
  rfl

/-- CQI_CFG_WRITE by a requester that reaches the register (R490). -/
theorem exec_cqiCfgWrite {who : Req} {q : Nat} (hq : q < 8192) (hs : s.serves_ who = true) (hr : s.reaches who (cqi q) = true) (v : Word) :
    exec (.cqiCfgWrite who q v) s = .next ((s.cqiSet q v).cqCleared q).finish := by
  change execCqiCfgWrite who q v s = _
  rw [execCqiCfgWrite, if_neg (Nat.not_le.mpr hq), regGo, hs, hr, if_neg (by simp), if_pos rfl, State.cqiWrite_eq s who hq]
  rfl

/-- MSIX_TABLE_WRITE by a function that is served (R493). -/
theorem exec_msixTableWrite {fn vec word : Nat} (hs : s.serves_ (.fn fn) = true) (hv : vec < msixSize fn) (hw : word < 4) (v : Word) :
    exec (.msixTableWrite fn vec word v) s = .next ((s.modVec (fn * 2048 + vec) fun e => e.put word v).sendPending fn vec).finish := by
  change execMsixTableWrite fn vec word v s = _
  rw [execMsixTableWrite, hs, if_neg (by simp), State.msixWrite, if_neg (by omega)]
  rfl

/-- Where a CQ's vector is in its function's table, a signal that nothing masks sends its message. -/
theorem State.cqSignal_sends (hr : s.running = true) {q : Nat} (hq : q < 8192) (hv : s.rf (cqi q) 0 11 < msixSize (s.qFn q))
    (he : (s.fnc (s.qFn q)).msixEn = true) (hm : s.masters (s.qFn q) = true) (hf : (s.fnc (s.qFn q)).fmask = false)
    (h : (s.vec (s.qFn q * 2048 + s.rf (cqi q) 0 11)).mask = false) :
    SendsTlp s (s.cqSignal q) (s.messageTlp (s.qFn q) (s.vec (s.qFn q * 2048 + s.rf (cqi q) 0 11))) := by
  have ⟨hlo, hhi⟩ := cqi_bounds hq
  simp only [State.running, Bool.and_eq_true, decide_eq_true_eq, Bool.not_eq_true'] at hr
  obtain ⟨hl, hs⟩ := hr
  have safe : (s.cqCleared q).safe = false := by
    rw [← hs]
    exact congrArg (fun w : Word => bitOn w.toNat 0) (State.reg_wf_ne s 16 8 0 (by omega : 0x40004 ≠ cqi q + 4))
  rw [State.cqSignal_eq, if_neg (Nat.not_le.mpr hv)]
  have out : s.outbound = (s.cqCleared q).outbound := (s.setReg_outbound (by omega) _).symm
  exact SendsTlp.congr out rfl (State.message_sends (s := s.cqCleared q) hl safe hv he hm h hf)

/-- A CQ whose vector is not in its function's table signals none (R491). -/
theorem State.cqSignal_beyond (hc : s.Canon) {q : Nat} (hv : msixSize (s.qFn q) ≤ s.rf (cqi q) 0 11) :
    (s.cqSignal q).rb 0x180004 5 = true ∧ (s.cqSignal q).hostOut = s.hostOut ∧ (s.cqSignal q).fab = s.fab := by
  rw [State.cqSignal_eq, if_pos hv]
  have out : ((s.cqCleared q).setBit 0x180004 5).outbound = (s.cqCleared q).outbound := State.setBit_outbound _ (by decide) 5
  simp only [State.outbound, Prod.mk.injEq] at out
  exact ⟨State.rb_setBit (s.cqCleared_canon hc q) _ (by decide), out.2.1, out.1⟩

/-- Settles O52: a message by what masks its vector; the timer by whether the CQ's vector is in the table; a write of an entry by whether
the message that waits can be sent after it. -/
theorem messagesAndCoalescing : Obligations.MessagesAndCoalescing := by
  intro s hc goes sends
  refine ⟨fun fn vec hl hs hv hm => ⟨s.message_disabled vec, fun he => ⟨fun h => ?_, fun h hf => ?_⟩⟩, fun q hq hr ht he hi hu => ?_,
    fun who q v hq hs hr => ⟨_, exec_cqiCfgWrite hq hs hr v, State.cqiSet_reads hc v⟩, fun q h => if_neg (by simp [h]),
    fun fn vec word v hs hv hw => ?_⟩
  · rw [State.message_masked hl hs hv he h]
    exact ⟨State.pbit_setPbit s hc _ _, rfl, rfl⟩
  · refine ⟨State.message_sends hl hs hv he hm h hf, ?_⟩
    rw [State.message_unmasked hl hs hv he hm h hf]
    exact (congrArg State.pba (State.hostWrite_still ..) :)
  · obtain ⟨hU, htimer⟩ := State.cqSignal_reads hc hq
    exact ⟨_, exec_cqCoalesceTimer hq hr ht he hi hu, hU, htimer, State.cqSignal_beyond hc,
      fun hv he hm hf h => State.cqSignal_sends hr hq hv he hm hf h⟩
  · intro k
    have canon : (s.modVec k fun e => e.put word v).Canon := (State.modVec_keeps (κ := {}) _ _ _ .rfl).canon hc
    have ⟨entries, waits⟩ := (s.modVec k fun e => e.put word v).sendPending_frame fn vec
    have written : ((s.modVec k fun e => e.put word v).sendPending fn vec).vec k = (s.vec k).put word v :=
      (entries k).trans (State.vec_setVec s hc k _)
    obtain ⟨low, high, data, mask⟩ := (s.vec k).put_words hw v
    refine ⟨_, exec_msixTableWrite hs hv hw v, ?_⟩
    beta_reduce
    rw [written]
    refine ⟨low, high, data, mask, fun j hj => ⟨(entries j).trans (State.vec_setVec_ne s k _ j hj), waits j hj⟩, ?_⟩
    have can : (s.modVec k fun e => e.put word v).canSend fn vec = (s.pbit k && (s.fnc fn).msixEn && !((s.vec k).put word v).mask &&
        !(s.fnc fn).fmask && s.masters fn && (!s.safe || (decide (fn = 0 ∧ vec = s.af 0x40000 0 11) && s.ab 0x40000 11))) := by
      rw [← State.vec_setVec s hc k ((s.vec k).put word v)]
      rfl
    rw [← can]
    intro go
    refine ⟨fun h => ?_, fun h => ?_⟩
    · obtain ⟨done, out⟩ := State.sendPending_sends canon h
      rw [← State.vec_setVec s hc k ((s.vec k).put word v)]
      exact ⟨done, out⟩
    · rw [State.sendPending_eq, if_neg (Bool.eq_false_iff.mp h)]
      exact ⟨rfl, rfl, rfl⟩

end Sys2Proof.Machine
end

section
/-! PROOFS. A thread with no window data in hand has none after its chain ends or is suspended (R116, R125, R127, R165): of what follows, a
packet that crosses the fabric, an event, an aborted dispatch and the freeing of a thread change threads, and none of them gives one
window data. -/

namespace Sys2Proof.Machine

/-- Every table is in canonical form, and thread `t` has no window data in hand. -/
structure State.NoGot (t : Nat) (s : State) : Prop where
  canon : s.Canon
  got : (s.thread t).winGot = []

/-! ## What leaves the threads alone -/

section Threads

variable (s : State)

theorem State.cwStore_threads (r : MemRegion) (idx : Nat → Nat) {wr : Nat → Bytes → State → State} (hw : ∀ a b s, (wr a b s).threads = s.threads)
    (a : Nat) (b : Bytes) : (State.cwStore r idx wr a b s).threads = s.threads := by
  unfold State.cwStore
  split
  · exact hw a b s
  · refine List.foldlRecOn _ _ (motive := fun u : State => u.threads = s.threads) rfl fun u hu p _ => ?_
    extract_lets i w
    split
    · exact (hw ..).trans hu
    split
    · exact (hw ..).trans hu
    split
    · exact (State.metErr_threads ..).trans ((hw ..).trans hu)
    · exact (State.metErr_threads ..).trans hu

theorem State.cxPut_threads (sc off : Nat) (b : Bytes) : (s.cxPut sc off b).threads = s.threads := by
  refine (State.touch_threads _ sc).trans ?_
  split
  · rfl
  · apply State.cwStore_threads
    exact fun _ _ _ => rfl

theorem State.tmemPut_threads (a : Nat) (b : Bytes) : (s.tmemPut a b).threads = s.threads := by
  apply State.cwStore_threads
  exact fun _ _ _ => rfl

theorem State.closeEx_threads (key : Nat) : (s.closeEx key).threads = s.threads := by
  unfold State.closeEx
  split <;> rfl

theorem State.saveList_threads (sc : Nat) (v : Xfer) : (s.saveList sc v).threads = s.threads := by
  unfold State.saveList
  split
  · exact s.cxPut_threads ..
  · rfl

end Threads

namespace State.NoGot

variable {t : Nat} {s : State}

theorem of_threads {u : State} (h : s.NoGot t) (hk : s.Keeps {} u) (e : u.threads = s.threads) : u.NoGot t :=
  ⟨hk.canon h.canon, by rw [← h.got, State.thread, State.thread, e]⟩

theorem of_keepsGot {u : State} (h : s.NoGot t) (hk : s.KeepsGot u) : u.NoGot t := ⟨hk.canon, (hk.got t).trans h.got⟩

theorem same (h : s.NoGot t) : s.KeepsGot s := .refl h.canon

theorem modThread (h : s.NoGot t) (k : Nat) {f : Thread → Thread} (hf : ∀ x, x.winGot = [] → (f x).winGot = []) :
    (s.modThread k f).NoGot t := by
  refine ⟨State.setThread_canon h.canon _ _, ?_⟩
  rw [State.modThread_eq]
  by_cases hk : t = k
  · rw [← hk, State.thread_setThread s h.canon]
    exact hf _ h.got
  · rw [State.thread_setThread_ne _ _ _ _ hk]
    exact h.got

theorem latch (h : s.NoGot t) (k e : Nat) : (s.latch k e).NoGot t := h.modThread k fun _ hx => hx

theorem latchSc (h : s.NoGot t) (sc e : Nat) : (s.latchSc sc e).NoGot t := by
  unfold State.latchSc
  cases s.threadOf sc with
  | none => exact h
  | some k => exact h.latch k e

theorem setReg (h : s.NoGot t) (o : Nat) (w : Word) : (s.setReg o w).NoGot t := h.of_threads (State.setReg_keeps _ _ _ .rfl) rfl

theorem set64 (h : s.NoGot t) (o n : Nat) : (s.set64 o n).NoGot t := (h.setReg _ _).setReg _ _

theorem bump (h : s.NoGot t) (o n : Nat) : (s.bump o n).NoGot t := h.set64 _ _

theorem setBit (h : s.NoGot t) (o k : Nat) : (s.setBit o k).NoGot t := h.of_threads (State.setBit_keeps _ _ _ .rfl) (s.setBit_threads o k)

theorem cxPut (h : s.NoGot t) (sc off : Nat) (b : Bytes) : (s.cxPut sc off b).NoGot t :=
  h.of_threads (State.cxPut_keeps _ _ _ _ .rfl) (s.cxPut_threads sc off b)

theorem setCxFlag (h : s.NoGot t) (sc k : Nat) (b : Bool) : (s.setCxFlag sc k b).NoGot t := h.cxPut ..

theorem modChain (h : s.NoGot t) (k : Nat) (f : Chain → Chain) : (s.modChain k f).NoGot t :=
  h.of_threads (State.modChain_keeps _ _ _ .rfl) rfl

theorem modTxn (h : s.NoGot t) (k : Nat) (f : Txn → Txn) : (s.modTxn k f).NoGot t := h.of_threads (State.modTxn_keeps _ _ _ .rfl) rfl

/-- A fold of changes each of which leaves the thread without window data. -/
theorem foldl {β : Type} {f : State → β → State} (h : s.NoGot t) (hf : ∀ u b, u.NoGot t → (f u b).NoGot t) (l : List β) :
    (l.foldl f s).NoGot t := List.foldlRecOn l f h fun u hu b _ => hf u b hu

/-! ## Exchanges with nodes -/

theorem queueFlit (h : s.NoGot t) (p : Nat) (f : Flit) (src : Nat) (x : Option Nat) : (s.queueFlit p f src x).NoGot t :=
  h.of_keepsGot (h.same.offer _)

theorem modOp (h : s.NoGot t) (k : Nat) (f : NOp → NOp) : (s.modOp k f).NoGot t := h.of_keepsGot (h.same.modOp k f)

theorem sendEnd (h : s.NoGot t) (k : Nat) : (s.sendEnd k).1.NoGot t := by
  unfold State.sendEnd
  split
  · exact h
  split
  · exact h
  split
  · exact h
  · exact ((h.of_keepsGot (h.same.sendCmd ..)).modOp _ _).modOp _ _

theorem leaveOp (h : s.NoGot t) (o : Option Nat) : (s.leaveOp o).NoGot t := by
  cases o with
  | none => exact h
  | some k => exact (h.sendEnd k).modOp _ _

theorem endOp (h : s.NoGot t) (k : Nat) : (s.endOp k).1.NoGot t := by
  unfold State.endOp
  split
  · exact h
  extract_lets oph
  split
  · exact h.of_threads (State.closeEx_keeps _ _ (State.dropTx_keeps _ _ _ .rfl)) (State.closeEx_threads ..)
  · exact h.sendEnd k

theorem resAsk (h : s.NoGot t) (r : ResReq) : (s.resAsk r).NoGot t :=
  h.of_keepsGot ((h.same.of_threads (u := { s with resq := s.resq ++ [r] }) (State.keeps_resq .rfl _) rfl).resGo _ _)

theorem sendNode (h : s.NoGot t) (node : Nat) (b : FlitBody) (src : Nat) : (s.sendNode node b src).NoGot t := h.queueFlit ..

/-- The data of a SEND (R159). -/
theorem sendFlits (h : s.NoGot t) (node oph src : Nat) (first last : Bool) (n off : Nat) (b : Bytes) :
    (State.sendFlits node oph src first last n off b s).NoGot t := by
  induction n generalizing s first off b with
  | zero => exact h
  | succ n ih =>
    rw [State.sendFlits]
    split
    · exact h.sendNode ..
    · exact ih (h.sendNode ..) ..

/-! ## Transfers -/

theorem slotMark (h : s.NoGot t) (v : Xfer) (b k : Nat) (on : Bool) : (s.slotMark v b k on).NoGot t := by
  unfold State.slotMark
  extract_lets s₁
  have h₁ : s₁.NoGot t := (h.setReg ..).setReg ..
  split
  · extract_lets s₂
    have h₂ : s₂.NoGot t := h₁.setReg ..
    split
    · exact (h₂.setReg ..).setReg ..
    · exact h₂
  · exact h₁

theorem unbind (h : s.NoGot t) (x : Nat) : (s.unbind x).NoGot t := by
  unfold State.unbind
  split
  · split
    · exact (h.slotMark ..).of_threads (State.setXfer_keeps _ _ _ .rfl) rfl
    · exact h
  · exact h

theorem dropXfer (h : s.NoGot t) (x : Nat) : (s.dropXfer x).NoGot t := by
  unfold State.dropXfer
  split
  · split
    · exact (h.unbind x).of_threads (State.setXfer_keeps _ _ _ .rfl) rfl
    · exact h
  · exact h

theorem endXfer (h : s.NoGot t) (x code info : Nat) (ns : Byte) : (s.endXfer x code info ns).NoGot t := by
  unfold State.endXfer
  split
  · exact h
  split
  · exact h
  extract_lets s₁ s₂ s₃
  have h₁ : s₁.NoGot t := h.of_threads (State.setXfer_keeps _ _ _ .rfl) rfl
  have h₂ : s₂.NoGot t := by
    refine h₁.foldl (fun u o hu => ?_) _
    split
    · split
      · split
        · exact hu
        · exact hu.endOp _
      · exact hu
    · exact hu
  have h₃ : s₃.NoGot t := by
    unfold s₃
    split
    · exact h₂.of_threads (State.modChan_keeps _ _ _ .rfl) rfl
    · exact h₁
  split
  · exact h₃.unbind x
  · exact h₃

theorem abortXfer (h : s.NoGot t) (x : Nat) : (s.abortXfer x).NoGot t :=
  (h.endXfer x 2 _ _).dropXfer x

theorem stopXfer (h : s.NoGot t) (sc : Nat) : (s.stopXfer sc).NoGot t := by
  have stop : ∀ (u : State) (v : Xfer) (x : Nat) (f : Chain → Chain), u.NoGot t →
      (((u.saveList sc v).abortXfer x).modChain sc f).NoGot t := fun u v x f hu =>
    ((hu.of_threads (State.saveList_keeps _ _ _ .rfl) (u.saveList_threads sc v)).abortXfer x).modChain sc f
  have h₀ : (s.stopXfer0 sc).NoGot t := by
    unfold State.stopXfer0
    split
    · split
      · exact stop _ _ _ _ h
      · exact h
    · exact h
  unfold State.stopXfer State.stopFwd
  split
  · exact stop _ _ _ _ h₀
  · exact h₀

/-! ## Slots -/

theorem wdState (h : s.NoGot t) : s.wdState.NoGot t := h.setReg ..

theorem reserveGo (sc : Nat) (l : List Nat) (h : s.NoGot t) : (State.reserveGo sc l s).NoGot t := by
  induction l generalizing s with
  | nil => exact (h.modChain ..).resAsk _
  | cons k l ih =>
    rw [State.reserveGo]
    split
    · exact ih h
    split
    · split
      · exact (h.setBit ..).modChain ..
      · exact ih (h.of_threads (State.setHolder_keeps _ _ _ .rfl) rfl).wdState
    · exact (h.of_threads (State.setWait_keeps _ _ _ .rfl) rfl).wdState.modChain ..

theorem grantSlot (h : s.NoGot t) (key : Nat) : (s.grantSlot key).NoGot t := by
  unfold State.grantSlot
  split
  · exact h
  · exact reserveGo _ _ ((h.of_threads (State.setWait_keeps _ _ _ .rfl) rfl).wdState.latchSc _ 6)

theorem releaseSlots (h : s.NoGot t) (p : Nat → Holder → Bool) (owner : NOwner) : (s.releaseSlots p owner).NoGot t := by
  unfold State.releaseSlots
  refine wdState (foldl (foldl (foldl h ?_ _) ?_ _) ?_ _)
  · exact fun u e hu => hu.of_threads (State.setHolder_keeps _ _ _ .rfl) rfl
  · exact fun u r hu => hu.resAsk _
  · exact fun u e hu => hu.grantSlot _

theorem unwait (h : s.NoGot t) (sc : Nat) : (s.unwait sc).NoGot t := by
  unfold State.unwait
  split
  · exact (h.of_threads (State.setWait_keeps _ _ _ .rfl) rfl).wdState.latchSc _ 6
  · exact h

theorem unreserve (h : s.NoGot t) (sc : Nat) : (s.unreserve sc).NoGot t :=
  (h.unwait sc).of_threads (State.keeps_ops_resq .rfl _ _ fun w => SMap.mapVal_wf _ (fun k x hx e => hx (by simpa using e)) w) rfl

/-! ## The journal and transactions -/

theorem pair (h : s.NoGot t) (v : Pair) : State.NoGot t { s with pair := v } := h.of_threads (State.keeps_pair .rfl v) rfl

theorem mirrorGo (copy : Bool) (n : Nat) (l : List (Nat × Bytes)) (h : s.NoGot t) : (State.mirrorGo copy n l s).NoGot t := by
  induction n generalizing s l with
  | zero => exact h
  | succ n ih =>
    cases l with
    | nil => exact h
    | cons b l =>
      rw [State.mirrorGo]
      exact ih _ ((((h.queueFlit ..).pair _).bump ..).setReg ..)

theorem jpend (h : s.NoGot t) (v : List JRec) : State.NoGot t { s with jpend := v } := h.of_threads (State.keeps_jpend .rfl v) rfl

theorem jslots (h : s.NoGot t) (v : List JSlot) (p : Nat) : State.NoGot t { s with jslots := v, jpos := p } :=
  h.of_threads (State.keeps_jslots_jpos .rfl v p) rfl

theorem jCounts (h : s.NoGot t) : s.jCounts.NoGot t := (h.setReg ..).setReg ..

theorem jAssign1 (h : s.NoGot t) (r : JRec) : (s.jAssign1 r).1.NoGot t := by
  unfold State.jAssign1 State.mirror
  extract_lets jseq slot rtype body raw g e s₁ s₂
  have h₂ : s₂.NoGot t := (((h.jslots _ _).set64 ..).jCounts).bump ..
  split
  · exact mirrorGo _ _ _ h₂
  · exact h₂

theorem jAssign (l done : List JRec) (h : s.NoGot t) : (State.jAssign l done s).NoGot t := by
  induction l generalizing s done with
  | nil => exact h.jpend _
  | cons r l ih =>
    rw [State.jAssign]
    split
    · exact ih _ h
    split
    · exact (h.jpend _).setBit ..
    split
    · exact ih _ (h.setBit ..)
    · exact ih _ (h.jAssign1 r)

theorem jIssue (h : s.NoGot t) (rtype : Nat) (body : Bytes) (eff : JEff) : (s.jIssue rtype body eff).NoGot t := by
  unfold State.jIssue
  split
  · exact h
  · exact jAssign _ _ h

theorem outcome (h : s.NoGot t) (x node result : Nat) : (s.outcome x node result).NoGot t := by
  unfold State.outcome
  extract_lets o c u b s₁
  have h₁ : s₁.NoGot t := (h.modTxn ..).bump ..
  split
  · exact (h₁.of_threads (State.keeps_tpriv .rfl _ fun w => Mem.wrN_wf _ _ w) rfl).latch ..
  · exact h₁

theorem sendDecision (h : s.NoGot t) (x node : Nat) : (s.sendDecision x node).NoGot t := by
  unfold State.sendDecision
  extract_lets o
  split
  · exact h
  · exact (h.queueFlit ..).modTxn ..

theorem tryDone (h : s.NoGot t) (x : Nat) : (s.tryDone x).NoGot t := by
  unfold State.tryDone
  extract_lets o
  split
  · exact (h.modTxn ..).jIssue ..
  · exact h

theorem abortTx (h : s.NoGot t) (x cause node result : Nat) : (s.abortTx x cause node result).NoGot t := by
  unfold State.abortTx
  extract_lets o s₁ s₂ s₃ s₄ s₅
  split
  · exact h
  have h₁ : s₁.NoGot t := h.modTxn ..
  have h₂ : s₂.NoGot t := by
    unfold s₂
    split
    · exact h₁.setCxFlag ..
    · exact h₁
  have h₄ : s₄.NoGot t := (h₂.outcome x node result).foldl (fun u m hu => hu.sendDecision ..) _
  exact ((h₄.releaseSlots _ _).tryDone x).setReg ..

/-! ## Threads and chains -/

theorem dispPut (h : s.NoGot t) (k a done code : Nat) : (s.dispPut k a done code).NoGot t := by
  have shared : ∀ (u : State) (a : Nat) (b : Bytes), u.NoGot t → (u.tmemPut a b).NoGot t := fun u a b hu =>
    hu.of_threads (State.tmemPut_keeps _ _ _ .rfl) (u.tmemPut_threads a b)
  unfold State.dispPut
  extract_lets b a' n m s₁
  have h₁ : s₁.NoGot t := h.of_threads (State.keeps_tpriv .rfl _ fun w => Mem.wrN_wf _ _ w) rfl
  split
  · split
    · exact shared _ _ _ h
    split
    · exact h₁
    · exact shared _ _ _ h₁
  · split
    · exact h.cxPut ..
    · exact h

theorem abortDisps (h : s.NoGot t) (k : Nat) : (s.abortDisps k).NoGot t := by
  unfold State.abortDisps
  split
  · exact h
  have hf : ∀ x : Thread, x.winGot = [] → { x with disp := [] }.winGot = [] := fun _ hx => hx
  refine latch (modThread (foldl h (fun u x hu => ?_) _) k hf) k 1
  split
  · split
    · exact (hu.dispPut ..).abortXfer x
    · exact hu.abortXfer x
  · exact hu

theorem freeThreadOf (h : s.NoGot t) (k : Nat) : (s.freeThreadOf k).NoGot t := by
  unfold State.freeThreadOf
  extract_lets s₁ s₂
  have h₁ : s₁.NoGot t := h.of_threads (State.dropPkts_keeps _ _ _ .rfl) (State.dropPkts_threads ..)
  exact (((h₁.leaveOp _).modThread k fun _ _ => rfl).setReg ..).setReg ..

theorem freeSc (h : s.NoGot t) (sc : Nat) : (s.freeSc sc).NoGot t := by
  unfold State.freeSc
  split
  · exact (h.abortDisps _).freeThreadOf _
  · exact h

theorem fenceChain (h : s.NoGot t) (sc : Nat) : (s.fenceChain sc).NoGot t :=
  (((((h.stopXfer sc).leaveOp _).leaveOp _).unreserve sc).freeSc sc).of_threads (State.setChain_keeps _ _ _ .rfl) rfl

theorem fixStatus (h : s.NoGot t) (sc : Nat) (e : EndCond) : (s.fixStatus sc e).NoGot t := by
  unfold State.fixStatus
  extract_lets ph s₁ c de b acc s₂ s₃ s₄ ent s₅ s₆ s₇
  split
  · exact h
  split
  · exact h.fenceChain sc
  have h₁ : s₁.NoGot t := by
    unfold s₁
    split
    · split
      · exact h
      · exact (h.abortTx ..).modChain ..
    · exact h
  have h₃ : s₃.NoGot t := (((h₁.leaveOp _).leaveOp _).cxPut ..).setCxFlag ..
  have h₄ : s₄.NoGot t := by
    unfold s₄
    split
    · exact h₃.cxPut ..
    · exact h₃
  have h₆ : s₆.NoGot t := ((h₄.cxPut ..).unreserve sc).freeSc sc
  exact (h₆.of_threads (State.setChain_keeps _ _ _ .rfl) rfl).jIssue ..

theorem endChain (h : s.NoGot t) (sc : Nat) (e : EndCond) : (s.endChain sc e).NoGot t := (h.stopXfer sc).fixStatus sc e

theorem suspend (h : s.NoGot t) (sc : Nat) : (s.suspend sc).NoGot t := by
  unfold State.suspend
  extract_lets s₁
  have h₁ : s₁.NoGot t := by
    unfold s₁
    split
    · exact (h.cxPut ..).freeSc sc
    · exact h
  exact ((h₁.cxPut ..).cxPut ..).modChain ..

end State.NoGot

end Sys2Proof.Machine
end

section
/-! PROOFS. How a thread's work ends (R189, R195, R450, R483): what the freeing of a thread leaves, and EOS, PARK and SEND. -/

namespace Sys2Proof.Machine

/-! ## A thread that is freed -/

theorem State.modOp_still (s : State) (key : Nat) (f : NOp → NOp) : (s.modOp key f).still = s.still := by
  unfold State.modOp
  split <;> rfl

theorem State.modThread_still (s : State) (t : Nat) (f : Thread → Thread) : (s.modThread t f).still = s.still := rfl

theorem State.sendCmd_still (s : State) (key : Nat) (c : CmdF) (await : Bool) : (s.sendCmd key c await).still = s.still := by
  unfold State.sendCmd
  split
  · rfl
  · exact (State.modOp_still ..).trans (s.offer_still _)

theorem State.sendEnd_still (s : State) (key : Nat) : (s.sendEnd key).1.still = s.still := by
  unfold State.sendEnd
  split
  · rfl
  split
  · rfl
  split
  · rfl
  · exact (State.modOp_still ..).trans ((State.modOp_still ..).trans (s.sendCmd_still ..))

theorem State.leaveOp_still (s : State) (o : Option Nat) : (s.leaveOp o).still = s.still := by
  cases o with
  | none => rfl
  | some k => exact (State.modOp_still ..).trans (s.sendEnd_still k)

theorem State.teStat_still (s : State) (g : Nat) : (s.teStat g).still = s.still := by
  unfold State.teStat
  extract_lets f a
  have ha : 0x200000 ≤ a := Nat.le_add_right_of_le (by decide)
  exact (State.setReg_still _ ha _).trans (State.setReg_still _ ha _)

theorem State.teStat_threads (s : State) (g : Nat) : (s.teStat g).threads = s.threads := by
  have set : ∀ (u : State) o w, (u.setReg o w).threads = u.threads := fun _ _ _ => rfl
  unfold State.teStat
  exact (set ..).trans (set ..)

theorem State.freeThreadOf_still (s : State) (t : Nat) : (s.freeThreadOf t).still = s.still := by
  unfold State.freeThreadOf
  exact (State.teStat_still ..).trans ((State.modThread_still ..).trans ((State.leaveOp_still ..).trans (s.dropPkts_still ..)))

/-- The registers of a thread when it is freed (R450). -/
def Thread.freed (h : Thread) : Thread :=
  { h with
    bind := .free, waiting := none, load := none, win := none, winGot := [], ev := 0, timer := 0, waitcnt := 0, product := none,
    mrdy := true, div := none, shadow := none, budget := 0, fl := h.fl &&& 0x1F, furrow := {}, stopped := false, fresh := false }

theorem Thread.freed_mode (h : Thread) : h.freed.mode = 0 := by
  have hb : h.freed.fl.toNat ≤ 0x1F := (BitVec.toNat_and h.fl 0x1F).trans_le Nat.and_le_right
  rw [Thread.mode, bits, Nat.div_eq_of_lt (by omega), Nat.zero_mod]

theorem Thread.freed_flBit (h : Thread) : flBit h.freed.fl 7 = false := by simp [Thread.freed, flBit]

/-- What comes before a thread's registers are cleared: its packets are dropped, and the exchange of its window load is given up (R459). -/
def State.letGo (s : State) (t : Nat) : State :=
  let u := s.dropPkts t (s.thread t).furrow.pkts.length
  u.leaveOp ((u.thread t).win.bind fun w => w.op)

theorem State.letGo_canon {s : State} (hc : s.Canon) (t : Nat) : (s.letGo t).Canon :=
  (State.leaveOp_keeps _ _ (State.dropPkts_keeps s t _ (κ := {}) .rfl)).canon hc

theorem State.freeThreadOf_eq (s : State) (t : Nat) :
    s.freeThreadOf t = ((s.letGo t).setThread t ((s.letGo t).thread t).freed).teStat (groupOf t) := rfl

theorem State.thread_freeThreadOf (s : State) (t k : Nat) :
    (s.freeThreadOf t).thread k = ((s.letGo t).setThread t ((s.letGo t).thread t).freed).thread k := by
  rw [State.freeThreadOf_eq, State.thread, State.teStat_threads]
  rfl

/-- Where no window load of the thread is under way, what comes first changes no registers. -/
theorem State.thread_letGo (s : State) {t : Nat} (hw : (s.thread t).win = none) (k : Nat) : (s.letGo t).thread k = s.thread k := by
  have ht : ∀ j, (s.dropPkts t (s.thread t).furrow.pkts.length).thread j = s.thread j := fun j => by
    rw [State.thread, State.dropPkts_threads, State.thread]
  rw [State.letGo, ht, hw]
  exact ht k

/-- A freed thread is clean, its own bank keeps its contents, and no other thread changes unless a window load of it was under way. -/
theorem freeThreadOf_clean (s : State) (t : Nat) (hc : s.Canon) :
    let u := s.freeThreadOf t
    let h := u.thread t
    h.bind = .free ∧ h.ev = 0 ∧ h.timer = 0 ∧ h.mrdy = true ∧ h.product = none ∧ h.div = none ∧ h.shadow = none ∧ h.waiting = none ∧
    h.load = none ∧ h.win = none ∧ h.winGot = [] ∧ h.stopped = false ∧ h.furrow = {} ∧ h.mode = 0 ∧ flBit h.fl 7 = false ∧
    u.tpriv = s.tpriv ∧ u.tmem = s.tmem ∧ u.ctx = s.ctx ∧ ((s.thread t).win = none → ∀ k, k ≠ t → u.thread k = s.thread k) := by
  intro u h
  have hh : h = ((s.letGo t).thread t).freed := (s.thread_freeThreadOf t t).trans (State.thread_setThread _ (State.letGo_canon hc t) _ _)
  have hu := s.freeThreadOf_still t
  have hk : (s.thread t).win = none → ∀ k, k ≠ t → u.thread k = s.thread k := fun hw k hk =>
    (s.thread_freeThreadOf t k).trans ((State.thread_setThread_ne _ _ _ _ hk).trans (s.thread_letGo hw k))
  rw [hh]
  exact ⟨rfl, rfl, rfl, rfl, rfl, rfl, rfl, rfl, rfl, rfl, rfl, rfl, rfl, Thread.freed_mode _, Thread.freed_flBit _,
    (congrArg State.tpriv hu :), (congrArg State.tmem hu :), (congrArg State.ctx hu :), hk⟩

theorem State.endService_canon {s : State} (hc : s.Canon) (k : Nat) (defer hold : Bool) : (s.endService k defer hold).Canon :=
  (State.endService_keeps s k defer hold (κ := {}) .rfl).canon hc

/-! ## The outcome of an instruction that reaches other units -/

section Runs

variable {s s' : State} {t : Nat} {f : TForm} {ins : Instr} {i : TInfo}

theorem State.NoGot.windowRead (h : s.NoGot t) (ea : Option Nat) : (s.windowRead t ea).NoGot t := by
  rw [State.windowRead_eq h.canon]
  exact ⟨State.setThread_canon h.canon _ _, (congrArg Thread.winGot (State.thread_setThread _ h.canon t _)).trans h.got⟩

/-- An instruction whose effect is done, and reaches other units. -/
theorem tRun_done_unit (h : Ready s t f) (hm : i.mul = true → (s.thread t).mrdy = true) (hu : i.unit = true)
    (hr : i.refused f (s.thread t) false = none) (hb : i.body (s.pcPast t (opSize f)) { t, f } = .done s')
    (hw : s'.NoGot t) :
    tRun ins i t f s = .next (s'.windowRead t (i.ea? f (s.thread t))).finish := by
  rw [tRun_done h hm hr hb, State.winClear_none (hw.windowRead _).got, hu]
  rfl

/-- An instruction that needs MRDY waits for it (R229). -/
theorem tRun_mulWaits (h : Ready s t f) (hm : i.mul = true) (hr : (s.thread t).mrdy = false) : tRun ins i t f s = .next s := by
  obtain ⟨hi, hg⟩ := h
  obtain ⟨_, _, _, _, hdue⟩ := id hi
  rw [tRun_issues hi]
  simp [tExec, hg, hm, hr, tEnd, hdue]

theorem Ready.noGot (hc : s.Canon) (h : Ready s t f) : (s.pcPast t (opSize f)).NoGot t := by
  obtain ⟨⟨_, _, hgot, _⟩, _⟩ := h
  exact ⟨State.pcPast_canon hc _, by rw [State.thread_pcPast hc]; exact hgot⟩

/-- A form with the one V value names no memory. -/
theorem opEa_of_okV {k : Nat} (hl : okV k f = true) (th : Thread) : opEa f th = none := by
  cases f with
  | short => simp [okV] at hl
  | long a b m v =>
    simp only [okV, decide_eq_true_eq] at hl
    simp [opEa, hl.1]

end Runs

/-! ## EOS -/

section Ends

variable {s : State} {t : Nat} {f : TForm}

theorem State.NoGot.freed {u : State} (hc : u.Canon) (k : Nat) : (u.freeThreadOf k).NoGot k := by
  obtain ⟨_, _, _, _, _, _, _, _, _, _, hgot, _⟩ := freeThreadOf_clean u k hc
  exact ⟨(State.freeThreadOf_keeps u k (κ := {}) .rfl).canon hc, hgot⟩

/-- EOS with the tag of the claim ends the service and frees the thread (R483, R484). -/
theorem exec_eos_claim {v k : Nat} (hc : s.Canon) (h : Ready s t f) (hm : (s.thread t).mode ≠ 1)
    (hv : Reads (s.pcPast t (opSize f)) t f 4 v) (hl : okForm [] [0, 1, 2, 3] f = true) (hb : (s.thread t).bind = .attn k)
    (ht : v % 65536 = (s.thread t).claim) :
    exec (.eos t f) s = .next (((((s.pcPast t (opSize f)).endService k (v.testBit 16) true).freeThreadOf t).windowRead t
      (opEa f (s.thread t))).finish) := by
  have hp := State.thread_pcPast (t := t) hc (opSize f)
  refine tRun_done_unit (i := infoEos) h nofun rfl (refused_none rfl hl (.inr hm)) ?_
    (.freed (State.endService_canon (State.pcPast_canon hc _) ..) t)
  change bodyEos _ _ = _
  rw [bodyEos, State.operand_reads hv]
  simp only [hp, hb, if_pos ht, bitOn_eq_testBit]

/-- EOS with another tag, or where no service is bound, only raises BAD_EOS (R483). -/
theorem exec_eos_bad {v : Nat} (hc : s.Canon) (h : Ready s t f) (hm : (s.thread t).mode ≠ 1)
    (hv : Reads (s.pcPast t (opSize f)) t f 4 v) (hl : okForm [] [0, 1, 2, 3] f = true)
    (ht : ∀ k, (s.thread t).bind = .attn k → v % 65536 ≠ (s.thread t).claim) :
    exec (.eos t f) s = .next ((((s.pcPast t (opSize f)).setBit 0x180004 3).windowRead t (opEa f (s.thread t))).finish) := by
  have hp := State.thread_pcPast (t := t) hc (opSize f)
  refine tRun_done_unit (i := infoEos) h nofun rfl (refused_none rfl hl (.inr hm)) ?_ ((h.noGot hc).setBit ..)
  change bodyEos _ _ = _
  rw [bodyEos, State.operand_reads hv]
  simp only [hp]
  split
  · next k hk => exact if_neg (ht k hk)
  · rfl

/-! ## PARK -/

theorem State.NoGot.divNone {u : State} (h : u.NoGot t) : (u.modThread t fun h => { h with div := none }).NoGot t := h.modThread t fun _ hx => hx

theorem thread_pcPast_divNone (hc : s.Canon) (n : Nat) :
    (((s.pcPast t n).modThread t fun h => { h with div := none }).thread t).bind = (s.thread t).bind := by
  rw [State.modThread_eq, State.thread_setThread _ (State.pcPast_canon hc _), State.thread_pcPast hc]

/-- PARK 0 of a subchannel's thread fixes the chain's status (R189). -/
theorem exec_parkEnd {sc : Nat} (hc : s.Canon) (h : Ready s t f) (hm : (s.thread t).mode ≠ 1) (hl : okV 0 f = true)
    (hr : (s.thread t).mrdy = true) (hw : s.winStores t = 0) (hb : (s.thread t).bind = .sc sc) :
    exec (.parkEnd t f) s = .next (((s.pcPast t (opSize f)).modThread t fun h => { h with div := none }).endChain sc {}).finish := by
  have run := tRun_done_unit (ins := .parkEnd t f) (i := infoParkEnd) h (fun _ => hr) rfl (refused_none rfl hl (.inr hm))
    (s' := ((s.pcPast t (opSize f)).modThread t fun h => { h with div := none }).endChain sc {}) ?_ ((h.noGot hc).divNone.endChain sc {})
  · rw [show infoParkEnd.ea? f (s.thread t) = none from opEa_of_okV hl _, State.windowRead_none] at run
    exact run
  · refine (if_neg (not_not.mpr hw)).trans ?_
    simp only [thread_pcPast_divNone hc, hb]

/-- PARK 1 of a subchannel's thread suspends it, where PRES is 0 (R116, R189). -/
theorem exec_parkSuspend {sc : Nat} (hc : s.Canon) (h : Ready s t f) (hm : (s.thread t).mode ≠ 1) (hl : okV 1 f = true)
    (hr : (s.thread t).mrdy = true) (hw : s.winStores t = 0) (hb : (s.thread t).bind = .sc sc)
    (hf : (((s.pcPast t (opSize f)).modThread t fun h => { h with div := none }).stopXfer sc).cxFlag sc 0 = false) :
    exec (.parkSuspend t f) s =
      .next ((((s.pcPast t (opSize f)).modThread t fun h => { h with div := none }).stopXfer sc).suspend sc).finish := by
  have run := tRun_done_unit (ins := .parkSuspend t f) (i := infoParkSuspend) h (fun _ => hr) rfl (refused_none rfl hl (.inr hm))
    (s' := (((s.pcPast t (opSize f)).modThread t fun h => { h with div := none }).stopXfer sc).suspend sc) ?_
    (((h.noGot hc).divNone.stopXfer sc).suspend sc)
  · rw [show infoParkSuspend.ea? f (s.thread t) = none from opEa_of_okV hl _, State.windowRead_none] at run
    exact run
  · refine (if_neg (not_not.mpr hw)).trans ?_
    simp only [thread_pcPast_divNone hc, hb, hf, Bool.false_eq_true, if_false]

/-- PARK waits for MRDY, and for the thread's window stores (R165, R189). -/
theorem exec_park_waits (h : Ready s t f) (hm : (s.thread t).mode ≠ 1) (hw : (s.thread t).mrdy = false ∨ s.winStores t ≠ 0) :
    (okV 0 f = true → exec (.parkEnd t f) s = .next s) ∧ (okV 1 f = true → exec (.parkSuspend t f) s = .next s) := by
  cases hr : (s.thread t).mrdy with
  | false => exact ⟨fun _ => tRun_mulWaits (i := infoParkEnd) h rfl hr, fun _ => tRun_mulWaits (i := infoParkSuspend) h rfl hr⟩
  | true =>
    have hw : s.winStores t ≠ 0 := hw.resolve_left (by simp [hr])
    exact ⟨fun hl => tRun_stall (i := infoParkEnd) h (fun _ => hr) (refused_none rfl hl (.inr hm)) (if_pos hw),
      fun hl => tRun_stall (i := infoParkSuspend) h (fun _ => hr) (refused_none rfl hl (.inr hm)) (if_pos hw)⟩

/-! ## SEND -/

/-- SEND does not use the value of its operand, the send record (log 37). -/
theorem bodySend_reads {p : State} {v : Nat} (hv : Reads p t f 4 v) :
    bodySend p { t, f } =
      if p.winStores t ≠ 0 then .stall
      else if p.kpSt (nodePort ((p.thread t).out.le 0x8004 2 % 4096)) = 0 then .done p.tick
      else .done (State.sendFlits ((p.thread t).out.le 0x8004 2 % 4096) (p.free.toNat % 65536) (tgPort t)
        (bitOn ((p.thread t).out.le 0x8000 1) 4) (bitOn ((p.thread t).out.le 0x8000 1) 5) 20 ((p.thread t).out.le 0x8008 8)
        ((p.thread t).out.rdN 0x8010 (min ((p.thread t).out.le 0x8002 2 % 8192) 4096)) p.tick) := by
  rw [bodySend, State.operand_reads hv]

section Send

variable {v : Nat} (hc : s.Canon) (h : Ready s t f) (hm : (s.thread t).mode ≠ 1) (hv : Reads (s.pcPast t (opSize f)) t f 4 v)
  (hl : okForm [] [1, 2, 3] f = true)

include h hm hv hl in
/-- SEND follows every earlier window store of the thread (R195). -/
theorem exec_send_waits (hw : s.winStores t ≠ 0) : exec (.send t f) s = .next s :=
  tRun_stall (i := infoSend) h nofun (refused_none rfl hl (.inr hm)) ((bodySend_reads hv).trans (if_pos hw))

theorem State.NoGot.tick {u : State} (h : u.NoGot t) : u.tick.NoGot t := h.of_threads (State.tick_keeps _ .rfl) rfl

include hc h hm hv hl in
/-- SEND to a port that is DOWN sends nothing. -/
theorem exec_send_down (hw : s.winStores t = 0) (hk : s.kpSt (nodePort ((s.thread t).out.le 0x8004 2 % 4096)) = 0) :
    exec (.send t f) s = .next ((s.pcPast t (opSize f)).tick.windowRead t (opEa f (s.thread t))).finish := by
  refine tRun_done_unit (i := infoSend) h nofun rfl (refused_none rfl hl (.inr hm)) ?_ (h.noGot hc).tick
  refine (bodySend_reads hv).trans ((if_neg (not_not.mpr hw)).trans (if_pos ?_))
  rw [State.thread_pcPast hc]
  exact hk

include hc h hm hv hl in
/-- SEND passes the outbound packet to the port of its node (R159). -/
theorem exec_send (hw : s.winStores t = 0) (hk : s.kpSt (nodePort ((s.thread t).out.le 0x8004 2 % 4096)) ≠ 0) :
    ∃ oph m, exec (.send t f) s = .next (m.windowRead t (opEa f (s.thread t))).finish ∧
      m = State.sendFlits ((s.thread t).out.le 0x8004 2 % 4096) oph (tgPort t) ((s.thread t).out.le 0x8000 1 |>.testBit 4)
        ((s.thread t).out.le 0x8000 1 |>.testBit 5) 20 ((s.thread t).out.le 0x8008 8)
        ((s.thread t).out.rdN 0x8010 (min ((s.thread t).out.le 0x8002 2 % 8192) 4096)) (s.pcPast t (opSize f)).tick := by
  refine ⟨(s.pcPast t (opSize f)).free.toNat % 65536, _,
    tRun_done_unit (i := infoSend) h nofun rfl (refused_none rfl hl (.inr hm)) ?_ ((h.noGot hc).tick.sendFlits ..), rfl⟩
  refine (bodySend_reads hv).trans ((if_neg (not_not.mpr hw)).trans ?_)
  simp only [State.thread_pcPast hc, bitOn_eq_testBit]
  exact if_neg hk

end Send

end Ends

/-- Settles O25: each clause is one rule above. -/
theorem tillerWorkEnds : Obligations.TillerWorkEnds := by
  refine ⟨fun s t f hc h hm => ⟨fun v hv hl => ⟨fun k hb ht => exec_eos_claim hc h hm hv hl hb ht, exec_eos_bad hc h hm hv hl⟩,
    fun hl hr hw sc hb => exec_parkEnd hc h hm hl hr hw hb, fun hl hr hw sc hb hf => exec_parkSuspend hc h hm hl hr hw hb hf,
    exec_park_waits h hm, fun v hv hl => ⟨exec_send_waits h hm hv hl, exec_send_down hc h hm hv hl, exec_send hc h hm hv hl⟩⟩,
    freeThreadOf_clean⟩

end Sys2Proof.Machine
end

section
/-! PROOFS. What follows a command in a device that does not work (R14, R579, R697) leaves the registers of the host port alone: reports
are not taken, nothing wakes, and the end of a chain, a context or a transfer writes registers of other blocks only. -/

namespace Sys2Proof.Machine

/-- The registers of the host port (R668), but for the permissions of nodes. -/
def State.hpRegs (s : State) : Fin 0x40000 → Word := fun k => s.reg (0x100000 + k)

/-- From `ρ` on, every one of them reads as it did. -/
def State.SameHp (ρ s : State) : Prop := s.hpRegs = ρ.hpRegs

theorem State.cwStore_regs (s : State) (r : MemRegion) (idx : Nat → Nat) {wr : Nat → Bytes → State → State}
    (hw : ∀ a b s, (wr a b s).regs = s.regs) (a : Nat) (b : Bytes) : (State.cwStore r idx wr a b s).regs = s.regs := by
  have met : ∀ (u : State) i w, (u.metErr r i w).regs = u.regs := fun u i w => by
    unfold State.metErr
    split
    · rfl
    split <;> rfl
  unfold State.cwStore
  split
  · exact hw a b s
  · refine List.foldlRecOn _ _ (motive := fun u : State => u.regs = s.regs) rfl fun u hu p _ => ?_
    extract_lets i w
    split
    · exact (hw ..).trans hu
    split
    · exact (hw ..).trans hu
    split
    · exact (met ..).trans ((hw ..).trans hu)
    · exact (met ..).trans hu

namespace State.SameHp

variable {ρ s u : State}

theorem of_reg (h : ρ.SameHp s) (e : ∀ k : Fin 0x40000, u.reg (0x100000 + k) = s.reg (0x100000 + k)) : ρ.SameHp u :=
  (funext e).trans h

theorem of_regs (h : ρ.SameHp s) (e : u.regs = s.regs) : ρ.SameHp u := h.of_reg fun k => by rw [State.reg, State.reg, e]

theorem of_still (h : ρ.SameHp s) (e : u.still = s.still) : ρ.SameHp u := h.of_reg fun k => State.reg_of_still e (by omega)

theorem setXfer (h : ρ.SameHp s) (k : Nat) (v : Option Xfer) : ρ.SameHp (s.setXfer k v) := h.of_regs rfl

theorem setWait (h : ρ.SameHp s) (k : Nat) (v : Option Wait) : ρ.SameHp (s.setWait k v) := h.of_regs rfl

theorem setHolder (h : ρ.SameHp s) (k : Nat) (v : Holder) : ρ.SameHp (s.setHolder k v) := h.of_regs rfl

theorem setChain (h : ρ.SameHp s) (k : Nat) (v : Chain) : ρ.SameHp (s.setChain k v) := h.of_regs rfl

theorem modChain (h : ρ.SameHp s) (k : Nat) (f : Chain → Chain) : ρ.SameHp (s.modChain k f) := h.setChain ..

theorem modTxn (h : ρ.SameHp s) (k : Nat) (f : Txn → Txn) : ρ.SameHp (s.modTxn k f) := h.of_regs rfl

theorem modQueue (h : ρ.SameHp s) (k : Nat) (f : Queue → Queue) : ρ.SameHp (s.modQueue k f) := h.of_regs rfl

theorem modThread (h : ρ.SameHp s) (k : Nat) (f : Thread → Thread) : ρ.SameHp (s.modThread k f) := h.of_regs rfl

theorem latch (h : ρ.SameHp s) (k e : Nat) : ρ.SameHp (s.latch k e) := h.modThread ..

theorem openEx (h : ρ.SameHp s) (oph : Nat) (o : NOp) : ρ.SameHp (s.openEx oph o) := h.of_regs rfl

theorem pair (h : ρ.SameHp s) (v : Pair) : ρ.SameHp { s with pair := v } := h.of_regs rfl

theorem jpend (h : ρ.SameHp s) (v : List JRec) : ρ.SameHp { s with jpend := v } := h.of_regs rfl

theorem tpriv (h : ρ.SameHp s) (m : Mem) : ρ.SameHp { s with tpriv := m } := h.of_regs rfl

/-- A fold of changes each of which leaves the host port's registers alone. -/
theorem foldl {β : Type} {f : State → β → State} (h : ρ.SameHp s) (hf : ∀ u b, ρ.SameHp u → ρ.SameHp (f u b)) (l : List β) :
    ρ.SameHp (l.foldl f s) := List.foldlRecOn l f h fun u hu b _ => hf u b hu

/-! ## Registers of other blocks -/

section Registers

variable {o : Nat} (h : ρ.SameHp s) (ho : o + 4 < 0x100000 ∨ 0x140000 ≤ o)
include h ho

theorem setReg (w : Word) : ρ.SameHp (s.setReg o w) := h.of_reg fun k => s.reg_setReg_ne w (by omega)

theorem setBit (i : Nat) : ρ.SameHp (s.setBit o i) := h.of_reg fun k => s.reg_setBit_ne (by omega) i

theorem bump (n : Nat) : ρ.SameHp (s.bump o n) := h.of_reg fun k => s.reg_bump_ne (by omega) (by omega) n

end Registers

/-! ## Contexts, messages and exchanges -/

theorem touch (h : ρ.SameHp s) (sc : Nat) : ρ.SameHp (s.touch sc) := by
  unfold State.touch
  extract_lets u
  split
  · exact h
  split
  · exact setReg (h.of_regs rfl) (by decide) _
  split <;> exact h.of_regs rfl

theorem cxPut (h : ρ.SameHp s) (sc off : Nat) (b : Bytes) : ρ.SameHp (s.cxPut sc off b) := by
  refine touch ?_ sc
  split
  · exact h.of_regs rfl
  · refine h.of_regs (State.cwStore_regs s _ _ ?_ _ _)
    exact fun _ _ _ => rfl

theorem setCxFlag (h : ρ.SameHp s) (sc k : Nat) (b : Bool) : ρ.SameHp (s.setCxFlag sc k b) := h.cxPut ..

theorem tmemPut (h : ρ.SameHp s) (a : Nat) (b : Bytes) : ρ.SameHp (s.tmemPut a b) := by
  refine h.of_regs (State.cwStore_regs s _ _ ?_ _ _)
  exact fun _ _ _ => rfl

theorem message (h : ρ.SameHp s) (fn vec : Nat) : ρ.SameHp (s.message fn vec) := by
  rcases s.message_cases fn vec with e | e | e <;> rw [e]
  · exact h
  · exact bump (h.of_regs rfl) (by decide) 1
  · exact bump (h.of_still (s.hostWrite_still ..)) (by decide) 1

theorem queueFlit (h : ρ.SameHp s) (p : Nat) (f : Flit) (src : Nat) (x : Option Nat) : ρ.SameHp (s.queueFlit p f src x) :=
  h.of_still (s.offer_still _)

theorem modOp (h : ρ.SameHp s) (k : Nat) (f : NOp → NOp) : ρ.SameHp (s.modOp k f) := h.of_still (s.modOp_still k f)

theorem leaveOp (h : ρ.SameHp s) (o : Option Nat) : ρ.SameHp (s.leaveOp o) := h.of_still (s.leaveOp_still o)

theorem endOp (h : ρ.SameHp s) (k : Nat) : ρ.SameHp (s.endOp k).1 := by
  unfold State.endOp
  split
  · exact h
  extract_lets oph
  split
  · unfold State.closeEx
    split <;> exact h.of_regs rfl
  · exact h.of_still (s.sendEnd_still k)

theorem resGo (l kept : List ResReq) (h : ρ.SameHp s) : ρ.SameHp (State.resGo l kept s) := by
  induction l generalizing s kept with
  | nil => exact h.of_regs rfl
  | cons r rs ih =>
    rw [State.resGo]
    split
    · exact ih _ h
    · exact ih _ h
    · split
      · exact ih _ h
      · split
        · exact ih _ h
        · exact ih _ ((h.openEx ..).of_still (State.sendCmd_still ..))

theorem resAsk (h : ρ.SameHp s) (r : ResReq) : ρ.SameHp (s.resAsk r) := by
  refine resGo _ _ ?_
  exact h.of_regs rfl

theorem latchSc (h : ρ.SameHp s) (sc e : Nat) : ρ.SameHp (s.latchSc sc e) := by
  unfold State.latchSc
  cases s.threadOf sc with
  | none => exact h
  | some t => exact h.latch t e

/-! ## Transfers -/

theorem slotMark (h : ρ.SameHp s) (v : Xfer) (b k : Nat) (on : Bool) : ρ.SameHp (s.slotMark v b k on) := by
  have hb : 0x140000 ≤ 0x308000 + 16 * b := by omega
  have hc : ∀ c, 0x140000 ≤ bwCh c 0x10 := fun c => by unfold bwCh; omega
  unfold State.slotMark
  extract_lets s₁
  have h₁ : ρ.SameHp s₁ := setReg (setReg h (.inr hb) _) (.inr hb) _
  split
  · next c _ =>
    extract_lets s₂
    have h₂ : ρ.SameHp s₂ := setReg h₁ (.inr (hc c)) _
    split
    · exact setReg (setReg h₂ (.inr (hc c)) _) (.inr (hc c)) _
    · exact h₂
  · exact h₁

theorem unbind (h : ρ.SameHp s) (x : Nat) : ρ.SameHp (s.unbind x) := by
  unfold State.unbind
  split
  · split
    · exact (h.slotMark ..).setXfer ..
    · exact h
  · exact h

theorem dropXfer (h : ρ.SameHp s) (x : Nat) : ρ.SameHp (s.dropXfer x) := by
  unfold State.dropXfer
  split
  · split
    · exact (h.unbind x).setXfer ..
    · exact h
  · exact h

theorem endXfer (h : ρ.SameHp s) (x code info : Nat) (ns : Byte) : ρ.SameHp (s.endXfer x code info ns) := by
  unfold State.endXfer
  split
  · exact h
  split
  · exact h
  extract_lets s₁ s₂ s₃
  have h₁ : ρ.SameHp s₁ := h.setXfer ..
  have h₂ : ρ.SameHp s₂ := by
    refine h₁.foldl (fun u o hu => ?_) _
    split
    · split
      · split
        · exact hu
        · exact hu.endOp _
      · exact hu
    · exact hu
  have h₃ : ρ.SameHp s₃ := by
    unfold s₃
    split
    · exact h₂.of_regs rfl
    · exact h₁
  split
  · exact h₃.unbind x
  · exact h₃

theorem abortXfer (h : ρ.SameHp s) (x : Nat) : ρ.SameHp (s.abortXfer x) := (h.endXfer x 2 _ _).dropXfer x

theorem saveList (h : ρ.SameHp s) (sc : Nat) (v : Xfer) : ρ.SameHp (s.saveList sc v) := by
  unfold State.saveList
  split
  · exact h.cxPut ..
  · exact h

theorem stopXfer (h : ρ.SameHp s) (sc : Nat) : ρ.SameHp (s.stopXfer sc) := by
  have h₀ : ρ.SameHp (s.stopXfer0 sc) := by
    unfold State.stopXfer0
    split
    · split
      · exact ((h.saveList sc _).abortXfer _).modChain ..
      · exact h
    · exact h
  unfold State.stopXfer State.stopFwd
  split
  · exact ((h₀.saveList sc _).abortXfer _).modChain ..
  · exact h₀

/-! ## Slots, the journal and transactions -/

theorem wdState (h : ρ.SameHp s) : ρ.SameHp s.wdState := setReg h (by decide) _

theorem reserveGo (sc : Nat) (l : List Nat) (h : ρ.SameHp s) : ρ.SameHp (State.reserveGo sc l s) := by
  induction l generalizing s with
  | nil => exact (h.modChain ..).resAsk _
  | cons k l ih =>
    rw [State.reserveGo]
    split
    · exact ih h
    split
    · split
      · exact (setBit (o := 0x6A0000) h (by decide) 1).modChain ..
      · exact ih (h.setHolder ..).wdState
    · exact (h.setWait ..).wdState.modChain ..

theorem unwait (h : ρ.SameHp s) (sc : Nat) : ρ.SameHp (s.unwait sc) := by
  unfold State.unwait
  split
  · exact (h.setWait ..).wdState.latchSc sc 6
  · exact h

theorem releaseSlots (h : ρ.SameHp s) (p : Nat → Holder → Bool) (owner : NOwner) : ρ.SameHp (s.releaseSlots p owner) := by
  unfold State.releaseSlots
  refine wdState (foldl (foldl (foldl h ?_ _) ?_ _) ?_ _)
  · exact fun u e hu => hu.setHolder ..
  · exact fun u r hu => hu.resAsk _
  · intro u e hu
    unfold State.grantSlot
    split
    · exact hu
    · next sc _ => exact reserveGo _ _ ((hu.setWait ..).wdState.latchSc sc 6)

theorem mirrorGo (copy : Bool) (n : Nat) (l : List (Nat × Bytes)) (h : ρ.SameHp s) : ρ.SameHp (State.mirrorGo copy n l s) := by
  induction n generalizing s l with
  | zero => exact h
  | succ n ih =>
    cases l with
    | nil => exact h
    | cons b l =>
      rw [State.mirrorGo]
      extract_lets
      exact ih _ (setReg (o := 0x481014) (bump (o := cnt 0x481040 1) ((h.queueFlit ..).pair _) (by decide) 1) (by decide) _)

theorem jAssign1 (h : ρ.SameHp s) (r : JRec) : ρ.SameHp (s.jAssign1 r).1 := by
  unfold State.jAssign1 State.mirror State.jCounts
  extract_lets jseq slot rtype body raw g e s₁ s₂
  have h₁ : ρ.SameHp s₁ := h.of_regs rfl
  have h₂ : ρ.SameHp s₂ := by
    refine bump (setReg (setReg (setReg (setReg h₁ ?_ _) ?_ _) ?_ _) ?_ _) ?_ 1 <;> decide
  split
  · exact mirrorGo _ _ _ h₂
  · exact h₂

theorem jAssign (l done : List JRec) (h : ρ.SameHp s) : ρ.SameHp (State.jAssign l done s) := by
  induction l generalizing s done with
  | nil => exact h.jpend _
  | cons r l ih =>
    rw [State.jAssign]
    split
    · exact ih _ h
    split
    · exact setBit (o := 0xC0000) (h.jpend _) (by decide) 2
    split
    · exact ih _ (setBit h (by decide) 2)
    · exact ih _ (h.jAssign1 r)

theorem jIssue (h : ρ.SameHp s) (rtype : Nat) (body : Bytes) (eff : JEff) : ρ.SameHp (s.jIssue rtype body eff) := by
  unfold State.jIssue
  split
  · exact h
  · exact jAssign _ _ h

theorem outcome (h : ρ.SameHp s) (x node result : Nat) : ρ.SameHp (s.outcome x node result) := by
  unfold State.outcome
  extract_lets o c u b s₁
  have h₁ : ρ.SameHp s₁ := bump (h.modTxn ..) (.inr (by unfold cnt; omega)) 1
  split
  · exact (h₁.tpriv _).latch ..
  · exact h₁

theorem sendDecision (h : ρ.SameHp s) (x node : Nat) : ρ.SameHp (s.sendDecision x node) := by
  unfold State.sendDecision
  extract_lets o
  split
  · exact h
  · exact (h.queueFlit ..).modTxn ..

theorem tryDone (h : ρ.SameHp s) (x : Nat) : ρ.SameHp (s.tryDone x) := by
  unfold State.tryDone
  extract_lets o
  split
  · exact (h.modTxn ..).jIssue ..
  · exact h

theorem abortTx (h : ρ.SameHp s) (x cause node result : Nat) : ρ.SameHp (s.abortTx x cause node result) := by
  unfold State.abortTx
  extract_lets o s₁ s₂ s₃ s₄ s₅
  split
  · exact h
  have h₁ : ρ.SameHp s₁ := h.modTxn ..
  have h₂ : ρ.SameHp s₂ := by
    unfold s₂
    split
    · exact h₁.setCxFlag ..
    · exact h₁
  have h₄ : ρ.SameHp s₄ := (h₂.outcome x node result).foldl (fun u m hu => hu.sendDecision ..) _
  exact setReg ((h₄.releaseSlots _ _).tryDone x) (by decide) _

/-! ## Threads and chains -/

theorem dispPut (h : ρ.SameHp s) (k a done code : Nat) : ρ.SameHp (s.dispPut k a done code) := by
  unfold State.dispPut
  extract_lets b a' n m s₁
  have h₁ : ρ.SameHp s₁ := h.tpriv _
  split
  · split
    · exact h.tmemPut ..
    split
    · exact h₁
    · exact h₁.tmemPut ..
  · split
    · exact h.cxPut ..
    · exact h

theorem abortDisps (h : ρ.SameHp s) (k : Nat) : ρ.SameHp (s.abortDisps k) := by
  unfold State.abortDisps
  split
  · exact h
  refine latch (modThread (foldl h (fun u x hu => ?_) _) k _) k 1
  split
  · split
    · exact (hu.dispPut ..).abortXfer x
    · exact hu.abortXfer x
  · exact hu

theorem freeSc (h : ρ.SameHp s) (sc : Nat) : ρ.SameHp (s.freeSc sc) := by
  unfold State.freeSc
  split
  · exact (h.abortDisps _).of_still (State.freeThreadOf_still ..)
  · exact h

theorem unreserve (h : ρ.SameHp s) (sc : Nat) : ρ.SameHp (s.unreserve sc) := (h.unwait sc).of_regs rfl

theorem fenceChain (h : ρ.SameHp s) (sc : Nat) : ρ.SameHp (s.fenceChain sc) :=
  (((((h.stopXfer sc).leaveOp _).leaveOp _).unreserve sc).freeSc sc).setChain ..

theorem fixStatus (h : ρ.SameHp s) (sc : Nat) (e : EndCond) : ρ.SameHp (s.fixStatus sc e) := by
  unfold State.fixStatus
  extract_lets ph s₁ c de b acc s₂ s₃ s₄ ent s₅ s₆ s₇
  split
  · exact h
  split
  · exact h.fenceChain sc
  have h₁ : ρ.SameHp s₁ := by
    unfold s₁
    split
    · split
      · exact h
      · exact (h.abortTx ..).modChain ..
    · exact h
  have h₃ : ρ.SameHp s₃ := (((h₁.leaveOp _).leaveOp _).cxPut ..).setCxFlag ..
  have h₄ : ρ.SameHp s₄ := by
    unfold s₄
    split
    · exact h₃.cxPut ..
    · exact h₃
  have h₆ : ρ.SameHp s₆ := ((h₄.cxPut ..).unreserve sc).freeSc sc
  exact (h₆.setChain ..).jIssue ..

theorem endChain (h : ρ.SameHp s) (sc : Nat) (e : EndCond) : ρ.SameHp (s.endChain sc e) := (h.stopXfer sc).fixStatus sc e

theorem enterFenced (h : ρ.SameHp s) (sc cause : Nat) : ρ.SameHp (s.enterFenced sc cause) := by
  unfold State.enterFenced State.unhold
  extract_lets k l s₁ s₂ s₃
  have h₁ : ρ.SameHp s₁ := ((h.setCxFlag sc 1 false).cxPut ..).of_regs rfl
  have h₂ : ρ.SameHp s₂ := by
    unfold s₂
    split
    · exact setReg h₁ (.inr (by unfold tq; omega)) _
    · exact h
  have h₃ : ρ.SameHp s₃ := h₂.of_regs rfl
  exact (h₃.setChain ..).jIssue ..

/-! ## What a codeword error brings -/

theorem stopQueue (h : ρ.SameHp s) (q : Nat) : ρ.SameHp (s.stopQueue q) := by
  unfold State.stopQueue
  split
  · exact h
  extract_lets s₁ fn v
  have h₁ : ρ.SameHp s₁ := setBit (h.modQueue ..) (.inr (by unfold tq; omega)) 4
  split
  · exact setBit h₁ (by decide) 5
  · exact h₁.message fn v

theorem ctxLost (h : ρ.SameHp s) (sc : Nat) : ρ.SameHp (s.ctxLost sc) := by
  unfold State.ctxLost
  split
  · exact h
  extract_lets s₁
  have h₁ : ρ.SameHp s₁ := by
    unfold s₁
    split
    · exact h.abortTx ..
    · exact h
  split
  · exact h₁.enterFenced sc 0
  · exact (h₁.fenceChain sc).enterFenced sc 0

theorem faultEffect (h : ρ.SameHp s) (n unit : Nat) : ρ.SameHp (s.faultEffect n unit) := by
  unfold State.faultEffect
  split
  · split
    · exact h.stopQueue unit
    · exact h
  split
  · split
    · exact h.of_regs rfl
    · exact h.of_regs rfl
  split
  · split
    · exact h.ctxLost unit
    · exact h
  split
  · split
    · exact h.endXfer ..
    · exact h
  split
  · split
    · exact h.of_regs rfl
    · exact h
  split
  · split
    · exact h.of_regs rfl
    · exact h
  · exact h

end State.SameHp

/-! ## What follows a command -/

/-- A device that does not work takes no reports (R594). -/
theorem State.report_of_life {s : State} (h : s.life ≠ .live) (n : Nat) : s.report n = s := by
  unfold State.report
  rw [if_pos (.inl h)]

/-- What codeword errors and traps bring, while the device does not work. -/
theorem State.SameHp.dueGo {ρ : State} (n : Nat) : ∀ {s : State}, s.life ≠ .live → ρ.SameHp s → ρ.SameHp (State.dueGo n s) := by
  induction n with
  | zero => exact fun _ h => h
  | succ n ih =>
    intro s hl h
    rw [State.dueGo]
    split
    · exact h
    extract_lets s₁
    have h₁ : ρ.SameHp s₁ := h.of_regs rfl
    split
    · next src unit _ =>
      have hf : ∀ b : Bool, (if b then s₁ else s₁.faultEffect src unit).life ≠ .live ∧ ρ.SameHp (if b then s₁ else s₁.faultEffect src unit) := by
        rintro (_ | _)
        · exact ⟨fun e => hl (((State.faultEffect_keeps s₁ src unit (κ := {}) .rfl).life rfl).symm.trans e), h₁.faultEffect src unit⟩
        · exact ⟨hl, h₁⟩
      obtain ⟨hl₂, h₂⟩ := hf s₁.safe
      rw [State.report_of_life hl₂]
      exact ih hl₂ h₂
    · next sc _ =>
      exact ih (fun e => hl (((State.endChain_keeps s₁ sc _ (κ := {}) .rfl).life rfl).symm.trans e)) (h₁.endChain sc _)

/-- What follows a command in a device that does not work leaves the registers of the host port alone. -/
theorem State.finish_sameHp {s : State} (hl : s.life ≠ .live) : s.SameHp s.finish := by
  have h : s.SameHp (State.dueGo (2 * s.due.length + 8) s) := .dueGo _ hl rfl
  have hd : (State.dueGo (2 * s.due.length + 8) s).life ≠ .live := fun e =>
    hl (((State.dueGo_keeps _ s (κ := {}) .rfl).life rfl).symm.trans e)
  have hw : (State.dueGo (2 * s.due.length + 8) s).wake = State.dueGo (2 * s.due.length + 8) s := by
    unfold State.wake State.running
    rw [decide_eq_false hd]
    rfl
  unfold State.finish State.settle
  rw [hw]
  split
  · exact h.of_regs rfl
  · next e => exact absurd e hd
  · exact h.of_regs rfl

end Sys2Proof.Machine
end

section
/-! PROOFS. The settled statement on the host port (R513, R514, R673): what a port reset does to a state in which a packet waits in the fabric
for a thread that no Tiller has. Canonical form bounds no thread's number, and the counter of corrected words that such a thread's group
would have (R443) is the loopback register of the host port. -/

namespace Sys2Proof.Machine

/-! ## Changes that change nothing -/

/-- A field written with what it holds. -/
theorem State.wf_self {s : State} (hw : SMap.wf regReset s.regs = true) {o lo w x : Nat} (h : s.rf o lo w = x % 2 ^ w) : s.wf o lo w x = s := by
  have hv : setBits (s.rn o) lo w x = s.rn o := by
    have hle : bits (s.rn o) lo w * 2 ^ lo ≤ s.rn o :=
      (Nat.mul_le_mul_right _ (Nat.mod_le _ _)).trans (Nat.div_mul_le_self _ _)
    rw [State.rf] at h
    rw [setBits, ← h]
    omega
  have hr : BitVec.ofNat 32 (setBits (s.rn o) lo w x) = s.reg o := by rw [hv, State.rn, BitVec.ofNat_toNat, BitVec.setWidth_eq]
  rw [State.wf, hr, State.setReg, State.reg, SMap.set_get hw]

/-- A reset of a DMA channel that has no descriptor and is off. -/
theorem State.resetChan_off {s : State} (hr : SMap.wf regReset s.regs = true) (hw : SMap.wf (fun _ => {}) s.chans = true) {c : Nat}
    (hc : s.chan c = {}) (hs : s.rf (bwCh c 0x10) 0 3 = 0) (he : s.rf (bwCh c 0) 0 1 = 0) : s.resetChan c = s := by
  have hm : (s.modChan c fun q => { q with discard := !q.desc.isEmpty }) = s := by
    have hq : { s.chan c with discard := !(s.chan c).desc.isEmpty } = s.chan c := by rw [hc]; rfl
    rw [State.modChan, hq, State.setChan, State.chan, SMap.set_get hw]
  have hb : s.wb (bwCh c 0) 0 false = s := State.wf_self hr he
  unfold State.resetChan
  simp only [hm]
  rw [if_pos (Or.inl hs), hb, if_pos (by rw [hc]; rfl)]
  exact State.wf_self hr hs

/-- With no context cached or changed, no subchannel is to be cleared. -/
theorem State.resetScs_nil {s : State} (h : s.ctx = []) (fn : Nat) : s.resetScs fn = [] := by
  have idle : ∀ sc, s.scState sc = 0 := fun sc => by
    simp [State.scState, State.cx, h, Mem.le, Mem.rdN, Mem.rd, SMap.get, memZero, leNat, bits]
  rw [State.resetScs, List.filter_eq_nil_iff]
  intro sc _
  simp [idle]

/-! ## The state -/

/-- A device that waits for its supplies (R531), with queue 0 enabled, a resynchronisation under way (R644), an injection armed for the next
packet (R680), and a packet in the fabric for a thread of group 0x47FC0, whose FU_TG_CEC would lie at 0x70_0000, where TS_LB_CTL of the host
port is; the functions' configuration is `fns`. -/
def strayed (fns : SMap FnCfg) : State :=
  { life := .waiting, fns, regs := [(0x700A10, 0x8001), (0x800000, 1)], pair := { copyPos := some 0 },
    fab := [{ src := 6, dst := 5, words := 1, body := .pkt (128 * 0x47FC0) .free {} }] }

theorem strayed_canon : (strayed []).Canon := by
  constructor <;> decide +kernel

theorem strayed_reg (fns : SMap FnCfg) {p : Nat} (h : p < 0x700000) : (strayed fns).reg p = regReset p := by
  have h₁ : 0x700A10 ≠ p := by omega
  have h₂ : 0x800000 ≠ p := by omega
  simp only [State.reg, strayed, SMap.get, if_neg h₁, if_neg h₂]

/-- Its DMA channels are off. -/
theorem strayed_resetChan (fns : SMap FnCfg) {c : Nat} (hc : c < 256) : (strayed fns).resetChan c = strayed fns := by
  have off : ∀ c < 256, bits (regReset (bwCh c 0x10)).toNat 0 3 = 0 ∧ bits (regReset (bwCh c 0)).toNat 0 1 = 0 := by decide +kernel
  obtain ⟨hs, he⟩ := off c hc
  have hr : SMap.wf regReset (strayed fns).regs = true := strayed_canon.regs
  refine State.resetChan_off hr rfl rfl ?_ ?_
  · rw [State.rf, State.rn, strayed_reg fns (by unfold bwCh; omega), hs]
  · rw [State.rf, State.rn, strayed_reg fns (by unfold bwCh; omega), he]

/-- The configuration once a reset of function `fn` has begun (R514 step 1). -/
def resetBegun (fns : SMap FnCfg) (fn : Nat) : SMap FnCfg :=
  SMap.set (fun _ => {}) fns fn { SMap.get (fun _ => {}) fns fn with resetting := true }

/-- Of what a reset of a function does (R514), only the queues of the function and its configuration are left to do. -/
theorem strayed_resetFn (fns : SMap FnCfg) (fn : Nat) :
    (strayed fns).resetFn fn false =
      let s := if fn = 0 then (strayed (resetBegun fns 0)).resetQueue 0 else strayed (resetBegun fns fn)
      let s := s.setFnc fn { resetting := true }
      let s := { s with msix := s.msix.filter fun e => decide (e.1 / 2048 ≠ fn), pba := s.pba.filter fun e => decide (e.1 / 2048 ≠ fn) }
      if fn = 0 then s.vaultLost.suAbort else s := by
  let b := strayed (resetBegun fns fn)
  have hbegin : ((strayed fns).modFnc fn fun c => { c with resetting := true }) = b := rfl
  have hreads : b.readsAll = [] := rfl
  have hdrop : (b.readDrop fun w => ([] : List ReadReq).any fun r => decide (r.why = w)) = b := rfl
  have hchans : ∀ p, ((List.range 256).filter p).foldl (fun s c => s.resetChan c) b = b := fun p =>
    List.foldlRecOn _ _ (motive := fun s => s = b) rfl fun s hs c hc => by
      rw [hs, strayed_resetChan _ (List.mem_range.mp (List.mem_of_mem_filter hc))]
  have hqueues : (b.liveQueues.filter fun q => b.qEn q && decide (b.qFn q = fn)) = if fn = 0 then [0] else [] := by
    have hlive : b.liveQueues = [0] := rfl
    have hq : b.qEn 0 = true ∧ b.qFn 0 = 0 := (by decide +kernel : (strayed []).qEn 0 = true ∧ (strayed []).qFn 0 = 0)
    obtain ⟨hen, hfn⟩ := hq
    rw [hlive]
    by_cases h : fn = 0 <;> simp [hen, hfn, h, eq_comm]
  unfold State.resetFn
  simp only [hbegin, hreads, List.filter_nil, List.foldl_nil, hdrop, hchans, State.resetScs_nil (s := b) rfl fn, hqueues]
  by_cases h : fn = 0
  · subst h
    rfl
  · simp only [if_neg h]
    rfl

/-- The configuration once the VFs have been reset. -/
def vfsBegun : SMap FnCfg := (List.range 31).map fun k => (k + 1, { resetting := true })

/-- The reset of the VFs changes their configuration alone. -/
theorem strayed_resetVfs : (strayed []).resetVfs = strayed vfsBegun := by
  have step : ∀ (l : List Nat) fns, (∀ f ∈ l, f ≠ 0) → l.foldl (fun s f => s.resetFn f false) (strayed fns) =
      strayed (l.foldl (fun fns f => SMap.set (fun _ => {}) (resetBegun fns f) f { resetting := true }) fns) := by
    intro l
    induction l with
    | nil => exact fun _ _ => rfl
    | cons f l ih =>
      intro fns hl
      have hf : f ≠ 0 := hl f (List.mem_cons_self ..)
      have one : (strayed fns).resetFn f false = strayed (SMap.set (fun _ => {}) (resetBegun fns f) f { resetting := true }) := by
        rw [strayed_resetFn]
        simp only [if_neg hf]
        rfl
      rw [List.foldl_cons, List.foldl_cons, one, ih _ fun g hg => hl g (List.mem_cons_of_mem _ hg)]
  unfold State.resetVfs
  rw [step _ _ (by decide)]
  exact congrArg strayed (by decide +kernel)

/-- The reset of the PF turns queue 0 off, and the queue's record is mirrored to the partner (R631); before that flit the packet that waited
crosses, and is counted as corrected (R443) in what is the loopback register. -/
theorem strayed_lbDepth : ((strayed []).resetVfs.resetFn 0 false).lbDepth 0 = 1 := by
  rw [strayed_resetVfs, strayed_resetFn]
  decide +kernel

/-- In loopback the host's link does not come up. -/
theorem strayed_hpLink : (strayed []).resetPort.reg 0x100004 = 0 := by
  have hc : ((strayed []).resetVfs.resetFn 0 false).Canon :=
    (State.resetFn_keeps _ 0 false (State.resetVfs_keeps _ (κ := {}) .rfl)).canon strayed_canon
  unfold State.resetPort State.linkUp
  rw [State.reg_setBit_ne _ (by decide), if_pos (by rw [strayed_lbDepth]; decide), State.reg_setReg hc.regs]

/-- Refutes O53: a port reset of the device `strayed []` does not leave HP_LINK with the rate and width of a link that is up. The state is in
canonical form, which bounds no thread's number; the reset lets a packet cross for a thread that no Tiller has, its corrected word is counted
in TS_LB_CTL, and in loopback no link comes up (R673). What follows a command leaves HP_LINK alone in a device that does not work, so no
state whose end is this one shows a rate. -/
theorem not_hostPortFunctionsAndTime : ¬ Obligations.HostPortFunctionsAndTime := by
  intro h
  obtain ⟨_, hreset, _⟩ := h (strayed []) strayed_canon
  have hport : (strayed []).portThere = true := by decide +kernel
  obtain ⟨m, hm, _, _, _, hrate, _⟩ := hreset hport
  have hexec : exec .portReset (strayed []) = .next (strayed []).resetPort.finish := by
    change execPortReset (strayed []) = _
    unfold execPortReset
    rw [hport]
    rfl
  have hend : (strayed []).resetPort.finish = m.finish := by
    rw [hexec] at hm
    exact Host.Outcome.next.inj hm
  have hlife : ∀ u : State, (strayed []).resetPort.finish = u.finish → u.life ≠ .live := fun u hu => by
    have hw : (strayed []).resetPort.finish.life = .waiting :=
      (State.finish_keeps _ (State.resetPort_keeps _ (κ := {}) .rfl)).life rfl
    have hk : u.finish.life = u.life := (State.finish_keeps u (κ := {}) .rfl).life rfl
    rw [← hk, ← hu, hw]
    decide
  have hlink : m.reg 0x100004 = 0 := by
    have e : m.hpRegs = (strayed []).resetPort.hpRegs :=
      (State.finish_sameHp (hlife m hend)).symm.trans ((congrArg State.hpRegs hend.symm).trans (State.finish_sameHp (hlife _ rfl)))
    exact (congrFun e 4).trans strayed_hpLink
  rw [State.rf, State.rn, hlink] at hrate
  revert hrate
  decide

end Sys2Proof.Machine
end

section
/-! PROOFS. The management port while the host port is ready before step 6 of a start (R512, R523, R524): it reads the context window, of
which the host port gives the PF zeros. -/

namespace Sys2Proof.Machine

/-- Until step 6 the host port gives a function zeros for the context window (R512). -/
theorem State.readReg_limited {s : State} {fn off : Nat} (h : s.memServe fn = .limited) (ho : 0x3000000 ≤ off) :
    s.readReg (.fn fn) off = 0 := by
  have behind : ¬ (0x108000 ≤ off ∧ off < 0x110100) := by omega
  have blind : 0x3000000 ≤ off ∧ s.blind (.fn fn) = true := ⟨ho, by simp [State.blind, h]⟩
  rw [State.readReg, if_neg behind, if_pos blind, ite_self]

/-- SMB_READ of an offset that the port reaches answers the value there, and the offset advances (R523). -/
theorem exec_smbRead {s : State} (hs : s.serves_ .mgmt = true) (hr : smbReach s.smbAddr.toNat = true) :
    exec .smbRead s = .next { s with
      smbAddr := s.smbAddr + 4, reply := .data (natLE 4 (s.readReg .mgmt s.smbAddr.toNat).toNat) 0 } := by
  change execSmbRead s = _
  rw [execSmbRead, State.smbThere, if_pos hs]
  exact if_pos hr

/-- A start that waits for VBAK (R531) until the host port is ready before step 6 (R512), with memory space of the PF enabled; the management
port has given subchannel 0 to function 5 and holds the offset of its SC_OWNER. -/
def unstarted : State :=
  { life := .waiting, hostReady := true, fns := [(0, { memEn := true })], regs := [(scOwner 0, 5)], smbAddr := 0x3000200 }

theorem unstarted_canon : unstarted.Canon := by
  constructor <;> decide +kernel

/-- Refutes O55: in the state `unstarted` SMB_READ answers SC_OWNER of subchannel 0, which is 5, where a read by the PF through the host port
gives 0. The statement has the two alike; R524 gives the management port the access of the PF, and the zeros of R512 are the host port's. -/
theorem not_managementAndVault : ¬ Obligations.ManagementAndVault := by
  intro h
  obtain ⟨hport, -⟩ := h
  obtain ⟨-, -, -, hread, -⟩ := hport unstarted unstarted_canon (.inr rfl)
  have reach : smbReach unstarted.smbAddr.toNat = true := by decide
  have pf : unstarted.readReg (.fn 0) unstarted.smbAddr.toNat = 0 := State.readReg_limited (by decide +kernel) (by decide)
  have mgmt : unstarted.readReg .mgmt unstarted.smbAddr.toNat = 5 := by decide +kernel
  have same := hread reach
  rw [exec_smbRead rfl reach, pf, mgmt] at same
  injection same with same
  exact absurd (congrArg State.reply same) (by decide)

end Sys2Proof.Machine
end

section
/-! PROOFS. A read of the host on its way: it is outstanding, or waits, from when a unit asks for it, and with nothing in its way it leaves as
one TLP (R440, R460, R461, R495, R497). -/

namespace Sys2Proof.Machine

variable (s : State)

/-! ## The reads that are asked for -/

/-- The read that a packet carries. -/
def FPkt.read? (k : FPkt) : Option ReadReq :=
  match k.body with
  | .read _ r => some r
  | _ => none

theorem State.readsAll_eq : s.readsAll = s.reads ++ s.fab.filterMap FPkt.read? ++ s.readWait.filterMap FPkt.read? := rfl

/-- Where reads that are not completed stand: outstanding, before the fabric, or waiting to be issued. -/
def State.asked (s : State) : List ReadReq × List FPkt × List FPkt := (s.reads, s.fab, s.readWait)

theorem State.setReg_asked (o : Nat) (w : Word) : (s.setReg o w).asked = s.asked := rfl

theorem State.bump_asked (o n : Nat) : (s.bump o n).asked = s.asked := (State.setReg_asked _ _ _).trans (s.setReg_asked _ _)

theorem State.setBit_asked (o k : Nat) : (s.setBit o k).asked = s.asked := by
  unfold State.setBit State.setStatus
  extract_lets v m
  split <;> rfl

theorem State.metErr_asked (r : MemRegion) (i w : Nat) : (s.metErr r i w).asked = s.asked := by
  unfold State.metErr
  split
  · rfl
  split <;> rfl

theorem State.injDone_asked : s.injDone.asked = s.asked := (State.setBit_asked ..).trans (s.setReg_asked ..)

theorem State.setFbWait_asked (o r v : Nat) : (s.setFbWait o r v).asked = s.asked := by
  unfold State.setFbWait
  split <;> rfl

theorem State.fabDecide_asked (o : Nat) (e : List Nat) (w : Nat) (forced : Bool) : (s.fabDecide o e w forced).asked = s.asked := by
  unfold State.fabDecide
  extract_lets s₁ s₂ s₃
  have h₁ : s₁.asked = s.asked :=
    List.foldlRecOn e _ (motive := fun u : State => u.asked = s.asked) rfl fun u hu r _ => (u.setFbWait_asked ..).trans hu
  have h₃ : s₃.asked = s₂.asked := by
    unfold s₃
    split <;> rfl
  split
  · exact (s₃.bump_asked ..).trans (h₃.trans h₁)
  · exact h₃.trans h₁

theorem State.furrowPass_asked (f : Nat) : (s.furrowPass f).1.asked = s.asked := by
  unfold State.furrowPass
  extract_lets h
  split
  · rfl
  split
  · exact (State.metErr_asked ..).trans ((State.setReg_asked ..).trans s.injDone_asked)
  · exact (State.metErr_asked ..).trans ((State.bump_asked ..).trans ((State.setBit_asked ..).trans s.injDone_asked))

theorem State.flitOut_asked (p : Nat) (f : Flit) : (s.flitOut p f).asked = s.asked := by
  unfold State.flitOut
  extract_lets h u
  unfold u
  split
  · rfl
  · exact s.injDone_asked

theorem State.pktIn_asked (t : Nat) (bd : Binding) (p : Pkt) : (s.pktIn t bd p).asked = s.asked := by
  unfold State.pktIn
  split
  · unfold State.dropPkts
    rw [if_neg (by decide)]
    exact (State.setBit_asked ..).trans (s.setReg_asked ..)
  · extract_lets hit s₁ s₂
    have h₁ : s₁.asked = s.asked := by
      unfold s₁
      split
      · rfl
      · exact s.injDone_asked
    have h₂ : s₂.asked = s₁.asked := by
      unfold s₂
      split
      · exact (State.metErr_asked ..).trans (s₁.setReg_asked ..)
      · rfl
    exact h₂.trans h₁

/-- A TLP comes to the output Furrow, sent or removed: its read is outstanding (R447). -/
theorem State.tlpOut_asked (t : Tlp) (r : Option ReadReq) : (s.tlpOut t r).asked = (s.reads ++ r.toList, s.fab, s.readWait) := by
  have h := s.furrowPass_asked 1
  simp only [State.asked, Prod.mk.injEq] at h
  obtain ⟨hreads, hfab, hwait⟩ := h
  simp only [State.tlpOut, State.asked, hreads, hfab, hwait]

/-- A packet that arrives: a read in it is outstanding. -/
theorem State.arrived_asked (k : FPkt) : (s.arrived k).asked = (s.reads ++ k.read?.toList, s.fab, s.readWait) := by
  obtain ⟨src, dst, words, moved, x, body⟩ := k
  unfold State.arrived FPkt.read?
  cases body with
  | write t => exact s.tlpOut_asked t none
  | read t r => exact s.tlpOut_asked t (some r)
  | flit p f => simpa [State.asked] using s.flitOut_asked p f
  | pkt t b p => simpa [State.asked] using s.pktIn_asked t b p

/-- A packet's next word crosses: it carries the same read. -/
theorem filterMap_read_replace (l : List FPkt) (k : FPkt) (n : Nat) :
    (l.replace k { k with moved := n }).filterMap FPkt.read? = l.filterMap FPkt.read? := by
  induction l with
  | nil => rfl
  | cons j l ih =>
    rw [List.replace_cons]
    split
    · next h =>
      rw [eq_of_beq h]
      rfl
    · rw [List.filterMap_cons, List.filterMap_cons, ih]

/-- While packets cross, no read is lost or made, and those that arrive come behind the outstanding ones. -/
theorem State.fabRun_reads (o n : Nat) :
    (∃ l, (State.fabRun o n s).reads = s.reads ++ l) ∧ (State.fabRun o n s).readsAll.Perm s.readsAll := by
  induction n generalizing s with
  | zero => exact ⟨⟨[], by simp [State.fabRun]⟩, .refl _⟩
  | succ n ih =>
    rw [State.fabRun]
    split
    · exact ⟨⟨[], by simp⟩, .refl _⟩
    next w forced _ =>
    split
    · exact ⟨⟨[], by simp⟩, .refl _⟩
    next k hk =>
    extract_lets s₁
    have same : s₁.asked = s.asked := s.fabDecide_asked ..
    simp only [State.asked, Prod.mk.injEq] at same
    obtain ⟨hreads, hfab, hwait⟩ := same
    split
    · obtain ⟨⟨l, hl⟩, hp⟩ := ih { s₁ with fab := s₁.fab.replace k { k with moved := k.moved + 1 } }
      refine ⟨⟨l, hl.trans (by rw [hreads])⟩, hp.trans (.of_eq ?_)⟩
      simp only [State.readsAll_eq, filterMap_read_replace, hreads, hfab, hwait]
    · have arrived := State.arrived_asked { s₁ with fab := s₁.fab.erase k } k
      simp only [State.asked, Prod.mk.injEq] at arrived
      obtain ⟨areads, afab, await⟩ := arrived
      obtain ⟨⟨l, hl⟩, hp⟩ := ih ({ s₁ with fab := s₁.fab.erase k }.arrived k)
      refine ⟨⟨k.read?.toList ++ l, by rw [hl, areads, hreads, List.append_assoc]⟩, hp.trans ?_⟩
      rw [State.readsAll_eq, State.readsAll_eq, areads, afab, await, hreads, hfab, hwait]
      refine List.Perm.append_right _ ?_
      rw [List.append_assoc]
      refine List.Perm.append_left _ (.trans ?_ ((List.perm_cons_erase (s.mem_fab_of_fabHead hk)).symm.filterMap _))
      rw [List.filterMap_cons]
      cases k.read? <;> rfl

/-! ## A read is asked for -/

/-- A read that a fabric port hands to the fabric is one more that is not completed. -/
theorem State.offer_readsAll {k : FPkt} {r : ReadReq} (hr : k.read? = some r) : (s.offer k).readsAll.Perm (r :: s.readsAll) := by
  refine (State.fabRun_reads _ _ _).2.trans ?_
  rw [State.readsAll_eq, State.readsAll_eq, List.filterMap_append, List.filterMap_cons, hr, List.filterMap_nil, ← List.append_assoc,
    List.append_assoc _ [r]]
  exact List.perm_middle

/-- A packet with a read carries a TLP. -/
theorem FPkt.tlp_of_read {k : FPkt} (h : k.tlp? = none) : k.read? = none := by
  unfold FPkt.tlp? at h
  unfold FPkt.read?
  split <;> simp_all

/-- A read whose TLP alone waits for the fabric, with room in the output Furrow, crosses at once and is outstanding. -/
theorem State.offer_reads {k : FPkt} {t : Tlp} {r : ReadReq} (hr : k.read? = some r) (ht : k.tlp? = some t) (hd : k.dst = 0)
    (hk : k.words = t.words) (hw : t.words = 1) (hm : k.moved = 0) (hsrc : k.src < 12) (hit : s.furrowHit = 0) (hfab : s.fab = [])
    (hwait : s.readWait = []) (room : s.outUsed 0 < outSize 0) :
    (s.offer k).reads = s.reads ++ [r] ∧ (s.offer k).hostOut = s.hostOut ++ [t] := by
  obtain ⟨tlps, out⟩ := State.offer_sends s ht hd hk hw hm hsrc hit
  have hout := out hfab (by omega)
  refine ⟨?_, hout⟩
  obtain ⟨l, hl⟩ : ∃ l, (s.offer k).reads = s.reads ++ l := (State.fabRun_reads _ _ _).1
  have empty : (s.offer k).fab.filterMap FPkt.tlp? = [] := by
    have := tlps.length_eq
    simpa [State.waitingTlps_eq, hout, hfab] using this
  have none_left : (s.offer k).fab.filterMap FPkt.read? = [] := by
    rw [List.filterMap_eq_nil_iff] at empty ⊢
    exact fun j hj => FPkt.tlp_of_read (empty j hj)
  have wait : (s.offer k).readWait = [] := (congrArg State.readWait (s.offer_still k) :).trans hwait
  have perm := s.offer_readsAll hr
  rw [State.readsAll_eq, State.readsAll_eq, none_left, wait, hl, hfab, hwait] at perm
  simp only [List.filterMap_nil, List.append_nil] at perm
  have one : l.Perm [r] := (List.perm_append_left_iff s.reads).mp (perm.trans (List.perm_append_singleton r s.reads).symm)
  rw [hl, List.perm_singleton.mp one]

/-- A read that a unit asks for, with no relaxed ordering and from Trellis's port. -/
theorem State.hostRead_readsHost (fn addr len : Nat) (why : ReadFor) : ReadsHost s (s.hostRead fn addr len why) { fn, addr, len, why } := by
  unfold State.hostRead
  extract_lets t k
  split
  · refine ⟨s.offer_readsAll rfl, fun ⟨hfab, hwait, _, room, hit⟩ => ?_⟩
    exact s.offer_reads (k := k) (t := t) rfl rfl rfl rfl rfl rfl (Nat.lt_succ_self 11) hit hfab hwait room
  · next h =>
    constructor
    · rw [State.readsAll_eq, State.readsAll_eq]
      simp only [List.filterMap_append]
      rw [← List.append_assoc]
      exact List.perm_append_singleton ..
    · intro ⟨_, hwait, room, _⟩
      exact absurd (by rw [hwait, room]; rfl) h

/-! ## What decides how a read leaves -/

/-- What a read of the host meets: the reads and packets before it, the functions' configuration, and the armed injection. -/
def State.beforeRead (s : State) : (List ReadReq × List FPkt × List FPkt) × List Tlp × SMap FnCfg × Word :=
  (s.asked, s.hostOut, s.fns, s.reg 0x700A10)

/-- A read asked for in a state that differs in nothing it meets. -/
theorem ReadsHost.congr {s s' m : State} {r : ReadReq} (e : s'.beforeRead = s.beforeRead) (h : ReadsHost s m r) : ReadsHost s' m r := by
  simp only [State.beforeRead, State.asked, Prod.mk.injEq] at e
  obtain ⟨⟨reads, fab, wait⟩, out, fns, reg⟩ := e
  have hit : s'.furrowHit = s.furrowHit := State.furrowHit_of_reg reg
  have outUsed : s'.outUsed 0 = s.outUsed 0 := by simp only [State.outUsed, if_pos, fab, out]
  have inUsed : s'.inUsed 0 = s.inUsed 0 := by simp [State.inUsed, State.inPkts, fab]
  have issued : s'.readsOut = s.readsOut := by
    rw [State.readsOut, reads, fab]
    rfl
  have room : ∀ n, s'.readRoom n = s.readRoom n := fun n => by rw [State.readRoom, State.readRoom, issued, inUsed]
  unfold ReadsHost State.hostFree at h ⊢
  rw [State.readsAll_eq] at h ⊢
  rwa [State.readsAll_eq, reads, fab, wait, out, room, outUsed, hit, State.fnc, fns] 

/-! ## What a read asked for leaves alone -/

/-- A read that is asked for changes what a crossing changes, and the reads that wait. -/
theorem State.hostRead_still (fn addr len : Nat) (why : ReadFor) (data : Bool) (src : Nat) :
    ∃ w, (s.hostRead fn addr len why data src).still = { s with readWait := w }.still := by
  unfold State.hostRead
  extract_lets t k
  split
  · exact ⟨s.readWait, s.offer_still k⟩
  · exact ⟨_, rfl⟩

end Sys2Proof.Machine
end

section
/-! PROOFS. Bytes of the Seed flash: what a program, an erase and a lost page or block leave (R565, R591 to R593). -/

namespace Sys2Proof.Machine

/-! ## Tables put together from parts -/

section Tables

variable {α : Type} {d : Nat → α}

/-- A table with no entry for a key reads there as its default. -/
theorem SMap.get_of_absent {m : SMap α} {k : Nat} (h : ∀ e ∈ m, e.1 ≠ k) : SMap.get d m k = d k := by
  induction m with
  | nil => rfl
  | cons e m ih => rw [SMap.get, if_neg (h e (List.mem_cons_self ..)), ih fun x hx => h x (List.mem_cons_of_mem _ hx)]

/-- A table whose entries are chosen by key reads, at a key, as before or as its default. -/
theorem SMap.get_filter_key (m : SMap α) (p : Nat → Bool) (k : Nat) :
    SMap.get d (m.filter fun e => p e.1) k = if p k then SMap.get d m k else d k := by
  by_cases hp : p k = true
  · rw [if_pos hp]
    induction m with
    | nil => rfl
    | cons e m ih =>
      by_cases he : e.1 = k
      · rw [List.filter_cons_of_pos (by simpa [he] using hp), SMap.get, SMap.get, if_pos he, if_pos he]
      · rw [SMap.get, if_neg he, ← ih, List.filter_cons]
        split
        · rw [SMap.get, if_neg he]
        · rfl
  · rw [if_neg hp]
    exact SMap.get_of_absent fun e he hk => hp (hk ▸ (List.mem_filter.mp he).2)

/-- Of two tables put together, one with no entry for a key does not count there. -/
theorem SMap.get_append_of_absent_left {m n : SMap α} {k : Nat} (h : ∀ e ∈ m, e.1 ≠ k) : SMap.get d (m ++ n) k = SMap.get d n k := by
  induction m with
  | nil => rfl
  | cons e m ih =>
    rw [List.cons_append, SMap.get, if_neg (h e (List.mem_cons_self ..)), ih fun x hx => h x (List.mem_cons_of_mem _ hx)]

theorem SMap.get_append_of_absent_right {m n : SMap α} {k : Nat} (h : ∀ e ∈ n, e.1 ≠ k) : SMap.get d (m ++ n) k = SMap.get d m k := by
  induction m with
  | nil => exact SMap.get_of_absent h
  | cons e m ih => rw [List.cons_append, SMap.get, SMap.get, ih]

/-- The keys of a canonical table are not below its bound. -/
theorem SMap.le_key_of_wfFrom [DecidableEq α] {m : SMap α} {a : Nat} (w : SMap.wfFrom d a m = true) : ∀ e ∈ m, a ≤ e.1 := by
  induction m generalizing a with
  | nil => exact fun _ h => nomatch h
  | cons e m ih =>
    simp only [SMap.wfFrom, Bool.and_eq_true, decide_eq_true_eq] at w
    intro x hx
    rcases List.mem_cons.mp hx with rfl | hx
    · exact w.1.1
    · exact w.1.1.trans (Nat.le_of_succ_le (ih w.2 x hx))

end Tables

/-! ## The flash -/

/-- The bytes listed from an address on. -/
theorem get_flashCells (a : Nat) (b : Bytes) (i : Nat) : SMap.get memErased (flashCells a b) (a + i) = b.getD i 0xFF := by
  induction b generalizing a i with
  | nil => rfl
  | cons x b ih =>
    have here : SMap.get memErased (flashCells (a + 1) b) a = 0xFF := SMap.get_below _ (Nat.lt_succ_self a) (flashCells_wf (a + 1) b).1
    have later : ∀ i, SMap.get memErased (flashCells (a + 1) b) (a + (i + 1)) = b.getD i 0xFF := fun i => by
      rw [← ih (a + 1) i, Nat.add_right_comm, Nat.add_assoc]
    unfold flashCells
    split
    · next hx =>
      cases i with
      | zero => simp [here, hx]
      | succ i => simpa using later i
    · cases i with
      | zero => simp [SMap.get]
      | succ i => simpa [SMap.get] using later i

variable (s : State)

/-- A byte programmed. -/
theorem State.flashPut_in (a : Nat) {b : Bytes} {i : Nat} (hi : i < b.length) (x : Byte) :
    SMap.get memErased (s.flashPut a b).flash (a + i) = b.getD i x := by
  have below : ∀ e ∈ s.flash.filter (fun e => decide (e.1 < a)), e.1 ≠ a + i := fun e he => by
    have := of_decide_eq_true (List.mem_filter.mp he).2
    omega
  have above : ∀ e ∈ s.flash.filter (fun e => decide (a + b.length ≤ e.1)), e.1 ≠ a + i := fun e he => by
    have := of_decide_eq_true (List.mem_filter.mp he).2
    omega
  unfold State.flashPut
  rw [SMap.get_append_of_absent_right above, SMap.get_append_of_absent_left below, get_flashCells]
  simp [hi]

/-- A byte outside those programmed. -/
theorem State.flashPut_out {a : Nat} {b : Bytes} {k : Nat} (h : k < a ∨ a + b.length ≤ k) :
    SMap.get memErased (s.flashPut a b).flash k = SMap.get memErased s.flash k := by
  have cells : ∀ e ∈ flashCells a b, e.1 ≠ k := fun e he => by
    have lo := SMap.le_key_of_wfFrom (flashCells_wf a b).1 e he
    have hi := (flashCells_wf a b).2 e he
    omega
  have kept : ∀ p : Nat → Bool, p k = false → ∀ e ∈ s.flash.filter fun e => p e.1, e.1 ≠ k := fun p hp e he hk => by
    have := (List.mem_filter.mp he).2
    simp [hk, hp] at this
  unfold State.flashPut
  rcases h with h | h
  · rw [SMap.get_append_of_absent_right (kept (fun j => decide (a + b.length ≤ j)) (by simp; omega)),
      SMap.get_append_of_absent_right cells, SMap.get_filter_key _ fun j => decide (j < a)]
    simp [h]
  · rw [List.append_assoc, SMap.get_append_of_absent_left (kept (fun j => decide (j < a)) (by simp; omega)),
      SMap.get_append_of_absent_left cells, SMap.get_filter_key _ fun j => decide (a + b.length ≤ j)]
    simp [h]

/-- A page programmed holds its bytes, and every other byte is as before. -/
theorem State.flash_of_put {s m : State} {a : Nat} {b : Bytes} (e : m.flash = (s.flashPut a b).flash) (hb : b.length = 256) :
    (∀ i, i < 256 → SMap.get memErased m.flash (a + i) = b.getD i 0) ∧
    ∀ k, k < a ∨ a + 256 ≤ k → SMap.get memErased m.flash k = SMap.get memErased s.flash k := by
  rw [e]
  exact ⟨fun _ hi => s.flashPut_in a (hb.symm ▸ hi) 0, fun _ hk => s.flashPut_out (hb.symm ▸ hk)⟩

/-- What an erase of a range leaves. -/
theorem get_drop_erased (m : Mem) (a n k : Nat) :
    SMap.get memErased (m.drop a n) k = if a ≤ k ∧ k < a + n then 0xFF else SMap.get memErased m k := by
  rw [Mem.drop, SMap.get_filter_key _ fun j => decide (j < a) || decide (a + n ≤ j)]
  by_cases h : a ≤ k ∧ k < a + n
  · rw [if_pos h, if_neg (by simp; omega)]
    rfl
  · rw [if_neg h, if_pos (by simp; omega)]

/-- An erased block reads as erased, and every other byte is as before. -/
theorem State.flash_of_erase {s m : State} {a n : Nat} (e : m.flash = s.flash.drop a n) :
    (∀ k, a ≤ k → k < a + n → SMap.get memErased m.flash k = 0xFF) ∧
    ∀ k, k < a ∨ a + n ≤ k → SMap.get memErased m.flash k = SMap.get memErased s.flash k := by
  rw [e]
  exact ⟨fun k lo hi => by rw [get_drop_erased, if_pos ⟨lo, hi⟩], fun k out => by rw [get_drop_erased, if_neg (by omega)]⟩

/-- Erased bytes are no header: their fifth is not 1 (R566). -/
theorem headerOk_of_erased {g : Nat → Byte} (h : g 4 = 0xFF) : headerOk g = false := by
  simp [headerOk, h]

/-- A block or page that is lost leaves the bytes outside it. -/
theorem State.flashLost_out {copy a n k : Nat} (h : k < a ∨ a + n ≤ k) :
    SMap.get memErased (s.flashLost copy a n).flash k = SMap.get memErased s.flash k := by
  unfold State.flashLost
  extract_lets bs u t
  split
  · exact u.flashPut_out (by rwa [List.length_replicate])
  · exact u.flashPut_out (by simpa [bs] using h)

/-- The header of a copy whose first block is lost does not check (R593). -/
theorem State.flashLost_header (copy : Nat) {n : Nat} (hn : 4 < n) :
    headerOk ((s.flashLost copy (0x800000 * copy) n).flashAt copy) = false := by
  unfold State.flashLost
  extract_lets bs u t
  split
  · refine headerOk_of_erased ?_
    rw [State.flashAt, Nat.mul_comm, State.flashPut_in _ _ (by rwa [List.length_replicate]) 0]
    simp [hn]
  · next h => exact Bool.eq_false_of_not_eq_true h

theorem State.flashLost_regs (copy a n : Nat) : (s.flashLost copy a n).regs = s.regs := by
  unfold State.flashLost
  extract_lets bs u t
  split <;> rfl

end Sys2Proof.Machine
end

section
/-! PROOFS. Image updates (R590 to R593, R712): where an update stands, what its steps, its reads and its failures leave, and the settled
statement. -/

namespace Sys2Proof.Machine

/-! ## Where an update stands (CL_SU_STAT) -/

section Status

variable {s : State} (hw : SMap.wf regReset s.regs = true)

/-- An update that has failed with a code (R590). -/
def State.UpdateFailed (s : State) (code : Nat) : Prop := s.suSt = 7 ∧ s.rf 0x80064 3 3 = code ∧ s.upd = {}

theorem State.suSt_of_reg {u : State} (h : u.reg 0x80064 = s.reg 0x80064) : u.suSt = s.suSt := by
  rw [State.suSt, State.suSt, State.rf, State.rf, State.rn, State.rn, h]

theorem State.suTarget_of_reg {u : State} (h : u.reg 0x80064 = s.reg 0x80064) : u.suTarget = s.suTarget := by
  rw [State.suTarget, State.suTarget, State.rf, State.rf, State.rn, State.rn, h]

theorem State.updating_eq_true (h : 1 ≤ s.suSt ∧ s.suSt ≤ 5) : s.updating = true := decide_eq_true h

theorem State.suStep_flash (s : State) (st : Nat) : (s.suStep st).flash = s.flash := by
  simp [State.suStep, State.wf]

theorem State.suFail_flash (s : State) (code : Nat) : (s.suFail code).flash = s.flash := by
  simp [State.suFail, State.wf, State.readOver]

theorem State.suFail_bgCheck (s : State) (code : Nat) : (s.suFail code).bgCheck = s.bgCheck := by
  simp [State.suFail, State.wf, State.readOver]

theorem State.suFail_flashAt (s : State) (code copy : Nat) :
    (s.suFail code).flashAt copy = s.flashAt copy := by
  funext i
  rw [State.flashAt, State.flashAt, State.suFail_flash]

include hw

theorem State.suStep_suSt {st : Nat} (h : st < 8) : (s.suStep st).suSt = st := by
  change ((s.wf 0x80064 0 3 st).wf 0x80064 8 12 0).rf 0x80064 0 3 = st
  rw [State.rf_wf_other (State.regs_wf_wf hw ..) _ _ _ _ _ _ (by decide) (.inr (by decide)), State.rf_wf hw _ _ _ _ (by decide)]
  exact Nat.mod_eq_of_lt h

theorem State.suStep_suTarget (st : Nat) : (s.suStep st).suTarget = s.suTarget := by
  change ((s.wf 0x80064 0 3 st).wf 0x80064 8 12 0).rf 0x80064 6 1 = s.rf 0x80064 6 1
  rw [State.rf_wf_other (State.regs_wf_wf hw ..) _ _ _ _ _ _ (by decide) (.inr (by decide)),
    State.rf_wf_other hw _ _ _ _ _ _ (by decide) (.inl (by decide))]

theorem State.suStep_regs (st : Nat) : SMap.wf regReset (s.suStep st).regs = true := State.regs_wf_wf (State.regs_wf_wf hw ..) ..

theorem State.suDone_suSt (pos : Nat) : (s.suDone pos).suSt = s.suSt :=
  State.rf_wf_other (s := { s with upd := { s.upd with pos } }) hw _ _ _ _ _ _ (by decide) (.inr (by decide))

theorem State.suDone_suTarget (pos : Nat) : (s.suDone pos).suTarget = s.suTarget :=
  State.rf_wf_other (s := { s with upd := { s.upd with pos } }) hw _ _ _ _ _ _ (by decide) (.inr (by decide))

theorem State.suDone_regs (pos : Nat) : SMap.wf regReset (s.suDone pos).regs = true :=
  State.regs_wf_wf (s := { s with upd := { s.upd with pos } }) hw ..

theorem State.suFail_failed {code : Nat} (h : code < 8) : (s.suFail code).UpdateFailed code := by
  have hw' : SMap.wf regReset ((s.readOver .image).wf 0x80064 0 3 7).regs = true := State.regs_wf_wf (s := s.readOver .image) hw ..
  refine ⟨?_, ?_, rfl⟩
  · change (((s.readOver .image).wf 0x80064 0 3 7).wf 0x80064 3 3 code).rf 0x80064 0 3 = 7
    rw [State.rf_wf_other hw' _ _ _ _ _ _ (by decide) (.inr (by decide)), State.rf_wf (s := s.readOver .image) hw _ _ _ _ (by decide)]
    rfl
  · change (((s.readOver .image).wf 0x80064 0 3 7).wf 0x80064 3 3 code).rf 0x80064 3 3 = code
    rw [State.rf_wf hw' _ _ _ _ (by decide)]
    exact Nat.mod_eq_of_lt h

end Status

/-! ## Reads of the image (R591) -/

section Reads

variable (s : State) {u : State}

/-- What a read of the image depends on: what it meets on its way, and the image's address. -/
def State.imageSource (s : State) := (s.beforeRead, s.reg 0x80058, s.reg 0x8005C)

/-- The read of 4 KiB at an offset of the image, as the PF. -/
def State.imageRead (s : State) (off : Nat) : ReadReq :=
  { fn := 0, addr := (s.count64 0x80058 / 4096 * 4096 + off) % 2 ^ 64, len := 4096, why := .image }

theorem State.setReg_imageSource {o : Nat} (w : Word) (h : o ≠ 0x700A10) (h₀ : o ≠ 0x80058) (h₁ : o ≠ 0x8005C) :
    (s.setReg o w).imageSource = s.imageSource := by
  rw [State.imageSource, State.imageSource, State.beforeRead, State.beforeRead, s.reg_setReg_ne w h.symm, s.reg_setReg_ne w h₀.symm,
    s.reg_setReg_ne w h₁.symm]
  rfl

theorem State.suStep_imageSource (st : Nat) : (s.suStep st).imageSource = s.imageSource :=
  (State.setReg_imageSource (s.wf 0x80064 0 3 st) _ (by decide) (by decide) (by decide)).trans
    (s.setReg_imageSource _ (by decide) (by decide) (by decide))

theorem State.suDone_imageSource (pos : Nat) : (s.suDone pos).imageSource = s.imageSource :=
  State.setReg_imageSource { s with upd := { s.upd with pos } } _ (by decide) (by decide) (by decide)

theorem State.masters_of_imageSource {s : State} (e : u.imageSource = s.imageSource) : u.masters 0 = s.masters 0 := by
  have fns : u.fns = s.fns := congrArg (fun e => e.1.2.2.1) e
  rw [State.masters, State.masters, State.fnc, State.fnc, fns]

/-- The image is read from a state that differs in nothing that the read depends on. -/
theorem State.suRead_readsHost {s : State} (e : u.imageSource = s.imageSource) (hm : s.masters 0 = true) (off : Nat) :
    ReadsHost s (u.suRead off) (s.imageRead off) := by
  have hu : u.masters 0 = true := (State.masters_of_imageSource e).trans hm
  simp only [State.imageSource, Prod.mk.injEq] at e
  obtain ⟨before, r₀, r₁⟩ := e
  have addr : s.count64 0x80058 = u.count64 0x80058 := by rw [State.count64, State.count64, State.rn, State.rn, State.rn, State.rn, r₀, r₁]
  rw [State.suRead, if_pos hu, State.imageRead, addr]
  exact (u.hostRead_readsHost ..).congr before.symm

/-- Where the PF may master, a read of the image leaves the update where it is. -/
theorem State.suRead_fields (hm : s.masters 0 = true) (off : Nat) :
    (s.suRead off).upd = s.upd ∧ (s.suRead off).flash = s.flash ∧ (s.suRead off).bgCheck = s.bgCheck ∧
    (s.suRead off).suSt = s.suSt ∧ (s.suRead off).suTarget = s.suTarget := by
  rw [State.suRead, if_pos hm]
  obtain ⟨w, h⟩ := s.hostRead_still 0 ((s.count64 0x80058 / 4096 * 4096 + off) % 2 ^ 64) 4096 .image false 11
  have reg := State.reg_of_still h (p := 0x80064) (by decide)
  exact ⟨(congrArg State.upd h :), (congrArg State.flash h :), (congrArg State.bgCheck h :), State.suSt_of_reg reg, State.suTarget_of_reg reg⟩

theorem State.suRead_refused {s : State} (hm : s.masters 0 = false) (off : Nat) : s.suRead off = s.suFail 1 := by
  rw [State.suRead, hm]
  rfl

theorem State.suRead_flash (off : Nat) : (s.suRead off).flash = s.flash := by
  cases hm : s.masters 0 with
  | true => exact (s.suRead_fields hm off).2.1
  | false => rw [State.suRead_refused hm, State.suFail_flash]

theorem State.suRead_bgCheck (off : Nat) : (s.suRead off).bgCheck = s.bgCheck := by
  cases hm : s.masters 0 with
  | true => exact (s.suRead_fields hm off).2.2.1
  | false => rw [State.suRead_refused hm, State.suFail_bgCheck]

end Reads

/-! ## GO and ABORT (R591, R593) -/

section Requests

variable {s : State}

/-- The state in which a GO asks for the header. -/
def State.suBegun (s : State) : State :=
  let u := { s.spiAbort with bgCheck := false, upd := {} }
  ((u.setReg 0x80064 0).wf 0x80064 6 1 (b2n (decide (u.rf 0x80040 0 2 = 1)))).suStep 1

theorem State.suGo_idle (h : s.updating = true) : s.suGo = s := by
  rw [State.suGo, if_pos h]

theorem State.suGo_eq (h : s.updating = false) : s.suGo = s.suBegun.suRead 0 := by
  rw [State.suGo, h]
  rfl

theorem State.spiAbort_imageSource (s : State) : s.spiAbort.imageSource = s.imageSource := by
  unfold State.spiAbort
  split
  · exact s.setReg_imageSource _ (by decide) (by decide) (by decide)
  · rfl

theorem State.spiAbort_reg (s : State) {p : Nat} (h : p ≠ 0x70080C) : s.spiAbort.reg p = s.reg p := by
  unfold State.spiAbort
  split
  · exact s.reg_wf_ne _ _ _ h
  · rfl

theorem State.suBegun_imageSource (s : State) : s.suBegun.imageSource = s.imageSource :=
  (State.suStep_imageSource _ 1).trans ((State.setReg_imageSource _ _ (by decide) (by decide) (by decide)).trans
    ((State.setReg_imageSource _ _ (by decide) (by decide) (by decide)).trans s.spiAbort_imageSource))

/-- An update that begins verifies the copy that the start did not use (R590). -/
theorem State.suBegun_fields (hc : s.Canon) :
    s.suBegun.suSt = 1 ∧ s.suBegun.suTarget = (if s.rf 0x80040 0 2 = 1 then 1 else 0) ∧ s.suBegun.bgCheck = false ∧
    SMap.wf regReset s.suBegun.regs = true := by
  let u := { s.spiAbort with bgCheck := false, upd := {} }
  have hu : SMap.wf regReset (u.setReg 0x80064 0).regs = true :=
    State.regs_setReg_wf (s := u) ((State.spiAbort_keeps s (κ := {}) .rfl).canon hc).regs _ _
  have source : u.rf 0x80040 0 2 = s.rf 0x80040 0 2 := by
    rw [State.rf, State.rf, State.rn, State.rn]
    exact congrArg (fun r : Word => bits r.toNat 0 2) (s.spiAbort_reg (by decide))
  refine ⟨State.suStep_suSt (State.regs_wf_wf hu ..) (by decide), ?_, rfl, State.suStep_regs (State.regs_wf_wf hu ..) 1⟩
  refine (State.suStep_suTarget (State.regs_wf_wf hu ..) 1).trans ((State.rf_wf hu _ _ _ _ (by decide)).trans ?_)
  change b2n (decide (u.rf 0x80040 0 2 = 1)) % 2 ^ 1 = _
  rw [source]
  by_cases h : s.rf 0x80040 0 2 = 1 <;> simp [h, b2n]

/-- GO ends a background check and reads the header as the PF, or fails with HOST_READ where the PF may not master (R591, R712). -/
theorem State.suGo_next (hc : s.Canon) (h : s.updating = false) :
    s.suGo.bgCheck = false ∧
    (s.masters 0 = true → s.suGo.suSt = 1 ∧ s.suGo.suTarget = (if s.rf 0x80040 0 2 = 1 then 1 else 0) ∧ ReadsHost s s.suGo (s.imageRead 0)) ∧
    (s.masters 0 = false → s.suGo.UpdateFailed 1) := by
  obtain ⟨st, target, bg, hw⟩ := State.suBegun_fields hc
  have masters := State.masters_of_imageSource s.suBegun_imageSource
  rw [State.suGo_eq h]
  refine ⟨(State.suRead_bgCheck _ 0).trans bg, fun hm => ?_, fun hm => ?_⟩
  · obtain ⟨-, -, -, st', target'⟩ := State.suRead_fields _ (masters.trans hm) 0
    exact ⟨st'.trans st, target'.trans target, State.suRead_readsHost s.suBegun_imageSource hm 0⟩
  · rw [State.suRead_refused (masters.trans hm)]
    exact State.suFail_failed hw (by decide)

theorem State.suAbort_idle (h : s.updating = false) : s.suAbort = s := by
  rw [State.suAbort, h]
  rfl

/-- With no flash command running, the update ends at once, with ABORTED. -/
theorem State.suAbort_now (hw : SMap.wf regReset s.regs = true) (h : s.suSt = 1 ∨ s.suSt = 3 ∧ s.readOut .image = true) :
    s.suAbort.UpdateFailed 6 := by
  have running : s.updating = true := State.updating_eq_true (by omega)
  have now : (decide (s.suSt = 1) || (decide (s.suSt = 3) && s.readOut .image)) = true := by simpa using h
  rw [State.suAbort, running, if_neg (by decide), if_pos now]
  exact State.suFail_failed hw (by decide)

/-- Otherwise at the end of the command that runs. -/
theorem State.suAbort_later (h : s.suSt = 2 ∨ (s.suSt = 3 ∧ s.readOut .image = false) ∨ s.suSt = 4 ∨ s.suSt = 5) :
    s.suAbort = { s with upd := { s.upd with abort := true } } := by
  have running : s.updating = true := State.updating_eq_true (by omega)
  have later : ¬ (decide (s.suSt = 1) || (decide (s.suSt = 3) && s.readOut .image)) = true := by
    rcases h with h | ⟨h, hr⟩ | h | h <;> simp [*]
  rw [State.suAbort, running, if_neg (by decide), if_neg later]

variable {who : Req}

theorem exec_imageUpdate (hs : s.serves_ who = true) (ha : reqAdm who = true) : exec (.imageUpdate who) s = .next s.suGo.finish := by
  have go : s.suWrite 1 = s.suGo := by simp [State.suWrite]
  change regGuarded s who (fun s => s.suWrite 1) = _
  rw [regGuarded, hs, if_neg (by decide), if_pos ha, go]
  rfl

theorem exec_imageUpdateAbort (hs : s.serves_ who = true) (ha : reqAdm who = true) :
    exec (.imageUpdateAbort who) s = .next s.suAbort.finish := by
  have abort : s.suWrite 2 = s.suAbort := by simp [State.suWrite]
  change regGuarded s who (fun s => s.suWrite 2) = _
  rw [regGuarded, hs, if_neg (by decide), if_pos ha, abort]
  rfl

end Requests

end Sys2Proof.Machine
end

section
/-! PROOFS. Image updates once begun (R591 to R593, R712): what a completed read and a completed flash command of each step leave, the
failures; the settled statement. -/

namespace Sys2Proof.Machine

variable {s : State}

/-! ## A read of the image completes -/

/-- Where no injection is armed, the data of a completion reaches its reader. -/
theorem State.hostIn_ok (h : s.rb 0x700A10 15 = false) : s.hostIn .ok = (s, .ok) := by
  have hit : s.furrowHit = 0 := by
    rw [State.furrowHit, State.injBurst, h]
    rfl
  have pass : s.furrowPass 0 = (s, true) := if_pos hit
  rw [State.hostIn, if_pos rfl, pass]
  rfl

/-- An error of a completion is the error its reader sees. -/
theorem State.hostIn_err {err : RdErr} (h : err ≠ .ok) : (s.hostIn err).2 = err := by
  rw [State.hostIn, if_neg h]
  split <;> rfl

/-- The counts of a failed read leave the registers before the host port's alone. -/
theorem State.hostIn_reg {err : RdErr} (h : err ≠ .ok) {p : Nat} (hp : p < 0x100000) : (s.hostIn err).1.reg p = s.reg p := by
  rw [State.hostIn, if_neg h]
  split
  · exact (State.reg_bump_ne _ (by unfold fu; omega) (by unfold fu; omega) 1).trans (s.reg_setBit_ne (by unfold fu; omega) 0)
  · rfl

theorem State.readError_reg (s : State) (fn : Nat) (err : RdErr) {p : Nat} (hp : p < 0x100000) : (s.readError fn err).reg p = s.reg p := by
  have count : ∀ b o : Nat, 0x100000 ≤ o → ((s.setBit 0x100008 b).bump o 1).reg p = s.reg p := fun b o ho =>
    (State.reg_bump_ne _ (by omega) (by omega) 1).trans (s.reg_setBit_ne (by omega) b)
  cases err with
  | ok => rfl
  | ue => rfl
  | ur => exact count 3 (cnt 0x100040 4) (by decide)
  | ca => exact count 3 (cnt 0x100040 4) (by decide)
  | poison => exact count 3 (cnt 0x100040 4) (by decide)
  | timeout => exact count 2 (cnt 0x100040 3) (by decide)

/-- The state in which the update learns that its read has failed. -/
def State.imageLost (s : State) (err : RdErr) : State := ((s.readOver .image).hostIn err).1.readError 0 err

theorem State.imageLost_failed (hc : s.Canon) (hu : s.updating = true) {err : RdErr} (h : err ≠ .ok) :
    (s.imageLost err).suReadFailed.UpdateFailed 1 := by
  have canon : (s.imageLost err).Canon :=
    (State.readError_keeps _ 0 err (State.hostIn_keeps _ err (State.readOver_keeps s .image (κ := {}) .rfl))).canon hc
  have same : (s.imageLost err).reg 0x80064 = s.reg 0x80064 :=
    (State.readError_reg _ 0 err (by decide)).trans (State.hostIn_reg h (by decide))
  have running : (s.imageLost err).updating = true := by
    rw [State.updating, State.suSt_of_reg same]
    exact hu
  rw [State.suReadFailed, if_pos running]
  exact State.suFail_failed canon.regs (by decide)

section Data

variable {d : Bytes}

/-- The state that keeps the header of step 1. -/
def State.suKept (s : State) (d : Bytes) : State := { s with upd := { s.upd with hdr := d } }

/-- The state in which 4 KiB of the image have been added to those that came before. -/
def State.suAdded (s : State) (d : Bytes) : State :=
  { s with upd := { s.upd with img := s.upd.img ++ d } }.suDone (s.upd.img ++ d).length

/-- The header arrives: one that checks has the image read, one that does not fails the update with HEADER (R591, R592). -/
theorem State.suGot_header (hw : SMap.wf regReset s.regs = true) (h1 : s.suSt = 1) (h : s.upd.hdr = []) (hm : s.masters 0 = true) :
    (headerOk (fun i => d.getD i 0) = true →
      (s.suGot d).upd.hdr = d ∧ (s.suGot d).suSt = 1 ∧ ReadsHost s (s.suGot d) (s.imageRead 0)) ∧
    (headerOk (fun i => d.getD i 0) = false → (s.suGot d).UpdateFailed 2) := by
  have eq : s.suGot d = if headerOk (fun i => d.getD i 0) = true then (s.suKept d).suRead 0 else (s.suKept d).suFail 2 := by
    rw [State.suGot, if_pos h1, h]
    rfl
  refine ⟨fun ok => ?_, fun bad => ?_⟩
  · rw [eq, if_pos ok]
    obtain ⟨upd, -, -, st, -⟩ := State.suRead_fields (s.suKept d) hm 0
    exact ⟨by rw [upd]; rfl, st.trans h1, State.suRead_readsHost (u := s.suKept d) rfl hm 0⟩
  · rw [eq, if_neg (Bool.eq_false_iff.mp bad)]
    exact State.suFail_failed (s := s.suKept d) hw (by decide)

/-- More of the image arrives: the rest is read; once whole it begins to be written, or fails the update with INVALID (R591, R592). -/
theorem State.suGot_image (hw : SMap.wf regReset s.regs = true) (h1 : s.suSt = 1) (h : s.upd.hdr ≠ []) (hd : d.length = 4096) :
    (s.upd.img.length + 4096 < s.suLen → s.masters 0 = true →
      (s.suGot d).upd.img = s.upd.img ++ d ∧ (s.suGot d).suSt = 1 ∧ ReadsHost s (s.suGot d) (s.imageRead (s.upd.img.length + 4096))) ∧
    (s.suLen ≤ s.upd.img.length + 4096 →
      (copyOk (fun i => (s.upd.img ++ d).getD i 0) = true → (s.suGot d).suSt = 2 ∧ (s.suGot d).upd.pos = 0) ∧
      (copyOk (fun i => (s.upd.img ++ d).getD i 0) = false → (s.suGot d).UpdateFailed 3)) := by
  let v := { s with upd := { s.upd with img := s.upd.img ++ d } }
  have added : SMap.wf regReset (s.suAdded d).regs = true := State.suDone_regs (s := v) hw _
  have len : (s.upd.img ++ d).length = s.upd.img.length + 4096 := by rw [List.length_append, hd]
  have eq : s.suGot d = if (s.upd.img ++ d).length < s.suLen then (s.suAdded d).suRead (s.upd.img ++ d).length
      else if copyOk (fun i => (s.upd.img ++ d).getD i 0) = true then
        { s.suAdded d with upd := { (s.suAdded d).upd with img := [] } }.suStep 2
      else (s.suAdded d).suFail 3 := by
    have full : s.upd.hdr.isEmpty = false := by simpa using h
    rw [State.suGot, if_pos h1, full]
    rfl
  rw [← len]
  refine ⟨fun more hm => ?_, fun whole => ⟨fun ok => ?_, fun bad => ?_⟩⟩
  · have source : (s.suAdded d).imageSource = s.imageSource := State.suDone_imageSource v _
    rw [eq, if_pos more]
    obtain ⟨upd, -, -, st, -⟩ := State.suRead_fields (s.suAdded d) ((State.masters_of_imageSource source).trans hm) (s.upd.img ++ d).length
    refine ⟨by rw [upd]; rfl, st.trans ?_, State.suRead_readsHost source hm _⟩
    exact (State.suDone_suSt (s := v) hw _).trans h1
  · rw [eq, if_neg (by omega), if_pos ok]
    exact ⟨State.suStep_suSt (s := { s.suAdded d with upd := { (s.suAdded d).upd with img := [] } }) added (by decide), rfl⟩
  · rw [eq, if_neg (by omega), if_neg (Bool.eq_false_iff.mp bad)]
    exact State.suFail_failed added (by decide)

theorem exec_updateImageReadDone_ok (hl : s.life = .live) (hr : s.readOut .image = true) (hi : s.rb 0x700A10 15 = false)
    (hd : d.length = 4096) : exec (.updateImageReadDone d .ok) s = .next ((s.readOver .image).suGot d).finish := by
  have whole : padTo 4096 d = d := by simp [padTo, hd]
  change execUpdateImageReadDone d .ok s = _
  rw [execUpdateImageReadDone, if_neg (by simp [hl, hr]), State.hostIn_ok (s := s.readOver .image) hi, whole]
  rfl

theorem exec_updateImageReadDone_err (hl : s.life = .live) (hr : s.readOut .image = true) {err : RdErr} (h : err ≠ .ok) :
    exec (.updateImageReadDone d err) s = .next (s.imageLost err).suReadFailed.finish := by
  change execUpdateImageReadDone d err s = _
  rw [execUpdateImageReadDone, if_neg (by simp [hl, hr])]
  dsimp only
  rw [State.hostIn_err h, if_neg h]
  rfl

end Data

/-! ## A flash command completes -/

/-- The address that the update's flash command works at (R565). -/
def State.flashPos (s : State) : Nat := 0x800000 * s.suTarget + s.upd.pos

section Steps

variable (hw : SMap.wf regReset s.regs = true)

theorem State.suErased_flash : s.suErased.flash = s.flash.drop s.flashPos 65536 := by
  unfold State.suErased
  extract_lets u
  split
  · rfl
  · exact State.suRead_flash ..

theorem State.suProgrammed_flash : s.suProgrammed.flash = (s.flashPut s.flashPos (s.upd.img.take 256)).flash := by
  unfold State.suProgrammed
  extract_lets p u v
  split
  · rfl
  split
  · exact State.suRead_flash ..
  · rfl

theorem State.suChecked_flash : s.suChecked.flash = s.flash := by
  have here : (s.suDone (s.upd.pos + 4096)).flash = s.flash := rfl
  rw [State.suChecked]
  split_ifs
  · exact here
  · exact here
  · rw [State.suFail_flash, here]

include hw

/-- An erase leaves the update erasing, or at the first 4 KiB to program (R591). -/
theorem State.suErased_next (h2 : s.suSt = 2) :
    (s.upd.pos + 65536 < s.suLen → s.suErased.suSt = 2 ∧ s.suErased.upd.pos = s.upd.pos + 65536) ∧
    (s.suLen ≤ s.upd.pos + 65536 → s.masters 0 = true →
      s.suErased.suSt = 3 ∧ s.suErased.upd.pos = 4096 ∧ ReadsHost s s.suErased (s.imageRead 4096)) := by
  let u := { s with flash := s.flash.drop s.flashPos 65536 }.suDone (s.upd.pos + 65536)
  have huw : SMap.wf regReset u.regs = true := State.suDone_regs (s := { s with flash := s.flash.drop s.flashPos 65536 }) hw _
  have eq : s.suErased = if s.upd.pos + 65536 < s.suLen then u else ((u.suStep 3).suDone 4096).suRead 4096 := rfl
  refine ⟨fun h => ?_, fun h hm => ?_⟩
  · rw [eq, if_pos h]
    exact ⟨(State.suDone_suSt (s := { s with flash := s.flash.drop s.flashPos 65536 }) hw _).trans h2, rfl⟩
  · have source : ((u.suStep 3).suDone 4096).imageSource = s.imageSource :=
      ((u.suStep 3).suDone_imageSource _).trans ((u.suStep_imageSource 3).trans
        (State.suDone_imageSource { s with flash := s.flash.drop s.flashPos 65536 } _))
    have masters := (State.masters_of_imageSource source).trans hm
    rw [eq, if_neg (by omega)]
    obtain ⟨upd, -, -, st, -⟩ := State.suRead_fields _ masters 4096
    refine ⟨st.trans ((State.suDone_suSt (State.suStep_regs huw 3) _).trans (State.suStep_suSt huw (by decide))), ?_,
      State.suRead_readsHost source hm 4096⟩
    rw [upd]
    rfl

/-- A page programmed leaves the update at the next page of what has been read, or at the check (R591). -/
theorem State.suProgrammed_next (h3 : s.suSt = 3) :
    (256 < s.upd.img.length →
      s.suProgrammed.suSt = 3 ∧ s.suProgrammed.upd.pos = s.upd.pos + 256 ∧ s.suProgrammed.upd.img = s.upd.img.drop 256) ∧
    (s.upd.img.length = 256 → s.suLen ≤ s.upd.pos + 256 → s.suProgrammed.suSt = 4 ∧ s.suProgrammed.upd.pos = 0) := by
  let u := (s.flashPut s.flashPos (s.upd.img.take 256)).suDone (s.upd.pos + 256)
  let v := { u with upd := { u.upd with img := s.upd.img.drop 256 } }
  have hv : SMap.wf regReset v.regs = true := State.suDone_regs (s := s.flashPut s.flashPos (s.upd.img.take 256)) hw _
  have eq : s.suProgrammed = if (!(s.upd.img.drop 256).isEmpty) = true then v
      else if s.upd.pos + 256 < s.suLen then v.suRead (s.upd.pos + 256) else v.suStep 4 := rfl
  refine ⟨fun h => ?_, fun h hp => ?_⟩
  · rw [eq, if_pos (by simpa using h)]
    exact ⟨(State.suDone_suSt (s := s.flashPut s.flashPos (s.upd.img.take 256)) hw _).trans h3, rfl, rfl⟩
  · rw [eq, if_neg (by simp [h]), if_neg (by omega)]
    exact ⟨State.suStep_suSt hv (by decide), rfl⟩

theorem State.suDone_image (p : Nat) : (s.suDone p).suImage = s.suImage := by
  funext i
  rw [State.suImage, State.suImage, State.flashAt, State.flashAt, State.suDone_suTarget hw]
  rfl

/-- 4 KiB checked leave the update at the next 4 KiB, at the header, or failed with READBACK (R591, R592). -/
theorem State.suChecked_next (h4 : s.suSt = 4) :
    (s.upd.pos + 4096 < s.suLen → s.suChecked.suSt = 4 ∧ s.suChecked.upd.pos = s.upd.pos + 4096) ∧
    (s.suLen ≤ s.upd.pos + 4096 → if imgDigest s.suImage = imgSha s.suImage ∧ crcsOk s.suImage = true then s.suChecked.suSt = 5
      else s.suChecked.UpdateFailed 5) := by
  let u := s.suDone (s.upd.pos + 4096)
  have hu : SMap.wf regReset u.regs = true := State.suDone_regs hw _
  have eq : s.suChecked = if s.upd.pos + 4096 < s.suLen then u
      else if (decide (imgDigest u.suImage = imgSha u.suImage) && crcsOk u.suImage) = true then u.suStep 5 else u.suFail 5 := rfl
  refine ⟨fun h => ?_, fun h => ?_⟩
  · rw [eq, if_pos h]
    exact ⟨(State.suDone_suSt hw _).trans h4, rfl⟩
  · have last : s.suChecked =
        if (decide (imgDigest s.suImage = imgSha s.suImage) && crcsOk s.suImage) = true then u.suStep 5 else u.suFail 5 := by
      rw [eq, if_neg (by omega), State.suDone_image hw]
    rw [last]
    by_cases ok : imgDigest s.suImage = imgSha s.suImage ∧ crcsOk s.suImage = true
    · rw [if_pos ok, if_pos (by simpa using ok)]
      exact State.suStep_suSt hu (by decide)
    · rw [if_neg ok, if_neg (by simpa using ok)]
      exact State.suFail_failed hu (by decide)

/-- A page of the header programmed: the last one leaves the header to be read back. -/
theorem State.suHeaderDone_page (h5 : s.suSt = 5) (hb : s.upd.back = false) (hp : s.upd.pos + 256 ≤ 4096) :
    s.suHeaderDone.flash = (s.flashPut s.flashPos ((s.suHeader.drop s.upd.pos).take 256)).flash ∧ s.suHeaderDone.suSt = 5 ∧
    s.suHeaderDone.upd.back = decide (s.upd.pos = 3840) := by
  let u := (s.flashPut s.flashPos ((s.suHeader.drop s.upd.pos).take 256)).suDone (s.upd.pos + 256)
  have st : u.suSt = 5 := (State.suDone_suSt (s := s.flashPut s.flashPos ((s.suHeader.drop s.upd.pos).take 256)) hw _).trans h5
  have eq : s.suHeaderDone = if s.upd.pos + 256 < 4096 then u else { u with upd := { u.upd with back := true } } := by
    rw [State.suHeaderDone, hb]
    rfl
  rw [eq]
  split
  · exact ⟨rfl, st, hb.trans (by simp; omega)⟩
  · exact ⟨rfl, st, by simp; omega⟩

/-- The header read back: the update is done, or has failed with READBACK (R592). -/
theorem State.suHeaderDone_back (hb : s.upd.back = true) :
    s.suHeaderDone.flash = s.flash ∧
    if imgN (s.flashAt s.suTarget) 0 4096 = s.suHeader then s.suHeaderDone.suSt = 6 else s.suHeaderDone.UpdateFailed 5 := by
  rw [State.suHeaderDone, hb, if_pos rfl]
  by_cases h : imgN (s.flashAt s.suTarget) 0 4096 = s.suHeader
  · rw [if_pos h, if_pos h]
    have st : (s.suStep 6).suSt = 6 := State.suStep_suSt hw (by decide)
    exact ⟨s.suStep_flash 6, st⟩
  · rw [if_neg h, if_neg h]
    exact ⟨s.suFail_flash 5, State.suFail_failed hw (by decide)⟩

end Steps

/-- The header that the update programs is as long as the one kept. -/
theorem State.suHeader_length (h : s.upd.hdr.length = 4096) : s.suHeader.length = 4096 := by
  have put : ∀ (b x : Bytes) (off : Nat), off + x.length ≤ b.length → (putAt b off x).length = b.length := fun b x off _ => by
    simp only [putAt, List.length_append, List.length_take, List.length_drop]
    omega
  have first : (putAt s.upd.hdr 8 (natLE 4 (s.startGen + 1))).length = 4096 := (put _ _ _ (by simp [h])).trans h
  exact (put _ _ _ (by simp [first])).trans first

/-- What a completed flash command leaves where the update goes on. -/
def State.suCompleted (s : State) : State :=
  match s.suSt with
  | 2 => s.suErased
  | 3 => s.suProgrammed
  | 4 => s.suChecked
  | _ => s.suHeaderDone

theorem State.suCompleted_erase (h : s.suSt = 2) : s.suCompleted = s.suErased := by simp only [State.suCompleted, h]

theorem State.suCompleted_program (h : s.suSt = 3) : s.suCompleted = s.suProgrammed := by simp only [State.suCompleted, h]

theorem State.suCompleted_check (h : s.suSt = 4) : s.suCompleted = s.suChecked := by simp only [State.suCompleted, h]

theorem State.suCompleted_header (h : s.suSt = 5) : s.suCompleted = s.suHeaderDone := by simp only [State.suCompleted, h]

/-- The state once the update has waited too long for a block or a page. -/
def State.suTimedOut (s : State) : State := (s.flashLost s.suTarget s.flashPos (if s.suSt = 2 then 65536 else 256)).suFail 4

/-- A timeout fails the update with FLASH_TIMEOUT, the copy invalid and the rest of the flash as it was (R592, R593). -/
theorem State.suTimedOut_leaves (hw : SMap.wf regReset s.regs = true) :
    s.suTimedOut.UpdateFailed 4 ∧ (s.suSt = 2 → s.upd.pos = 0 → headerOk (s.suTimedOut.flashAt s.suTarget) = false) ∧
    ∀ k, k < s.flashPos ∨ s.flashPos + 65536 ≤ k → SMap.get memErased s.suTimedOut.flash k = SMap.get memErased s.flash k := by
  rw [State.suTimedOut]
  refine ⟨State.suFail_failed ((s.flashLost_regs ..).symm ▸ hw) (by decide), fun h2 hp => ?_, fun k hk => ?_⟩
  · rw [State.suFail_flashAt, if_pos h2, State.flashPos, hp, Nat.add_zero]
    exact s.flashLost_header s.suTarget (by decide)
  · rw [State.suFail_flash]
    refine s.flashLost_out ?_
    split_ifs <;> omega

section Commands

variable (hl : s.life = .live) (hf : s.suFlash = true)
include hl hf

/-- A flash command of the update completes: after an ABORT the update goes no further, unless the command was its last (R593). -/
theorem exec_flashOpDone :
    exec .flashOpDone s =
      .next (if (s.upd.abort && s.suCompleted.updating) = true then s.suCompleted.suFail 6 else s.suCompleted).finish := by
  change execFlashOpDone s = _
  rw [execFlashOpDone, if_neg (by simp [hl, hf])]
  rfl

theorem exec_flashOpDone_on (ha : s.upd.abort = false) {m : State} (h : s.suCompleted = m) : exec .flashOpDone s = .next m.finish := by
  rw [exec_flashOpDone hl hf, ha, h]
  rfl

theorem exec_flashOpDone_abort (ha : s.upd.abort = true) {m : State} (h : s.suCompleted = m) (hu : m.updating = true) :
    exec .flashOpDone s = .next (m.suFail 6).finish := by
  rw [exec_flashOpDone hl hf, ha, h, hu]
  rfl

theorem exec_flashTimeout (h4 : s.suSt ≠ 4) (hb : s.upd.back = false) : exec .flashTimeout s = .next s.suTimedOut.finish := by
  change execFlashTimeout s = _
  rw [execFlashTimeout, if_neg (by simp [hl, hf, h4, hb])]
  rfl

end Commands

/-! ## The background check (R712) -/

/-- The state once A_VALID, B_VALID and CHECKED are set. -/
def State.bgChecked (s : State) : State :=
  { (s.wb 0x80040 6 (copyOk (s.flashAt 0))).wb 0x80040 7 (copyOk (s.flashAt 1)) with bgCheck := false }.wb 0x80040 12 true

theorem exec_backgroundCheckDone (hl : s.life = .live) (hb : s.bgCheck = true) :
    exec .backgroundCheckDone s = .next s.bgChecked.finish := by
  change execBackgroundCheckDone s = _
  rw [execBackgroundCheckDone, if_neg (by simp [hl, hb])]
  rfl

/-- A bit of a register that another bit's write leaves alone. -/
theorem State.rb_wb_other (hw : SMap.wf regReset s.regs = true) (o : Nat) {j k : Nat} (b : Bool) (hk : k < 32) (h : j ≠ k) :
    (s.wb o k b).rb o j = s.rb o j := by
  have field := State.rf_wf_other hw o k 1 (b2n b) j 1 (by omega) (by omega)
  rw [State.rf, State.rf] at field
  rw [State.wb, State.rb, State.rb, bitOn_eq_bits, bitOn_eq_bits, field]

theorem State.bgChecked_bits (hw : SMap.wf regReset s.regs = true) :
    s.bgChecked.rb 0x80040 6 = copyOk (s.flashAt 0) ∧ s.bgChecked.rb 0x80040 7 = copyOk (s.flashAt 1) ∧ s.bgChecked.rb 0x80040 12 = true := by
  let u := s.wb 0x80040 6 (copyOk (s.flashAt 0))
  let v := u.wb 0x80040 7 (copyOk (s.flashAt 1))
  have hu : SMap.wf regReset u.regs = true := State.regs_wf_wf hw ..
  have hv : SMap.wf regReset v.regs = true := State.regs_wf_wf hu ..
  have last : ∀ j, j ≠ 12 → s.bgChecked.rb 0x80040 j = v.rb 0x80040 j := fun j hj =>
    State.rb_wb_other (s := { v with bgCheck := false }) hv _ _ (by decide) hj
  refine ⟨?_, ?_, State.rb_wb (s := { v with bgCheck := false }) hv _ _ _ (by decide)⟩
  · rw [last 6 (by decide), State.rb_wb_other hu _ _ (by decide) (by decide), State.rb_wb hw _ _ _ (by decide)]
  · rw [last 7 (by decide), State.rb_wb hu _ _ _ (by decide)]

/-! ## The settled statement -/

/-- A byte of a page cut out of a list of bytes. -/
theorem getD_take_drop (b : Bytes) (p : Nat) {n i : Nat} (h : i < n) : ((b.drop p).take n).getD i 0 = b.getD (p + i) 0 := by
  simp [List.getD_eq_getElem?_getD, h]

/-- Settles O57: the requests, the reads and the flash commands of an update each leave the state that their lemma above describes. -/
theorem imageUpdates : Obligations.ImageUpdates := by
  intro s hc
  have hw := hc.regs
  refine ⟨fun who hs ha => ?_, fun data err hl hr hu hi => ?_, fun hl hf ha => ?_, fun hl hf ha h4 hp => ?_, fun hl hf h4 hb =>
    ⟨_, exec_flashTimeout hl hf h4 hb, State.suTimedOut_leaves hw⟩, fun hl hb => ⟨_, exec_backgroundCheckDone hl hb, ?_⟩⟩
  · have go := exec_imageUpdate hs ha
    have abort := exec_imageUpdateAbort hs ha
    exact ⟨fun hu => ⟨_, go, State.suGo_idle hu⟩, fun hu => ⟨_, go, State.suGo_next hc hu⟩,
      fun hu => ⟨_, abort, State.suAbort_idle hu⟩, fun h1 => ⟨_, abort, State.suAbort_now hw (.inl h1)⟩,
      fun h3 hr => ⟨_, abort, State.suAbort_now hw (.inr ⟨h3, hr⟩)⟩,
      fun h => ⟨_, abort, by rw [State.suAbort_later h]; exact ⟨rfl, rfl⟩⟩⟩
  · have got := exec_updateImageReadDone_ok (d := data) hl hr hi
    have header := State.suGot_header (s := s.readOver .image) (d := data) hw
    have image := State.suGot_image (s := s.readOver .image) (d := data) hw
    refine ⟨fun he => ⟨_, exec_updateImageReadDone_err hl hr he, State.imageLost_failed hc hu he⟩, fun h1 h hd hm => ?_,
      fun h1 h hd hp hm => ⟨_, got hd, (image h1 h hd).1 hp hm⟩, fun h1 h hd hp => ?_⟩
    · obtain ⟨ok, bad⟩ := header h1 h hm
      exact ⟨fun c => ⟨_, got hd, ok c⟩, fun c => ⟨_, got hd, bad c⟩⟩
    · obtain ⟨ok, bad⟩ := (image h1 h hd).2 hp
      exact ⟨fun c => ⟨_, got hd, ok c⟩, fun c => ⟨_, got hd, bad c⟩⟩
  · have on {m : State} (h : s.suCompleted = m) := exec_flashOpDone_on hl hf ha h
    refine ⟨fun h2 => ⟨_, on (State.suCompleted_erase h2), ?_⟩, fun h3 hi => ⟨_, on (State.suCompleted_program h3), ?_⟩,
      fun h4 => ⟨_, on (State.suCompleted_check h4), State.suChecked_flash, State.suChecked_next hw h4⟩,
      fun h5 hb hp hh => ⟨_, on (State.suCompleted_header h5), ?_⟩,
      fun h5 hb => ⟨_, on (State.suCompleted_header h5), State.suHeaderDone_back hw hb⟩⟩
    · obtain ⟨block, others⟩ := State.flash_of_erase s.suErased_flash
      exact ⟨block, others, State.suErased_next hw h2⟩
    · obtain ⟨page, others⟩ := State.flash_of_put s.suProgrammed_flash (by simpa using hi)
      exact ⟨fun i h => (page i h).trans (by simpa using getD_take_drop s.upd.img 0 h), others, State.suProgrammed_next hw h3⟩
    · obtain ⟨flash, next⟩ := State.suHeaderDone_page hw h5 hb hp
      have len : ((s.suHeader.drop s.upd.pos).take 256).length = 256 := by
        rw [List.length_take, List.length_drop, State.suHeader_length hh]
        omega
      obtain ⟨page, others⟩ := State.flash_of_put flash len
      exact ⟨fun i h => (page i h).trans (getD_take_drop s.suHeader s.upd.pos h), others, next⟩
  · obtain ⟨st, -⟩ := (State.suChecked_next hw h4).1 hp
    refine ⟨_, exec_flashOpDone_abort hl hf ha (State.suCompleted_check h4) (State.updating_eq_true (by omega)), ?_⟩
    exact State.suFail_failed ((State.suChecked_keeps s (κ := {}) .rfl).canon hc).regs (by decide)
  · obtain ⟨a, b, checked⟩ := State.bgChecked_bits hw
    exact ⟨a, b, checked, rfl⟩

end Sys2Proof.Machine
end

section
/-! PROOFS. What a report, a message and a port that goes DOWN leave alone (R594, R615): a change is described by the registers it
writes below the host port's; of the rest of the state only what is on its way, the ports and their loopbacks can change. -/

namespace Sys2Proof.Machine

/-! ## The frame -/

/-- The state without its registers, and without what messages on their way and ports that go DOWN change. -/
def State.rest (s : State) : State := { s.still with regs := [], pba := [], inbox := [], vnode := [], vnodes := [], freeCtr := 0 }

/-- From `s` to `u` no register below the host port's changes but those of `w`, and nothing of the rest. -/
structure State.Leaves (s : State) (w : List Nat) (u : State) : Prop where
  rest : u.rest = s.rest
  reg : ∀ p, p < 0x100000 → p ∉ w → u.reg p = s.reg p

theorem State.setBit_rest (s : State) (o k : Nat) : (s.setBit o k).rest = s.rest := by
  unfold State.setBit State.setStatus
  extract_lets v m
  split <;> rfl

namespace State.Leaves

variable {ρ s u : State} {w w' : List Nat}

theorem refl : s.Leaves w s := ⟨rfl, fun _ _ _ => rfl⟩

theorem trans (h : ρ.Leaves w s) (k : s.Leaves w' u) : ρ.Leaves (w ++ w') u :=
  ⟨k.rest.trans h.rest, fun p hp hw => (k.reg p hp fun hm => hw (List.mem_append_right _ hm)).trans
    (h.reg p hp fun hm => hw (List.mem_append_left _ hm))⟩

section Reads

variable (h : s.Leaves w u)
include h

theorem life : u.life = s.life := (congrArg State.life h.rest :)
theorem conds : u.conds = s.conds := (congrArg State.conds h.rest :)
theorem errs : u.errs = s.errs := (congrArg State.errs h.rest :)
theorem chains : u.chains = s.chains := (congrArg State.chains h.rest :)
theorem xfers : u.xfers = s.xfers := (congrArg State.xfers h.rest :)
theorem now : u.now = s.now := (congrArg State.now h.rest :)
theorem react (n : Nat) : u.react n = s.react n := (congrArg (State.react · n) h.rest :)

variable {p : Nat} (hp : p < 0x100000) (hw : p ∉ w)
include hp hw

theorem rn : u.rn p = s.rn p := congrArg BitVec.toNat (h.reg p hp hw)
theorem rf (lo n : Nat) : u.rf p lo n = s.rf p lo n := congrArg (bits · lo n) (h.rn hp hw)
theorem rb (k : Nat) : u.rb p k = s.rb p k := congrArg (bitOn · k) (h.rn hp hw)

end Reads

theorem safe (h : s.Leaves w u) (hw : 0x40004 ∉ w) : u.safe = s.safe := h.rb (by decide) hw 0

/-! ## Changes that a frame takes in -/

/-- A change of registers from the host port's on, and of nothing of the rest. -/
theorem high (h : ρ.Leaves w s) (hr : u.rest = s.rest) (hreg : ∀ p, p < 0x100000 → u.reg p = s.reg p) : ρ.Leaves w u :=
  ⟨hr.trans h.rest, fun p hp hw => (hreg p hp).trans (h.reg p hp hw)⟩

theorem of_still (h : ρ.Leaves w s) (e : u.still = s.still) : ρ.Leaves w u :=
  h.high (congrArg State.rest e :) fun _ hp => State.reg_of_still e (Nat.lt_trans hp (by decide))

section Registers

variable {o : Nat} (h : ρ.Leaves w s) (ho : 0x100000 ≤ o ∨ o ∈ w)
include h ho

theorem setReg (v : Word) : ρ.Leaves w (s.setReg o v) :=
  ⟨h.rest, fun p hp hw => (s.reg_setReg_ne v (by rintro rfl; exact ho.elim (Nat.not_le.mpr hp) hw)).trans (h.reg p hp hw)⟩

theorem setBit (k : Nat) : ρ.Leaves w (s.setBit o k) :=
  ⟨(s.setBit_rest o k).trans h.rest, fun p hp hw =>
    (s.reg_setBit_ne (by rintro rfl; exact ho.elim (Nat.not_le.mpr hp) hw) k).trans (h.reg p hp hw)⟩

theorem set64 (ho' : 0x100000 ≤ o + 4 ∨ o + 4 ∈ w) (v : Nat) : ρ.Leaves w (s.set64 o v) := (h.setReg ho _).setReg ho' _

end Registers

/-- A message, of the Pruner's vector or another. -/
theorem message (h : ρ.Leaves w s) (fn vec : Nat) (pr : Bool) : ρ.Leaves w (s.message fn vec pr) := by
  have bump {u : State} (hu : ρ.Leaves w u) (k : Nat) : ρ.Leaves w (u.bump (cnt 0x180040 k)) :=
    hu.set64 (.inl (by unfold cnt; omega)) (.inl (by unfold cnt; omega)) _
  unfold State.message
  extract_lets k
  split
  · exact h
  split
  · exact bump (u := s.setPbit k true) (h.high rfl fun _ _ => rfl) 6
  · exact bump (h.of_still (s.hostWrite_still ..)) 5

theorem dropTx (h : ρ.Leaves w s) (p : Nat) (t : Flit → Bool) : ρ.Leaves w (s.dropTx p t) := h.high rfl fun _ _ => rfl

theorem inbox (h : ρ.Leaves w s) (m : SMap (List InFlit)) : ρ.Leaves w { s with inbox := m } := h.high rfl fun _ _ => rfl

theorem modPort (h : ρ.Leaves w s) (p : Nat) (f : Port → Port) : ρ.Leaves w (s.modPort p f) := h.high rfl fun _ _ => rfl

/-- A port that goes DOWN writes registers of the Kalgen blocks alone. -/
theorem linkDown (h : ρ.Leaves w s) (p : Nat) : ρ.Leaves w (s.linkDown p) := by
  have at_ : 0x100000 ≤ kp p 0xC ∨ kp p 0xC ∈ w := .inl (by unfold kp; split <;> omega)
  unfold State.linkDown
  extract_lets st u
  have hu : ρ.Leaves w u := ((h.setReg at_ _).setReg at_ _).dropTx p _
  exact (hu.inbox _).modPort p _

theorem linkUp (h : ρ.Leaves w s) : ρ.Leaves w s.linkUp := by
  have link {u : State} (hu : ρ.Leaves w u) (v : Word) : ρ.Leaves w (u.setReg 0x100004 v) := hu.setReg (.inl (by decide)) v
  unfold State.linkUp
  split
  · exact link h _
  · exact link (u := s.tick) (h.high rfl fun _ _ => rfl) _

/-- A loopback that ends writes registers of the loopbacks and of the host port. -/
theorem lbStop (h : ρ.Leaves w s) (i : Nat) : ρ.Leaves w (s.lbStop i) := by
  unfold State.lbStop
  split
  · exact h
  · extract_lets u
    have hu : ρ.Leaves w u := (h.setReg (.inl (by unfold lbReg; omega)) _).setReg (.inl (by unfold lbReg; omega)) _
    split
    · exact hu.linkUp.setBit (.inl (by decide)) 6
    · exact hu.high rfl fun _ _ => rfl

/-- A fold of changes that the frame takes in. -/
theorem foldl {β : Type} {f : State → β → State} (h : ρ.Leaves w s) (hf : ∀ u b, ρ.Leaves w u → ρ.Leaves w (f u b)) (l : List β) :
    ρ.Leaves w (l.foldl f s) := List.foldlRecOn l f h fun u hu b _ => hf u b hu

end State.Leaves

end Sys2Proof.Machine
end

section
/-! PROOFS. What a report leaves in the Pruner's registers (R594, R595, R598): its sticky bit, and PR_FIRST with its time where no sticky
bit was set. -/

namespace Sys2Proof.Machine

/-! ## Registers -/

variable {s m u : State}

/-- A status bit leaves the other status bits of its register as they are (R653). -/
theorem State.rb_setBit_other (hc : s.Canon) (o : Nat) {j k : Nat} (hj : j < 24) (h : j ≠ k) :
    (s.setBit o k).rb o j = s.rb o j := by
  have low : (0xFFFFFF : Word).getLsbD j = true := (by decide : ∀ j < 24, (0xFFFFFF : Word).getLsbD j = true) j hj
  rw [State.rb, State.rb, State.rn, State.rn, bitOn_eq_testBit, bitOn_eq_testBit, BitVec.testBit_toNat, BitVec.testBit_toNat]
  unfold State.setBit State.setStatus
  extract_lets v m
  have hm : m.getLsbD j = false := by
    rw [BitVec.getLsbD_ofNat, Nat.testBit_mod_two_pow, Nat.testBit_two_pow_of_ne h.symm, Bool.and_false, Bool.and_false]
  split
  · rfl
  · rw [State.reg_setReg hc.regs, BitVec.getLsbD_or, BitVec.getLsbD_shiftLeft, decide_eq_true hj, BitVec.getLsbD_and, BitVec.getLsbD_or, hm,
      Bool.or_false, Bool.not_true, Bool.and_false, Bool.false_and]
    exact (Bool.or_false _).trans ((congrArg (v.getLsbD j && ·) low).trans (Bool.and_true _))

/-- A number of 64 bits stored in two registers reads back. -/
theorem State.count64_set64 (hw : SMap.wf regReset s.regs = true) (o : Nat) {v : Nat} (hv : v < 2 ^ 64) : (s.set64 o v).count64 o = v := by
  have lo : (s.set64 o v).reg o = BitVec.ofNat 32 v := (State.reg_setReg_ne _ _ (by omega)).trans (State.reg_setReg hw ..)
  have hi : (s.set64 o v).reg (o + 4) = BitVec.ofNat 32 (v / 2 ^ 32) := State.reg_setReg (State.regs_setReg_wf hw ..) ..
  rw [State.count64, State.rn, State.rn, lo, hi, BitVec.toNat_ofNat, BitVec.toNat_ofNat]
  omega

theorem State.reg_set64_ne (s : State) {o p : Nat} (h : p ≠ o) (h' : p ≠ o + 4) (v : Nat) : (s.set64 o v).reg p = s.reg p :=
  (State.reg_setReg_ne _ _ h').trans (s.reg_setReg_ne _ h)

theorem State.now_lt (s : State) : s.now < 2 ^ 64 := Nat.mod_lt _ (by decide)

theorem State.count64_congr {o : Nat} (h : u.reg o = s.reg o) (h' : u.reg (o + 4) = s.reg (o + 4)) : u.count64 o = s.count64 o := by
  rw [State.count64, State.count64, State.rn, State.rn, State.rn, State.rn, h, h']

/-! ## The fault log -/

/-- PR_STICKY, PR_FIRST and its time. -/
def faultLog : List Nat := [0x40010, 0x40014, 0x40018, 0x4001C, 0x40020, 0x40070, 0x40078, 0x4007C]

theorem stickyReg_mem {n : Nat} (hn : n < 106) : 0x40010 + 4 * (n / 24) ∈ faultLog := by
  have block : ∀ k < 5, 0x40010 + 4 * k ∈ faultLog := by decide
  exact block (n / 24) (by omega)

/-- Two states have the same fault log, and the same time. -/
structure State.SameLog (s u : State) : Prop where
  reg : ∀ p ∈ faultLog, u.reg p = s.reg p
  now : u.now = s.now

theorem State.Leaves.sameLog {w : List Nat} (h : s.Leaves w u) (hw : ∀ p ∈ faultLog, p ∉ w) : s.SameLog u :=
  ⟨fun p hp => h.reg p ((by decide : ∀ p ∈ faultLog, p < 0x100000) p hp) (hw p hp), h.now⟩

namespace State.SameLog

variable (h : s.SameLog u)
include h

theorem sticky {n : Nat} (hn : n < 106) : u.sticky n = s.sticky n := by
  rw [State.sticky, State.sticky, State.rb, State.rb, State.rn, State.rn, h.reg _ (stickyReg_mem hn)]

theorem anySticky : u.anySticky = s.anySticky := by
  have block : ∀ k ∈ List.range 5, 0x40010 + 4 * k ∈ faultLog := by decide
  unfold State.anySticky State.rf State.rn
  rw [Bool.eq_iff_iff, List.any_eq_true, List.any_eq_true]
  exact exists_congr fun k => and_congr_right fun hk => by rw [h.reg _ (block k hk)]

theorem first : u.rn 0x40070 = s.rn 0x40070 := by rw [State.rn, State.rn, h.reg _ (by decide)]

theorem firstTime : u.count64 0x40078 = s.count64 0x40078 := State.count64_congr (h.reg _ (by decide)) (h.reg _ (by decide))

end State.SameLog

/-- The log of `m` is that of `s` with a report of source `n` (R594, R598). -/
structure State.Logged (s m : State) (n : Nat) : Prop where
  own : m.sticky n = true
  others : ∀ j, j < 106 → j ≠ n → m.sticky j = s.sticky j
  first : s.anySticky = false → m.rn 0x40070 = n + 128 ∧ m.count64 0x40078 = s.now
  later : s.anySticky = true → m.rn 0x40070 = s.rn 0x40070

namespace State.Logged

variable {n : Nat}

/-- What follows a report without writing the log. -/
theorem after (h : s.Logged m n) (hn : n < 106) (k : m.SameLog u) : s.Logged u n :=
  ⟨(k.sticky hn).trans h.own, fun j hj hne => (k.sticky hj).trans (h.others j hj hne),
    fun ha => by rw [k.first, k.firstTime]; exact h.first ha, fun ha => k.first.trans (h.later ha)⟩

/-- What goes before a report without writing the log. -/
theorem before (h : u.Logged m n) (k : s.SameLog u) : s.Logged m n :=
  ⟨h.own, fun j hj hne => (h.others j hj hne).trans (k.sticky hj), fun ha => by rw [← k.now]; exact h.first (k.anySticky.trans ha),
    fun ha => (h.later (k.anySticky.trans ha)).trans k.first⟩

end State.Logged

/-! ## Reports -/

/-- The state with the log of a report written. -/
def State.recorded (s : State) (n : Nat) : State :=
  let u := s.setBit (0x40010 + 4 * (n / 24)) (n % 24)
  if !s.anySticky then (u.setReg 0x40070 (BitVec.ofNat 32 (n + 128))).set64 0x40078 u.now else u

variable {n : Nat} (hn : n < 106)
include hn

theorem State.record_eq (s : State) : s.record n = s.recorded n ∨ ∃ fn vec pr, s.record n = (s.recorded n).message fn vec pr := by
  unfold State.record
  rw [if_neg (by omega)]
  extract_lets first rise u v
  split
  · exact .inr ⟨_, _, _, rfl⟩
  · exact .inl rfl

theorem State.recorded_leaves (s : State) : s.Leaves faultLog (s.recorded n) := by
  unfold State.recorded
  extract_lets u
  have hu : s.Leaves faultLog u := State.Leaves.refl.setBit (.inr (stickyReg_mem hn)) _
  split
  · exact (hu.setReg (.inr (by decide)) _).set64 (.inr (by decide)) (.inr (by decide)) _
  · exact hu

/-- The message of a report leaves alone what its record does. -/
theorem State.record_recorded (s : State) : (s.recorded n).Leaves [] (s.record n) := by
  rcases s.record_eq hn with e | ⟨fn, vec, pr, e⟩ <;> rw [e]
  · exact .refl
  · exact State.Leaves.refl.message fn vec pr

theorem State.record_leaves (s : State) : s.Leaves faultLog (s.record n) := by
  simpa using (s.recorded_leaves hn).trans (s.record_recorded hn)

omit hn in
theorem State.recorded_sticky (hc : s.Canon) {j : Nat} (hj : j < 106) : (s.recorded n).sticky j = (s.sticky j || decide (j = n)) := by
  have bit : (s.setBit (0x40010 + 4 * (n / 24)) (n % 24)).sticky j = (s.sticky j || decide (j = n)) := by
    unfold State.sticky
    by_cases hne : j = n
    · rw [hne, State.rb_setBit hc _ (Nat.mod_lt _ (by decide)), decide_eq_true rfl, Bool.or_true]
    rw [decide_eq_false hne, Bool.or_false]
    by_cases hr : j / 24 = n / 24
    · rw [hr]
      exact State.rb_setBit_other hc _ (by omega) (by omega)
    · rw [State.rb, State.rb, State.rn, State.rn, s.reg_setBit_ne (by omega)]
  unfold State.recorded
  extract_lets u
  split
  · rw [← bit, State.sticky, State.sticky, State.rb, State.rb, State.rn, State.rn, State.reg_set64_ne _ (by omega) (by omega),
      State.reg_setReg_ne _ _ (by omega)]
  · exact bit

/-- A report is recorded (R594, R595, R598). -/
theorem State.record_logged (hc : s.Canon) : s.Logged (s.record n) n := by
  have wf {o k : Nat} : SMap.wf regReset (s.setBit o k).regs = true := ((State.setBit_keeps s o k (κ := {}) .rfl).canon hc).regs
  refine State.Logged.after (m := s.recorded n) ⟨?_, fun j hj hne => ?_, fun ha => ?_, fun ha => ?_⟩ hn
    ((s.record_recorded hn).sameLog fun _ _ => List.not_mem_nil)
  · rw [State.recorded_sticky hc hn, decide_eq_true rfl, Bool.or_true]
  · rw [State.recorded_sticky hc hj, decide_eq_false hne, Bool.or_false]
  · unfold State.recorded
    extract_lets u
    rw [if_pos (by simp [ha]), State.count64_set64 (State.regs_setReg_wf wf ..) _ u.now_lt, State.rn,
      State.reg_set64_ne _ (by decide) (by decide), State.reg_setReg wf, BitVec.toNat_ofNat]
    exact ⟨by omega, (congrArg State.now (s.setBit_rest ..) :)⟩
  · unfold State.recorded
    extract_lets u
    rw [if_neg (by simp [ha]), State.rn, State.rn, s.reg_setBit_ne (by omega)]

end Sys2Proof.Machine
end

section
/-! PROOFS. The reactions SAFE and FENCE (R609, R613, R615): what entering safe state leaves, and the fence of a Tiller group without
bound threads and of a Barrow half without transfers. -/

namespace Sys2Proof.Machine

variable {s : State}

/-! ## Ports go DOWN -/

theorem State.reg_linkDown_ne (s : State) {p o : Nat} (h : o ≠ kp p 0xC) : (s.linkDown p).reg o = s.reg o :=
  (State.reg_wf_ne _ _ _ _ h).trans (s.reg_wf_ne _ _ _ h)

theorem kp_inj {p q : Nat} (hp : p < 5) (hq : q < 5) (h : kp p 0xC = kp q 0xC) : p = q := by
  unfold kp at h
  split at h <;> split at h <;> omega

/-- The link of a port that goes DOWN is DOWN, and one that is stays so (R340). -/
theorem State.kpSt_linkDown (hc : s.Canon) {p q : Nat} (hp : p < 5) (hq : q < 5) (h : q = p ∨ s.kpSt q = 0) : (s.linkDown p).kpSt q = 0 := by
  by_cases hqp : q = p
  · rw [hqp]
    change ((s.wf (kp p 0xC) 0 3 0).wf (kp p 0xC) 21 1 0).rf (kp p 0xC) 0 3 = 0
    rw [State.rf_wf_other (State.regs_wf_wf hc.regs ..) _ _ _ _ _ _ (by decide) (.inr (by decide)), State.rf_wf hc.regs _ _ _ _ (by decide),
      Nat.zero_mod]
  · rw [State.kpSt, State.rf, State.rn, s.reg_linkDown_ne fun e => hqp (kp_inj hq hp e)]
    exact h.resolve_left hqp

theorem State.kpSt_linkDowns {q : Nat} (hq : q < 5) (l : List Nat) (hl : ∀ p ∈ l, p < 5) {s : State} (hc : s.Canon)
    (h : q ∈ l ∨ s.kpSt q = 0) : (l.foldl State.linkDown s).kpSt q = 0 := by
  induction l generalizing s with
  | nil => exact h.resolve_left List.not_mem_nil
  | cons p l ih =>
    have hp := hl p List.mem_cons_self
    refine ih (fun p hp => hl p (List.mem_cons_of_mem _ hp)) ((State.linkDown_keeps s p (κ := {}) .rfl).canon hc) ?_
    rcases h with h | h
    · rcases List.mem_cons.mp h with rfl | h
      · exact .inr (State.kpSt_linkDown hc hp hq (.inl rfl))
      · exact .inl h
    · exact .inr (State.kpSt_linkDown hc hp hq (.inr h))

/-- A loopback that ends leaves the links' registers alone. -/
theorem State.reg_lbStop_ne (s : State) (i : Nat) {o : Nat} (h : 0x100008 < o) (h' : o < 0x700000) : (s.lbStop i).reg o = s.reg o := by
  have up : ∀ u : State, u.linkUp.reg o = u.reg o := fun u => by
    unfold State.linkUp
    split
    · exact u.reg_setReg_ne _ (by omega)
    · exact u.tick.reg_setReg_ne _ (by omega)
  unfold State.lbStop
  split
  · rfl
  · extract_lets u
    have hu : u.reg o = s.reg o := (State.reg_wf_ne _ _ _ _ (by unfold lbReg; omega)).trans (s.reg_wf_ne _ _ _ (by unfold lbReg; omega))
    split
    · exact (State.reg_setBit_ne _ (by omega) 6).trans ((up u).trans hu)
    · exact hu

/-- The state with every port and the twin link DOWN, and no loopback. -/
def State.portsDown (s : State) : State := [0, 1, 2, 3, 4, 5].foldl State.lbStop ([0, 1, 2, 3, 4].foldl State.linkDown s)

theorem State.portsDown_leaves (s : State) : s.Leaves [] s.portsDown :=
  (State.Leaves.refl.foldl (fun _ p h => h.linkDown p) _).foldl (fun _ i h => h.lbStop i) _

theorem State.portsDown_canon (hc : s.Canon) : s.portsDown.Canon :=
  (State.keeps_fold (fun _ i h => State.lbStop_keeps _ i h) _
    (State.keeps_fold (fun _ p h => State.linkDown_keeps _ p h) _ (.rfl (κ := {})))).canon hc

theorem State.portsDown_kpSt (hc : s.Canon) {p : Nat} (hp : p < 5) : s.portsDown.kpSt p = 0 := by
  have same : ∀ (l : List Nat) (u : State), (l.foldl State.lbStop u).kpSt p = u.kpSt p := fun l u =>
    List.foldlRecOn l _ (motive := fun v : State => v.kpSt p = u.kpSt p) rfl fun v hv i _ => by
      rw [← hv, State.kpSt, State.kpSt, State.rf, State.rf, State.rn, State.rn,
        v.reg_lbStop_ne i (by unfold kp; split <;> omega) (by unfold kp; split <;> omega)]
  exact (same _ _).trans (State.kpSt_linkDowns hp _ (by decide) hc (.inl (by simp; omega)))

/-! ## Safe state -/

/-- PR_STATE, PR_SAFE_LOG and its time. -/
def safeLog : List Nat := [0x40004, 0x40080, 0x40088, 0x4008C]

/-- The state in safe state, but for PR_SAFE_LOG. -/
def State.madeSafe (s : State) : State := (s.portsDown.wb 0x40004 0 true).wb 0x481008 7 false

theorem State.enterSafe_eq (n : Nat) (h : s.safe = false) : s.enterSafe n =
    (s.madeSafe.setReg 0x40080 (BitVec.ofNat 32 (n + 128 + 256 * min (s.madeSafe.rf 0x40080 8 16 + 1) 0xFFFF))).set64 0x40088 s.madeSafe.now := by
  unfold State.enterSafe
  rw [if_neg (by simp [h])]
  rfl

theorem State.enterSafe_of_safe (n : Nat) (h : s.safe = true) : s.enterSafe n = s := if_pos h

theorem State.madeSafe_leaves (s : State) : s.Leaves [0x40004] s.madeSafe :=
  State.Leaves.setReg (State.Leaves.setReg (s.portsDown_leaves.trans (w' := [0x40004]) .refl) (.inr (by decide)) _) (.inl (by decide)) _

theorem State.enterSafe_leaves (s : State) (n : Nat) : s.Leaves safeLog (s.enterSafe n) := by
  cases h : s.safe with
  | true =>
    rw [State.enterSafe_of_safe n h]
    exact .refl
  | false =>
    rw [State.enterSafe_eq n h]
    have made : s.Leaves safeLog s.madeSafe := ⟨s.madeSafe_leaves.rest, fun p hp hw => s.madeSafe_leaves.reg p hp (by
      rintro hm
      exact hw (List.mem_singleton.mp hm ▸ List.mem_cons_self))⟩
    exact (made.setReg (.inr (by decide)) _).set64 (.inr (by decide)) (.inr (by decide)) _

theorem State.madeSafe_canon (hc : s.Canon) : s.madeSafe.Canon :=
  (State.wb_keeps _ _ _ _ (State.wb_keeps _ _ _ _ (.rfl (κ := {})))).canon (State.portsDown_canon hc)

/-- The device is in safe state (R615); if it was not, every link is DOWN, and PR_SAFE_LOG has the source, a count and the time. -/
structure State.SafeFor (s m : State) (n : Nat) : Prop where
  safe : m.safe = true
  entered : s.safe = false → (∀ p, p < 5 → m.kpSt p = 0) ∧ m.rf 0x40080 0 7 = n ∧ m.rb 0x40080 7 = true ∧
    m.rf 0x40080 8 16 = min (s.rf 0x40080 8 16 + 1) 65535 ∧ m.count64 0x40088 = s.now

theorem State.enterSafe_safeFor (hc : s.Canon) {n : Nat} (hn : n < 106) : s.SafeFor (s.enterSafe n) n := by
  cases h : s.safe with
  | true =>
    rw [State.enterSafe_of_safe n h]
    exact ⟨h, fun hs => absurd (h.symm.trans hs) (by decide)⟩
  | false =>
    have wf := (State.madeSafe_canon hc).regs
    have count : s.madeSafe.rf 0x40080 8 16 = s.rf 0x40080 8 16 := s.madeSafe_leaves.rf (by decide) (by decide) 8 16
    have other {o : Nat} (h1 : o ≠ 0x40080) (h2 : o ≠ 0x40088) (h3 : o ≠ 0x4008C) : (s.enterSafe n).reg o = s.madeSafe.reg o := by
      rw [State.enterSafe_eq n h, State.reg_set64_ne _ h2 h3, State.reg_setReg_ne _ _ h1]
    have log : (s.enterSafe n).rn 0x40080 = n + 128 + 256 * min (s.rf 0x40080 8 16 + 1) 65535 := by
      rw [State.enterSafe_eq n h, State.rn, State.reg_set64_ne _ (by decide) (by decide), State.reg_setReg wf, BitVec.toNat_ofNat, count]
      omega
    refine ⟨?_, fun _ => ⟨fun p hp => ?_, ?_, ?_, ?_, ?_⟩⟩
    · rw [State.safe, State.rb, State.rn, other (by decide) (by decide) (by decide), State.madeSafe,
        show (State.wb _ 0x481008 7 false).reg 0x40004 = _ from State.reg_wf_ne _ _ _ _ (by decide)]
      exact State.rb_wb (State.portsDown_canon hc).regs _ _ _ (by decide)
    · have at_ : 0x400000 ≤ kp p 0xC ∧ kp p 0xC < 0x481000 := by unfold kp; split <;> omega
      rw [State.kpSt, State.rf, State.rn, other (by omega) (by omega) (by omega), State.madeSafe, State.wb, State.wb,
        State.reg_wf_ne _ _ _ _ (by omega), State.reg_wf_ne _ _ _ _ (by omega)]
      exact State.portsDown_kpSt hc hp
    · rw [State.rf, log, bits]
      omega
    · rw [State.rb, log, bitOn, decide_eq_true_iff]
      omega
    · rw [State.rf, log, bits]
      omega
    · rw [State.enterSafe_eq n h, State.count64_set64 (State.regs_setReg_wf wf ..) _ s.madeSafe.now_lt, s.madeSafe_leaves.now]

/-! ## Threads without a binding -/

theorem SMap.mem_set {α : Type} [DecidableEq α] (d : Nat → α) (m : SMap α) {k : Nat} {v : α} {e : Nat × α} (h : e ∈ SMap.set d m k v) :
    e ∈ m ∨ e = (k, v) := by
  induction m with
  | nil =>
    unfold SMap.set at h
    split at h
    · exact .inl h
    · exact .inr (List.mem_singleton.mp h)
  | cons a m ih =>
    unfold SMap.set at h
    split at h
    · split at h
      · exact .inl h
      · exact (List.mem_cons.mp h).symm
    split at h
    · split at h
      · exact .inl (List.mem_cons_of_mem _ h)
      · exact (List.mem_cons.mp h).symm.imp_left (List.mem_cons_of_mem _)
    · rcases List.mem_cons.mp h with rfl | h
      · exact .inl List.mem_cons_self
      · exact (ih h).imp_left (List.mem_cons_of_mem _)

/-- An entry of a table is listed, or the table's default. -/
theorem SMap.mem_of_get_ne {α : Type} (d : Nat → α) (m : SMap α) {k : Nat} (h : SMap.get d m k ≠ d k) : (k, SMap.get d m k) ∈ m := by
  induction m with
  | nil => exact absurd rfl h
  | cons e m ih =>
    unfold SMap.get at h ⊢
    split at h
    · next hk =>
      rw [if_pos hk, ← hk]
      exact List.mem_cons_self
    · next hk =>
      rw [if_neg hk]
      exact List.mem_cons_of_mem _ (ih h)

/-- No thread is bound. -/
structure State.Unbound (s : State) : Prop where
  free : ∀ e ∈ s.threads, e.2.bind = .free

namespace State.Unbound

theorem of_threads {u : State} (h : s.Unbound) (e : u.threads = s.threads) : u.Unbound := ⟨by rw [e]; exact h.free⟩

theorem bind (h : s.Unbound) (t : Nat) : (s.thread t).bind = .free := by
  by_cases ht : s.thread t = {}
  · rw [ht]
  · exact h.free _ (SMap.mem_of_get_ne _ _ ht)

/-- A packet that crosses to a thread changes the thread's Furrow alone. -/
theorem pktIn (h : s.Unbound) (t : Nat) (bd : Binding) (p : Pkt) : (s.pktIn t bd p).Unbound := by
  unfold State.pktIn
  split
  · exact h.of_threads (State.dropPkts_threads ..)
  · extract_lets hit s₁ s₂
    have h₁ : s₁.Unbound := by
      unfold s₁
      split
      · exact h
      · exact h.of_threads s.injDone_threads
    have h₂ : s₂.Unbound := by
      unfold s₂
      split
      · exact h₁.of_threads (State.metErr_threads ..)
      · exact h₁
    refine ⟨fun e he => ?_⟩
    rcases SMap.mem_set _ _ he with he | rfl
    · exact h₂.free e he
    · exact h₂.bind t

theorem arrived (h : s.Unbound) (k : FPkt) : (s.arrived k).Unbound := by
  unfold State.arrived
  split
  · exact h.of_threads (State.tlpOut_threads ..)
  · exact h.of_threads (State.tlpOut_threads ..)
  · exact h.of_threads (State.flitOut_threads ..)
  · exact h.pktIn ..

theorem fab (h : s.Unbound) (l : List FPkt) : { s with fab := l }.Unbound := h.of_threads rfl

theorem fabRun (o n : Nat) {s : State} (h : s.Unbound) : (State.fabRun o n s).Unbound := by
  induction n generalizing s with
  | zero => exact h
  | succ n ih =>
    rw [State.fabRun]
    split
    · exact h
    · next w forced _ =>
      split
      · exact h
      · have decided : (s.fabDecide o (s.fabElig o) w forced).Unbound := h.of_threads (State.fabDecide_threads ..)
        extract_lets s₁
        split
        · exact ih (decided.fab _)
        · exact ih ((decided.fab _).arrived _)

/-- A message hands at most one packet to the fabric. -/
theorem message (h : s.Unbound) (fn vec : Nat) (pr : Bool) : (s.message fn vec pr).Unbound := by
  unfold State.message
  extract_lets k
  split
  · exact h
  split
  · exact h.of_threads rfl
  · exact ((h.fab _).fabRun _ _).of_threads rfl

theorem record (h : s.Unbound) {n : Nat} (hn : n < 106) : (s.record n).Unbound := by
  have threads : (s.recorded n).threads = s.threads := by
    unfold State.recorded
    extract_lets u
    have hu : u.threads = s.threads := s.setBit_threads ..
    clear_value u
    split <;> exact hu
  have recorded : (s.recorded n).Unbound := h.of_threads threads
  rcases s.record_eq hn with e | ⟨fn, vec, pr, e⟩ <;> rw [e]
  · exact recorded
  · exact recorded.message fn vec pr

end State.Unbound

/-! ## Fences -/

/-- The state with a bit of PR_FENCED set. -/
def State.fenceBit (s : State) (k : Nat) : State := if s.rb 0x40008 k then s else s.wb 0x40008 k true

theorem State.fenceBit_leaves (s : State) (k : Nat) : s.Leaves [0x40008] (s.fenceBit k) := by
  unfold State.fenceBit
  split
  · exact .refl
  · exact State.Leaves.refl.setReg (.inr (by decide)) _

theorem State.fenceBit_rb (hc : s.Canon) {j k : Nat} (hk : k < 32) : (s.fenceBit k).rb 0x40008 j = (s.rb 0x40008 j || decide (j = k)) := by
  unfold State.fenceBit
  by_cases hj : j = k
  · rw [hj, decide_eq_true rfl, Bool.or_true]
    split
    · assumption
    · exact State.rb_wb hc.regs _ _ _ hk
  · rw [decide_eq_false hj, Bool.or_false]
    split
    · rfl
    · exact State.rb_wb_other hc.regs _ _ hk hj

/-- A group with no bound thread and no chain is fenced by its bit alone. -/
theorem State.fenceTg_idle (g : Nat) (ht : s.Unbound) (hc : s.chains = []) : s.fenceTg g = s.wb 0x40008 g true := by
  have threads : (s.wb 0x40008 g true).boundThreads g = [] :=
    List.filterMap_eq_nil_iff.mpr fun e he => if_neg fun h => h.2 (ht.free e he)
  have chains : (s.wb 0x40008 g true).chainsOf g = [] := congrArg (fun l : SMap Chain => (l.filter _).map _) hc
  unfold State.fenceTg
  extract_lets u v
  have hv : v = s.wb 0x40008 g true := by
    unfold v
    rw [threads]
    rfl
  rw [hv, chains]
  rfl

/-- A half without transfers is fenced by its bit alone. -/
theorem State.fenceBw_idle (h : Nat) (hx : s.xfers = []) : s.fenceBw h = s.wb 0x40008 (8 + h) true := by
  unfold State.fenceBw State.withdrawHalf
  rw [show (s.wb 0x40008 (8 + h) true).xfers = [] from hx]
  rfl

variable {n : Nat}

/-- The last unit in service is not fenced: the device enters safe state (R613). -/
theorem State.fence_last (l : Option Nat) (h : s.leavesNone (srcUnit n) = true) : s.fence n l = s.enterSafe n := if_pos h

theorem State.fence_tg {g : Nat} (l : Option Nat) (hu : srcUnit n = .tg g) (h : ∃ k, k < 8 ∧ k ≠ g ∧ s.tgIn k = true) (ht : s.Unbound)
    (hc : s.chains = []) : s.fence n l = s.fenceBit g := by
  obtain ⟨k, hk, hne, hin⟩ := h
  have left : s.leavesNone (.tg g) = false := by
    simp only [State.leavesNone, Bool.not_eq_false', List.any_eq_true]
    exact ⟨k, List.mem_range.mpr hk, by simp [hne, hin]⟩
  unfold State.fence State.fenceBit
  rw [hu, ← State.fenceTg_idle g ht hc]
  exact if_neg (by rw [left]; decide)

theorem State.fence_bw {h : Nat} (l : Option Nat) (hu : srcUnit n = .bw h) (hin : s.bwIn (1 - h) = true) (hx : s.xfers = []) :
    s.fence n l = s.fenceBit (8 + h) := by
  have left : s.leavesNone (.bw h) = false := by rw [State.leavesNone, hin]; rfl
  unfold State.fence State.fenceBit
  rw [hu, ← State.fenceBw_idle h hx]
  exact if_neg (by rw [left]; decide)

end Sys2Proof.Machine
end

section
/-! PROOFS. Reports by their source's reaction (R594, R599, R600, R609, R613, R615), forced reports, temperature and the patrol (R25, R26,
R604, R605); the settled statement on faults. -/

namespace Sys2Proof.Machine

variable {s m : State} {n : Nat}

/-! ## Sources (R604) -/

/-- A source outside KP_LANE names no lane. -/
theorem srcUnit_ne_lane (h : ¬ (50 ≤ n ∧ n < 54)) (p : Nat) : srcUnit n ≠ .lane p := by
  unfold srcUnit
  split_ifs <;> simp
  omega

theorem srcUnit_of_bw (h : n = 40 ∨ n = 41) : srcUnit n = .bw (n - 40) := by
  rcases h with rfl | rfl <;> rfl

theorem lt_of_srcUnit_tg {g : Nat} (hn : n < 40) (h : srcUnit n = .tg g) : g < 8 := by
  rw [srcUnit, if_pos hn, FUnit.tg.injEq] at h
  omega

theorem not_lane_of_cond (h : srcIsCond n = true) : ¬ (50 ≤ n ∧ n < 54) := by
  simp only [srcIsCond, decide_eq_true_eq, List.mem_cons, List.not_mem_nil, or_false] at h
  omega

theorem not_cond_of_lt (h : n < 66) : srcIsCond n = false := by
  simp only [srcIsCond, decide_eq_false_iff_not, List.mem_cons, List.not_mem_nil, or_false]
  omega

/-- The lowest reaction of a source is one of the three, and FENCE only where the source names a unit (R600). -/
theorem srcLowest_bounds : ∀ n < 106, srcLowest n ≤ 2 ∧ (srcLowest n = 1 → srcUnit n ≠ .none) := by decide

/-- The reaction of a source without a unit is never FENCE (R599). -/
theorem State.react_ne_one (s : State) (hu : srcUnit n = .none) : s.react n ≠ 1 := by
  unfold State.react
  split
  · decide
  · extract_lets v
    split
    · decide
    · next h => simpa [hu] using h

/-- The reaction by the programmed field (R599, R600): SAFE for 3 and for FENCE without a unit, and at least the source's lowest. -/
theorem State.react_eq (s : State) (hn : n < 105) : s.react n =
    if s.af (0x40050 + 4 * (n / 16)) (2 * (n % 16)) 2 = 3 ∨ (s.af (0x40050 + 4 * (n / 16)) (2 * (n % 16)) 2 = 1 ∧ srcUnit n = .none) then 2
    else if s.af (0x40050 + 4 * (n / 16)) (2 * (n % 16)) 2 < srcLowest n then srcLowest n
    else s.af (0x40050 + 4 * (n / 16)) (2 * (n % 16)) 2 := by
  have field : s.af (0x40050 + 4 * (n / 16)) (2 * (n % 16)) 2 < 4 := Nat.mod_lt _ (by decide)
  obtain ⟨low, unit⟩ := srcLowest_bounds n (by omega)
  unfold State.react
  rw [if_neg (by omega)]
  extract_lets v
  by_cases hu : srcUnit n = .none
  · have : srcLowest n ≠ 1 := fun h => unit h hu
    simp only [hu, decide_true, Bool.and_true, decide_eq_true_eq, and_true]
    split_ifs <;> omega
  · simp only [hu, decide_false, Bool.and_false, Bool.false_eq_true, if_false, and_false, or_false]
    split_ifs <;> omega

/-! ## Reports -/

/-- A report of source `n` set the source's bit, and the device is in safe state. -/
structure State.Stopped (s m : State) (n : Nat) : Prop where
  own : m.sticky n = true
  safeFor : s.SafeFor m n

/-- A report whose reaction brings safe state. -/
theorem State.record_stopped (hn : n < 106) (hc : s.Canon) : s.Stopped ((s.record n).enterSafe n) n := by
  have kept := s.record_leaves hn
  have entered := State.enterSafe_safeFor ((State.record_keeps s n (κ := {}) .rfl).canon hc) hn
  have logged := (State.record_logged hn hc).after hn (((s.record n).enterSafe_leaves n).sameLog (by decide))
  refine ⟨logged.own, entered.safe, fun hs => ?_⟩
  have at_ := entered.entered ((kept.safe (by decide)).trans hs)
  rwa [kept.rf (by decide) (by decide), kept.now] at at_

section Report

variable (hl : s.life = .live) (hn : n < 106) (hp : ¬ (50 ≤ n ∧ n < 54))
include hl hn hp

/-- A report that names no lane: it is recorded, and the source's reaction applied. -/
theorem State.report_eq : s.report n =
    match s.react n with
    | 0 => s.record n
    | 1 => (s.record n).fence n none
    | _ => (s.record n).enterSafe n := by
  have unit := srcUnit_ne_lane hp
  rw [← (s.record_leaves hn).react n]
  unfold State.report
  rw [if_neg (by simp [hl]; omega)]
  cases hu : srcUnit n with
  | lane p => exact absurd hu (unit p)
  | _ => rfl

variable (hc : s.Canon)
include hc

/-- LOG does no more than the record. -/
theorem State.report_logged (h : s.react n = 0) : s.Logged (s.report n) n ∧ s.Leaves faultLog (s.report n) := by
  rw [State.report_eq hl hn hp, h]
  exact ⟨State.record_logged hn hc, s.record_leaves hn⟩

theorem State.report_stopped (h : s.react n = 2) : s.Stopped (s.report n) n := by
  rw [State.report_eq hl hn hp, h]
  exact State.record_stopped hn hc

/-- FENCE of the last unit in service (R613). -/
theorem State.report_last (h : s.react n = 1) (hu : (s.record n).leavesNone (srcUnit n) = true) : s.Stopped (s.report n) n := by
  rw [State.report_eq hl hn hp, h]
  change s.Stopped ((s.record n).fence n none) n
  rw [State.fence_last none hu]
  exact State.record_stopped hn hc

/-- FENCE that sets a bit of PR_FENCED and does no more. -/
theorem State.report_fenced (h : s.react n = 1) {k : Nat} (hk : k < 32) (hf : (s.record n).fence n none = (s.record n).fenceBit k) :
    s.Logged (s.report n) n ∧ (s.report n).safe = s.safe ∧ ∀ j, (s.report n).rb 0x40008 j = (s.rb 0x40008 j || decide (j = k)) := by
  have kept := s.record_leaves hn
  have fenced := (s.record n).fenceBit_leaves k
  have eq : s.report n = (s.record n).fenceBit k := by
    rw [State.report_eq hl hn hp, h]
    exact hf
  rw [eq]
  refine ⟨(State.record_logged hn hc).after hn (fenced.sameLog (by decide)), (fenced.safe (by decide)).trans (kept.safe (by decide)), fun j => ?_⟩
  rw [State.fenceBit_rb ((State.record_keeps s n (κ := {}) .rfl).canon hc) hk, kept.rb (by decide) (by decide)]

end Report

/-- What is in service is as it was before the record. -/
theorem State.record_tgIn (s : State) (hn : n < 106) (k : Nat) : (s.record n).tgIn k = s.tgIn k := by
  have kept := s.record_leaves hn
  rw [State.tgIn, State.tgIn, State.pdom, State.pdom, kept.rf (by decide) (by decide), kept.rb (by decide) (by decide)]

theorem State.record_bwIn (s : State) (hn : n < 106) (k : Nat) : (s.record n).bwIn k = s.bwIn k := by
  have kept := s.record_leaves hn
  rw [State.bwIn, State.bwIn, State.pdom, State.pdom, kept.rf (by decide) (by decide), kept.rb (by decide) (by decide)]

/-- A condition that begins to hold. -/
theorem State.setCond_new (h : n ∉ s.conds) : s.setCond n true = { s with conds := s.conds ++ [n] }.report n := by
  unfold State.setCond
  rw [if_pos rfl, if_neg h]

theorem State.setCond_false (h : n ∉ s.conds) : s.setCond n false = s := by
  unfold State.setCond
  rw [if_neg (by decide), List.erase_of_not_mem h]

theorem State.conds_sameLog (s : State) (l : List Nat) : s.SameLog { s with conds := l } := ⟨fun _ _ => rfl, rfl⟩

theorem State.conds_canon (hc : s.Canon) (l : List Nat) : { s with conds := l }.Canon := (State.keeps_conds (κ := {}) .rfl l).canon hc

/-! ## The commands -/

section Commands

variable (hl : s.life = .live)
include hl

/-- A source that is no condition is reported; `hb`: a report of it brings nothing besides its reaction (R601). -/
theorem exec_faultReport (unit : Nat) (hn : n < 106) (hp : ¬ (50 ≤ n ∧ n < 54)) (hk : srcIsCond n = false) (hb : s.faultEffect n unit = s) :
    exec (.faultReport n unit) s = .next (s.report n).finish := by
  change execFaultReport n unit s = _
  unfold execFaultReport
  rw [if_neg (by simp [hl]; omega), hk, if_neg (by decide), hb]
  extract_lets lane
  have none : lane = none := by
    unfold lane
    cases hu : srcUnit n with
    | lane p => exact absurd hu (srcUnit_ne_lane hp p)
    | _ => rfl
  rw [ite_self, none]
  rfl

theorem exec_faultReport_cond (unit : Nat) (hn : n < 106) (hk : srcIsCond n = true) :
    exec (.faultReport n unit) s = .next (s.setCond n true).finish := by
  change execFaultReport n _ s = _
  unfold execFaultReport
  rw [if_neg (by simp [hl]; omega), if_pos hk]
  rfl

theorem exec_tempSample (temp : BitVec 12) : exec (.tempSample temp) s =
    .next (((s.wf 0x20 0 12 temp.toNat).setCond 102 (decide (880 < temp.toInt))).setCond 103 (decide (1000 < temp.toInt))).finish := by
  change execTempSample temp s = _
  unfold execTempSample
  rw [if_neg (by simp [hl])]
  rfl

variable {r : MemRegion} {idx : Nat} {e : CwErr} (hb : s.rb 0x700A00 31 = false)
  (he : (s.errs.find? fun e => decide (e.region = r ∧ e.idx = idx)) = some e)
include hb he

theorem exec_patrolScrub_corrected (intervened : Bool) (h : e.lost = false) : exec (.patrolScrub r idx intervened) s =
    .next ((if intervened then s else { s with errs := s.errs.erase e }).report (scrubCe r idx)).finish := by
  change execPatrolScrub r idx intervened s = _
  unfold execPatrolScrub
  rw [if_neg (by simp [hl, hb]), he]
  dsimp only
  rw [h]
  rfl

theorem exec_patrolScrub_lost (intervened : Bool) (h : e.lost = true) (hf : s.faultEffect (scrubUe r idx).1 (scrubUe r idx).2 = s) :
    exec (.patrolScrub r idx intervened) s = .next (s.report (scrubUe r idx).1).finish := by
  change execPatrolScrub r idx intervened s = _
  unfold execPatrolScrub
  rw [if_neg (by simp [hl, hb]), he]
  dsimp only
  rw [if_pos h, hf, ite_self]
  rfl

end Commands

theorem exec_forceFault {who : Req} (hs : s.serves_ who = true) (ha : reqAdm who = true) (hn : n < 106) :
    exec (.forceFault who n) s = .next (s.report n).finish := by
  change execForceFault who n s = _
  unfold execForceFault regGuarded
  rw [if_neg (by omega), hs, if_neg (by decide), if_pos ha]
  rfl

theorem exec_patrolScrub_none {r : MemRegion} {idx : Nat} (intervened : Bool)
    (he : (s.errs.find? fun e => decide (e.region = r ∧ e.idx = idx)) = none) : exec (.patrolScrub r idx intervened) s = .next s := by
  change execPatrolScrub r idx intervened s = _
  unfold execPatrolScrub
  rw [he]
  exact ite_self _

/-- What brings nothing besides its reaction (R601). -/
theorem State.faultEffect_bare (s : State) (unit : Nat) (h : n ∉ [42, 43, 73, 74, 76, 77, 78]) : s.faultEffect n unit = s := by
  simp only [List.mem_cons, List.not_mem_nil, or_false, not_or] at h
  unfold State.faultEffect
  simp [h]

/-- The sources of corrected codewords, and of uncorrectable ones, are no lanes. -/
theorem scrubCe_range (r : MemRegion) (idx : Nat) : scrubCe r idx < 106 ∧ ¬ (50 ≤ scrubCe r idx ∧ scrubCe r idx < 54) := by
  cases r <;> simp only [scrubCe] <;> omega

theorem scrubUe_range (r : MemRegion) (idx : Nat) : (scrubUe r idx).1 < 106 ∧ ¬ (50 ≤ (scrubUe r idx).1 ∧ (scrubUe r idx).1 < 54) := by
  cases r <;> simp only [scrubUe]
  case seedbank => split_ifs <;> simp
  all_goals omega

/-! ## Conditions and temperature (R597, R604) -/

/-- A condition that begins to hold, of a source that logs. -/
theorem State.setCond_logged (hl : s.life = .live) (hn : n < 106) (hp : ¬ (50 ≤ n ∧ n < 54)) (hc : s.Canon) (h : n ∉ s.conds)
    (h0 : s.react n = 0) : (s.setCond n true).conds = s.conds ++ [n] ∧ s.Logged (s.setCond n true) n ∧
      ∀ p, p < 0x40000 → (s.setCond n true).reg p = s.reg p := by
  obtain ⟨logged, kept⟩ := State.report_logged (s := { s with conds := s.conds ++ [n] }) hl hn hp (State.conds_canon hc _) h0
  rw [State.setCond_new h]
  have above : ∀ p ∈ faultLog, 0x40000 ≤ p := by decide
  exact ⟨kept.conds, logged.before (s.conds_sameLog _), fun p hp => kept.reg p (by omega) fun hm => by have := above p hm; omega⟩

/-- A report of a source without a unit writes the fault log, and may enter safe state. -/
theorem State.report_leaves (hl : s.life = .live) (hn : n < 106) (hu : srcUnit n = .none) : s.Leaves (faultLog ++ safeLog) (s.report n) := by
  have lane : ¬ (50 ≤ n ∧ n < 54) := by
    rintro ⟨_, _⟩
    rw [srcUnit, if_neg (by omega), if_neg (by omega), if_neg (by omega), if_pos (by omega)] at hu
    cases hu
  have kept := s.record_leaves hn
  rw [State.report_eq hl hn lane]
  split
  · exact kept.trans (w' := safeLog) .refl
  · next h => exact absurd h (s.react_ne_one hu)
  · exact kept.trans (State.enterSafe_leaves _ n)

/-- A condition that begins to hold, of a source without a unit. -/
theorem State.setCond_unitless (hl : s.life = .live) (hn : n < 106) (hu : srcUnit n = .none) (hc : s.Canon) (h : n ∉ s.conds) :
    (s.setCond n true).conds = s.conds ++ [n] ∧ (s.setCond n true).life = .live ∧ (s.setCond n true).Canon := by
  have kept := State.report_leaves (s := { s with conds := s.conds ++ [n] }) hl hn hu
  rw [State.setCond_new h]
  exact ⟨kept.conds, kept.life.trans hl, (State.report_keeps _ n none (.rfl (κ := {}))).canon (State.conds_canon hc _)⟩

/-- A condition that begins to hold, of a source that stops the device. -/
theorem State.setCond_stopped (hl : s.life = .live) (hn : n < 106) (hp : ¬ (50 ≤ n ∧ n < 54)) (hc : s.Canon) (h : n ∉ s.conds)
    (h2 : s.react n = 2) : (s.setCond n true).safe = true ∧ (s.setCond n true).sticky n = true := by
  have stopped := State.report_stopped (s := { s with conds := s.conds ++ [n] }) hl hn hp (State.conds_canon hc _) h2
  rw [State.setCond_new h]
  exact ⟨stopped.safeFor.safe, stopped.own⟩

theorem State.react_of_lowest (s : State) (hn : n < 105) (h : srcLowest n = 2) : s.react n = 2 := by
  have field : s.af (0x40050 + 4 * (n / 16)) (2 * (n % 16)) 2 < 4 := Nat.mod_lt _ (by decide)
  rw [s.react_eq hn, h]
  split_ifs <;> omega

section Temperature

variable (hc : s.Canon) (hl : s.life = .live) (hk : s.conds = []) (temp : BitVec 12)

/-- The state with a sample in GLB_TEMP. -/
def State.sampled (s : State) (temp : BitVec 12) : State := s.wf 0x20 0 12 temp.toNat

include hc in
theorem State.sampled_canon : (s.sampled temp).Canon := (State.wf_keeps s _ _ _ _ (.rfl (κ := {}))).canon hc

include hc in
theorem State.sampled_temp : (s.sampled temp).rf 0x20 0 12 = temp.toNat :=
  (State.rf_wf hc.regs _ _ _ _ (by decide)).trans (Nat.mod_eq_of_lt temp.isLt)

theorem State.sampled_sameLog : s.SameLog (s.sampled temp) :=
  (State.Leaves.refl.setReg (w := [0x20]) (.inr (by decide)) _).sameLog (by decide)

variable {temp}
include hk

/-- Up to 110 °C no condition begins to hold. -/
theorem exec_tempSample_cool (hl : s.life = .live) (h : temp.toInt ≤ 880) : exec (.tempSample temp) s = .next (s.sampled temp).finish := by
  have none (n : Nat) : n ∉ (s.sampled temp).conds := by
    rw [show (s.sampled temp).conds = [] from hk]
    exact List.not_mem_nil
  rw [exec_tempSample hl, decide_eq_false (by omega), decide_eq_false (by omega)]
  change Host.Outcome.next (((s.sampled temp).setCond 102 false).setCond 103 false).finish = _
  rw [State.setCond_false (none 102), State.setCond_false (none 103)]

include hl hc

/-- Up to 125 °C condition 102 holds, and its report logs. -/
theorem exec_tempSample_warm (h : 880 < temp.toInt) (h' : temp.toInt ≤ 1000) (h0 : s.react 102 = 0) : ∃ m : State,
    exec (.tempSample temp) s = .next m.finish ∧ m.rf 0x20 0 12 = temp.toNat ∧ m.conds = [102] ∧ s.Logged m 102 := by
  have empty : (s.sampled temp).conds = [] := hk
  obtain ⟨conds, logged, regs⟩ := State.setCond_logged (n := 102) (s := s.sampled temp) hl (by decide) (by decide) (State.sampled_canon hc temp)
    (by rw [empty]; decide) h0
  rw [empty] at conds
  refine ⟨(s.sampled temp).setCond 102 true, ?_, ?_, conds, logged.before (State.sampled_sameLog temp)⟩
  · rw [exec_tempSample hl, decide_eq_true h, decide_eq_false (by omega)]
    change Host.Outcome.next (((s.sampled temp).setCond 102 true).setCond 103 false).finish = _
    rw [State.setCond_false (n := 103) (by rw [conds]; decide)]
  · rw [← State.sampled_temp hc temp, State.rf, State.rf, State.rn, State.rn, regs _ (by decide)]

/-- Above 125 °C condition 103 holds too, and the device is in safe state. -/
theorem exec_tempSample_hot (h : 1000 < temp.toInt) : ∃ m : State,
    exec (.tempSample temp) s = .next m.finish ∧ m.conds = [102, 103] ∧ m.safe = true ∧ m.sticky 103 = true := by
  have empty : (s.sampled temp).conds = [] := hk
  obtain ⟨conds, live, canon⟩ := State.setCond_unitless (n := 102) (s := s.sampled temp) hl (by decide) rfl (State.sampled_canon hc temp)
    (by rw [empty]; decide)
  rw [empty] at conds
  have new : 103 ∉ ((s.sampled temp).setCond 102 true).conds := by rw [conds]; decide
  obtain ⟨conds', -, -⟩ := State.setCond_unitless live (by decide) rfl canon new
  obtain ⟨safe, sticky⟩ := State.setCond_stopped live (by decide) (by decide) canon new (State.react_of_lowest _ (by decide) rfl)
  refine ⟨_, ?_, conds'.trans (by rw [conds]; rfl), safe, sticky⟩
  rw [exec_tempSample hl, decide_eq_true (by omega), decide_eq_true h]
  rfl

end Temperature

/-! ## The settled statement -/

theorem State.errs_sameLog (s : State) (l : List CwErr) : s.SameLog { s with errs := l } := ⟨fun _ _ => rfl, rfl⟩

theorem State.errs_canon (hc : s.Canon) (l : List CwErr) : { s with errs := l }.Canon := (State.keeps_errs (κ := {}) .rfl l).canon hc

/-- Settles O58: each command comes to reports, and a report to what its source's reaction brings. -/
theorem faultReports : Obligations.FaultReports := by
  intro s hc hl goes logged stops bare
  have log {m : State} {n : Nat} (h : s.Logged m n) : logged m n := ⟨h.own, h.others, h.first, h.later⟩
  have stop {m : State} {n : Nat} (h : s.Stopped m n) : stops m n := ⟨h.own, h.safeFor.safe, h.safeFor.entered⟩
  refine ⟨fun n unit hn hb hk => ?_, fun n unit hn hk => ?_, fun n g unit hu hn h1 => ?_, fun n unit hn h1 => ?_, rfl, fun n hn => s.react_eq hn,
    fun who n hn hs ha _ hp => ?_, fun temp hk => ⟨fun h => ?_, fun h h' h0 => ?_, exec_tempSample_hot hc hl hk⟩, fun r idx e hb he => ?_,
    fun r idx he => exec_patrolScrub_none false he⟩
  · obtain ⟨effect, lane⟩ := hb
    have go := exec_faultReport hl unit hn lane hk (s.faultEffect_bare unit effect)
    refine ⟨fun h => ?_, fun h => ⟨_, go, stop (State.report_stopped hl hn lane hc h)⟩⟩
    obtain ⟨logs, kept⟩ := State.report_logged hl hn lane hc h
    exact ⟨_, go, log logs, kept.safe (by decide), kept.reg _ (by decide) (by decide)⟩
  · have go := exec_faultReport_cond hl unit hn hk
    refine ⟨fun h => ⟨_, go, if_pos h⟩, fun h h0 => ?_⟩
    obtain ⟨conds, logs, -⟩ := State.setCond_logged hl hn (not_lane_of_cond hk) hc h h0
    exact ⟨_, go, conds, log logs⟩
  · have hg := lt_of_srcUnit_tg hn hu
    have lane : ¬ (50 ≤ n ∧ n < 54) := by omega
    have go := exec_faultReport hl unit (by omega) lane (not_cond_of_lt (by omega)) (s.faultEffect_bare unit (by simp; omega))
    refine ⟨fun h => ⟨_, go, stop (State.report_last hl (by omega) lane hc h1 ?_)⟩, fun h ht hch => ?_⟩
    · rw [hu, State.leavesNone, Bool.not_eq_true', List.any_eq_false]
      intro k hk
      rw [State.record_tgIn s (by omega)]
      simpa using h k (List.mem_range.mp hk)
    · obtain ⟨k, hk, hne, hin⟩ := h
      have idle : s.Unbound := ⟨by simp [ht]⟩
      obtain ⟨logs, safe, bits⟩ := State.report_fenced hl (by omega) lane hc h1 (k := g) (by omega)
        (State.fence_tg none hu ⟨k, hk, hne, (s.record_tgIn (by omega) k).trans hin⟩ (idle.record (by omega))
          ((s.record_leaves (by omega)).chains.trans hch))
      exact ⟨_, go, log logs, safe, fun j _ => bits j⟩
  · have hu := srcUnit_of_bw hn
    have lane : ¬ (50 ≤ n ∧ n < 54) := by omega
    have go := exec_faultReport hl unit (by omega) lane (not_cond_of_lt (by omega)) (s.faultEffect_bare unit (by simp; omega))
    have other : (s.record n).bwIn (1 - (n - 40)) = s.bwIn (41 - n) := by
      rw [s.record_bwIn (by omega)]
      congr 1
      omega
    refine ⟨fun h => ⟨_, go, stop (State.report_last hl (by omega) lane hc h1 ?_)⟩, fun h hx => ?_⟩
    · rw [hu, State.leavesNone, other, h]
      rfl
    · obtain ⟨logs, safe, bits⟩ := State.report_fenced hl (by omega) lane hc h1 (k := 8 + (n - 40)) (by omega)
        (State.fence_bw none hu (other.trans h) ((s.record_leaves (by omega)).xfers.trans hx))
      exact ⟨_, go, log logs, safe, (bits _).trans (by simp; omega)⟩
  · have go := exec_forceFault hs ha hn
    exact ⟨fun h => ⟨_, go, log (State.report_logged hl hn hp hc h).1⟩, fun h => ⟨_, go, stop (State.report_stopped hl hn hp hc h)⟩⟩
  · exact ⟨_, exec_tempSample_cool hk hl h, State.sampled_temp hc temp, hk⟩
  · obtain ⟨m, go, value, conds, logs⟩ := exec_tempSample_warm hc hl hk h h' h0
    exact ⟨m, go, value, conds, log logs⟩
  · refine ⟨fun hp hw h0 => ?_, fun h hb' h0 => ?_⟩
    · obtain ⟨hn, lane⟩ := scrubCe_range r idx
      have go := fun i => exec_patrolScrub_corrected hl hb he i (by simp [CwErr.lost, hp]; omega)
      obtain ⟨logs, kept⟩ := State.report_logged (s := { s with errs := s.errs.erase e }) hl hn lane (State.errs_canon hc _) h0
      obtain ⟨logs', kept'⟩ := State.report_logged hl hn lane hc h0
      exact ⟨⟨_, go false, kept.errs, log (logs.before (s.errs_sameLog _))⟩, ⟨_, go true, kept'.errs, log logs'⟩⟩
    · obtain ⟨hn, lane⟩ := scrubUe_range r idx
      obtain ⟨logs, kept⟩ := State.report_logged hl hn lane hc h0
      exact ⟨_, exec_patrolScrub_lost hl hb he false (by simpa [CwErr.lost] using h) (s.faultEffect_bare _ hb'.1), kept.errs, log logs⟩

end Sys2Proof.Machine
end

section
/-! PROOFS. Status bits raised under R653 and 64-bit counters (R664): every bit, SEQ, and what other registers read. -/

namespace Sys2Proof.Machine

variable {s : State}

/-! ## Registers as words -/

/-- A bit of a register is that bit of its word. -/
theorem State.rb_eq_getLsbD (s : State) (o k : Nat) : s.rb o k = (s.reg o).getLsbD k := by
  rw [State.rb, State.rn, bitOn_eq_testBit, BitVec.testBit_toNat]

theorem State.rb_congr {u : State} {o : Nat} (h : u.reg o = s.reg o) (k : Nat) : u.rb o k = s.rb o k := by
  rw [State.rb_eq_getLsbD, State.rb_eq_getLsbD, h]

/-- The highest byte of a register, where a status register has SEQ (R653). -/
theorem State.rf_seq (s : State) (o : Nat) : s.rf o 24 8 = (s.reg o).toNat / 2 ^ 24 := by
  have := (s.reg o).isLt
  rw [State.rf, State.rn, bits]
  omega

/-! ## Status bits (R653) -/

/-- A status word in which the bits of `m` rise: SEQ, its highest byte, advances. -/
def raised (v m : Word) : Word := ((v ||| m) &&& (0xFFFFFF : Word)) ||| ((v >>> 24) + 1) <<< 24

/-- The bits of a status register that a number names. -/
def statusBits (mask : Nat) : Word := BitVec.ofNat 32 (mask % 2 ^ 24)

theorem State.setStatus_eq (s : State) (o mask : Nat) : s.setStatus o mask =
    if statusBits mask &&& ~~~s.reg o = 0 then s else s.setReg o (raised (s.reg o) (statusBits mask)) := rfl

theorem getLsbD_statusBits (mask k : Nat) : (statusBits mask).getLsbD k = (decide (k < 24) && bitOn mask k) := by
  rw [statusBits, BitVec.getLsbD_ofNat, Nat.testBit_mod_two_pow, bitOn_eq_testBit]
  by_cases hk : k < 24
  · simp [hk, show k < 32 by omega]
  · simp [hk]

theorem getLsbD_raised (v m : Word) {k : Nat} (hk : k < 24) : (raised v m).getLsbD k = (v.getLsbD k || m.getLsbD k) := by
  have low : (0xFFFFFF : Word).getLsbD k = true := (by decide : ∀ k < 24, (0xFFFFFF : Word).getLsbD k = true) k hk
  rw [raised, BitVec.getLsbD_or, BitVec.getLsbD_and, BitVec.getLsbD_or, low, Bool.and_true, BitVec.getLsbD_shiftLeft, decide_eq_true hk,
    Bool.not_true, Bool.and_false, Bool.false_and, Bool.or_false]

theorem raised_seq (v m : Word) : (raised v m).toNat / 2 ^ 24 = (v.toNat / 2 ^ 24 + 1) % 256 := by
  have low : ((v ||| m) &&& (0xFFFFFF : Word)).toNat / 2 ^ 24 = 0 :=
    Nat.div_eq_of_lt (Nat.lt_of_le_of_lt (BitVec.toNat_and .. ▸ Nat.and_le_right) (by decide))
  have high : (((v >>> 24) + 1) <<< 24).toNat / 2 ^ 24 = (v.toNat / 2 ^ 24 + 1) % 256 := by
    rw [BitVec.toNat_shiftLeft, BitVec.toNat_add, BitVec.toNat_ushiftRight, Nat.shiftLeft_eq, Nat.shiftRight_eq_div_pow]
    change (_ + 1) % _ * _ % _ / _ = _
    omega
  rw [raised, BitVec.toNat_or, ← Nat.shiftRight_eq_div_pow, Nat.shiftRight_or_distrib, Nat.shiftRight_eq_div_pow, Nat.shiftRight_eq_div_pow,
    low, high, Nat.zero_or]

/-- No bit of a status register rises where every bit named is set. -/
theorem noneRises_iff (v : Word) (mask : Nat) :
    statusBits mask &&& ~~~v = 0 ↔ ((List.range 24).any fun k => bitOn mask k && !v.getLsbD k) = false := by
  have bit : ∀ k, (statusBits mask &&& ~~~v).getLsbD k = (decide (k < 24) && (bitOn mask k && !v.getLsbD k)) := fun k => by
    rw [BitVec.getLsbD_and, getLsbD_statusBits, BitVec.getLsbD_not]
    by_cases hk : k < 24
    · simp [hk, show k < 32 by omega]
    · simp [hk]
  rw [List.any_eq_false]
  constructor
  · intro h k hk
    have none := bit k
    rw [h, decide_eq_true (List.mem_range.mp hk), Bool.true_and] at none
    exact Bool.eq_false_iff.mp (none.symm.trans BitVec.getLsbD_zero)
  · refine fun h => BitVec.eq_of_getLsbD_eq fun k _ => ((bit k).trans ?_).trans BitVec.getLsbD_zero.symm
    by_cases hk : k < 24
    · rw [Bool.eq_false_of_not_eq_true (h k (List.mem_range.mpr hk)), Bool.and_false]
    · rw [decide_eq_false hk, Bool.false_and]

theorem State.reg_setStatus_ne (s : State) {o p : Nat} (h : p ≠ o) (mask : Nat) : (s.setStatus o mask).reg p = s.reg p := by
  rw [State.setStatus_eq]
  split
  · rfl
  · exact s.reg_setReg_ne _ h

section Status

variable (hw : SMap.wf regReset s.regs = true) (o mask : Nat)
include hw

/-- Status bits rise where they are named, and none falls. -/
theorem State.rb_setStatus {k : Nat} (hk : k < 24) : (s.setStatus o mask).rb o k = (s.rb o k || bitOn mask k) := by
  rw [State.rb_eq_getLsbD, State.rb_eq_getLsbD, State.setStatus_eq]
  split
  · next h =>
    have none := List.any_eq_false.mp ((noneRises_iff _ mask).mp h) k (List.mem_range.mpr hk)
    cases hv : (s.reg o).getLsbD k <;> simp_all
  · rw [State.reg_setReg hw, getLsbD_raised _ _ hk, getLsbD_statusBits, decide_eq_true hk, Bool.true_and]

/-- SEQ advances where a bit rises. -/
theorem State.seq_setStatus : (s.setStatus o mask).rf o 24 8 =
    if (List.range 24).any fun k => bitOn mask k && !s.rb o k then (s.rf o 24 8 + 1) % 256 else s.rf o 24 8 := by
  simp only [State.rb_eq_getLsbD, State.rf_seq]
  rw [State.setStatus_eq]
  by_cases h : statusBits mask &&& ~~~s.reg o = 0
  · rw [if_pos h, (noneRises_iff _ _).mp h]
    rfl
  · rw [if_neg h, if_pos (Bool.eq_true_of_not_eq_false fun e => h ((noneRises_iff _ _).mpr e)), State.reg_setReg hw, raised_seq]

end Status

/-! ## Counters (R664) -/

/-- A counter that advances wraps modulo 2^64. -/
theorem State.count64_bump (hw : SMap.wf regReset s.regs = true) (o n : Nat) : (s.bump o n).count64 o = (s.count64 o + n) % 2 ^ 64 := by
  have wrap : s.bump o n = s.set64 o ((s.count64 o + n) % 2 ^ 64) := by
    have lo : BitVec.ofNat 32 ((s.count64 o + n) % 2 ^ 64) = BitVec.ofNat 32 (s.count64 o + n) :=
      BitVec.eq_of_toNat_eq (by rw [BitVec.toNat_ofNat, BitVec.toNat_ofNat, Nat.mod_mod_of_dvd _ (by decide)])
    have hi : BitVec.ofNat 32 ((s.count64 o + n) % 2 ^ 64 / 2 ^ 32) = BitVec.ofNat 32 ((s.count64 o + n) / 2 ^ 32) :=
      BitVec.eq_of_toNat_eq (by rw [BitVec.toNat_ofNat, BitVec.toNat_ofNat]; omega)
    rw [State.bump, State.set64, State.set64, lo, hi]
  rw [wrap, State.count64_set64 hw o (Nat.mod_lt _ (by decide))]

/-- The state after an event that a status bit and a counter record. -/
def State.counted (s : State) (o k c : Nat) : State := (s.setBit o k).bump c

section Counted

variable {o k c : Nat}

theorem State.counted_canon (hc : s.Canon) : (s.counted o k c).Canon := (State.bump_keeps (κ := {}) _ _ _ (State.setBit_keeps _ _ _ .rfl)).canon hc

/-- Every other register is as before. -/
theorem State.reg_counted_ne (s : State) {p : Nat} (h : p ≠ o) (h₁ : p ≠ c) (h₂ : p ≠ c + 4) : (s.counted o k c).reg p = s.reg p :=
  (State.reg_bump_ne _ h₁ h₂ 1).trans (s.reg_setBit_ne h k)

theorem State.rb_counted (hc : s.Canon) (hk : k < 24) (h₁ : o ≠ c) (h₂ : o ≠ c + 4) : (s.counted o k c).rb o k = true :=
  (State.rb_congr (State.reg_bump_ne _ h₁ h₂ 1) k).trans (State.rb_setBit hc o hk)

theorem State.count64_counted (hc : s.Canon) (h₁ : c ≠ o) (h₂ : c + 4 ≠ o) : (s.counted o k c).count64 c = (s.count64 c + 1) % 2 ^ 64 := by
  have hw := ((State.setBit_keeps s o k (.rfl (κ := {}))).canon hc).regs
  rw [State.counted, State.count64_bump hw, State.count64_congr (s.reg_setBit_ne h₁ k) (s.reg_setBit_ne h₂ k)]

end Counted

end Sys2Proof.Machine
end

section
/-! PROOFS. A write on the register bus (R499, R501, R521, R650, R652, R657): what a requester's write of a register that its access types
alone govern replaces, and what a request does that is discarded, has another form, or does not reach its register. -/

namespace Sys2Proof.Machine

variable {s : State} {who : Req} {off : Nat} {v : Word}

/-! ## A register that its access types govern -/

/-- The groups of GLB_UPDATE are bits 0 to 15 (R661). -/
theorem updGroup_lt {k g : Nat} (h : updGroup k = some g) : g < 16 := by
  unfold updGroup at h
  by_cases hk : 0x400000 ≤ k ∧ k < 0x404000
  · rw [if_pos hk, Option.some_inj] at h
    omega
  · rw [if_neg hk] at h
    repeat' split at h
    all_goals cases h
    all_goals decide

/-- A register of a group is none of GLB_, where the pending groups and the counters are (R661). -/
theorem updGroup_ge {k g : Nat} (h : updGroup k = some g) : 0x40000 ≤ k := by
  by_contra hk
  unfold updGroup at h
  repeat rw [if_neg (by omega)] at h
  cases h

/-- The bits whose write waits for a strobe (R657). -/
def RegRow.strobed (r : RegRow) (adm : Bool) : Word := r.mask fun f => (adm || !f.g) && decide (f.acc = .rwu)

/-- The state once a register's group is pending, if some bit of it waits for the strobe. -/
def State.strobePending (s : State) (off : Nat) (u : Word) : State :=
  if u = 0 then s else match updGroup off with
    | some g => s.wb 0x14 g true
    | none => s

/-- GLB_PENDING apart, no register changes; the group joins those that are pending. -/
theorem State.strobePending_reads (hw : SMap.wf regReset s.regs = true) (off : Nat) (u : Word) :
    (∀ k, k ≠ 0x14 ∨ updGroup off = none → (s.strobePending off u).reg k = s.reg k) ∧
    ∀ g, updGroup off = some g → u ≠ 0 → (s.strobePending off u).rb 0x14 g = true := by
  unfold State.strobePending
  split
  · next h => exact ⟨fun _ _ => rfl, fun _ _ hu => absurd h hu⟩
  split
  · next g hg =>
    refine ⟨fun k hk => State.reg_wf_ne s _ _ _ (hk.resolve_right (by simp [hg])), fun g' hg' _ => ?_⟩
    cases hg.symm.trans hg'
    exact State.rb_wb hw _ _ true (Nat.lt_trans (updGroup_lt hg) (by decide))
  · next hg => exact ⟨fun _ _ => rfl, fun _ hg' => absurd (hg.symm.trans hg') (by simp)⟩

section SoftWrite

variable {r : RegRow} (hr : regAt off = some r) (hq : ¬ (0x800000 ≤ off ∧ off < 0x1000000))
include hr hq

/-- Outside the queues a plain write replaces the bits that the register's access types and its requester allow (R652). -/
theorem State.softWrite_regs (s : State) (who : Req) (v : Word) : (s.softWrite who off v).regs =
    ((s.setReg off ((s.reg off &&& ~~~r.writable (reqAdm who) v) ||| (v &&& r.writable (reqAdm who) v))).strobePending off
      (r.strobed (reqAdm who))).regs := by
  unfold State.softWrite
  rw [hr]
  dsimp -zeta only
  extract_lets m s₁ u s₂ s₃
  rw [if_neg hq]
  unfold s₃
  split <;> rfl

/-- The registers after it: its own, the others, and GLB_PENDING (R657). -/
theorem State.softWrite_reads (hw : SMap.wf regReset s.regs = true) :
    let m := s.softWrite who off v
    let w := r.writable (reqAdm who) v
    m.reg off = (s.reg off &&& ~~~w) ||| (v &&& w) ∧ (∀ k, k ≠ off → k ≠ 0x14 → m.reg k = s.reg k) ∧
    ∀ g, updGroup off = some g → r.strobed (reqAdm who) ≠ 0 → m.rb 0x14 g = true := by
  intro m w
  let t := s.setReg off ((s.reg off &&& ~~~w) ||| (v &&& w))
  obtain ⟨others, pending⟩ := State.strobePending_reads (s := t) (State.regs_setReg_wf hw ..) off (r.strobed (reqAdm who))
  have get (k : Nat) : m.reg k = (t.strobePending off (r.strobed (reqAdm who))).reg k :=
    congrArg (SMap.get regReset · k) (State.softWrite_regs hr hq s who v)
  have own : off ≠ 0x14 ∨ updGroup off = none := by
    by_cases h : off = 0x14
    · exact .inr (by rw [h]; decide)
    · exact .inl h
  exact ⟨(get off).trans ((others off own).trans (State.reg_setReg hw ..)),
    fun k hk h14 => (get k).trans ((others k (.inl h14)).trans (s.reg_setReg_ne _ hk)),
    fun g hg hu => (State.rb_congr (get 0x14) g).trans (pending g hg hu)⟩

end SoftWrite

/-- Every register of a queue acts by more than its access types (R40). -/
theorem not_queue_of_openWrite_none (h : s.openWrite who off v = none) : ¬ (0x800000 ≤ off ∧ off < 0x1000000) := by
  intro hq
  unfold State.openWrite at h
  rw [if_pos hq] at h
  split at h <;> cases h

/-- Where nothing acts by more than the access types, a write is the plain one. -/
theorem State.busWrite_plain {r : RegRow} (hm : ¬ (0x108000 ≤ off ∧ off < 0x110000)) (hr : regAt off = some r) (hd : s.deaf who off = false)
    (h68 : off ≠ 0x40068) (ho : s.openWrite who off v = none) (hg : reqAdm who = true → s.guardedWrite off v = none) :
    s.busWrite who off v = s.softWrite who off v := by
  have guarded : (if reqAdm who then s.guardedWrite off v else none) = none := by
    split
    · exact hg ‹_›
    · rfl
  unfold State.busWrite
  rw [if_neg hm, hr, hd, if_neg (by simp)]
  simp only [ho, guarded, if_neg h68]

/-! ## Requests (R499, R501, R521) -/

section Requests

variable (s who off v)

theorem State.discards_dword : s.discards who .dword = none := by cases who <;> rfl

theorem State.discards_other : s.discards who .other = none := by cases who <;> rfl

/-- Without ECRC checking a request is taken whatever its ECRC. -/
theorem State.discards_badEcrc {f : Nat} (h : (s.fnc f).ecrcChk = false) : s.discards (.fn f) .badEcrc = none := by
  rw [State.discards, h]
  rfl

/-- A request of another form than one aligned doubleword counts as a bad access. -/
theorem State.regWrite_other {off : Nat} (h : off < 0x1000000) : s.regWrite who off false v = .next s.badAcc.finish := by
  unfold State.regWrite
  rw [if_neg (by omega), if_pos (by simp), if_pos h]
  rfl

end Requests

section Aligned

variable (hoff : off < 0x1000000 ∨ 0x3000000 ≤ off) (ha : off % 4 = 0)
include hoff ha

theorem State.regWrite_reached (hr : s.reaches who off = true) : s.regWrite who off true v = .next (s.busWrite who off v).finish := by
  unfold State.regWrite
  rw [if_neg (by omega), if_neg (by simp [ha]), if_pos (.inr hr)]
  rfl

theorem State.regWrite_unreached (hm : ¬ (0x108000 ≤ off ∧ off < 0x110100)) (hr : s.reaches who off = false) :
    s.regWrite who off true v = .next s := by
  unfold State.regWrite
  rw [if_neg (by omega), if_neg (by simp [ha]), if_neg (by simp [hm, hr])]

end Aligned

/-- REGISTER_WRITE of a request that the port takes. -/
theorem exec_registerWrite_taken (hs : s.serves_ who = true) {form : ReqForm} (hd : s.discards who form = none) :
    exec (.registerWrite who off form v) s = s.regWrite who off (reqFull form) v := by
  change execRegisterWrite who off form v s = _
  rw [execRegisterWrite, hs, if_neg (by simp), hd]

/-- REGISTER_WRITE of a request that the port discards (R521). -/
theorem exec_registerWrite_discarded (hs : s.serves_ who = true) {form : ReqForm} {t : State} (hd : s.discards who form = some t) :
    exec (.registerWrite who off form v) s = .next t.finish := by
  change execRegisterWrite who off form v s = _
  rw [execRegisterWrite, hs, if_neg (by simp), hd]
  rfl

/-- The record of a request that is discarded: a bit of HP_STATUS and a counter of HP_CNT, no register below them. -/
theorem State.port_counted (hc : s.Canon) {k n : Nat} (hk : k < 24) :
    let m := s.counted 0x100008 k (cnt 0x100040 n)
    m.rb 0x100008 k = true ∧ m.count64 (cnt 0x100040 n) = (s.count64 (cnt 0x100040 n) + 1) % 2 ^ 64 ∧
    ∀ j, j < 0x100008 → m.reg j = s.reg j := by
  have apart : 0x100040 ≤ cnt 0x100040 n := Nat.le_add_right ..
  exact ⟨State.rb_counted hc hk (by omega) (by omega), State.count64_counted hc (by omega) (by omega),
    fun j hj => s.reg_counted_ne (by omega) (by omega) (by omega)⟩

/-- The error status of the function has the error (R521). -/
theorem State.aer_bit (hc : s.Canon) (f : Nat) {k : Nat} (hk : k < 8) : ((s.aer f k).fnc f).aer.getLsbD k = true := by
  have bit : ((1 : Byte) <<< k).getLsbD k = true := (by decide : ∀ k < 8, ((1 : Byte) <<< k).getLsbD k = true) k hk
  rw [State.aer, State.modFnc_eq, State.fnc_setFnc s hc, BitVec.getLsbD_or, bit, Bool.or_true]

end Sys2Proof.Machine
end

section
/-! PROOFS. Clears by sequence (R655): a write with the current SEQ clears the bits it names, one with another SEQ is counted and clears
none, and bits that hardware sets in the same cycle rise. -/

namespace Sys2Proof.Machine

variable {s : State} {who : Req} {off : Nat} {v : Word}

/-! ## Bits gathered in a number -/

/-- The number whose bits below `n` are those of a test. -/
def gather (p : Nat → Bool) (n : Nat) : Nat := (List.range n).foldl (fun a j => if p j then a + 2 ^ j else a) 0

theorem gather_succ (p : Nat → Bool) (n : Nat) : gather p (n + 1) = if p n then gather p n + 2 ^ n else gather p n := by
  rw [gather, List.range_succ, List.foldl_append]
  rfl

theorem gather_lt (p : Nat → Bool) (n : Nat) : gather p n < 2 ^ n := by
  induction n with
  | zero => exact Nat.one_pos
  | succ n ih =>
    rw [gather_succ, Nat.pow_succ]
    split <;> omega

theorem bitOn_gather (p : Nat → Bool) {n k : Nat} (hk : k < n) : bitOn (gather p n) k = p k := by
  rw [bitOn_eq_testBit]
  induction n with
  | zero => cases hk
  | succ n ih =>
    have top : (gather p n + 2 ^ n).testBit n = true := by
      rw [Nat.add_comm, Nat.testBit_two_pow_add_eq, Nat.testBit_lt_two_pow (gather_lt p n)]
      rfl
    rw [gather_succ]
    rcases Nat.lt_succ_iff_lt_or_eq.mp hk with h | rfl
    · split
      · rw [Nat.add_comm, Nat.testBit_two_pow_add_gt h, ih h]
      · exact ih h
    · split
      · next hp => rw [top, hp]
      · next hp => rw [Nat.testBit_lt_two_pow (gather_lt p k), Bool.eq_false_of_not_eq_true hp]

theorem gather_eq_zero_iff (p : Nat → Bool) (n : Nat) : gather p n = 0 ↔ ∀ k < n, p k = false := by
  constructor
  · intro h k hk
    rw [← bitOn_gather p hk, h, bitOn_eq_testBit, Nat.zero_testBit]
  · intro h
    refine Nat.eq_of_testBit_eq fun k => ?_
    rw [Nat.zero_testBit]
    by_cases hk : k < n
    · rw [← bitOn_eq_testBit, bitOn_gather p hk, h k hk]
    · exact Nat.testBit_lt_two_pow (Nat.lt_of_lt_of_le (gather_lt p n) (Nat.pow_le_pow_right (by decide) (Nat.not_lt.mp hk)))

/-! ## Status registers -/

theorem rcsMask_lt (off : Nat) : rcsMask off < 2 ^ 24 := by
  unfold rcsMask
  split
  · exact Nat.mod_lt _ (by decide)
  · decide

/-- GLB_STATUS apart, a status register is none of those that count what clears meet. -/
theorem rcs_apart (h : isRcs off = true) : off ≠ cnt 0x40 0 ∧ off ≠ cnt 0x40 0 + 4 ∧ off ≠ cnt 0x40 1 ∧ off ≠ cnt 0x40 1 + 4 := by
  refine ⟨?_, ?_, ?_, ?_⟩ <;> rintro rfl <;> exact absurd h (by decide)

/-- The bits that hardware sets in the cycle of a clear: those that the register has. -/
def hwBits (off hw : Nat) : Nat := gather (fun j => bitOn hw j && bitOn (rcsMask off) j) 24

/-- The state after the check of SEQ. -/
def State.seqChecked (s : State) (off : Nat) (v : Word) : State :=
  if v.toNat / 2 ^ 24 = s.rf off 24 8 then s else s.counted 0x18 0 (cnt 0x40 1)

/-- The branches of a clear. -/
theorem State.rcsWrite_eq (s : State) (off : Nat) (v : Word) (hw : Nat) : s.rcsWrite off v hw =
    if hwBits off hw ≠ 0 then ((s.seqChecked off v).counted 0x18 1 (cnt 0x40 0)).hwSet off (hwBits off hw)
    else if v.toNat / 2 ^ 24 = s.rf off 24 8 then s.setReg off (s.reg off &&& ~~~(v &&& BitVec.ofNat 32 (rcsMask off)))
    else s.counted 0x18 0 (cnt 0x40 1) := by
  unfold State.rcsWrite State.seqChecked
  by_cases hv : v.toNat / 2 ^ 24 = s.rf off 24 8
  · have fresh : decide (v.toNat / 2 ^ 24 ≠ s.rf off 24 8) = false := decide_eq_false (not_not_intro hv)
    rw [if_pos hv, if_pos hv, fresh]
    rfl
  · have stale : decide (v.toNat / 2 ^ 24 ≠ s.rf off 24 8) = true := decide_eq_true hv
    rw [if_neg hv, if_neg hv, stale]
    rfl

/-! ## What a clear leaves -/

/-- A clear with the current SEQ: SEQ stays, and of the register's status bits those named fall. -/
theorem State.cleared_reads (hc : s.Canon) (off : Nat) (v : Word) :
    let m := s.setReg off (s.reg off &&& ~~~(v &&& BitVec.ofNat 32 (rcsMask off)))
    m.rf off 24 8 = s.rf off 24 8 ∧
    ∀ k, k < 24 → bitOn (rcsMask off) k = true → m.rb off k = (s.rb off k && !v.getLsbD k) := by
  intro m
  have word : m.reg off = s.reg off &&& ~~~(v &&& BitVec.ofNat 32 (rcsMask off)) := State.reg_setReg hc.regs ..
  refine ⟨?_, fun k hk hm => ?_⟩
  · rw [State.rf, State.rf, State.rn, State.rn, word]
    refine Nat.eq_of_testBit_eq fun i => ?_
    have high : (rcsMask off).testBit (i + 24) = false :=
      Nat.testBit_lt_two_pow (Nat.lt_of_lt_of_le (rcsMask_lt off) (Nat.pow_le_pow_right (by decide) (Nat.le_add_left ..)))
    simp only [bits, Nat.testBit_mod_two_pow, Nat.testBit_div_two_pow, BitVec.testBit_toNat, BitVec.getLsbD_and, BitVec.getLsbD_not,
      BitVec.getLsbD_ofNat, high]
    by_cases hi : i < 8
    · simp [hi, show i + 24 < 32 by omega]
    · simp [hi]
  · have low : (BitVec.ofNat 32 (rcsMask off)).getLsbD k = true := by
      rw [BitVec.getLsbD_ofNat, decide_eq_true (by omega), ← bitOn_eq_testBit, hm]
      rfl
    rw [State.rb_eq_getLsbD, State.rb_eq_getLsbD, word, BitVec.getLsbD_and, BitVec.getLsbD_not, BitVec.getLsbD_and, low, Bool.and_true,
      decide_eq_true (by omega), Bool.true_and]

section Clear

variable (hc : s.Canon) (hr : isRcs off = true) (h18 : off ≠ 0x18)
include hc hr h18

/-- A clear with another SEQ clears nothing, and is counted. -/
theorem State.stale_reads :
    let m := s.counted 0x18 0 (cnt 0x40 1)
    m.reg off = s.reg off ∧ m.rb 0x18 0 = true ∧ m.count64 (cnt 0x40 1) = (s.count64 (cnt 0x40 1) + 1) % 2 ^ 64 := by
  obtain ⟨-, -, lo, hi⟩ := rcs_apart hr
  exact ⟨s.reg_counted_ne h18 lo hi, State.rb_counted hc (by decide) (by decide) (by decide),
    State.count64_counted hc (by decide) (by decide)⟩

/-- A clear of which hardware sets bits in the same cycle: no status bit falls, those rise, and the meeting is counted. -/
theorem State.met_reads (b : Nat) :
    let m := ((s.seqChecked off v).counted 0x18 1 (cnt 0x40 0)).setStatus off b
    m.rb 0x18 1 = true ∧ m.count64 (cnt 0x40 0) = (s.count64 (cnt 0x40 0) + 1) % 2 ^ 64 ∧
    ∀ k, k < 24 → m.rb off k = (s.rb off k || bitOn b k) := by
  intro m
  obtain ⟨c0, c0', c1, c1'⟩ := rcs_apart hr
  have before : (s.seqChecked off v).Canon ∧
      ∀ p, p ≠ 0x18 → p ≠ cnt 0x40 1 → p ≠ cnt 0x40 1 + 4 → (s.seqChecked off v).reg p = s.reg p := by
    unfold State.seqChecked
    split
    · exact ⟨hc, fun _ _ _ _ => rfl⟩
    · exact ⟨State.counted_canon hc, fun _ => s.reg_counted_ne⟩
  obtain ⟨canon, same⟩ := before
  have own : ((s.seqChecked off v).counted 0x18 1 (cnt 0x40 0)).reg off = s.reg off :=
    (State.reg_counted_ne _ h18 c0 c0').trans (same _ h18 c1 c1')
  refine ⟨?_, ?_, fun k hk => ?_⟩
  · rw [State.rb_congr (State.reg_setStatus_ne _ h18.symm b)]
    exact State.rb_counted canon (by decide) (by decide) (by decide)
  · rw [State.count64_congr (State.reg_setStatus_ne _ c0.symm b) (State.reg_setStatus_ne _ c0'.symm b),
      State.count64_counted canon (by decide) (by decide)]
    rw [State.count64_congr (same _ (by decide) (by decide) (by decide)) (same _ (by decide) (by decide) (by decide))]
  · rw [State.rb_setStatus (State.counted_canon canon).regs off b hk, State.rb_congr own]

end Clear

/-! ## The command -/

/-- RCS_CLEAR by a requester that reaches the register. -/
theorem exec_rcsClear (hr : isRcs off = true) (hs : s.serves_ who = true) (ha : s.reaches who off = true) (hw : BitVec 24) :
    exec (.rcsClear who off v hw) s = .next (s.rcsWrite off v hw.toNat).finish := by
  change execRcsClear who off v hw s = _
  rw [execRcsClear, hr, if_neg (by simp), regGo, hs, ha, if_neg (by simp), if_pos rfl]
  rfl

/-- The bits of the register that hardware sets. -/
theorem bitOn_hwBits (off : Nat) (hw : BitVec 24) {k : Nat} (hk : k < 24) :
    bitOn (hwBits off hw.toNat) k = (hw.getLsbD k && bitOn (rcsMask off) k) := by
  rw [hwBits, bitOn_gather _ hk, bitOn_eq_testBit hw.toNat, BitVec.testBit_toNat]

theorem hwBits_eq_zero {hw : BitVec 24} (h : ∀ k, ¬ (hw.getLsbD k = true ∧ bitOn (rcsMask off) k = true)) : hwBits off hw.toNat = 0 := by
  refine (gather_eq_zero_iff _ _).mpr fun k _ => Bool.eq_false_of_not_eq_true fun hk => h k ?_
  rwa [bitOn_eq_testBit hw.toNat, BitVec.testBit_toNat, Bool.and_eq_true] at hk

theorem hwBits_ne_zero {hw : BitVec 24} (h : ∃ k, hw.getLsbD k = true ∧ bitOn (rcsMask off) k = true) : hwBits off hw.toNat ≠ 0 := by
  obtain ⟨k, hk, hm⟩ := h
  intro h0
  have bit := (gather_eq_zero_iff _ _).mp h0 k (BitVec.lt_of_getLsbD hk)
  rw [bitOn_eq_testBit hw.toNat, BitVec.testBit_toNat, hk, hm] at bit
  cases bit

end Sys2Proof.Machine
end

section
/-! PROOFS. GLB_UPDATE (R659, R660): a strobe gives the applied values of the groups it names their registers' bits, and ends their waiting. -/

namespace Sys2Proof.Machine

variable {s : State} {r : RegRow} {g k : Nat}

/-- The bits of a register that a strobe applies (R657). -/
def RegRow.buffered (r : RegRow) : Word := r.mask fun f => decide (f.acc = .rwu)

/-- An applied value of a group after a strobe of `groups`, where the register reads `w`. -/
def RegRow.apply (r : RegRow) (groups g : Nat) (a w : Word) : Word :=
  if bitOn groups g then (a &&& ~~~r.buffered) ||| (w &&& r.buffered) else a

theorem RegRow.apply_self (r : RegRow) (groups g : Nat) (a : Word) : r.apply groups g a a = a := by
  unfold RegRow.apply
  split
  · refine BitVec.eq_of_getLsbD_eq fun i hi => ?_
    simp only [BitVec.getLsbD_or, BitVec.getLsbD_and, BitVec.getLsbD_not, hi, decide_true, Bool.true_and]
    cases a.getLsbD i <;> cases r.buffered.getLsbD i <;> rfl
  · rfl

theorem RegRow.apply_apply (r : RegRow) (groups g : Nat) (a w : Word) : r.apply groups g (r.apply groups g a w) w = r.apply groups g a w := by
  unfold RegRow.apply
  split
  · refine BitVec.eq_of_getLsbD_eq fun i hi => ?_
    simp only [BitVec.getLsbD_or, BitVec.getLsbD_and, BitVec.getLsbD_not, hi, decide_true, Bool.true_and]
    cases r.buffered.getLsbD i <;> simp
  · rfl

/-- The strobe at one register. -/
def State.applyAt (groups : Nat) (s : State) (k : Nat) : State :=
  match updGroup k with
  | some g =>
    if bitOn groups g then
      match regAt k with
      | some r => s.setApp k ((s.appReg k &&& ~~~r.buffered) ||| (s.reg k &&& r.buffered))
      | none => s
    else s
  | none => s

/-- The strobe is one at each register that does not read its reset value, and GLB_PENDING. -/
theorem State.applyGroups_eq (s : State) (groups : Nat) : s.applyGroups groups =
    let u := (s.regs.keys ++ s.applied.keys).foldl (State.applyAt groups) s
    u.setReg 0x14 (u.reg 0x14 &&& ~~~(BitVec.ofNat 32 (groups % 65536))) := rfl

/-- The strobe at a register replaces its applied value, or changes nothing. -/
theorem State.applyAt_cases (groups : Nat) (s : State) (k : Nat) : s.applyAt groups k = s ∨ ∃ w, s.applyAt groups k = s.setApp k w := by
  unfold State.applyAt
  split
  · split
    · split
      · exact .inr ⟨_, rfl⟩
      · exact .inl rfl
    · exact .inl rfl
  · exact .inl rfl

theorem State.regs_applyAt (groups : Nat) (s : State) (k : Nat) : (s.applyAt groups k).regs = s.regs := by
  rcases State.applyAt_cases groups s k with h | ⟨w, h⟩ <;> rw [h]
  rfl

theorem State.applied_applyAt_wf (groups : Nat) (hw : SMap.wf regReset s.applied = true) (k : Nat) :
    SMap.wf regReset (s.applyAt groups k).applied = true := by
  rcases State.applyAt_cases groups s k with h | ⟨w, h⟩ <;> rw [h]
  · exact hw
  · exact SMap.set_wf _ _ hw

theorem State.appReg_applyAt_ne (groups : Nat) (s : State) {j : Nat} (h : k ≠ j) : (s.applyAt groups j).appReg k = s.appReg k := by
  rcases State.applyAt_cases groups s j with e | ⟨w, e⟩ <;> rw [e]
  exact SMap.get_set_ne _ _ h

section Strobe

variable (hg : updGroup k = some g) (hr : regAt k = some r)
include hg hr

theorem State.appReg_applyAt (groups : Nat) (hw : SMap.wf regReset s.applied = true) :
    (s.applyAt groups k).appReg k = r.apply groups g (s.appReg k) (s.reg k) := by
  unfold State.applyAt RegRow.apply
  simp only [hg, hr]
  split
  · exact SMap.get_set_same _ _ hw
  · rfl

/-- A list of registers. -/
theorem State.appReg_foldl_applyAt (groups : Nat) (l : List Nat) (hw : SMap.wf regReset s.applied = true) :
    (l.foldl (State.applyAt groups) s).appReg k = if k ∈ l then r.apply groups g (s.appReg k) (s.reg k) else s.appReg k := by
  induction l generalizing s with
  | nil => rfl
  | cons j l ih =>
    have same : (s.applyAt groups j).reg k = s.reg k := congrArg (SMap.get regReset · k) (State.regs_applyAt groups s j)
    rw [List.foldl_cons, ih (State.applied_applyAt_wf groups hw j), same]
    by_cases h : k = j
    · subst h
      rw [State.appReg_applyAt hg hr groups hw, r.apply_apply, ite_self, if_pos List.mem_cons_self]
    · rw [State.appReg_applyAt_ne groups s h]
      simp [h]

/-- The applied value of a register of a group after a strobe: a register that it does not pass reads its reset value in both. -/
theorem State.appReg_applyGroups (groups : Nat) (hw : SMap.wf regReset s.applied = true) :
    (s.applyGroups groups).appReg k = r.apply groups g (s.appReg k) (s.reg k) := by
  have fold := State.appReg_foldl_applyAt (s := s) hg hr groups (s.regs.keys ++ s.applied.keys) hw
  rw [State.applyGroups_eq]
  refine Eq.trans (b := ((s.regs.keys ++ s.applied.keys).foldl (State.applyAt groups) s).appReg k) rfl (fold.trans ?_)
  split
  · rfl
  · next h =>
    have reset {m : SMap Word} (hm : k ∉ m.keys) : SMap.get regReset m k = regReset k := by
      by_contra hne
      exact hm (List.mem_map_of_mem (f := Prod.fst) (SMap.mem_of_get_ne regReset m hne))
    rw [List.mem_append, not_or] at h
    rw [State.reg, State.appReg, reset h.1, reset h.2, r.apply_self]

end Strobe

/-- The registers after a strobe: the groups it names wait no more, nothing else changes. -/
theorem State.reg_applyGroups (hw : SMap.wf regReset s.regs = true) (groups : Nat) :
    (s.applyGroups groups).reg 0x14 = s.reg 0x14 &&& ~~~(BitVec.ofNat 32 (groups % 65536)) ∧
    ∀ p, p ≠ 0x14 → (s.applyGroups groups).reg p = s.reg p := by
  let u := (s.regs.keys ++ s.applied.keys).foldl (State.applyAt groups) s
  have regs : u.regs = s.regs :=
    List.foldlRecOn _ _ (motive := fun u : State => u.regs = s.regs) rfl fun u hu j _ => (State.regs_applyAt groups u j).trans hu
  have same (p : Nat) : u.reg p = s.reg p := congrArg (SMap.get regReset · p) regs
  rw [State.applyGroups_eq]
  exact ⟨(State.reg_setReg (by rw [regs]; exact hw) ..).trans (congrArg (· &&& _) (same 0x14)),
    fun p hp => (State.reg_setReg_ne _ _ hp).trans (same p)⟩

/-- A write of GLB_UPDATE that does not name the buffer memory's group is counted, and applies the groups it names (R659). -/
theorem State.updateWrite_eq (s : State) {v : Word} (h : v.getLsbD 8 = false) :
    s.updateWrite v = (s.bump (cnt 0x40 2)).applyGroups (v.toNat % 65536) := by
  unfold State.updateWrite
  rw [h]
  rfl

/-- The groups that a word names are its bits 0 to 15. -/
theorem bitOn_groups (v : Word) (hg : g < 16) : bitOn (v.toNat % 65536) g = v.getLsbD g := by
  rw [bitOn_eq_testBit, show 65536 = 2 ^ 16 from rfl, Nat.testBit_mod_two_pow, decide_eq_true hg, BitVec.testBit_toNat]
  rfl

/-- What it leaves in the applied values, in GLB_PENDING, and in its counter. -/
theorem State.updateWrite_reads (hc : s.Canon) {v : Word} (h8 : v.getLsbD 8 = false) :
    let m := s.updateWrite v
    (∀ k r g, updGroup k = some g → regAt k = some r →
      m.appReg k = if v.getLsbD g = true then (s.appReg k &&& ~~~r.buffered) ||| (s.reg k &&& r.buffered) else s.appReg k) ∧
    (∀ g, g < 16 → m.rb 0x14 g = (s.rb 0x14 g && !v.getLsbD g)) ∧
    m.count64 (cnt 0x40 2) = (s.count64 (cnt 0x40 2) + 1) % 2 ^ 64 := by
  let u := s.bump (cnt 0x40 2)
  have hu : u.Canon := (State.bump_keeps (κ := {}) _ _ _ .rfl).canon hc
  obtain ⟨pending, others⟩ := State.reg_applyGroups hu.regs (v.toNat % 65536)
  rw [State.updateWrite_eq s h8]
  refine ⟨fun k r g hg hr => ?_, fun g hg => ?_, ?_⟩
  · have := updGroup_ge hg
    have app : u.appReg k = s.appReg k := rfl
    rw [State.appReg_applyGroups hg hr _ hu.applied, app, s.reg_bump_ne (by unfold cnt; omega) (by unfold cnt; omega), RegRow.apply,
      bitOn_groups v (updGroup_lt hg)]
  · have named : (BitVec.ofNat 32 (v.toNat % 65536 % 65536)).getLsbD g = v.getLsbD g := by
      rw [Nat.mod_mod, BitVec.getLsbD_ofNat, decide_eq_true (by omega), ← bitOn_eq_testBit, bitOn_groups v hg]
      rfl
    rw [State.rb_eq_getLsbD, pending, BitVec.getLsbD_and, BitVec.getLsbD_not, named, decide_eq_true (by omega), Bool.true_and,
      ← State.rb_eq_getLsbD, State.rb_congr (s.reg_bump_ne (by decide) (by decide) 1)]
  · rw [State.count64_congr (others _ (by decide)) (others _ (by decide)), State.count64_bump hc.regs]

/-- GLB_UPDATE by a requester admitted to guarded fields. -/
theorem exec_glbUpdate {who : Req} (hs : s.serves_ who = true) (ha : reqAdm who = true) (v : Word) :
    exec (.glbUpdate who v) s = .next (s.updateWrite v).finish := by
  change execGlbUpdate who v s = _
  rw [execGlbUpdate, regGuarded, hs, ha, if_neg (by simp), if_pos rfl]
  rfl

end Sys2Proof.Machine
end

section
/-! PROOFS. Permissions and the Tillers' memories (R206, R508, R548): a word written reaches its register and both copies in the Seedbank;
a word of a drained Tiller's region is stored, and nothing else changes. -/

namespace Sys2Proof.Machine

variable {s : State}

/-! ## The Seedbank -/

/-- The state without what a crossing changes, and without the pair's state, which counts what it mirrors. -/
def State.unmirrored (s : State) : State := { s.still with pair := {} }

theorem State.unmirrored_of_still {s u : State} (h : u.still = s.still) : u.unmirrored = s.unmirrored :=
  congrArg (fun t : State => { t with pair := {} }) h

theorem State.pair_unmirrored (s : State) (p : Pair) : { s with pair := p }.unmirrored = s.unmirrored := rfl

theorem State.mirrorGo_unmirrored (copy : Bool) (n : Nat) (l : List (Nat × Bytes)) (s : State) :
    (State.mirrorGo copy n l s).unmirrored = s.unmirrored := by
  induction n generalizing s l with
  | zero => rfl
  | succ n ih =>
    cases l with
    | nil => rfl
    | cons b l =>
      rw [State.mirrorGo]
      extract_lets
      refine (ih _ _).trans ((State.unmirrored_of_still (State.setReg_still (o := 0x481014) _ (by decide) _)).trans
        ((State.unmirrored_of_still (State.bump_still (o := cnt 0x481040 1) _ (by decide) 1)).trans ?_))
      exact (State.pair_unmirrored _ _).trans (State.unmirrored_of_still (s.offer_still _))

/-- Bytes written to the Seedbank, and mirrored (R631). -/
theorem State.seedWr_unmirrored (s : State) (a : Nat) (b : Bytes) : (s.seedWr a b).unmirrored = { s with seed := s.seed.wrN a b }.unmirrored := by
  unfold State.seedWr
  extract_lets t
  have mirrored (l : List (Nat × Bytes)) : (t.mirror l).unmirrored = t.unmirrored := by
    unfold State.mirror
    split
    · exact State.mirrorGo_unmirrored ..
    · rfl
  split
  · exact mirrored _
  · rfl

/-- A write of less than a block, where no codeword error lies in the memories, is that of its bytes: an injection waits for a whole
block (R24, R680). -/
theorem State.seedPut_short (he : s.errs = []) (a : Nat) {b : Bytes} (hb : b.length < 64) : s.seedPut a b = s.seedWr a b := by
  unfold State.seedPut
  extract_lets lo hi t
  have clean : t = s.seedWr a b := State.cwStore_clean he ..
  have short : ¬ (lo < hi ∧ injRegion (64 * lo) = true) := fun h => absurd h.1 (by unfold lo hi; omega)
  rw [clean]
  simp only [if_neg short]
  split
  · split <;> rfl
  · rfl

/-- Two words written to the Seedbank, the second above the first, with the registers of low offset. -/
theorem State.seedPut_twice (hc : s.Canon) (he : s.errs = []) {a a' : Nat} {b b' : Bytes} (hb : b.length < 64) (hb' : b'.length < 64)
    (h : a + b.length ≤ a') :
    let m := (s.seedPut a b).seedPut a' b'
    (∀ p, p < 0x200000 → m.reg p = s.reg p) ∧ m.seed.rdN a b.length = b ∧ m.seed.rdN a' b'.length = b' := by
  intro m
  have first := s.seedWr_unmirrored a b
  rw [← State.seedPut_short he a hb] at first
  have errs : (s.seedPut a b).errs = [] := (congrArg State.errs first).trans he
  have seed : (s.seedPut a b).seed = s.seed.wrN a b := congrArg State.seed first
  have second := (s.seedPut a b).seedWr_unmirrored a' b'
  rw [← State.seedPut_short errs a' hb'] at second
  have seed' : m.seed = (s.seed.wrN a b).wrN a' b' := (congrArg State.seed second).trans (congrArg (Mem.wrN · a' b') seed)
  have below : m.regs.below 0x200000 = s.regs.below 0x200000 := (congrArg State.regs second).trans (congrArg State.regs first)
  refine ⟨fun q hq => ?_, ?_, ?_⟩
  · rw [State.reg, ← SMap.get_below_eq _ _ hq, below, SMap.get_below_eq _ _ hq, State.reg]
  · rw [seed', Mem.rdN_congr fun k _ hk => Mem.rd_wrN_out (s.seed.wrN a b) a' b' k (.inl (by omega)), Mem.rdN_wrN hc.seed]
  · rw [seed', Mem.rdN_wrN (Mem.wrN_wf a b hc.seed)]

/-- A word of the permission table written (R508). -/
theorem State.permWrite_reads (hc : s.Canon) (he : s.errs = []) {n k : Nat} (hn : n < 4096) (hk : k < 4) (v : Word) :
    let m := s.permWrite n k v
    m.reg (0x140000 + 16 * n + 4 * k) = v ∧ m.seed.rdN (0x3601000 + 16 * n + 4 * k) 4 = natLE 4 v.toNat ∧
    m.seed.rdN (0x3611000 + 16 * n + 4 * k) 4 = natLE 4 v.toNat := by
  unfold State.permWrite
  rw [if_neg (by omega)]
  intro m
  have canon : (s.setReg (0x140000 + 16 * n + 4 * k) v).Canon := (State.setReg_keeps (κ := {}) _ _ _ .rfl).canon hc
  have len : (natLE 4 v.toNat).length = 4 := natLE_length ..
  obtain ⟨regs, first, second⟩ := State.seedPut_twice canon he (a := 0x3601000 + 16 * n + 4 * k) (a' := 0x3601000 + 16 * n + 4 * k + 0x10000)
    (b := natLE 4 v.toNat) (b' := natLE 4 v.toNat) (by omega) (by omega) (by omega)
  rw [len] at first second
  refine ⟨(regs _ (by omega)).trans (State.reg_setReg hc.regs ..), first, ?_⟩
  rw [show 0x3611000 + 16 * n + 4 * k = 0x3601000 + 16 * n + 4 * k + 0x10000 by omega]
  exact second

/-- HP_PERM_WRITE by a requester admitted to guarded fields, on a device that is no standby (R646). -/
theorem exec_hpPermWrite {who : Req} (hb : s.standby = false) (hs : s.serves_ who = true) (ha : reqAdm who = true) (n k : Nat) (v : Word) :
    exec (.hpPermWrite who n k v) s = .next (s.permWrite n k v).finish := by
  change execHpPermWrite who n k v s = _
  rw [execHpPermWrite, hb, if_neg (by simp), regGuarded, hs, ha, if_neg (by simp), if_pos rfl]
  rfl

/-! ## The Tillers' regions -/

section Region

variable {off : Nat} {v : Word} (ho : off < 0x1000000) (hs : s.serves_ (.fn 0) = true) (ha : off % 4 = 0)
include ho hs ha

/-- TILLER_REGION_WRITE of an aligned doubleword, by whether the group is drained and the place reserved (R205, R206). -/
theorem exec_tillerRegionWrite : exec (.tillerRegionWrite (.fn 0) off .dword v) s =
    if !s.rb (0x600004 + 8 * (off / 0x200000)) 16 then .next (s.setBit 0x600040 0).finish
    else if teReserved (off % 0x40000) then .next s
    else .next (s.tmemPut off (natLE 4 v.toNat)).finish := by
  change execTillerRegionWrite (.fn 0) off .dword v s = _
  rw [execTillerRegionWrite, if_neg (by simpa using ho), hs, if_neg (by simp)]
  simp only [State.discards_dword]
  rw [State.regionWrite, if_neg (by simp [reqFull, ha])]
  rfl

end Region

theorem State.setBit_tmem (s : State) (o k : Nat) : (s.setBit o k).tmem = s.tmem := by
  unfold State.setBit State.setStatus
  extract_lets v m
  split <;> rfl

/-- A store in a Tiller's region, where no codeword error lies in the memories. -/
theorem State.tmemPut_clean (he : s.errs = []) (a : Nat) (b : Bytes) : s.tmemPut a b = { s with tmem := s.tmem.wrN a b } :=
  State.cwStore_clean he ..

end Sys2Proof.Machine
end

section
/-! PROOFS. The register bus, from the lemmas on what each of its writes leaves. -/

namespace Sys2Proof.Machine

/-- Settles O54: a write by the row of its register and by what the port discards; status bits and SEQ by the bits that rise; a clear by
its SEQ and by what hardware sets; a strobe register by register; the stores of permissions and of Tiller regions read back. -/
theorem registerBus : Obligations.RegisterBus := by
  intro s hc goes
  refine ⟨fun who off r v hs hr ha ho hx hrow hd h68 hopen hg => ?_, fun who off v hs ho => ?_, fun f off v hs => ?_,
    fun who off v hs hr ha ho hx => ?_,
    fun off mask => ⟨fun k hk => State.rb_setStatus hc.regs off mask hk, State.seq_setStatus hc.regs off mask⟩,
    fun who off v hw hrcs h18 hs hr => ?_, fun who v hs ha h8 => ?_, fun who n k v he _ hn hk hb hs ha => ?_, fun off v ho hs ha => ?_⟩
  · refine ⟨_, (exec_registerWrite_taken hs (s.discards_dword who)).trans (State.regWrite_reached ho ha hr), ?_⟩
    rw [State.busWrite_plain (by omega) hrow hd h68 hopen hg]
    exact State.softWrite_reads hrow (not_queue_of_openWrite_none hopen) hc.regs
  · exact ⟨_, (exec_registerWrite_taken hs (s.discards_other who)).trans (s.regWrite_other who v ho), State.port_counted hc (n := 0) (by decide)⟩
  · have discarded {k n a : Nat} (hk : k < 24) (h8 : a < 8) : let m := (s.counted 0x100008 k (cnt 0x100040 n)).aer f a
        m.rb 0x100008 k = true ∧ (m.fnc f).aer.getLsbD a = true ∧
        m.count64 (cnt 0x100040 n) = (s.count64 (cnt 0x100040 n) + 1) % 2 ^ 64 ∧ ∀ j, j < 0x100008 → m.reg j = s.reg j := by
      obtain ⟨bit, count, others⟩ := State.port_counted hc (n := n) hk
      exact ⟨bit, State.aer_bit (State.counted_canon hc) f h8, count, others⟩
    refine ⟨⟨_, exec_registerWrite_discarded hs rfl, discarded (by decide) (by decide)⟩,
      fun he => ⟨_, exec_registerWrite_discarded hs (if_pos he), discarded (by decide) (by decide)⟩, fun he => ?_⟩
    rw [exec_registerWrite_taken hs (s.discards_dword _), exec_registerWrite_taken hs (s.discards_badEcrc he)]
    rfl
  · exact (exec_registerWrite_taken hs (s.discards_dword who)).trans (State.regWrite_unreached ho ha hx hr)
  · intro hits
    have go := exec_rcsClear (v := v) hrcs hs hr hw
    rw [State.rcsWrite_eq] at go
    refine ⟨fun hn hv => ?_, fun hn hv => ?_, fun hp hh => ?_⟩
    · rw [if_neg (not_not_intro (hwBits_eq_zero hn)), if_pos hv] at go
      obtain ⟨seq, bits⟩ := State.cleared_reads hc off v
      exact ⟨_, go, seq, bits, s.reg_setReg_ne _ h18.symm⟩
    · rw [if_neg (not_not_intro (hwBits_eq_zero hn)), if_neg hv] at go
      exact ⟨_, go, State.stale_reads hc hrcs h18⟩
    · rw [if_pos (hwBits_ne_zero hh), State.hwSet, if_neg (by omega)] at go
      obtain ⟨met, count, bits⟩ := State.met_reads (v := v) hc hrcs h18 (hwBits off hw.toNat)
      refine ⟨_, go, met, count, fun k hk => ⟨fun h => ?_, fun ⟨hset, hmask⟩ => ?_⟩⟩
      · rw [bits k hk, h, Bool.true_or]
      · rw [bits k hk, bitOn_hwBits off hw hk, hset, hmask, Bool.and_true, Bool.or_true]
  · obtain ⟨applied, pending, count⟩ := State.updateWrite_reads hc h8
    refine ⟨_, exec_glbUpdate hs ha v, fun k r g hg hr => ?_, pending, count⟩
    rw [applied k r g hg hr]
    simp only [updGroup_lt hg, and_true]
    split <;> rfl
  · exact ⟨_, exec_hpPermWrite hb hs ha n k v, State.permWrite_reads hc he hn hk v⟩
  · intro drained
    have go := exec_tillerRegionWrite (v := v) ho hs ha
    refine ⟨fun hd => ?_, fun hd hres => ?_, fun hd hres he => ?_⟩
    · rw [if_pos (by simpa using hd)] at go
      exact ⟨_, go, s.setBit_tmem _ _, State.rb_setBit hc _ (by decide)⟩
    · rwa [if_neg (by simpa using hd), if_pos hres] at go
    · rw [if_neg (by simpa using hd), if_neg (by simp [hres]), State.tmemPut_clean he] at go
      exact ⟨_, go, Mem.wrN_wrote hc.tmem off _, rfl⟩

end Sys2Proof.Machine
end
